-- ==== Sys2Proof/Word.lean ====
section
/-! DEFINITION. The machine's word types (R2, R3, R71). -/

namespace Sys2Proof

/-- A byte. -/
abbrev Byte := BitVec 8
/-- A 32-bit register or word. -/
abbrev Word := BitVec 32
/-- A 64-bit value, held in a register pair (R3). -/
abbrev DWord := BitVec 64

end Sys2Proof
end

