-- ==== Sys2Proof/Config.lean ====
section
/-! DEFINITION. What an implementation fixes, and the free values (no body: nothing can prove what they are). -/

namespace Sys2Proof.Config

/-- A value the spec leaves open and applies once: the n-th free word (log 8). -/
opaque freeWord : Nat → Word

/-- Which of the accesses under way is performed or returns next, where the spec gives no order (R38, R458): a place in the
list of those that may be; past its end, none comes yet. By the count of choices made (log 6). -/
opaque schedule : Nat → Nat

/-- How far ORD.FLOOR rises at a clk (R289 does not say): log 5. -/
opaque ordFloor : Nat → BitVec 48

/-- The clk of an append's round trip (R206 does not say how many): by the count of choices made (log 16). -/
opaque roundTrip : Nat → Nat

/-- Where a team's bytes lie in its context's save area, whose layout is the device's own (R158), by team: log 27. -/
opaque savePlace : Nat → Nat

/-- The sixteen-entry choice of an inconsistent 64 KiB group (R267), by page number: log 9. -/
opaque contChoice : Nat → Fin 16

/-- The numbers that the device draws for its SM2 signatures (R434, GB/T 32918.2), by the free-value counter: log 11. -/
opaque signDraw : Nat → Nat

/-- The outcome of a remote atomic that failed after reaching its peer (R420): performed or not; log 12. -/
opaque failedAtomicPerformed : Nat → Bool

/-- Whether a DST element of a failed collective holds its final value (R423); log 12. -/
opaque failedCollWritten : Nat → Nat → Bool

/-- Whether a drain's element that finds its outlier list full under OVF 2 is written, as 0x00 (R84 case 3), or is not (R362 item 4), by
engine entry: log 41. -/
opaque fullDrainWritten : Nat → Bool

/-- Entries of an L1 TLB, an L2 TLB slice and a walk-ahead TLB (R20, R21, R270). -/
def l1TlbEntries : Nat := 256
def l2TlbEntries : Nat := 4096
def walkTlbEntries : Nat := 64

/-- Lines of the L1 data cache: 256 KiB of 128-byte lines (R20). -/
def l1Lines : Nat := 2048

/-- Lines of an L2 slice: 3 MiB of 128-byte lines (R21). -/
def l2SliceLines : Nat := 24576

/-- The stepping fused into the part that the model starts from (R31): log 2. -/
def fuseStep : Nat := 1

end Sys2Proof.Config
end

