-- ==== Sys2Proof/Syntax.lean ====
section
/-! DEFINITION. The syntax: operands, and the ONE inductive of the part's steps, one constructor per row of
spec/opcode_table.json. The 309 rows that are instruction words carry the fields of their encoding (02_encoding R49,
R55); the 85 rows that are events carry what names the event (95_what_each_step_holds). Prefix words (R51) are no rows:
they belong to the issue unit. -/

namespace Sys2Proof

/-- A 6-bit v-only field (R48): v0 to v63. -/
abbrev VReg := BitVec 6
/-- A 6-bit uniform-register field (R49): g0 to g63. -/
abbrev GReg := BitVec 6

/-- A 7-bit operand field (R48): v0 to v63, or g0 to g63. -/
inductive Opnd where
  | v (n : BitVec 6)
  | g (n : BitVec 6)
deriving DecidableEq, Repr

/-- A predicate source (R176): pN, possibly negated. -/
structure PSrc where
  neg : Bool
  p : BitVec 3
deriving DecidableEq, Repr

/-- The b operand of format G (R49, R168): a uniform register, or imm10. -/
inductive GSrc where
  | reg (n : BitVec 6)
  | imm (x : BitVec 10)
deriving DecidableEq, Repr

/-! The parts of a datagram as it arrives (R410). An event of the link takes them each for itself or several together. -/

/-- The UDP destination port, and whether the UDP checksum is right. -/
structure UdpPart where
  dport : BitVec 16
  sumOk : Bool
deriving DecidableEq, Repr

/-- What says of which form the message is: CTRL, LEN and the reserved word. -/
structure FormPart where
  ctrl : BitVec 16
  len : BitVec 16
  rsvd : BitVec 32
deriving DecidableEq, Repr

/-- What a response returns: CTXGEN and TAG. -/
structure RefPart where
  ctxgen : BitVec 32
  tag : BitVec 32
deriving DecidableEq, Repr

/-- The message's place in its peer's order: SEQ and ACK. -/
structure SeqPart where
  seq : BitVec 32
  ack : BitVec 32
deriving DecidableEq, Repr

/-- What the TYPE lays out: ADDR and the payload. -/
structure BodyPart where
  addr : BitVec 64
  payload : List (BitVec 8)
deriving DecidableEq, Repr

/-- The form and what a response returns. -/
structure HeadPart extends FormPart, RefPart
deriving DecidableEq, Repr

/-- All but ADDR and the payload. -/
structure CoverPart extends UdpPart, HeadPart, SeqPart
deriving DecidableEq, Repr

/-- A datagram as it arrives: its UDP destination port, whether its UDP checksum is right, the fields of the Grieveane header, and the
bytes after it (R410). -/
structure Datagram extends CoverPart, BodyPart
deriving DecidableEq, Repr

/-- The steps of the part: one constructor per row of the opcode table. -/
inductive Instr where
  /-- BRA, R162. -/
  | bra (off : BitVec 19)
  /-- BRX, R162. -/
  | brx (a : Opnd)
  /-- CALL, R164. -/
  | call (off : BitVec 19)
  /-- CALLX, R163. -/
  | callx (off : BitVec 19)
  /-- PAUSE, R155. -/
  | pause (n : BitVec 19)
  /-- GMOV, R168. -/
  | gmov (d : GReg) (b : GSrc)
  /-- GADD, R168. -/
  | gadd (d : GReg) (a : GReg) (b : GSrc)
  /-- GSUB, R168. -/
  | gsub (d : GReg) (a : GReg) (b : GSrc)
  /-- GMUL, R168. -/
  | gmul (d : GReg) (a : GReg) (b : GSrc)
  /-- GAND, R168. -/
  | gand (d : GReg) (a : GReg) (b : GSrc)
  /-- GOR, R168. -/
  | gor (d : GReg) (a : GReg) (b : GSrc)
  /-- GXOR, R168. -/
  | gxor (d : GReg) (a : GReg) (b : GSrc)
  /-- GSHL, R168. -/
  | gshl (d : GReg) (a : GReg) (b : GSrc)
  /-- GSHR, R168. -/
  | gshr (d : GReg) (a : GReg) (b : GSrc)
  /-- GSEL, R168. -/
  | gsel (d : GReg) (a : GReg) (b : GSrc)
  /-- GCMP_S32, R168. -/
  | gcmpS32 (d : GReg) (a : GReg) (b : GSrc)
  /-- GCMP_N32, R168. -/
  | gcmpN32 (d : GReg) (a : GReg) (b : GSrc)
  /-- GLD, R169. -/
  | gld (d : GReg) (a : GReg) (imm : BitVec 10)
  /-- ADD, R170. -/
  | add (d : Opnd) (a : Opnd) (b : Opnd)
  /-- SUB, R170. -/
  | sub (d : Opnd) (a : Opnd) (b : Opnd)
  /-- MUL, R170. -/
  | mul (d : Opnd) (a : Opnd) (b : Opnd)
  /-- MULH_S32, R170. -/
  | mulhS32 (d : Opnd) (a : Opnd) (b : Opnd)
  /-- MULH_N32, R170. -/
  | mulhN32 (d : Opnd) (a : Opnd) (b : Opnd)
  /-- MAD, R170. -/
  | mad (d : Opnd) (a : Opnd) (b : Opnd)
  /-- DIV_S32, R171. -/
  | divS32 (d : Opnd) (a : Opnd) (b : Opnd)
  /-- DIV_N32, R171. -/
  | divN32 (d : Opnd) (a : Opnd) (b : Opnd)
  /-- REM_S32, R171. -/
  | remS32 (d : Opnd) (a : Opnd) (b : Opnd)
  /-- REM_N32, R171. -/
  | remN32 (d : Opnd) (a : Opnd) (b : Opnd)
  /-- MIN_S32, R170. -/
  | minS32 (d : Opnd) (a : Opnd) (b : Opnd)
  /-- MIN_N32, R170. -/
  | minN32 (d : Opnd) (a : Opnd) (b : Opnd)
  /-- MAX_S32, R170. -/
  | maxS32 (d : Opnd) (a : Opnd) (b : Opnd)
  /-- MAX_N32, R170. -/
  | maxN32 (d : Opnd) (a : Opnd) (b : Opnd)
  /-- ABS, R172. -/
  | abs (d : Opnd) (a : Opnd)
  /-- NEG, R172. -/
  | neg (d : Opnd) (a : Opnd)
  /-- AND, R170. -/
  | and (d : Opnd) (a : Opnd) (b : Opnd)
  /-- OR, R170. -/
  | or (d : Opnd) (a : Opnd) (b : Opnd)
  /-- XOR, R170. -/
  | xor (d : Opnd) (a : Opnd) (b : Opnd)
  /-- NOT, R170. -/
  | not (d : Opnd) (a : Opnd)
  /-- SHL, R170. -/
  | shl (d : Opnd) (a : Opnd) (b : Opnd)
  /-- SHR, R170. -/
  | shr (d : Opnd) (a : Opnd) (b : Opnd)
  /-- SHA, R170. -/
  | sha (d : Opnd) (a : Opnd) (b : Opnd)
  /-- ROT, R170. -/
  | rot (d : Opnd) (a : Opnd) (b : Opnd)
  /-- BFE_S32, R173. -/
  | bfeS32 (d : Opnd) (a : Opnd) (b : Opnd)
  /-- BFE_N32, R173. -/
  | bfeN32 (d : Opnd) (a : Opnd) (b : Opnd)
  /-- BFI, R173. -/
  | bfi (d : Opnd) (a : Opnd) (b : Opnd)
  /-- POPC, R170. -/
  | popc (d : Opnd) (a : Opnd)
  /-- CLZ, R170. -/
  | clz (d : Opnd) (a : Opnd)
  /-- BREV, R170. -/
  | brev (d : Opnd) (a : Opnd)
  /-- MOV, R170. -/
  | mov (d : Opnd) (a : Opnd)
  /-- SEL, R170. -/
  | sel (n : BitVec 3) (d : Opnd) (a : Opnd) (b : Opnd)
  /-- ADD_IMM, R174. -/
  | addImm (d : Opnd) (a : Opnd) (imm : BitVec 10)
  /-- MUL_IMM, R174. -/
  | mulImm (d : Opnd) (a : Opnd) (imm : BitVec 10)
  /-- AND_IMM, R174. -/
  | andImm (d : Opnd) (a : Opnd) (imm : BitVec 10)
  /-- OR_IMM, R174. -/
  | orImm (d : Opnd) (a : Opnd) (imm : BitVec 10)
  /-- XOR_IMM, R174. -/
  | xorImm (d : Opnd) (a : Opnd) (imm : BitVec 10)
  /-- SHL_IMM, R174. -/
  | shlImm (d : Opnd) (a : Opnd) (imm : BitVec 10)
  /-- SHR_IMM, R174. -/
  | shrImm (d : Opnd) (a : Opnd) (imm : BitVec 10)
  /-- MOVI, R174. -/
  | movi (d : Opnd) (imm : BitVec 10)
  /-- ADD64, R175. -/
  | add64 (d : Opnd) (a : Opnd) (b : Opnd)
  /-- SUB64, R175. -/
  | sub64 (d : Opnd) (a : Opnd) (b : Opnd)
  /-- MUL64, R175. -/
  | mul64 (d : Opnd) (a : Opnd) (b : Opnd)
  /-- LEA, R175. -/
  | lea (s : BitVec 2) (d : Opnd) (a : Opnd) (b : Opnd)
  /-- SEXT_S8, R175. -/
  | sextS8 (d : Opnd) (a : Opnd)
  /-- SEXT_S16, R175. -/
  | sextS16 (d : Opnd) (a : Opnd)
  /-- SEXT_S32, R175. -/
  | sextS32 (d : Opnd) (a : Opnd)
  /-- ZEXT_N8, R175. -/
  | zextN8 (d : Opnd) (a : Opnd)
  /-- ZEXT_N16, R175. -/
  | zextN16 (d : Opnd) (a : Opnd)
  /-- ZEXT_N32, R175. -/
  | zextN32 (d : Opnd) (a : Opnd)
  /-- ICMP_EQ, R177. -/
  | icmpEq (pd : BitVec 3) (a : Opnd) (b : Opnd)
  /-- ICMP_NE, R177. -/
  | icmpNe (pd : BitVec 3) (a : Opnd) (b : Opnd)
  /-- ICMP_LT_S32, R177. -/
  | icmpLtS32 (pd : BitVec 3) (a : Opnd) (b : Opnd)
  /-- ICMP_LE_S32, R177. -/
  | icmpLeS32 (pd : BitVec 3) (a : Opnd) (b : Opnd)
  /-- ICMP_GT_S32, R177. -/
  | icmpGtS32 (pd : BitVec 3) (a : Opnd) (b : Opnd)
  /-- ICMP_GE_S32, R177. -/
  | icmpGeS32 (pd : BitVec 3) (a : Opnd) (b : Opnd)
  /-- ICMP_LT_N32, R177. -/
  | icmpLtN32 (pd : BitVec 3) (a : Opnd) (b : Opnd)
  /-- ICMP_LE_N32, R177. -/
  | icmpLeN32 (pd : BitVec 3) (a : Opnd) (b : Opnd)
  /-- ICMP_GT_N32, R177. -/
  | icmpGtN32 (pd : BitVec 3) (a : Opnd) (b : Opnd)
  /-- ICMP_GE_N32, R177. -/
  | icmpGeN32 (pd : BitVec 3) (a : Opnd) (b : Opnd)
  /-- FCMP_EQ_F32, R177. -/
  | fcmpEqF32 (pd : BitVec 3) (a : Opnd) (b : Opnd)
  /-- FCMP_NE_F32, R177. -/
  | fcmpNeF32 (pd : BitVec 3) (a : Opnd) (b : Opnd)
  /-- FCMP_LT_F32, R177. -/
  | fcmpLtF32 (pd : BitVec 3) (a : Opnd) (b : Opnd)
  /-- FCMP_LE_F32, R177. -/
  | fcmpLeF32 (pd : BitVec 3) (a : Opnd) (b : Opnd)
  /-- FCMP_GT_F32, R177. -/
  | fcmpGtF32 (pd : BitVec 3) (a : Opnd) (b : Opnd)
  /-- FCMP_GE_F32, R177. -/
  | fcmpGeF32 (pd : BitVec 3) (a : Opnd) (b : Opnd)
  /-- FCMP_UN_F32, R177. -/
  | fcmpUnF32 (pd : BitVec 3) (a : Opnd) (b : Opnd)
  /-- FCMP_ORD_F32, R177. -/
  | fcmpOrdF32 (pd : BitVec 3) (a : Opnd) (b : Opnd)
  /-- PAND, R178. -/
  | pand (pd : BitVec 3) (pa : PSrc) (pb : PSrc)
  /-- POR, R178. -/
  | por (pd : BitVec 3) (pa : PSrc) (pb : PSrc)
  /-- PXOR, R178. -/
  | pxor (pd : BitVec 3) (pa : PSrc) (pb : PSrc)
  /-- PNOT, R178. -/
  | pnot (pd : BitVec 3) (pa : PSrc)
  /-- PMOV_PV, R179. -/
  | pmovPv (d : Opnd)
  /-- PMOV_VP, R179. -/
  | pmovVp (a : Opnd)
  /-- VOTE_ANY, R180. -/
  | voteAny (pd : BitVec 3) (pa : PSrc)
  /-- VOTE_ALL, R180. -/
  | voteAll (pd : BitVec 3) (pa : PSrc)
  /-- VOTE_BALLOT, R180. -/
  | voteBallot (d : Opnd) (pa : PSrc)
  /-- MFS, R181. -/
  | mfs (d : Opnd) (num : BitVec 10)
  /-- MTS, R181. -/
  | mts (num : BitVec 10) (a : Opnd)
  /-- CLK, R181. -/
  | clk (d : Opnd)
  /-- TRAP, R184. -/
  | trap (n : BitVec 10)
  /-- BRK, R184. -/
  | brk (n : BitVec 10)
  /-- FADD_F32, R194. -/
  | faddF32 (d : Opnd) (a : Opnd) (b : Opnd)
  /-- FADD_F16X2, R195. -/
  | faddF16x2 (d : Opnd) (a : Opnd) (b : Opnd)
  /-- FADD_BF16X2, R195. -/
  | faddBf16x2 (d : Opnd) (a : Opnd) (b : Opnd)
  /-- FSUB_F32, R194. -/
  | fsubF32 (d : Opnd) (a : Opnd) (b : Opnd)
  /-- FSUB_F16X2, R195. -/
  | fsubF16x2 (d : Opnd) (a : Opnd) (b : Opnd)
  /-- FSUB_BF16X2, R195. -/
  | fsubBf16x2 (d : Opnd) (a : Opnd) (b : Opnd)
  /-- FMUL_F32, R194. -/
  | fmulF32 (d : Opnd) (a : Opnd) (b : Opnd)
  /-- FMUL_F16X2, R195. -/
  | fmulF16x2 (d : Opnd) (a : Opnd) (b : Opnd)
  /-- FMUL_BF16X2, R195. -/
  | fmulBf16x2 (d : Opnd) (a : Opnd) (b : Opnd)
  /-- FMIN_F32, R194. -/
  | fminF32 (d : Opnd) (a : Opnd) (b : Opnd)
  /-- FMIN_F16X2, R194. -/
  | fminF16x2 (d : Opnd) (a : Opnd) (b : Opnd)
  /-- FMIN_BF16X2, R194. -/
  | fminBf16x2 (d : Opnd) (a : Opnd) (b : Opnd)
  /-- FMAX_F32, R194. -/
  | fmaxF32 (d : Opnd) (a : Opnd) (b : Opnd)
  /-- FMAX_F16X2, R194. -/
  | fmaxF16x2 (d : Opnd) (a : Opnd) (b : Opnd)
  /-- FMAX_BF16X2, R194. -/
  | fmaxBf16x2 (d : Opnd) (a : Opnd) (b : Opnd)
  /-- FABS_F32, R194. -/
  | fabsF32 (d : Opnd) (a : Opnd)
  /-- FABS_F16X2, R194. -/
  | fabsF16x2 (d : Opnd) (a : Opnd)
  /-- FABS_BF16X2, R194. -/
  | fabsBf16x2 (d : Opnd) (a : Opnd)
  /-- FNEG_F32, R194. -/
  | fnegF32 (d : Opnd) (a : Opnd)
  /-- FNEG_F16X2, R194. -/
  | fnegF16x2 (d : Opnd) (a : Opnd)
  /-- FNEG_BF16X2, R194. -/
  | fnegBf16x2 (d : Opnd) (a : Opnd)
  /-- FDIV_F32, R194. -/
  | fdivF32 (d : Opnd) (a : Opnd) (b : Opnd)
  /-- FSQRT_F32, R194. -/
  | fsqrtF32 (d : Opnd) (a : Opnd)
  /-- FRND_F32, R196. -/
  | frndF32 (d : Opnd) (a : Opnd)
  /-- FFRACT_F32, R196. -/
  | ffractF32 (d : Opnd) (a : Opnd)
  /-- FMA_F32, R197. -/
  | fmaF32 (d : VReg) (a : VReg) (b : VReg) (c : VReg)
  /-- FMS_F32, R197. -/
  | fmsF32 (d : VReg) (a : VReg) (b : VReg) (c : VReg)
  /-- FNMA_F32, R197. -/
  | fnmaF32 (d : VReg) (a : VReg) (b : VReg) (c : VReg)
  /-- FCLAMP_F32, R197. -/
  | fclampF32 (d : VReg) (a : VReg) (b : VReg) (c : VReg)
  /-- FMA_F16X2, R197. -/
  | fmaF16x2 (d : VReg) (a : VReg) (b : VReg) (c : VReg)
  /-- FMA_BF16X2, R197. -/
  | fmaBf16x2 (d : VReg) (a : VReg) (b : VReg) (c : VReg)
  /-- FMS_F16X2, R197. -/
  | fmsF16x2 (d : VReg) (a : VReg) (b : VReg) (c : VReg)
  /-- FMS_BF16X2, R197. -/
  | fmsBf16x2 (d : VReg) (a : VReg) (b : VReg) (c : VReg)
  /-- FRCP_F32, R198. -/
  | frcpF32 (d : Opnd) (a : Opnd) (sb : BitVec 3)
  /-- FRSQ_F32, R198. -/
  | frsqF32 (d : Opnd) (a : Opnd) (sb : BitVec 3)
  /-- FEXP2_F32, R198. -/
  | fexp2F32 (d : Opnd) (a : Opnd) (sb : BitVec 3)
  /-- FLOG2_F32, R198. -/
  | flog2F32 (d : Opnd) (a : Opnd) (sb : BitVec 3)
  /-- FSIN_F32, R198. -/
  | fsinF32 (d : Opnd) (a : Opnd) (sb : BitVec 3)
  /-- FCOS_F32, R198. -/
  | fcosF32 (d : Opnd) (a : Opnd) (sb : BitVec 3)
  /-- CVT_F32_S32, R201. -/
  | cvtF32S32 (d : Opnd) (a : Opnd)
  /-- CVT_F32_N32, R201. -/
  | cvtF32N32 (d : Opnd) (a : Opnd)
  /-- CVT_S32_F32, R202. -/
  | cvtS32F32 (d : Opnd) (a : Opnd)
  /-- CVT_N32_F32, R202. -/
  | cvtN32F32 (d : Opnd) (a : Opnd)
  /-- CVT_F16_F32, R201. -/
  | cvtF16F32 (d : Opnd) (a : Opnd)
  /-- CVT_F32_F16, R201. -/
  | cvtF32F16 (d : Opnd) (a : Opnd) (lane : BitVec 1)
  /-- CVT_BF16_F32, R201. -/
  | cvtBf16F32 (d : Opnd) (a : Opnd)
  /-- CVT_F32_BF16, R201. -/
  | cvtF32Bf16 (d : Opnd) (a : Opnd) (lane : BitVec 1)
  /-- CVT_F16X2_F32, R201. -/
  | cvtF16x2F32 (d : Opnd) (a : Opnd) (b : Opnd)
  /-- CVT_BF16X2_F32, R201. -/
  | cvtBf16x2F32 (d : Opnd) (a : Opnd) (b : Opnd)
  /-- CVT_F32_S64, R201. -/
  | cvtF32S64 (d : Opnd) (a : Opnd)
  /-- CVT_S64_F32, R202. -/
  | cvtS64F32 (d : Opnd) (a : Opnd)
  /-- CVTK_K8_F32, R205. -/
  | cvtkK8F32 (d : Opnd) (a : Opnd) (fs : BitVec 3) (lane : BitVec 2)
  /-- CVTK_F32_K8, R205. -/
  | cvtkF32K8 (d : Opnd) (a : Opnd) (fs : BitVec 3) (lane : BitVec 2)
  /-- QNT_K8, R205. -/
  | qntK8 (d : Opnd) (a : Opnd) (fs : BitVec 3) (lane : BitVec 2)
  /-- QNT_S8, R205. -/
  | qntS8 (d : Opnd) (a : Opnd) (fs : BitVec 3) (lane : BitVec 2)
  /-- DQNT_K8, R205. -/
  | dqntK8 (d : Opnd) (a : Opnd) (fs : BitVec 3) (lane : BitVec 2)
  /-- DQNT_S8, R205. -/
  | dqntS8 (d : Opnd) (a : Opnd) (fs : BitVec 3) (lane : BitVec 2)
  /-- PACK_B8, R203. -/
  | packB8 (d : Opnd) (a : Opnd) (b : Opnd)
  /-- PACK_B16, R203. -/
  | packB16 (d : Opnd) (a : Opnd) (b : Opnd)
  /-- UNPACK_S8, R203. -/
  | unpackS8 (d : Opnd) (a : Opnd) (lane : BitVec 2)
  /-- UNPACK_N8, R203. -/
  | unpackN8 (d : Opnd) (a : Opnd) (lane : BitVec 2)
  /-- UNPACK_S16, R203. -/
  | unpackS16 (d : Opnd) (a : Opnd) (lane : BitVec 1)
  /-- UNPACK_N16, R203. -/
  | unpackN16 (d : Opnd) (a : Opnd) (lane : BitVec 1)
  /-- XGET, R212. -/
  | xget (d : Opnd) (a : Opnd) (b : Opnd)
  /-- XSHIFT_UP, R212. -/
  | xshiftUp (d : Opnd) (a : Opnd) (b : Opnd)
  /-- XSHIFT_DN, R212. -/
  | xshiftDn (d : Opnd) (a : Opnd) (b : Opnd)
  /-- XSCAN_ADD_S32, R213. -/
  | xscanAddS32 (d : Opnd) (a : Opnd)
  /-- XSCAN_ADD_F32, R213. -/
  | xscanAddF32 (d : Opnd) (a : Opnd)
  /-- XSCAN_MIN_S32, R213. -/
  | xscanMinS32 (d : Opnd) (a : Opnd)
  /-- XSCAN_MAX_S32, R213. -/
  | xscanMaxS32 (d : Opnd) (a : Opnd)
  /-- XSCAN_MIN_F32, R213. -/
  | xscanMinF32 (d : Opnd) (a : Opnd)
  /-- XSCAN_MAX_F32, R213. -/
  | xscanMaxF32 (d : Opnd) (a : Opnd)
  /-- XRED_ADD_S32, R213. -/
  | xredAddS32 (d : Opnd) (a : Opnd)
  /-- XRED_ADD_F32, R213. -/
  | xredAddF32 (d : Opnd) (a : Opnd)
  /-- XRED_MIN_S32, R213. -/
  | xredMinS32 (d : Opnd) (a : Opnd)
  /-- XRED_MAX_S32, R213. -/
  | xredMaxS32 (d : Opnd) (a : Opnd)
  /-- XRED_MIN_F32, R213. -/
  | xredMinF32 (d : Opnd) (a : Opnd)
  /-- XRED_MAX_F32, R213. -/
  | xredMaxF32 (d : Opnd) (a : Opnd)
  /-- XMATCH, R212. -/
  | xmatch (d : Opnd) (a : Opnd)
  /-- XBCAST, R212. -/
  | xbcast (d : Opnd) (a : Opnd)
  /-- XQUAD_H, R212. -/
  | xquadH (d : Opnd) (a : Opnd)
  /-- XQUAD_V, R212. -/
  | xquadV (d : Opnd) (a : Opnd)
  /-- XQUAD_D, R212. -/
  | xquadD (d : Opnd) (a : Opnd)
  /-- TMOV_TO_REGISTER, R217. -/
  | tmovToRegister (d : Opnd) (t : BitVec 1) (rc : BitVec 1) (ge : BitVec 1) (gidx : GReg) (imm : BitVec 5)
  /-- TMOV_TO_SLICE, R218. -/
  | tmovToSlice (a : Opnd) (t : BitVec 1) (rc : BitVec 1) (ge : BitVec 1) (gidx : GReg) (imm : BitVec 5)
  /-- TTR, R219. -/
  | ttr (t : BitVec 1)
  /-- LD_S8, R305. -/
  | ldS8 (sb : BitVec 3) (d : VReg) (base : Opnd) (x : BitVec 6)
  /-- LD_N8, R305. -/
  | ldN8 (sb : BitVec 3) (d : VReg) (base : Opnd) (x : BitVec 6)
  /-- LD_S16, R305. -/
  | ldS16 (sb : BitVec 3) (d : VReg) (base : Opnd) (x : BitVec 6)
  /-- LD_N16, R305. -/
  | ldN16 (sb : BitVec 3) (d : VReg) (base : Opnd) (x : BitVec 6)
  /-- LD_B32, R305. -/
  | ldB32 (sb : BitVec 3) (d : VReg) (base : Opnd) (x : BitVec 6)
  /-- LD_B64, R305. -/
  | ldB64 (sb : BitVec 3) (d : VReg) (base : Opnd) (x : BitVec 6)
  /-- LD_B128, R305. -/
  | ldB128 (sb : BitVec 3) (d : VReg) (base : Opnd) (x : BitVec 6)
  /-- LDT_B32, R329. -/
  | ldtB32 (sb : BitVec 3) (d : VReg) (base : Opnd) (x : BitVec 6)
  /-- LDT_B64, R329. -/
  | ldtB64 (sb : BitVec 3) (d : VReg) (base : Opnd) (x : BitVec 6)
  /-- LDT_B128, R329. -/
  | ldtB128 (sb : BitVec 3) (d : VReg) (base : Opnd) (x : BitVec 6)
  /-- VMV_K8, R311. -/
  | vmvK8 (sb : BitVec 3) (d : VReg) (base : Opnd) (x : BitVec 6)
  /-- VMV_BF16, R311. -/
  | vmvBf16 (sb : BitVec 3) (d : VReg) (base : Opnd) (x : BitVec 6)
  /-- VMV_F32, R311. -/
  | vmvF32 (sb : BitVec 3) (d : VReg) (base : Opnd) (x : BitVec 6)
  /-- ST_B8, R306. -/
  | stB8 (d : Opnd) (base : Opnd) (x : BitVec 6)
  /-- ST_B16, R306. -/
  | stB16 (d : Opnd) (base : Opnd) (x : BitVec 6)
  /-- ST_B32, R306. -/
  | stB32 (d : Opnd) (base : Opnd) (x : BitVec 6)
  /-- ST_B64, R306. -/
  | stB64 (d : Opnd) (base : Opnd) (x : BitVec 6)
  /-- ST_B128, R306. -/
  | stB128 (d : Opnd) (base : Opnd) (x : BitVec 6)
  /-- STT_B32, R329. -/
  | sttB32 (d : Opnd) (base : Opnd) (x : BitVec 6)
  /-- STT_B64, R329. -/
  | sttB64 (d : Opnd) (base : Opnd) (x : BitVec 6)
  /-- STT_B128, R329. -/
  | sttB128 (d : Opnd) (base : Opnd) (x : BitVec 6)
  /-- ATOM_ADD_S32, R309. -/
  | atomAddS32 (sb : BitVec 3) (d : VReg) (data : VReg) (base : Opnd)
  /-- ATOM_ADD_F32, R309. -/
  | atomAddF32 (sb : BitVec 3) (d : VReg) (data : VReg) (base : Opnd)
  /-- ATOM_MIN_S32, R309. -/
  | atomMinS32 (sb : BitVec 3) (d : VReg) (data : VReg) (base : Opnd)
  /-- ATOM_MIN_N32, R309. -/
  | atomMinN32 (sb : BitVec 3) (d : VReg) (data : VReg) (base : Opnd)
  /-- ATOM_MAX_S32, R309. -/
  | atomMaxS32 (sb : BitVec 3) (d : VReg) (data : VReg) (base : Opnd)
  /-- ATOM_MAX_N32, R309. -/
  | atomMaxN32 (sb : BitVec 3) (d : VReg) (data : VReg) (base : Opnd)
  /-- ATOM_AND_B32, R309. -/
  | atomAndB32 (sb : BitVec 3) (d : VReg) (data : VReg) (base : Opnd)
  /-- ATOM_OR_B32, R309. -/
  | atomOrB32 (sb : BitVec 3) (d : VReg) (data : VReg) (base : Opnd)
  /-- ATOM_XOR_B32, R309. -/
  | atomXorB32 (sb : BitVec 3) (d : VReg) (data : VReg) (base : Opnd)
  /-- ATOM_EXCH_B32, R309. -/
  | atomExchB32 (sb : BitVec 3) (d : VReg) (data : VReg) (base : Opnd)
  /-- ATOM_CAS_B32, R309. -/
  | atomCasB32 (sb : BitVec 3) (d : VReg) (data : VReg) (base : Opnd)
  /-- ATOM_ADD_S64, R309. -/
  | atomAddS64 (sb : BitVec 3) (d : VReg) (data : VReg) (base : Opnd)
  /-- ATOM_EXCH_B64, R309. -/
  | atomExchB64 (sb : BitVec 3) (d : VReg) (data : VReg) (base : Opnd)
  /-- ATOM_CAS_B64, R309. -/
  | atomCasB64 (sb : BitVec 3) (d : VReg) (data : VReg) (base : Opnd)
  /-- ATOM_ADD_S32_NORET, R309. -/
  | atomAddS32Noret (data : VReg) (base : Opnd)
  /-- ATOM_ADD_F32_NORET, R309. -/
  | atomAddF32Noret (data : VReg) (base : Opnd)
  /-- ATOM_MIN_S32_NORET, R309. -/
  | atomMinS32Noret (data : VReg) (base : Opnd)
  /-- ATOM_MIN_N32_NORET, R309. -/
  | atomMinN32Noret (data : VReg) (base : Opnd)
  /-- ATOM_MAX_S32_NORET, R309. -/
  | atomMaxS32Noret (data : VReg) (base : Opnd)
  /-- ATOM_MAX_N32_NORET, R309. -/
  | atomMaxN32Noret (data : VReg) (base : Opnd)
  /-- ATOM_AND_B32_NORET, R309. -/
  | atomAndB32Noret (data : VReg) (base : Opnd)
  /-- ATOM_OR_B32_NORET, R309. -/
  | atomOrB32Noret (data : VReg) (base : Opnd)
  /-- ATOM_XOR_B32_NORET, R309. -/
  | atomXorB32Noret (data : VReg) (base : Opnd)
  /-- ATOM_ADD_S64_NORET, R309. -/
  | atomAddS64Noret (data : VReg) (base : Opnd)
  /-- ATOMT_ADD_S32, R329. -/
  | atomtAddS32 (sb : BitVec 3) (d : VReg) (data : VReg) (base : Opnd)
  /-- ATOMT_MIN_S32, R329. -/
  | atomtMinS32 (sb : BitVec 3) (d : VReg) (data : VReg) (base : Opnd)
  /-- ATOMT_MAX_S32, R329. -/
  | atomtMaxS32 (sb : BitVec 3) (d : VReg) (data : VReg) (base : Opnd)
  /-- ATOMT_EXCH_B32, R329. -/
  | atomtExchB32 (sb : BitVec 3) (d : VReg) (data : VReg) (base : Opnd)
  /-- ATOMT_CAS_B32, R329. -/
  | atomtCasB32 (sb : BitVec 3) (d : VReg) (data : VReg) (base : Opnd)
  /-- ATOMT_ADD_F32, R329. -/
  | atomtAddF32 (sb : BitVec 3) (d : VReg) (data : VReg) (base : Opnd)
  /-- WAIT, R314. -/
  | wait (m : BitVec 8)
  /-- NOP, R162. -/
  | nop
  /-- RET, R165. -/
  | ret
  /-- EXIT, R166. -/
  | exit
  /-- KILL, R166. -/
  | kill
  /-- RTI, R185. -/
  | rti
  /-- FENCE, R314. -/
  | fence
  /-- XFENCE, R314. -/
  | xfence
  /-- WCFLUSH, R315. -/
  | wcflush
  /-- MACQ, R344. -/
  | macq
  /-- MREL, R344. -/
  | mrel
  /-- RBSET, R245. -/
  | rbset (n : BitVec 4) (m : Opnd)
  /-- RBJOIN, R246. -/
  | rbjoin (n : BitVec 4) (m : Opnd)
  /-- TBAR, R247. -/
  | tbar (n : BitVec 4) (m : Opnd)
  /-- CBAR, R247. -/
  | cbar (n : BitVec 4) (m : Opnd)
  /-- GBAR, R247. -/
  | gbar (n : BitVec 4) (m : Opnd)
  /-- CVSIGN, R252. -/
  | cvsign (n : BitVec 4) (m : Opnd) (pd : BitVec 3)
  /-- RINGWAIT, R254. -/
  | ringwait (n : BitVec 4) (stage : BitVec 3) (ph : BitVec 1) (m : Opnd)
  /-- RINGPASS, R255. -/
  | ringpass (n : BitVec 4) (stage : BitVec 3) (ph : BitVec 1) (m : Opnd)
  /-- OVLOAD, R231. -/
  | ovload (ot : BitVec 4) (id : BitVec 12)
  /-- OVDROP, R232. -/
  | ovdrop (ot : BitVec 4)
  /-- OVINV, R234. -/
  | ovinv (id : BitVec 12)
  /-- OVQ, R233. -/
  | ovq (d : Opnd) (ot : BitVec 4)
  /-- TALLOC, R325. -/
  | talloc (h : BitVec 8) (a : Opnd) (level : BitVec 2)
  /-- TFREE, R326. -/
  | tfree (h : BitVec 8)
  /-- TPRES, R327. -/
  | tpres (d : Opnd) (h : BitVec 8)
  /-- CPY, R331. -/
  | cpy (h : BitVec 8) (q : Opnd) (sb : BitVec 3) (b4 : BitVec 5)
  /-- CPYG, R332. -/
  | cpyg (h : BitVec 8) (q : Opnd) (sb : BitVec 3)
  /-- CPST, R331. -/
  | cpst (h : BitVec 8) (q : Opnd) (sb : BitVec 3) (b4 : BitVec 5)
  /-- CPFILL, R333. -/
  | cpfill (h : BitVec 8) (a : Opnd) (sb : BitVec 3)
  /-- MBIND, R350. -/
  | mbind (cv : BitVec 4) (acc : BitVec 5) (h : BitVec 8) (fs : BitVec 3) (sb : BitVec 3)
  /-- MBIND_R, R350. -/
  | mbindR (cv : BitVec 4) (acc : BitVec 5) (g : GReg) (fs : BitVec 3) (sb : BitVec 3)
  /-- MSIGN_REG, R353. -/
  | msignReg (cv : BitVec 4) (v : VReg)
  /-- MSIGN_SLICE, R353. -/
  | msignSlice (cv : BitVec 4) (t : BitVec 1) (ge : BitVec 1) (gidx : GReg) (imm : BitVec 5)
  /-- MSIGN_RE_REG, R353. -/
  | msignReReg (cv : BitVec 4) (v : VReg)
  /-- MSIGN_RE_SLICE, R353. -/
  | msignReSlice (cv : BitVec 4) (t : BitVec 1) (ge : BitVec 1) (gidx : GReg) (imm : BitVec 5)
  /-- MSIGN_RE_NONE, R353. -/
  | msignReNone (cv : BitVec 4)
  /-- MZERO, R360. -/
  | mzero (acc : BitVec 5)
  /-- MMAC, R359. -/
  | mmac (acc : BitVec 5) (gA : GReg) (sb : BitVec 3)
  /-- ACCALLOC, R340. -/
  | accalloc (acc : BitVec 5) (n : BitVec 6)
  /-- ACCFREE, R340. -/
  | accfree (acc : BitVec 5) (n : BitVec 6)
  /-- MDRAIN_HANDLE, R362. -/
  | mdrainHandle (acc : BitVec 5) (h : BitVec 8) (fs : BitVec 3) (sb : BitVec 3)
  /-- MDRAIN_T_HANDLE, R362. -/
  | mdrainTHandle (acc : BitVec 5) (h : BitVec 8) (fs : BitVec 3) (sb : BitVec 3)
  /-- MDRAIN_MEMORY, R362. -/
  | mdrainMemory (acc : BitVec 5) (gQ : GReg) (fs : BitVec 3) (sb : BitVec 3)
  /-- MDRAIN_T_MEMORY, R362. -/
  | mdrainTMemory (acc : BitVec 5) (gQ : GReg) (fs : BitVec 3) (sb : BitVec 3)
  /-- ACCLD, R363. -/
  | accld (v : VReg) (acc : BitVec 5) (h : BitVec 1) (c : BitVec 2) (sb : BitVec 3)
  /-- ACCST, R363. -/
  | accst (v : VReg) (acc : BitVec 5) (h : BitVec 1) (c : BitVec 2)
  /-- BPUSH, R376. -/
  | bpush (a : VReg) (b : Opnd) (sb : BitVec 3)
  /-- BPOP, R379. -/
  | bpop (d : VReg) (a : Opnd) (b : Opnd) (sb : BitVec 3)
  /-- CONT, R377. -/
  | cont (a : VReg) (b : Opnd)
  /-- BFLUSH, R380. -/
  | bflush (b : Opnd)
  /-- BQUERY, R381. -/
  | bquery (d : Opnd) (b : Opnd) (sb : BitVec 3)
  /-- WGPUSH, R378. -/
  | wgpush (a : VReg) (b : Opnd) (sb : BitVec 3)
  /-- MESH, R388. -/
  | mesh (d : Opnd) (a : Opnd) (b : Opnd) (sb : BitVec 3)
  /-- FSEAL, R397. -/
  | fseal (d : Opnd) (sb : BitVec 3)
  /-- FWAIT, R397. -/
  | fwait (d : Opnd) (a : Opnd)
  /-- ATTR, R403. -/
  | attr (d : VReg) (a : VReg) (b : Opnd) (sb : BitVec 3)
  /-- ATTR_D, R403. -/
  | attrD (d : VReg) (a : VReg) (b : Opnd) (sb : BitVec 3)
  /-- BARY, R403. -/
  | bary (d : VReg) (a : VReg) (sb : BitVec 3)
  /-- SMP, R406. -/
  | smp (d : VReg) (a : VReg) (b : Opnd) (sb : BitVec 3)
  /-- RLD_B32, R418. -/
  | rldB32 (sb : BitVec 3) (d : VReg) (base : Opnd) (x : BitVec 6)
  /-- RLD_B64, R418. -/
  | rldB64 (sb : BitVec 3) (d : VReg) (base : Opnd) (x : BitVec 6)
  /-- RLD_B128, R418. -/
  | rldB128 (sb : BitVec 3) (d : VReg) (base : Opnd) (x : BitVec 6)
  /-- RST_B32, R418. -/
  | rstB32 (d : Opnd) (base : Opnd) (x : BitVec 6)
  /-- RST_B64, R418. -/
  | rstB64 (d : Opnd) (base : Opnd) (x : BitVec 6)
  /-- RST_B128, R418. -/
  | rstB128 (d : Opnd) (base : Opnd) (x : BitVec 6)
  /-- RATOM_ADD_S32, R419. -/
  | ratomAddS32 (sb : BitVec 3) (d : VReg) (base : Opnd) (x : BitVec 6)
  /-- RATOM_ADD_S64, R419. -/
  | ratomAddS64 (sb : BitVec 3) (d : VReg) (base : Opnd) (x : BitVec 6)
  /-- RATOM_EXCH_B64, R419. -/
  | ratomExchB64 (sb : BitVec 3) (d : VReg) (base : Opnd) (x : BitVec 6)
  /-- RATOM_CAS_B64, R419. -/
  | ratomCasB64 (sb : BitVec 3) (d : VReg) (base : Opnd) (x : BitVec 6)
  /-- COLL, R423. -/
  | coll (g : GReg) (sb : BitVec 3)
  /-- CWAIT, R424. -/
  | cwait (g : GReg) (d : Opnd)
  /-- event CLAUSE_ISSUE; R141: the reed, if free, chooses an eligible group, forms its stream and loads the clause. -/
  | clauseIssue (core : Nat) (reed : Nat)
  /-- event AGE_EXPIRY; R142: as CLAUSE_ISSUE, when a thread or group of the reed has reached the aging limit. -/
  | ageExpiry (core : Nat) (reed : Nat)
  /-- event PAUSE_END; R155. -/
  | pauseEnd (grp : Nat)
  /-- event RESULT_RETURN; R36: pending result rid returns. -/
  | resultReturn (rid : Nat)
  /-- event STORE_TIMESTAMP; R287: the oldest entry of the group's store queue is performed at its home. -/
  | storeTimestamp (grp : Nat)
  /-- event PTS_TICK; R288. -/
  | ptsTick
  /-- event TLB_REFILL; R270. -/
  | tlbRefill (core : Nat) (ctx : Nat) (vpage : Nat)
  /-- event BARRIER_RELEASE; R250: barrier n of a grid (true) or cluster (false). -/
  | barrierRelease (grid : Bool) (owner : Nat) (n : Nat)
  /-- event LEVEL_STEP; R258. -/
  | levelStep
  /-- event CTX_BIND; R98, R101: the command written to CTX.OP. -/
  | ctxBind (ctx : Nat)
  /-- event CTX_START; R98, R101: the command written to CTX.OP. -/
  | ctxStart (ctx : Nat)
  /-- event CTX_SUSPEND; R98, R101: the command written to CTX.OP. -/
  | ctxSuspend (ctx : Nat)
  /-- event CTX_RESUME; R98, R101: the command written to CTX.OP. -/
  | ctxResume (ctx : Nat)
  /-- event CTX_THAW; R98, R101: the command written to CTX.OP. -/
  | ctxThaw (ctx : Nat)
  /-- event CTX_KILL; R98, R101: the command written to CTX.OP. -/
  | ctxKill (ctx : Nat)
  /-- event CONTEXT_DRAIN_COMPLETE; R98. -/
  | contextDrainComplete (ctx : Nat)
  /-- event DOORBELL; R108. -/
  | doorbell (peer : Nat) (udp : UdpPart) (form : FormPart) (ref : RefPart) (seqs : SeqPart) (body : BodyPart)
  /-- event PACKET_PARSE; R116. -/
  | packetParse (ctx : Nat) (queue : Nat)
  /-- event PACKET_LAUNCH; R118. -/
  | packetLaunch (ctx : Nat) (queue : Nat) (idx : Nat)
  /-- event PACKET_RETIRE; R117. -/
  | packetRetire (ctx : Nat) (queue : Nat) (idx : Nat)
  /-- event QUEUE_ENABLE; R119, R120: the command written to QUEUE.OP. -/
  | queueEnable (ctx : Nat) (queue : Nat)
  /-- event QUEUE_PREEMPT; R119, R120: the command written to QUEUE.OP. -/
  | queuePreempt (ctx : Nat) (queue : Nat)
  /-- event QUEUE_RESUME; R119, R120: the command written to QUEUE.OP. -/
  | queueResume (ctx : Nat) (queue : Nat)
  /-- event QUEUE_THAW; R119, R120: the command written to QUEUE.OP. -/
  | queueThaw (ctx : Nat) (queue : Nat)
  /-- event QUEUE_RESET; R119, R120: the command written to QUEUE.OP. -/
  | queueReset (ctx : Nat) (queue : Nat)
  /-- event TEAM_PLACE; R131: the next pending cluster of the grid, or all of a cooperative grid. -/
  | teamPlace (grid : Nat)
  /-- event ARGUMENT_WINDOW_LOAD; R169. -/
  | argumentWindowLoad (team : Nat)
  /-- event TEAM_SAVE_COMPLETE; R133. -/
  | teamSaveComplete (team : Nat)
  /-- event TEAM_RESUME; R135. -/
  | teamResume (cluster : Nat)
  /-- event FORWARDED_ARRIVAL; R134. -/
  | forwardedArrival (core : Nat) (entry : Nat)
  /-- event GROUP_END; R137. -/
  | groupEnd (grp : Nat)
  /-- event GRID_RETIRE; R138. -/
  | gridRetire (grid : Nat)
  /-- event OVERLAY_FETCH_COMPLETE; R225. -/
  | overlayFetchComplete (core : Nat) (fetch : Nat)
  /-- event OVWAIT_TIMEOUT; R227. -/
  | ovwaitTimeout (core : Nat) (fetch : Nat)
  /-- event ACC_GRANT; R341. -/
  | accGrant (core : Nat)
  /-- event ACCWAIT_TIMEOUT; R342. -/
  | accwaitTimeout (core : Nat)
  /-- event MATRIX_OPERATION_COMPLETE; R357. -/
  | matrixOperationComplete (core : Nat)
  /-- event DRAIN_COMPLETE; R362. -/
  | drainComplete (core : Nat) (entry : Nat)
  /-- event COPY_COMMAND_START; R334. -/
  | copyCommandStart (core : Nat)
  /-- event COPY_LINE_WRITTEN; R321. -/
  | copyLineWritten (core : Nat) (line : Nat)
  /-- event BIN_ENABLE; R368. -/
  | binEnable (core : Nat) (bin : Nat)
  /-- event BIN_DISABLE; R383. -/
  | binDisable (core : Nat) (bin : Nat)
  /-- event RECORD_ACCEPT; R369. -/
  | recordAccept (core : Nat) (push : Nat)
  /-- event RING_REFILL; R369. -/
  | ringRefill (core : Nat) (bin : Nat)
  /-- event BTIMEOUT; R371. -/
  | btimeout (core : Nat) (bin : Nat)
  /-- event BIN_LAUNCH; R372. -/
  | binLaunch (core : Nat) (bin : Nat)
  /-- event QUAD_TEST; R393: the oldest quad in flight to the owner. -/
  | quadTest (owner : Nat)
  /-- event CLASSIFY; R399. -/
  | classify (frame : Nat) (tile : Nat)
  /-- event TILE_WRITE_OUT; R396. -/
  | tileWriteOut (frame : Nat) (tile : Nat)
  /-- event SEAL_COMPLETE; R398. -/
  | sealComplete (frame : Nat)
  /-- event WRITE; R415. -/
  | write (peer : Nat) (udp : UdpPart) (form : FormPart) (ref : RefPart) (seqs : SeqPart) (body : BodyPart)
  /-- event READ; R415. -/
  | read (peer : Nat) (udp : UdpPart) (form : FormPart) (ref : RefPart) (seqs : SeqPart) (body : BodyPart)
  /-- event READRESP; R418. -/
  | readresp (peer : Nat) (udp : UdpPart) (form : FormPart) (ref : RefPart) (seqs : SeqPart) (body : BodyPart)
  /-- event ATOMIC; R415. -/
  | atomic (peer : Nat) (udp : UdpPart) (form : FormPart) (ref : RefPart) (seq : BitVec 32) (ack : BitVec 32) (addr : BitVec 64) (payload : List (BitVec 8))
  /-- event ATOMICRESP; R419. -/
  | atomicresp (peer : Nat) (udp : UdpPart) (form : FormPart) (ref : RefPart) (seqs : SeqPart) (body : BodyPart)
  /-- event PANSWER; R276. -/
  | panswer (peer : Nat) (udp : UdpPart) (form : FormPart) (ref : RefPart) (seqs : SeqPart) (body : BodyPart)
  /-- event COLL_MESSAGE; R423. -/
  | collMessage (peer : Nat) (udp : UdpPart) (form : FormPart) (ref : RefPart) (seqs : SeqPart) (addr : BitVec 64) (payload : List (BitVec 8))
  /-- event MGMT; R411. -/
  | mgmt (peer : Nat) (udp : UdpPart) (form : FormPart) (ref : RefPart) (seqs : SeqPart) (addr : BitVec 64) (payload : List (BitVec 8))
  /-- event ACK; R412. -/
  | ack (peer : Nat) (cover : CoverPart) (body : BodyPart)
  /-- event NAK; R420. -/
  | nak (peer : Nat) (udp : UdpPart) (head : HeadPart) (seqs : SeqPart) (body : BodyPart)
  /-- event RETRANSMIT_TIMEOUT; R412. -/
  | retransmitTimeout (peer : Nat)
  /-- event PEER_OPEN; R417. -/
  | peerOpen (peer : Nat)
  /-- event PEER_CLOSE; R417. -/
  | peerClose (peer : Nat)
  /-- event PEER_THAW; R417. -/
  | peerThaw (peer : Nat)
  /-- event HANDSHAKE_DONE; R417. -/
  | handshakeDone (peer : Nat)
  /-- event PORT_UP; R417. -/
  | portUp (port : Nat)
  /-- event PORT_DOWN; R417. -/
  | portDown (port : Nat)
  /-- event INVALIDATE_ASN_RANGE; R273: OP 1 written to MMU.OP. -/
  | invalidateAsnRange
  /-- event INVALIDATE_ALL; R273: OP 2 written to MMU.OP. -/
  | invalidateAll
  /-- event ATTESTATION_REPORT; R434: OP 1 written to SEC.OP. -/
  | attestationReport
  /-- event REPORT_WRITTEN; R434. -/
  | reportWritten
  /-- event ENERGY_READ; R428: a read of ELO of accumulator b. -/
  | energyRead (b : Nat)
  /-- event POWER_ON_RESET; R431. -/
  | powerOnReset
  /-- event NETWORK_BOOT_RETRY; R431. -/
  | networkBootRetry
  /-- event BLOCK_READY; R433: block 0 zone n, 1 HBM stack n, 2 port n, 3 FRONT, 4 Sheng of core n, 5 rasteriser of core n. -/
  | blockReady (block : Nat) (n : Nat)
  /-- event THERMAL_TRIP; R429. -/
  | thermalTrip (dies : BitVec 4)
  /-- event BIAS_STEP; R426. -/
  | biasStep (zone : Nat) (up : Bool)
  /-- event TEMP_UPDATE; R426. -/
  | tempUpdate (zone : Nat) (temp : BitVec 8)
  /-- event REGISTER_WRITE; R7: a register-space address of R416 and the value written. -/
  | registerWrite (addr : Nat) (value : BitVec 32)
  /-- event INVALIDATION_COMPLETE; R273. -/
  | invalidationComplete
  /-- event ACCUMULATOR_INCREMENT; R427. -/
  | accumulatorIncrement (b : Nat) (amount : Nat)
  /-- event STANDBY_RAIL_LOSS; R430. -/
  | standbyRailLoss
  /-- event BOARD_POWER_REMOVAL; R429. -/
  | boardPowerRemoval
  /-- event NETWORK_IMAGE_FETCH; R431, R432. -/
  | networkImageFetch (image : List (BitVec 8))
  /-- event FUSED_COUNTER_RAISE; R432. -/
  | fusedCounterRaise (value : BitVec 8)
deriving DecidableEq, Repr

/-- The row is an event of the part and has no encoding of its own (95_what_each_step_holds). -/
def Instr.isEvent : Instr → Bool
  | .clauseIssue _ _ => true
  | .ageExpiry _ _ => true
  | .pauseEnd _ => true
  | .resultReturn _ => true
  | .storeTimestamp _ => true
  | .ptsTick => true
  | .tlbRefill _ _ _ => true
  | .barrierRelease _ _ _ => true
  | .levelStep => true
  | .ctxBind _ => true
  | .ctxStart _ => true
  | .ctxSuspend _ => true
  | .ctxResume _ => true
  | .ctxThaw _ => true
  | .ctxKill _ => true
  | .contextDrainComplete _ => true
  | .doorbell _ _ _ _ _ _ => true
  | .packetParse _ _ => true
  | .packetLaunch _ _ _ => true
  | .packetRetire _ _ _ => true
  | .queueEnable _ _ => true
  | .queuePreempt _ _ => true
  | .queueResume _ _ => true
  | .queueThaw _ _ => true
  | .queueReset _ _ => true
  | .teamPlace _ => true
  | .argumentWindowLoad _ => true
  | .teamSaveComplete _ => true
  | .teamResume _ => true
  | .forwardedArrival _ _ => true
  | .groupEnd _ => true
  | .gridRetire _ => true
  | .overlayFetchComplete _ _ => true
  | .ovwaitTimeout _ _ => true
  | .accGrant _ => true
  | .accwaitTimeout _ => true
  | .matrixOperationComplete _ => true
  | .drainComplete _ _ => true
  | .copyCommandStart _ => true
  | .copyLineWritten _ _ => true
  | .binEnable _ _ => true
  | .binDisable _ _ => true
  | .recordAccept _ _ => true
  | .ringRefill _ _ => true
  | .btimeout _ _ => true
  | .binLaunch _ _ => true
  | .quadTest _ => true
  | .classify _ _ => true
  | .tileWriteOut _ _ => true
  | .sealComplete _ => true
  | .write _ _ _ _ _ _ => true
  | .read _ _ _ _ _ _ => true
  | .readresp _ _ _ _ _ _ => true
  | .atomic _ _ _ _ _ _ _ _ => true
  | .atomicresp _ _ _ _ _ _ => true
  | .panswer _ _ _ _ _ _ => true
  | .collMessage _ _ _ _ _ _ _ => true
  | .mgmt _ _ _ _ _ _ _ => true
  | .ack _ _ _ => true
  | .nak _ _ _ _ _ => true
  | .retransmitTimeout _ => true
  | .peerOpen _ => true
  | .peerClose _ => true
  | .peerThaw _ => true
  | .handshakeDone _ => true
  | .portUp _ => true
  | .portDown _ => true
  | .invalidateAsnRange => true
  | .invalidateAll => true
  | .attestationReport => true
  | .reportWritten => true
  | .energyRead _ => true
  | .powerOnReset => true
  | .networkBootRetry => true
  | .blockReady _ _ => true
  | .thermalTrip _ => true
  | .biasStep _ _ => true
  | .tempUpdate _ _ => true
  | .registerWrite _ _ => true
  | .invalidationComplete => true
  | .accumulatorIncrement _ _ => true
  | .standbyRailLoss => true
  | .boardPowerRemoval => true
  | .networkImageFetch _ => true
  | .fusedCounterRaise _ => true
  | _ => false

end Sys2Proof
end

