-- ==== Sys2Proof/Machine/State.lean ====
section
/-! DEFINITION. The state: everything the spec gives the device, as plain data; Fault, Refusal, State.reset. -/

namespace Sys2Proof.Machine

/-- Sparse words by key, canonical: keys strictly rising, no entry 0 (an unlisted key reads 0). Registers (R126), bank
elements (R340), handle bytes' words, copies' code words. -/
abbrev WordMap := List (Nat × Word)

/-- Sparse bytes by key, canonical: keys strictly rising, no entry 0. -/
abbrev Mem := List Host.Cell

/-! ## Fuses -/

/-- What fuses fix (R31, R432, R434); DEV.CORES is derived from the mask. `idkey`: the secret key of the device, which no register shows. -/
structure Fuses where
  step : Nat
  reeds : Nat
  hbm : BitVec 8
  ports : BitVec 8
  coremask : BitVec 192
  l2mask : BitVec 192
  keyHash : List Byte
  idpub : List Word
  idkey : Nat
deriving DecidableEq, Repr

/-! ## Contexts and queues -/

/-- A context's state (R98). -/
inductive CtxState where
  | free | built | active | suspended | frozen | dying
deriving DecidableEq, Repr

/-- The copy of a context-table entry that the device takes at BIND (R92). -/
structure CtxEntry where
  root : Nat
  asn : Nat
  domain : Nat
  prio : Nat
  trapimg : Nat
  trapov : Nat
  trapentry : Word
  qdesc : Nat
  qcount : Nat
  qteams : Nat
  qislots : Nat
  qacc : Nat
  qpreq : Nat
  savebase : Nat
  savesize : Nat
deriving DecidableEq, Repr

/-- A format slot (R79). -/
structure FmtSlot where
  fmt : Nat
  scale : Nat
  rnd : Nat
  ovf : Nat
  resv : Nat
  cap : Nat
  olbase : Nat
  scaleref : Nat
deriving DecidableEq, Repr

/-- A handle declaration (R124). -/
structure Decl where
  h : Nat
  level : Nat
  resv : Nat
  rowb : Nat
  rows : Nat
deriving DecidableEq, Repr

/-- A launch record as read (R122). -/
structure LaunchRec where
  codebase : Nat
  ovtable : Nat
  ovcount : Nat
  entry : Word
  entryov : Nat
  prio : Nat
  flags : Nat
  regs : Nat
  teamGroups : Nat
  clw : Nat
  clh : Nat
  gx : Nat
  gy : Nat
  gz : Nat
  handles : Nat
  tdcount : Nat
  tlines : Nat
  roles : BitVec 64
  args : Nat
  tdtable : Nat
  trapimg : Nat
  trapov : Nat
  trapentry : Word
  resvZero : Bool
  fs : List FmtSlot
  decls : List Decl
deriving DecidableEq, Repr

/-- A packet of the window (R110, R116); `declsDue`: the declarations of its launch record are still to be read (R125 item
11). -/
structure Packet where
  idx : Word
  typ : Nat
  ordered : Bool
  notify : Bool
  xwait : Bool
  xq : Nat
  xtok : Nat
  xcount : Word
  waitmask : BitVec 64
  setmask : BitVec 64
  args : Nat
  tag : BitVec 64
  lrec : Option LaunchRec
  declsDue : Bool
  launched : Bool
  retired : Bool
  grid : Nat
deriving DecidableEq, Repr

/-- A queue's state (R106). -/
inductive QState where
  | off | ready | preempted | frozen
deriving DecidableEq, Repr

/-- A queue (R106, R107, R112, R116). `asked`: the clk of its latest `PREEMPT` and the clusters whose save that asked for (R121 case 4). -/
structure Queue where
  q : Nat
  ringbase : Nat
  log2n : Nat
  prio : Nat
  enable : Bool
  tokbase : Nat
  ridx : Word
  widx : Word
  st : QState
  cause : Nat
  faultidx : Word
  toks : WordMap
  win : List Packet
  asked : Option (Nat × List Nat)
deriving DecidableEq, Repr

/-- FAULT to FAULTVA of a context's entry (R92). -/
structure FaultRegs where
  w : Word
  pc : Word
  cause : Nat
  va : BitVec 64
deriving DecidableEq, Repr

/-- A context that is not FREE (R92, R98). `froze`: the clk in which it froze, and FAULT to FAULTVA before that (R100). -/
structure Ctx where
  id : Nat
  st : CtxState
  e : CtxEntry
  queues : List Queue
  reqid : Word
  fault : FaultRegs
  froze : Option (Nat × FaultRegs)
deriving DecidableEq, Repr

/-! ## Grids, clusters, teams -/

/-- A grid's state (R138). -/
inductive GridState where
  | launched | running | draining | retired
deriving DecidableEq, Repr

/-- Where a grid comes from (R117, R368). -/
inductive GridSrc where
  | packet (ctx q : Nat) (idx : Word)
  | bin (ctx lrec : Nat)
deriving DecidableEq, Repr

/-- A team, cluster or grid barrier register (R247, R248, R250); the arrivals are the waiting threads. -/
structure Bar where
  mask : Option Word
  releasing : Bool
  openedAt : Nat
deriving DecidableEq, Repr

/-- The values of the trap handler's image header that a grid holds (R183 item 1). -/
inductive TrapImg where
  | unread
  | ok (ovtable ovcount : Nat)
  | bad
deriving DecidableEq, Repr

/-- A grid (R122, R138, R259); a bin grid (R368) is one too. `nextCl`: the index of the next cluster to place; the teams of
its clusters from there on are PENDING. -/
structure Grid where
  id : Nat
  ctx : Nat
  src : GridSrc
  lr : LaunchRec
  args : Nat
  prio : Nat
  st : GridState
  order : Option Nat
  trap : TrapImg
  gb : List Bar
  nextCl : Nat
deriving DecidableEq, Repr

/-- A placed cluster's state: its teams are placed, saved and resumed together (R127, R136). -/
inductive ClState where
  | placed | saving | saved | retired
deriving DecidableEq, Repr

/-- The arguments a team gave `MMAC` with (R359); `part`: they agree with the first team's. -/
structure MmacGive where
  team : Nat
  a : Nat
  b : Nat
  k : Nat
  part : Bool
deriving DecidableEq, Repr

/-- A cluster (R127). -/
structure Cluster where
  id : Nat
  grid : Nat
  cx : Nat
  cy : Nat
  cz : Nat
  idx : Nat
  st : ClState
  origin : Nat
  placedAt : Nat
  cb : List Bar
  mmac : List MmacGive
deriving DecidableEq, Repr

/-- A team's state once placed (R138); a PENDING team is one of a cluster that its grid has still to place. -/
inductive TeamState where
  | resident | saving | saved | retired
deriving DecidableEq, Repr

/-- A tile handle (R318, R321, R335). -/
structure Handle where
  h : Nat
  rows : Nat
  rowb : Nat
  level : Nat
  absent : List Nat
  data : Mem
  cons : Nat
deriving DecidableEq, Repr

/-- What a fetch finds of an overlay, or a save records of one that the team refers to (R225, R236); `share`: the table entry's
SHARE bit (R96); `stale`: an `OVINV` has named it since (R234). -/
structure CopyKey where
  ident : Nat
  gen : Nat
  start : Nat
  slots : Nat
  image : Nat
  digest : List Byte
  share : Bool
  stale : Bool
deriving DecidableEq, Repr

/-- Who loaded a residency token (R228): group, home thread, and the address of the `OVLOAD`. -/
structure OtFrom where
  grp : Nat
  thread : Nat
  unit : Word
deriving DecidableEq, Repr

/-- A residency token (R231, R241); `copy` is the identity of the copy, or of the fetch that will make it;
`gen` and `start` are those of its binding (R221). -/
inductive OtTok where
  | free
  | loading (id copy : Nat) (by_ : OtFrom)
  | held (id copy gen start : Nat) (by_ : OtFrom)
  | failed (id : Nat)
deriving DecidableEq, Repr

/-- A ring: its bound descriptor and stage phases (R253); the clk in which each stage was last passed (R262 item 4). -/
structure Ring where
  desc : Option Word
  phase : BitVec 8
  passed : List (Nat × Nat)
deriving DecidableEq, Repr

/-- Where an operation's B operand lies (R348). -/
inductive BSrc where
  | handle (h : Nat)
  | record (va : Nat)
deriving DecidableEq, Repr

/-- The kind of a binding's signatures (R352). -/
structure SignKind where
  source : Bool
  reuse : Bool
deriving DecidableEq, Repr

/-- A bound operation (R350, R353): member mask, signatures, owner group, bank, B source, slots, K, origin, the result whose
token it counts, the kind its first signature fixed, the latch buffer taken, the rows HELD when it was bound, and its A rows (word i
of thread t at key 32 t + i). -/
structure Binding where
  mask : Word
  signed : Word
  owner : Nat
  acc : Nat
  src : BSrc
  afs : Nat
  bfs : Nat
  k : Nat
  orow : Nat
  ocol : Nat
  res : Nat
  kind : Option SignKind
  buf : Option Nat
  held : Option WordMap
  rows : WordMap
deriving DecidableEq, Repr

/-- A convergence register (R252, R364). -/
inductive Cv where
  | free
  | signing (mask signed : Word) (owner : Nat)
  | bound (b : Binding)
deriving DecidableEq, Repr

/-- A bank's MODE (R339). -/
inductive BankMode where
  | unset | float | integer
deriving DecidableEq, Repr

/-- A logical bank that a team holds (R339): element (i, j) at key 64 i + j. -/
structure Bank where
  n : Nat
  mode : BankMode
  data : WordMap
deriving DecidableEq, Repr

/-- A state of a latch buffer (R352). -/
inductive BufState where
  | free | filling | queued | held
deriving DecidableEq, Repr

/-- A latch buffer of a core (R351, R352), with the rows it holds. -/
structure LBuf where
  st : BufState
  rows : WordMap
deriving DecidableEq, Repr

/-- A word of the argument window (R169): its value, or the code a `GLD` of it raises. -/
inductive WinWord where
  | ok (w : Word)
  | bad (code : BitVec 8)
deriving DecidableEq, Repr

/-- A team (R127, R133, R137, R138). `reown`: the group that owned the engine at the save, and the rows then HELD (R345,
R352); `keys`: what the save recorded of overlays (R236); `save`: the ranges of the save area that its saves
are written to (R130, R158). -/
structure Team where
  id : Nat
  ctx : Nat
  grid : Nat
  cluster : Nat
  ri : Nat
  rj : Nat
  core : Nat
  st : TeamState
  handles : List Handle
  window : Option (List WinWord)
  ot : List OtTok
  tb : List Bar
  rings : List Ring
  cv : List Cv
  banks : List Bank
  reown : Option (Nat × Option WordMap)
  keys : List (Nat × CopyKey)
  save : List (Nat × Nat)
deriving DecidableEq, Repr

/-! ## Groups -/

/-- A group's role (R126). -/
inductive Role where
  | vector | matrix | copy
deriving DecidableEq, Repr

/-- What a waiting thread waits at (R140). -/
inductive WaitOn where
  | rb (n : Nat) | tb (n : Nat) | cb (n : Nat) | gb (n : Nat)
  | ring (n stage : Nat) (full : Bool)
deriving DecidableEq, Repr

/-- The cause and object a thread is parked on (R152). -/
inductive ParkObj where
  | page (ctx vpage : Nat)
  | overlay (ctx image id : Nat)
  | copy (id : Nat)
  | line (team h line : Nat)
  | bin (core bin : Nat)
deriving DecidableEq, Repr

/-- A recorded fault (R153, R154). -/
structure FaultRec where
  code : BitVec 8
  num : BitVec 10
  unit : Word
  va : BitVec 64
deriving DecidableEq, Repr

/-- The classify record a thread was launched with (R400). -/
structure Pixel where
  frame : Nat
  tile : Nat
  px : Nat
  py : Nat
  helper : Bool
deriving DecidableEq, Repr

/-- A thread (R158, R182, R188). `async`: the faults that have come back for it, each with its clk (R154). `parkKey`: of what it parked on, the address accessed (R276
item 3) or the identity of the overlay fetch (R228). `kept`: the fault that
came back for its unit before it entered the handler. `bad`: a decode fault of its
clause, recorded at a clk and not yet delivered (R63); `froze`: the fault that froze its context, or that it met while that
was frozen (R99, R100). -/
structure Thread where
  vpc : Word
  copy : Nat
  start : Nat
  ov : Nat × Nat
  v : WordMap
  p : BitVec 7
  ended : Bool
  helper : Bool
  wait : Option WaitOn
  park : Option ParkObj
  parkKey : Nat
  due : Option FaultRec
  kept : Option FaultRec
  bad : Option (Nat × FaultRec)
  froze : Option FaultRec
  async : List (Nat × FaultRec)
  inTrap : Bool
  trapPending : Bool
  xpc : Word
  xcode : Word
  xunit : Word
  xva : BitVec 64
  fpflags : BitVec 6
  fptraps : BitVec 2
  noBreak : Bool
  lastStreamed : Nat
  pixel : Option Pixel
deriving DecidableEq, Repr

/-- A reconvergence barrier's bound mask (R245); its arrivals are the waiting threads. -/
abbrev Rb := Option Word

/-- A return-stack entry (R164). -/
structure RetEntry where
  ret : Word
  ident : Nat
  gen : Nat
  copy : Nat
  start : Nat
  mask : Word
deriving DecidableEq, Repr

/-- What a group parked as a whole waits for (R151). -/
inductive GroupPark where
  | none | drain | acc | macq
deriving DecidableEq, Repr

/-- Where a byte-wise access is performed: device memory, or a line of a tile handle (R322). -/
inductive Loc where
  | mem (pa : Nat)
  | tile (team h off : Nat)
deriving DecidableEq, Repr

/-- The operations of atomics (R308). -/
inductive AtomOp where
  | addS32 | addF32 | minS32 | minN32 | maxS32 | maxN32 | and32 | or32 | xor32 | exch32 | cas32
  | addS64 | exch64 | cas64
deriving DecidableEq, Repr

/-- A byte gathered in a combining buffer (R297): who stored it, and the address space and the page through which. -/
structure CombByte where
  addr : Nat
  byte : Byte
  grp : Nat
  thread : Nat
  asn : Nat
  vbase : Nat
  size : Nat
deriving DecidableEq, Repr

/-- A combining-buffer line (R297). -/
structure CombLine where
  slot : Nat
  line : Nat
  bytes : List CombByte
  lastWritten : Nat
deriving DecidableEq, Repr

/-- What a store-queue entry does at its home (R290, R297, R308). -/
inductive SqOp where
  | bytes (data : List Byte)
  | atom (op : AtomOp) (operand compare : BitVec 64)
  | line (x : CombLine)
deriving DecidableEq, Repr

/-- A store-queue entry (R290). -/
structure SqEntry where
  id : Nat
  thread : Nat
  loc : Loc
  op : SqOp
deriving DecidableEq, Repr

/-- What a group is held by under R314. -/
inductive Hold where
  | fence | xfence | flush (mask : Word) | wait (mask : BitVec 8) | tfree (h : Nat) | accfree (first n : Nat) | seal (va : Nat) (count : Word)
  | word (va : Nat) (count : Word)
deriving DecidableEq, Repr

/-- A group (R139, R158). `sq`: its stores without a timestamp, oldest first; `left`: how many of them have left the store
queue, the unacknowledged-store counter (R290). -/
structure Group where
  id : Nat
  ctx : Nat
  grid : Nat
  team : Nat
  slot : Nat
  role : Role
  core : Nat
  reed : Nat
  rslot : Nat
  prio : Nat
  threads : List Thread
  g : WordMap
  sb : List Nat
  tokTs : List Nat
  sq : List SqEntry
  left : Nat
  pts : Nat
  rb : List Rb
  subs : List ParkObj
  rstack : List RetEntry
  pauseEnd : Nat
  park : GroupPark
  hold : Option Hold
  remote : Nat
  eligibleAt : Nat
  lastIssue : Nat
  fromBin : Option (Nat × Nat)
  ended : Bool
deriving DecidableEq, Repr

/-- A breakpoint register set (R238, R239). -/
structure Bp where
  addr : Word
  mask : Word
  en : Bool
  anyctx : Bool
  ctx : Nat
deriving DecidableEq, Repr

/-- A stream being issued on a reed (R142, R157): the threads still in it by home number (bit t: thread t), the unit's
address and the next unit's, the clause, the prefixes of the unit (R50), and the breakpoints as the clause's issue found them
(R240). `extra`: clk added to the unit's time (R206); `free`: the clk from which the reed can take the next unit (R144, R149); `due`: the thread after those of the unit
that meets a fault there (R153); `outcome`: the clause has ended for it, completed or not (R157). -/
structure Stream where
  core : Nat
  reed : Nat
  grp : Nat
  mask : Word
  copy : Nat
  hdr : Word
  unit : Word
  next : Word
  last : Word
  drain : Bool
  imm : Option (BitVec 24)
  neg : Bool
  pred : BitVec 3
  ce : Bool
  pol : BitVec 2
  re : Bool
  rm : BitVec 2
  sat : Bool
  bps : List Bp
  extra : Nat
  free : Nat
  due : Option (Nat × FaultRec)
  outcome : Option Bool
deriving DecidableEq, Repr

/-! ## Results in flight -/

/-- How a load's bytes become registers (R305). -/
inductive LoadExt where
  | s8 | n8 | s16 | n16 | b32 | b64 | b128
deriving DecidableEq, Repr

/-- The format of a `VMV` matrix (R310). -/
inductive VmvFmt where
  | k8 | bf16 | f32
deriving DecidableEq, Repr

/-- A result that will return to a thread (R36, R154). -/
inductive ResKind where
  | load (loc : Loc) (ext : LoadExt) (dst : Nat) (pol : Nat) (comb : Mem)
  | atom (loc : Loc) (op : AtomOp) (operand compare : BitVec 64) (dst : Nat)
  | vmv (fmt : VmvFmt) (pas : List Nat) (comb : Mem) (k n : Nat) (x : List Word) (dst : Nat)
  | words (dst : Opnd) (ws : List Word) (flags : BitVec 6)
  | sample (desc : Nat) (dst : Opnd) (coord : List Word)
  | attr (op : Nat) (rec : List Word) (sel : Word) (dst : Opnd)
  | token
  | remote (peer : Nat) (tag : Word) (ext : LoadExt) (dst : Nat) (atomic : Bool)
  | pop (core bin : Nat) (status dst : Opnd)
deriving DecidableEq, Repr

/-- A pending result: its group, thread and token, its bytes once performed (`ready`), the largest timestamp its command
admitted (R293 item 4), the fault gathered (R154 item 4), and the g registers that a later thread of its unit has written
(R146). -/
structure Pending where
  id : Nat
  grp : Nat
  thread : Nat
  sb : Option Nat
  unit : Word
  kind : ResKind
  ready : Bool
  val : List Byte
  ts : Nat
  fault : Option FaultRec
  engine : Bool
  mute : List Nat
deriving DecidableEq, Repr

/-! ## Memory system -/

/-- A translation held in a TLB (R265, R270); `cont`: of a 64 KiB page (R267). -/
structure TlbEntry where
  asn : Nat
  vbase : Nat
  size : Nat
  pbase : Nat
  typ : Nat
  r : Bool
  w : Bool
  x : Bool
  dty : Bool
  peer : Nat
  pte : Nat
  cont : Bool
deriving DecidableEq, Repr

/-- No translation. -/
def TlbEntry.nil : TlbEntry := ⟨0, 0, 0, 0, 0, false, false, false, false, 0, 0, false⟩

/-- An L1 data line under a lease (R286); the lines marked for replacement are the last of their list (R285). -/
structure L1Line where
  line : Nat
  wts : Nat
  rts : Nat
  data : Mem
deriving DecidableEq, Repr

/-- A page request outstanding (R275): whether it counts toward the quota (R97), has been sent (R414), and the engine operations
that wait for it (R278). -/
structure PageReq where
  ctx : Nat
  gen : Nat
  reqid : Word
  vpage : Nat
  kind : Nat
  counted : Bool
  sent : Bool
  engs : List Nat
deriving DecidableEq, Repr

/-! ## Core -/

/-- A binding of a context's overlay to a copy (R221), with its table entry's SHARE bit (R96). -/
structure Bind where
  ctx : Nat
  image : Nat
  id : Nat
  gen : Nat
  start : Nat
  share : Bool
  stale : Bool
deriving DecidableEq, Repr

/-- A resident copy (R220, R225): its key, slots, code words, bindings and latest entry. -/
structure Copy where
  id : Nat
  ctx : Nat
  domain : Nat
  ident : Nat
  gen : Nat
  start : Nat
  slots : Nat
  slotNos : List Nat
  digest : List Byte
  share : Bool
  words : WordMap
  binds : List Bind
  entered : Nat
deriving DecidableEq, Repr

/-- An overlay fetch under way (R225, R236): for a (context, image, identifier), or for a recorded key. `entry` is the table
entry (or key) found, once slots have been taken; `stale`: an `OVINV` came after that. Its copy will have the fetch's
identity. -/
structure Fetch where
  id : Nat
  ctx : Nat
  image : Nat
  ident : Nat
  key : Option CopyKey
  waitFrom : Option Nat
  entry : Option CopyKey
  slotNos : List Nat
  stale : Bool
deriving DecidableEq, Repr

/-- A bank request (R341): the threads of the unit, which pass it when it is granted. `queued`: in the request queue, not
kept outside for the quota. -/
structure AccReq where
  grp : Nat
  team : Nat
  first : Nat
  n : Nat
  threads : List Nat
  unit : Word
  next : Word
  since : Nat
  queued : Bool
deriving DecidableEq, Repr

/-- A piece that an engine moves through the link (R268, R334): the handle bytes, the tag or SEQ of its
message, whether its answer has come, and the bytes read. -/
structure RxPiece where
  peer : Nat
  tag : Nat
  line : Nat
  off : Nat
  len : Nat
  done : Bool
  failed : Bool
  data : List Byte
deriving DecidableEq, Repr

/-- A target of a drain (R361): a handle, with whether its lines have been made absent, or memory. -/
inductive DrainTo where
  | handle (h : Nat) (cleared : Bool)
  | memory (base pitch roworg colorg : Nat)
deriving DecidableEq, Repr

/-- What an engine-queue entry does (R347). -/
inductive EqKind where
  | op (b : Binding)
  | share (acc a b k i j : Nat)
  | mzero (acc : Nat)
  | drain (acc : Nat) (dst : DrainTo) (fs : Nat) (dst2 : Option (DrainTo × Nat))
  | accld (acc : Nat) (threads : List (Nat × Nat)) (reg h c : Nat)
  | accst (acc : Nat) (h c : Nat) (data : List (Nat × List Word))
deriving DecidableEq, Repr

/-- A tensor record as read (R330). -/
structure TensorRec where
  base : Nat
  dim : List Nat
  stride : List Nat
  box : List Nat
  rank : Nat
  fs : Nat
deriving DecidableEq, Repr

/-- A core's part in the operation of its cluster (R359), which has begun: the operation's identity; the ranks of the teams that take
part; the records of A and B once they have been read for the operation, or the fault that their reading met; and, once they have been
fetched for it, the operands' bytes with the lowest fault of their pages. -/
structure ShareOp where
  op : Nat
  ranks : List (Nat × Nat)
  recs : Option (Option (TensorRec × TensorRec) × Option (BitVec 8 × Nat))
  got : Option (Mem × Option (BitVec 8 × Nat))
deriving DecidableEq, Repr

/-- An engine-queue entry (R347): the units performed of those needed (R357), the side-path records still to add, whether
the outlier list is still to be read (R356), whether the operation has begun (R359), what a share's operation
has read, pieces asked of the link, and the result whose token it counts. -/
structure EqEntry where
  id : Nat
  grp : Nat
  team : Nat
  kind : EqKind
  units : Nat
  need : Nat
  list : List (Nat × Nat × Word)
  added : Nat
  toRead : Bool
  begun : Bool
  share : Option ShareOp
  rx : List RxPiece
  res : Nat
deriving DecidableEq, Repr

/-- A copy command's kind (R323). -/
inductive CopyOp where
  | cpy | cpyg | cpst | cpfill
deriving DecidableEq, Repr

/-- A copy command in a core's queue (R334). -/
structure CopyCmd where
  id : Nat
  op : CopyOp
  grp : Nat
  team : Nat
  h : Nat
  recVa : Nat
  q2 : Word
  q3 : Word
  b4 : Nat
  pol : Nat
  pts : Nat
  res : Nat
  cleared : Option (List Nat)
  started : Bool
  trec : Option TensorRec
  idx : List Nat
  lines : List Nat
  rx : List RxPiece
deriving DecidableEq, Repr

/-- A Sheng bin's kind (R367). -/
inductive BinKind where
  | off | material | continuation | node
deriving DecidableEq, Repr

/-- A Sheng bin's state (R383). -/
inductive BinState where
  | off | idle | holding | launching | closing | faulted
deriving DecidableEq, Repr

/-- A record held by a bin (R366): its words (none while they lie in the ring), clk of acceptance, pixel, the pusher's
timestamp. -/
structure BinRec where
  words : List Word
  at_ : Nat
  pixel : Option Pixel
  pts : Nat
deriving DecidableEq, Repr

/-- A Sheng bin (R366, R367). `lr`: its launch record as read at the write of EN; of an OFF bin, one whose declarations are still to be
read (R368). `decided`: the clk of its latest launch (R384). -/
structure Bin where
  n : Nat
  kind : BinKind
  order : Bool
  full : Bool
  en : Bool
  thresh : Nat
  rlog2 : Nat
  key : Word
  ctx : Nat
  gen : Nat
  btimeout : Nat
  lrec : Nat
  ring : Nat
  lr : Option LaunchRec
  q : List BinRec
  ringRecs : List BinRec
  head : Nat
  tail : Nat
  st : BinState
  fault : BitVec 8
  flush : Bool
  decided : Option Nat
deriving DecidableEq, Repr

/-- A pushed record on its way from a core to a bin of another or of the same (R369, R378): a local push has its bin. -/
structure Push where
  id : Nat
  origin : Nat
  core : Nat
  bin : Option Nat
  key : Word
  words : List Word
  grp : Nat
  thread : Nat
  ctx : Nat
  res : Option Nat
  pts : Nat
  at_ : Nat
deriving DecidableEq, Repr

/-- A forwarding entry of a core for a team that left it (R134): where the team is, and the remote results on their way. -/
structure Fwd where
  id : Nat
  core : Nat
  team : Nat
  toCore : Nat
  res : List Nat
deriving DecidableEq, Repr

/-- The tag of a clause buffer (R149): the code image, by context and address, the header, and the copy that the clause was
loaded from. -/
structure BufTag where
  ctx : Nat
  image : Nat
  copy : Nat
  hdr : Word
deriving DecidableEq, Repr

/-- A core's state; `bufs`: for each reed, the tags of its 8 clause buffers, latest first (R149); `recs`: the tensor records that an
`MMAC` asks of the link at its issue, each under its group (R359); `relAt`: the clk in which the engine's last owner left it to no group
(R365); `quad`: the frame and bin of the quad that classify has begun to push, and
the records of it still to come (R399). -/
structure Core where
  age : Nat
  bufs : List (Nat × List BufTag)
  copies : List Copy
  fetches : List Fetch
  ovwait : Word
  bps : List Bp
  tlb : List TlbEntry
  walkTlb : List TlbEntry
  walks : List (Nat × Nat)
  l1 : List L1Line
  comb : List CombLine
  l2lines : Nat
  cmds : List CopyCmd
  accwait : Word
  accq : List AccReq
  owner : Option Nat
  ownq : List Nat
  relAt : Option Nat
  latch : List LBuf
  eq : List EqEntry
  due : List EqEntry
  recs : List RxPiece
  level : Nat
  bins : List Bin
  quad : Option (Nat × Nat × Nat)
  launches : Word
deriving DecidableEq, Repr

/-- A zone (R260, R426). `biasFrom`, `tempFrom`: the clk from which the bias code, or the temperature, may change again. -/
structure Zone where
  limit : Nat
  rptr : Nat
  code : BitVec 5
  hold : Bool
  temp : BitVec 8
  biasFrom : Nat
  tempFrom : Nat
deriving DecidableEq, Repr

/-! ## Frames -/

/-- A frame record's values (R385). -/
structure FrameRec where
  surf : Nat
  width : Nat
  height : Nat
  ctrl : Word
  sx : Word
  sy : Word
  ox : Word
  oy : Word
  cleard : Word
  sigq : Word
  mtab : Nat
  sealword : Nat
  cltab : Nat
deriving DecidableEq, Repr

/-- A visibility tile's state (R395); FREE tiles are unlisted. -/
inductive TileState where
  | open_ | sealed | classified | shaded
deriving DecidableEq, Repr

/-- A visibility tile (R394, R395, R400); while classify is at it, the material of each pixel that is shaded, and the
records still to be pushed: the quad, the material, the pixel (R399). -/
structure Tile where
  idx : Nat
  st : TileState
  inL2 : Bool
  ids : List (BitVec 64)
  depth : List Word
  live : Nat
  mats : List (Option Word)
  todo : List (Nat × Word × Nat)
  discard : List Nat
deriving DecidableEq, Repr

/-- How far a frame has come (R386, R397, R398): open; taken by an `FSEAL` that waits for its record's page; waiting for an
earlier seal of its key; being sealed. -/
inductive FrameState where
  | open_ | unread | waiting | sealing
deriving DecidableEq, Repr

/-- A frame (R386). -/
structure Frame where
  id : Nat
  ctx : Nat
  va : Nat
  fr : FrameRec
  st : FrameState
  meshes : List Nat
  tiles : List Tile
  nextTile : Nat
  bins : List (Nat × Nat)
  res : Nat
  fault : Option FaultRec
deriving DecidableEq, Repr

/-- A quad on its way to its owner (R391 to R393). -/
structure Quad where
  owner : Nat
  frame : Nat
  qx : Nat
  qy : Nat
  mask : BitVec 4
  ident : BitVec 64
  depth : List Word
  res : Nat
deriving DecidableEq, Repr

/-! ## Link -/

/-- A Grieveane message (R410, R411), with the context's identifier and generation (`cg`) and the tag where they apply; `malformed`: an
inbound one, with whether its TYPE is the host's alone, and the window address that it names. -/
inductive Msg where
  | write (cg tag : Word) (wa : Nat) (data : List Byte)
  | read (cg tag : Word) (wa len : Nat)
  | readResp (cg tag : Word) (wa : Nat) (data : List Byte)
  | atomic (cg tag : Word) (wa op : Nat) (operand compare : BitVec 64)
  | atomicResp (cg tag : Word) (wa : Nat) (old : BitVec 64)
  | doorbell (ctxgen : Word) (queue : Nat) (w : Word)
  | preq (ctxgen reqid : Word) (va kind : Nat)
  | panswer (ctxgen reqid result : Word)
  | completion (ctxgen : Word) (queue : Nat) (idx : Word) (tag : BitVec 64)
  | coll (cg seq : Word) (rank phase : Nat) (data : List Byte)
  | mgmt (tag : Word) (addr : Nat) (w resp : Bool) (value : Word)
  | ack
  | nak (cg tag : Word) (refused cause : Nat)
  | malformed (host : Bool) (wa : Nat)
deriving DecidableEq, Repr

/-- A message sent and not yet acknowledged (R412): its SEQ, how often it has been sent again, and when it was last sent. -/
structure Sent where
  seq : Nat
  msg : Msg
  tries : Nat
  at_ : Nat
deriving DecidableEq, Repr

/-- A peer's state (R416). -/
inductive PeerState where
  | down | training | up | degraded | frozen
deriving DecidableEq, Repr

/-- A peer (R412, R414, R416): its next outbound and expected inbound SEQ, what is unacknowledged, the requests that it may
still refuse (R420), what is held, and the timestamp of its latest admitted write (R413). -/
structure Peer where
  n : Nat
  addr : List Word
  ports : BitVec 8
  host : Bool
  st : PeerState
  cause : Nat
  fwa : Nat
  txSeq : Nat
  rxSeq : Nat
  unacked : List Sent
  asked : List (Nat × Msg)
  heldMsgs : List Datagram
  ts : Nat
deriving DecidableEq, Repr

/-- A window (R415, R416). -/
structure Window where
  w : Nat
  wa0 : Nat
  en : Bool
  r : Bool
  wr : Bool
  a : Bool
  peer : Nat
  anypeer : Bool
  pa0 : Nat
  pages : Nat
deriving DecidableEq, Repr

/-- A collective under way (R422, R423): its descriptor's fields, the peers of the ranks, the descriptors and elements that
have come, how far this device has come, and the fault it has met. -/
structure Coll where
  id : Nat
  ctx : Nat
  core : Nat
  res : Nat
  va : Nat
  desc : List Byte
  peers : List Nat
  joined : Bool
  descs : List (Nat × List Byte)
  elems : List (Nat × Nat × List Byte)
  readDone : List Nat
  sent : Bool
  written : Bool
  fail : Option (BitVec 8 × Nat)
deriving DecidableEq, Repr

/-- What an acknowledgement of an outbound WRITE completes: an `RST` of a thread (R419), or a copy command's piece. -/
inductive AckFor where
  | rst (grp thread : Nat) (unit : Word)
  | copy
deriving DecidableEq, Repr

/-- An outbound WRITE that an acknowledgement completes (R412, R419). -/
structure AwaitAck where
  id : Nat
  peer : Nat
  seq : Nat
  what : AckFor
deriving DecidableEq, Repr

/-- The link block (R409, R416). -/
structure Link where
  rate : List Nat
  pstate : List Nat
  udpport : Nat
  hostpeer : Nat
  retry : Nat
  rto : Word
  peers : List Peer
  windows : List Window
  out : List (Nat × Nat × Nat × Msg)
  heldCompl : List Msg
  acks : List AwaitAck
  colls : List Coll
  early : List (Nat × Msg)
deriving DecidableEq, Repr

/-! ## Die -/

/-- An energy accumulator (R427, R428). `was`, `wasWrap`: its value and WRAP before the increments of clk `incAt`; `wrapAt`: the clk of its
latest wrap. -/
structure Energy where
  acc : Nat
  wrap : Bool
  ehi : Nat
  latWrap : Bool
  incAt : Nat
  was : Nat
  wasWrap : Bool
  wrapAt : Option Nat
deriving DecidableEq, Repr

/-- The power, boot and security blocks (R427 to R434), and what the board and flash give. `standby`: the board supplies a standby rail
(R430); `tcm`, `pc`: the body that the boot ROM copied to address 0 of tightly coupled memory, and where the firmware began (R431);
`fresh`: the blocks that came ready in the clk `freshAt` (R433); `tried`: the network attempt has failed (R431 item 6). -/
structure Die where
  standby : Bool
  powered : Bool
  tripn : Bool
  trip : BitVec 4
  energy : List Energy
  stage : Nat
  src : Nat
  fail : Nat
  zonesRdy : BitVec 12
  hbmRdy : BitVec 8
  portsRdy : BitVec 8
  front : Bool
  shengRdy : BitVec 192
  rastRdy : BitVec 192
  svn : BitVec 8
  image : List Byte
  tcm : List Byte
  pc : Nat
  fwDigest : List Byte
  flash : Option (List Byte)
  netRetries : Nat
  tried : Bool
  fresh : List (Nat × Nat)
  freshAt : Nat
  heldBells : List (Nat × Msg)
  nonce : List Word
  rptlo : Word
  rpthi : Word
  secBusy : Bool
  secResult : Nat
  secReport : List Byte
  secAddr : Nat
deriving DecidableEq, Repr

/-! ## The whole -/

/-- The CTX and QUEUE command registers (R101, R119). -/
structure CmdRegs where
  base : Nat
  gen : Nat
  busy : Bool
  result : Nat
  refusedBusy : Bool
  run : Option (Nat × Nat × Nat)
deriving DecidableEq, Repr

/-- An invalidation under way (R273): every entry, or those of an address space in a range of pages; accesses with identities
below `bound` may have used such an entry. -/
structure MmuRun where
  all : Bool
  asn : Nat
  va : Nat
  count : Nat
  bound : Nat
deriving DecidableEq, Repr

/-- The MMU and ORD registers (R273, R289). -/
structure MmuRegs where
  asn : Nat
  valo : Nat
  vahi : Nat
  count : Word
  run : Option MmuRun
  lease : Nat
  tick : Nat
deriving DecidableEq, Repr

/-- The parts of a clk, in the order in which the model takes them (log 6): the reeds choose clauses; banks are granted, and the bins
refill and launch; the reeds issue units; what is due comes about; the steps given; launches and placements. -/
inductive Phase where
  | issue | bins | units | events | given | place
deriving DecidableEq, Repr

/-- The device apart from fuses, device memory and the agenda. `phase`: the part of the clk, `todo`: what it has still to do,
`part`: the core from which on events are still to come in it (log 6). `floor`: ORD.FLOOR (R289). `l2tlb`: each translation with the L2 TLB slice that is its home
(R271). `turn`: the context and queue that launched last at each effective priority (R118). -/
structure Dev where
  clk : Nat
  floor : Nat
  phase : Phase
  todo : List Instr
  part : Nat
  focus : Nat × Nat
  freeCtr : Nat
  nextId : Nat
  nextOrder : Nat
  placePtr : Nat
  turn : List (Nat × Nat × Nat)
  nextStep : Nat
  nextTick : Nat
  gens : List (Nat × Nat)
  ctxs : List Ctx
  ctxRegs : CmdRegs
  queueRegs : CmdRegs
  mmu : MmuRegs
  grids : List Grid
  clusters : List Cluster
  teams : List Team
  groups : List Group
  streams : List Stream
  results : List Pending
  preqs : List PageReq
  engFail : List (Nat × Nat)
  ts : List (Nat × Nat × Nat)
  l2tlb : List (Nat × TlbEntry)
  refills : List (Nat × Nat × Nat)
  cores : List (Nat × Core)
  zones : List (Nat × Zone)
  pushes : List Push
  fwds : List Fwd
  frames : List Frame
  quads : List Quad
  link : Link
  die : Die
deriving DecidableEq, Repr

/-- The state of the machine. `agenda` is the model's own: the steps of the part that come next, in order (log 6). -/
structure State where
  fuse : Fuses
  mem : Mem
  agenda : List Instr
  dev : Dev
deriving DecidableEq, Repr

/-- The faults of the model. A fault of the device is a next state (trap entry R183, or freeze R98), never one of these. -/
inductive Fault where
  /-- Raised by the meaning of an instruction word when no stream is at the focus: the spec has an instruction act only
  on the threads of a stream (R142). Safe: no run meets it, since `step` executes a word only for the focused stream. -/
  | noStream
deriving DecidableEq, Repr

/-- The refusals of the model. -/
inductive Refusal where
  /-- An instruction without a meaning, rejected by name in exec. Safe. -/
  | notModelled (mnemonic : String)
deriving DecidableEq, Repr

/-! ## Reset -/

/-- The fuses of the part the model starts from: a full part (log 2). -/
def Fuses.full : Fuses :=
  { step := Config.fuseStep, reeds := 128, hbm := 0xFF#8, ports := 0xFF#8, coremask := BitVec.allOnes 192,
    l2mask := BitVec.allOnes 192, keyHash := [], idkey := 1
    idpub := [0x2CAEC432#32, 0x1981191F#32, 0x4604995F#32, 0x94C9396A#32, 0xBF0BE38F#32, 0xE10B66F2#32, 0x89455A71#32, 0xC7744C33#32,
      0xA23637BC#32, 0x9C77F6F4#32, 0xE3CEBD59#32, 0x5321696B#32, 0x7C87A9D0#32, 0x40472AC6#32, 0xE532DF02#32, 0xA0F03921#32] }

/-- A core at reset (R143, R239, R336, R343, R367). -/
def Core.reset : Core :=
  { age := 4096, bufs := [], copies := [], fetches := [], ovwait := 0x00124F80#32, bps := [], tlb := [], walkTlb := [],
    walks := [], l1 := [], comb := [], l2lines := 4096, cmds := [], accwait := 0x00124F80#32, accq := [], owner := none,
    ownq := [], relAt := none, latch := [], eq := [], due := [], recs := [], level := 0, bins := [], quad := none, launches := 0#32 }

/-- A zone at reset (R260, R426). -/
def Zone.reset : Zone := { limit := 16, rptr := 0, code := 0#5, hold := false, temp := 0#8, biasFrom := 0, tempFrom := 0 }

/-- A Sheng bin at reset (R367). -/
def Bin.reset (n : Nat) : Bin :=
  { n := n, kind := .off, order := false, full := false, en := false, thresh := 32, rlog2 := 0, key := 0#32, ctx := 0,
    gen := 0, btimeout := 4096, lrec := 0, ring := 0, lr := none, q := [], ringRecs := [], head := 0, tail := 0,
    st := .off, fault := 0#8, flush := false, decided := none }

/-- The link at reset (R416, R459): every port off, every peer DOWN. -/
def Link.reset : Link :=
  { rate := [0, 0, 0, 0, 0, 0, 0, 0], pstate := [0, 0, 0, 0, 0, 0, 0, 0], udpport := 47150, hostpeer := 0, retry := 8,
    rto := 20000#32, peers := [], windows := [], out := [], heldCompl := [], acks := [], colls := [], early := [] }

/-- The die at reset (R427, R433); the trip reason is kept by the caller (R430). -/
def Die.reset : Die :=
  { standby := true, powered := true, tripn := false, trip := 0#4, energy := List.replicate 22 ⟨0, false, 0, false, 0, 0, false, none⟩, stage := 0, src := 0,
    fail := 0, zonesRdy := 0#12, hbmRdy := 0#8, portsRdy := 0#8, front := false, shengRdy := 0#192, rastRdy := 0#192,
    svn := 0#8, image := [], tcm := [], pc := 0, fwDigest := [], flash := none, netRetries := 0, tried := false, fresh := [], freshAt := 0, heldBells := [], nonce := [], rptlo := 0#32,
    rpthi := 0#32, secBusy := false, secResult := 0, secReport := [], secAddr := 0 }

/-- The command registers at reset (R101, R119). -/
def CmdRegs.reset : CmdRegs := ⟨0, 0, false, 0, false, none⟩

/-- The MMU and ORD registers at reset (R273, R289). -/
def MmuRegs.reset : MmuRegs := ⟨0, 0, 0, 0#32, none, 64, 256⟩

/-- The device at reset. -/
def Dev.reset : Dev :=
  { clk := 0, floor := 0, phase := .given, todo := [], part := 0, focus := (0, 0), freeCtr := 0, nextId := 1, nextOrder := 0, placePtr := 0, turn := [], nextStep := 0, nextTick := 256,
    gens := [], ctxs := [], ctxRegs := .reset, queueRegs := .reset, mmu := .reset, grids := [], clusters := [], teams := [],
    groups := [], streams := [], results := [], preqs := [], engFail := [], ts := [], l2tlb := [], refills := [],
    cores := [], zones := [], pushes := [], fwds := [], frames := [], quads := [], link := .reset, die := .reset }

/-- The machine right after reset: power-on reset of a full part with no flash image (log 2), device memory unlisted. -/
def State.reset : State := { fuse := .full, mem := [], agenda := [], dev := .reset }

end Sys2Proof.Machine
end

