-- ==== Sys2Proof/Machine/Base.lean ====
section
/-! DEFINITION. Sparse maps, lists of records by identity, and the lookups and updates of the state that every other
file uses. -/

namespace Sys2Proof.Machine

/-! ## Sparse maps (canonical: keys strictly rising, no entry 0) -/

/-- The value at a key; an unlisted key holds 0 (log 1). -/
def mget {n : Nat} : List (Nat × BitVec n) → Nat → BitVec n
  | [], _ => 0#n
  | (k, x) :: r, i => if k = i then x else mget r i

/-- An entry put before the first larger key. -/
def mput {n : Nat} (i : Nat) (y : BitVec n) : List (Nat × BitVec n) → List (Nat × BitVec n)
  | [] => [(i, y)]
  | (k, x) :: r => if i < k then (i, y) :: (k, x) :: r else (k, x) :: mput i y r

/-- The map without a key. -/
def mdrop {n : Nat} (i : Nat) : List (Nat × BitVec n) → List (Nat × BitVec n)
  | [] => []
  | (k, x) :: r => if k = i then mdrop i r else (k, x) :: mdrop i r

/-- The map with one key changed, kept canonical: writing 0 removes the entry. -/
def mset {n : Nat} (m : List (Nat × BitVec n)) (i : Nat) (y : BitVec n) : List (Nat × BitVec n) :=
  if y = 0#n then mdrop i m else mput i y (mdrop i m)

/-- Every key of the map is above `b`, keys strictly rise and no entry is 0. -/
def mwfFrom {n : Nat} : Option Nat → List (Nat × BitVec n) → Bool
  | _, [] => true
  | b, (k, x) :: r => (match b with | none => true | some i => decide (i < k)) && decide (x ≠ 0#n) && mwfFrom (some k) r

/-- Device memory, or any sparse map, is in canonical form. -/
def Memory.wf {n : Nat} (m : List (Nat × BitVec n)) : Bool := mwfFrom none m

/-- `count` values from a key on. -/
def mgets {n : Nat} (m : List (Nat × BitVec n)) (i : Nat) : Nat → List (BitVec n)
  | 0 => []
  | c + 1 => mget m i :: mgets m (i + 1) c

/-- Consecutive keys from `i` set to the values listed. -/
def msets {n : Nat} (m : List (Nat × BitVec n)) (i : Nat) : List (BitVec n) → List (Nat × BitVec n)
  | [] => m
  | x :: r => msets (mset m i x) (i + 1) r

/-! ## Little-endian numbers (R3) -/

/-- The number that bytes hold, least significant first. -/
def natOfBytes : List Byte → Nat
  | [] => 0
  | b :: r => b.toNat + 256 * natOfBytes r

/-- The low `c` bytes of a number, least significant first. -/
def bytesOfNat (x : Nat) : Nat → List Byte
  | 0 => []
  | c + 1 => BitVec.ofNat 8 x :: bytesOfNat (x / 256) c

/-- Bits [hi:lo] of a number, as a number (R2). -/
def field (x hi lo : Nat) : Nat := (x >>> lo) % 2 ^ (hi + 1 - lo)

/-- A number's two's-complement value in `n` bits. -/
def signed (n x : Nat) : Int := (BitVec.ofNat n x).toInt

/-- `n` words of bytes. -/
def wordsOf : List Byte → List Word
  | a :: b :: c :: d :: r => BitVec.ofNat 32 (natOfBytes [a, b, c, d]) :: wordsOf r
  | [] => []
  | l => [BitVec.ofNat 32 (natOfBytes l)]

/-- The bytes of words. -/
def bytesOf : List Word → List Byte
  | [] => []
  | w :: r => bytesOfNat w.toNat 4 ++ bytesOf r

/-! ## Lists -/

/-- The first element with a property, replaced. -/
def updIf {α : Type} (p : α → Bool) (f : α → α) (l : List α) : List α := l.map fun a => if p a then f a else a

/-- The list with element `i` replaced (nothing where there is none). -/
def setAt {α : Type} (l : List α) (i : Nat) (a : α) : List α := l.set i a

/-- The value listed for a key. -/
def assoc {α : Type} (l : List (Nat × α)) (k : Nat) : Option α :=
  match l with
  | [] => none
  | (i, a) :: r => if i = k then some a else assoc r k

/-- The list with a key's value set, at its place or at the end. -/
def assocSet {α : Type} (l : List (Nat × α)) (k : Nat) (a : α) : List (Nat × α) :=
  match l with
  | [] => [(k, a)]
  | (i, b) :: r => if i = k then (k, a) :: r else (i, b) :: assocSet r k a

/-- The element that a strict order places first; the earliest among equals. -/
def firstBy {α : Type} (lt : α → α → Bool) : List α → Option α
  | [] => none
  | a :: r =>
    match firstBy lt r with
    | none => some a
    | some b => if lt b a then some b else some a

/-- Insertion into a list ordered by a key. -/
def insertBy {α : Type} (key : α → Nat) (a : α) : List α → List α
  | [] => [a]
  | b :: r => if key a ≤ key b then a :: b :: r else b :: insertBy key a r

/-- A list sorted by a key, stably. -/
def sortBy {α : Type} (key : α → Nat) (l : List α) : List α := l.foldr (insertBy key) []

/-- Values without repeats, in first-seen order. -/
def distinct {α : Type} [DecidableEq α] : List α → List α
  | [] => []
  | a :: r => a :: (distinct r).filter (fun b => decide (b ≠ a))

/-- Bit `i` of a word. -/
def bitAt (w : Word) (i : Nat) : Bool := w.getLsbD i

/-- The bits set in a word, ascending. -/
def bitsOf (w : Word) : List Nat := (List.range 32).filter fun i => w.getLsbD i

/-- The threads of a stream, in ascending order of home threads (R142, R144). -/
def Stream.threads (st : Stream) : List Nat := bitsOf st.mask

/-- A word with bits `l` set. -/
def maskOf (l : List Nat) : Word := l.foldl (fun m i => m ||| (1#32 <<< i)) 0#32

/-! ## Lookups and updates -/

/-- The state with its device part changed. -/
def State.onDev (s : State) (f : Dev → Dev) : State := { s with dev := f s.dev }

def State.group? (s : State) (id : Nat) : Option Group := s.dev.groups.find? (fun g => g.id == id)
def State.team? (s : State) (id : Nat) : Option Team := s.dev.teams.find? (fun t => t.id == id)
def State.cluster? (s : State) (id : Nat) : Option Cluster := s.dev.clusters.find? (fun c => c.id == id)
def State.grid? (s : State) (id : Nat) : Option Grid := s.dev.grids.find? (fun g => g.id == id)
def State.ctx? (s : State) (id : Nat) : Option Ctx := s.dev.ctxs.find? (fun c => c.id == id)
def State.pending? (s : State) (id : Nat) : Option Pending := s.dev.results.find? (fun r => r.id == id)
def State.frame? (s : State) (id : Nat) : Option Frame := s.dev.frames.find? (fun f => f.id == id)
def State.peer? (s : State) (n : Nat) : Option Peer := s.dev.link.peers.find? (fun p => p.n == n)
def Group.thread? (g : Group) (t : Nat) : Option Thread := g.threads[t]?
def Ctx.queue? (c : Ctx) (q : Nat) : Option Queue := c.queues.find? (fun x => x.q == q)
def Queue.packet? (q : Queue) (idx : Nat) : Option Packet := q.win.find? (fun p => p.idx.toNat == idx)
def Team.handle? (t : Team) (h : Nat) : Option Handle := t.handles.find? (fun x => x.h == h)

/-- A core; one that nothing has touched is at its reset state. -/
def State.core (s : State) (c : Nat) : Core := (assoc s.dev.cores c).getD Core.reset
/-- A zone; one that nothing has touched is at its reset state. -/
def State.zone (s : State) (z : Nat) : Zone := (assoc s.dev.zones z).getD Zone.reset
/-- A context's generation (R91). -/
def State.gen (s : State) (c : Nat) : Nat := (assoc s.dev.gens c).getD 0
/-- A context's state (R98). -/
def State.ctxState (s : State) (c : Nat) : CtxState := ((s.ctx? c).map (fun x => x.st)).getD .free

def State.updGroup (s : State) (id : Nat) (f : Group → Group) : State :=
  { s with dev := { s.dev with groups := updIf (fun g => g.id == id) f s.dev.groups } }
def State.updTeam (s : State) (id : Nat) (f : Team → Team) : State :=
  { s with dev := { s.dev with teams := updIf (fun t => t.id == id) f s.dev.teams } }
def State.updCluster (s : State) (id : Nat) (f : Cluster → Cluster) : State :=
  { s with dev := { s.dev with clusters := updIf (fun c => c.id == id) f s.dev.clusters } }
def State.updGrid (s : State) (id : Nat) (f : Grid → Grid) : State :=
  { s with dev := { s.dev with grids := updIf (fun g => g.id == id) f s.dev.grids } }
def State.updCtx (s : State) (id : Nat) (f : Ctx → Ctx) : State :=
  { s with dev := { s.dev with ctxs := updIf (fun c => c.id == id) f s.dev.ctxs } }
def State.updPending (s : State) (id : Nat) (f : Pending → Pending) : State :=
  { s with dev := { s.dev with results := updIf (fun r => r.id == id) f s.dev.results } }
def State.updFrame (s : State) (id : Nat) (f : Frame → Frame) : State :=
  { s with dev := { s.dev with frames := updIf (fun x => x.id == id) f s.dev.frames } }
def State.updPeer (s : State) (n : Nat) (f : Peer → Peer) : State :=
  { s with dev := { s.dev with link := { s.dev.link with peers := updIf (fun p => p.n == n) f s.dev.link.peers } } }
def State.updCore (s : State) (c : Nat) (f : Core → Core) : State :=
  { s with dev := { s.dev with cores := assocSet s.dev.cores c (f (s.core c)) } }
def State.updZone (s : State) (z : Nat) (f : Zone → Zone) : State :=
  { s with dev := { s.dev with zones := assocSet s.dev.zones z (f (s.zone z)) } }
def State.updLink (s : State) (f : Link → Link) : State := { s with dev := { s.dev with link := f s.dev.link } }
def State.updDie (s : State) (f : Die → Die) : State := { s with dev := { s.dev with die := f s.dev.die } }
def Group.updThread (g : Group) (t : Nat) (f : Thread → Thread) : Group :=
  { g with threads := g.threads.modify t f }
def State.updThread (s : State) (g t : Nat) (f : Thread → Thread) : State := s.updGroup g (fun x => x.updThread t f)
def Ctx.updQueue (c : Ctx) (q : Nat) (f : Queue → Queue) : Ctx := { c with queues := updIf (fun x => x.q == q) f c.queues }
def State.updQueue (s : State) (c q : Nat) (f : Queue → Queue) : State := s.updCtx c (fun x => x.updQueue q f)
def Queue.updPacket (q : Queue) (idx : Nat) (f : Packet → Packet) : Queue :=
  { q with win := updIf (fun p => p.idx.toNat == idx) f q.win }
def Team.updHandle (t : Team) (h : Nat) (f : Handle → Handle) : Team :=
  { t with handles := updIf (fun x => x.h == h) f t.handles }

/-- A fresh identity of the model's own bookkeeping (log 7), and the state after it. -/
def State.fresh (s : State) : Nat × State := (s.dev.nextId, s.onDev fun d => { d with nextId := d.nextId + 1 })

/-- A value the spec leaves open (log 8), and the state after it. -/
def State.freeWord (s : State) : Word × State :=
  (Config.freeWord s.dev.freeCtr, s.onDev fun d => { d with freeCtr := d.freeCtr + 1 })

/-! ## The part (R17 to R24, R31) -/

/-- Position of a core (R17). -/
def coreX (c : Nat) : Nat := c % 16
def coreY (c : Nat) : Nat := c / 16
/-- The zone of a core (R19). -/
def zoneOf (c : Nat) : Nat := coreY c / 4 * 4 + coreX c / 4
/-- Core `c` is enabled (R31). -/
def State.coreOn (s : State) (c : Nat) : Bool := decide (c < 192) && s.fuse.coremask.getLsbD c
/-- A block that came ready in this clk is not used before the next (R433): block 0 a zone, 2 a port, 3 FRONT, 4 a Sheng, 5 a rasteriser;
`n` its number. -/
def State.notFresh (s : State) (block n : Nat) : Bool := !(s.dev.die.freshAt == s.dev.clk && s.dev.die.fresh.contains (block, n))
/-- FRONT may be used (R433). -/
def State.frontReady (s : State) : Bool := s.dev.die.front && s.notFresh 3 0
/-- A zone may be used (R433). -/
def State.zoneReady (s : State) (z : Nat) : Bool := s.dev.die.zonesRdy.getLsbD z && s.notFresh 0 z
/-- A core's Sheng may be used (R433). -/
def State.shengReady (s : State) (c : Nat) : Bool := s.dev.die.shengRdy.getLsbD c && s.notFresh 4 c
/-- Enabled HBM stacks (R22). -/
def State.stacks (s : State) : Nat := ((List.range 8).filter fun n => s.fuse.hbm.getLsbD n).length
/-- Bytes of enabled device memory (R23). -/
def State.memSize (s : State) : Nat := 48 * 2 ^ 30 * s.stacks
/-- A range lies in enabled device memory (R23). -/
def State.inMem (s : State) (pa len : Nat) : Bool := decide (pa + len ≤ s.memSize)
/-- Enabled L2 slices, ascending (R24). -/
def State.slices (s : State) : List Nat := (List.range 192).filter fun n => s.fuse.l2mask.getLsbD n
/-- The home slice of a line (R24). -/
def State.homeSlice (s : State) (pa : Nat) : Option Nat :=
  let l := field pa 51 7
  let f := field l 15 0 ^^^ field l 31 16 ^^^ field l 44 32
  s.slices[f % s.slices.length]?
/-- The home of a translation (R271). -/
def State.homeTlb (s : State) (va asn : Nat) : Nat :=
  let x := field va 56 21
  let f := field x 15 0 ^^^ field x 31 16 ^^^ field x 35 32 ^^^ asn
  s.slices.getD (f % s.slices.length) 0
/-- The stack and the byte within it that hold a byte of device memory (R23). -/
def State.stackOf (s : State) (pa : Nat) : Option (Nat × Nat) :=
  let l := (List.range 8).filter fun n => s.fuse.hbm.getLsbD n
  l[pa / 256 % l.length]?.map fun n => (n, 256 * (pa / 256 / l.length) + pa % 256)

/-- The group is parked as a whole (R37, R151); a drain is over when all its counts are 0. -/
def Group.parked (g : Group) : Bool :=
  match g.park with
  | .none => false
  | .drain => !g.sb.all (· == 0)
  | _ => true

end Sys2Proof.Machine
end

