-- ==== Sys2Proof/Machine/Operands.lean ====
section
/-! DEFINITION. The operand forms (R48 to R54): registers, pairs, predicates, immediates, effective addresses. -/

namespace Sys2Proof

/-- The operand selects a uniform register. -/
def Opnd.isG : Opnd → Bool
  | .v _ => false
  | .g _ => true

end Sys2Proof

namespace Sys2Proof.Machine

/-! ## Registers -/

/-- The operand's register after it: the odd one of a pair, the rest of a quad (R48). -/
def nextOpnd : Opnd → Opnd
  | .v n => .v (n + 1#6)
  | .g n => .g (n + 1#6)

/-- The value of a 32-bit operand for a thread (R12, R161 item 1). -/
def rd (g : Group) (th : Thread) : Opnd → Word
  | .v n => mget th.v n.toNat
  | .g n => mget g.g n.toNat

/-- The value of a pair: bits [31:0] in the even register (R3). -/
def rd64 (g : Group) (th : Thread) (o : Opnd) : BitVec 64 := rd g th (nextOpnd o) ++ rd g th o

/-- The values of `n` registers from an operand on. -/
def rdN (g : Group) (th : Thread) (o : Opnd) : Nat → List Word
  | 0 => []
  | n + 1 => rd g th o :: rdN g th (nextOpnd o) n

/-- A value written to an operand's register of a thread: its own, or the group's (R146). -/
def wr (g : Group) (t : Nat) (o : Opnd) (x : Word) : Group :=
  match o with
  | .v n => g.updThread t fun th => { th with v := mset th.v n.toNat x }
  | .g n => { g with g := mset g.g n.toNat x }

/-- Values written to consecutive registers. -/
def wrN (g : Group) (t : Nat) (o : Opnd) : List Word → Group
  | [] => g
  | x :: r => wrN (wr g t o x) t (nextOpnd o) r

/-- The two words of a 64-bit value, the even register's first (R3). -/
def words64 (x : BitVec 64) : List Word := [x.extractLsb' 0 32, x.extractLsb' 32 32]

/-- A predicate's value: p7 reads true (R176). -/
def rdP (th : Thread) (p : BitVec 3) : Bool := if p = 7#3 then true else th.p.getLsbD p.toNat

/-- A predicate source after its negate bit. -/
def rdPSrc (th : Thread) (p : PSrc) : Bool := xor (rdP th p.p) p.neg

/-- A predicate written. -/
def wrP (th : Thread) (p : BitVec 3) (b : Bool) : Thread :=
  { th with p := if b then th.p ||| (1#7 <<< p.toNat) else th.p &&& ~~~(1#7 <<< p.toNat) }

/-! ## Immediates and addresses (R50, R54, R303) -/

/-- The b operand of a register-immediate or uniform instruction (R54, R174): imm10 sign-extended, or with IMM the 32-bit
value IMM[21:0] × 2^10 + imm10. -/
def immValue (imm : Option (BitVec 24)) (imm10 : BitVec 10) : Word :=
  match imm with
  | none => imm10.signExtend 32
  | some i => i.extractLsb' 0 22 ++ imm10

/-- The offset of a branch in words (R50, R54). -/
def branchOffset (imm : Option (BitVec 24)) (off : BitVec 19) : Word :=
  match imm with
  | none => off.signExtend 32
  | some i => i.extractLsb' 0 13 ++ off

/-- The effective address of format M (R50, R54, R303), modulo 2^64: `s` is the access size in bytes. -/
def addrM (g : Group) (th : Thread) (base : Opnd) (x : BitVec 6) (imm : Option (BitVec 24)) (s : Nat) : BitVec 64 :=
  match base with
  | .v n =>
    let off : BitVec 64 := match imm with
      | none => x.signExtend 64
      | some i => (i ++ x).signExtend 64
    rd64 g th (.v n) + off * BitVec.ofNat 64 s
  | .g n =>
    let disp : BitVec 64 := match imm with
      | none => 0#64
      | some i => i.signExtend 64
    rd64 g th (.g n) + (mget th.v x.toNat).signExtend 64 + disp

/-- The effective address of format N (R50, R54, R303). -/
def addrN (g : Group) (th : Thread) (base : Opnd) (imm : Option (BitVec 24)) : BitVec 64 :=
  rd64 g th base + match imm with
    | none => 0#64
    | some i => i.signExtend 64

/-- The slice index of format S and of a slice source (R50). -/
def sliceIndex (g : Group) (ge : BitVec 1) (gidx : BitVec 6) (imm : BitVec 5) : Nat :=
  if ge = 1#1 then ((mget g.g gidx.toNat).toNat + imm.toNat) % 32 else imm.toNat

end Sys2Proof.Machine
end

