-- ==== Sys2Proof/Machine/Page.lean ====
section
/-! DEFINITION. Device memory under its timestamps (R286, R287), outbound messages (R412), page tables, TLBs, page
requests (13_page, 14_order). -/

namespace Sys2Proof.Machine

/-! ## Device memory and timestamps -/

/-- `n` bytes of device memory from `pa`. -/
def State.bytesAt (s : State) (pa n : Nat) : List Byte := mgets s.mem pa n

/-- A little-endian number of `n` bytes of device memory. -/
def State.natAt (s : State) (pa n : Nat) : Nat := natOfBytes (s.bytesAt pa n)

/-- A timestamp more than 2^46 below the floor is read as the floor (R289). -/
def State.atFloor (s : State) (t : Nat) : Nat := if t + 2 ^ 46 < s.dev.floor then s.dev.floor else t

/-- The write and read timestamps of a line (R286); 0 where nothing has used it (log 3). -/
def State.lineTs (s : State) (line : Nat) : Nat × Nat :=
  let e := (assoc s.dev.ts line).getD (0, 0)
  (s.atFloor e.1, s.atFloor e.2)

/-- The lines that a range of bytes touches. -/
def linesOf (pa n : Nat) : List Nat := if n = 0 then [] else (List.range ((pa + n - 1) / 128 - pa / 128 + 1)).map (· + pa / 128)

/-- The lease length L (R289): 0 acts as 1. -/
def State.lease (s : State) : Nat := if s.dev.mmu.lease = 0 then 1 else s.dev.mmu.lease

/-- The timestamp that a store to these lines takes at program timestamp `pts` (R287). -/
def State.storeTs (s : State) (pts : Nat) (lines : List Nat) : Nat :=
  lines.foldl (fun t l => max t ((s.lineTs l).2 + 1)) pts

/-- Bytes stored at their homes (R287): memory, WTS and RTS of the lines; the timestamp taken. -/
def State.homeStore (s : State) (pts pa : Nat) (data : List Byte) : State × Nat :=
  let lines := linesOf pa data.length
  let t := s.storeTs pts lines
  ({ s with mem := msets s.mem pa data
            dev := { s.dev with ts := lines.foldl (fun m l => assocSet m l (t, t)) s.dev.ts } }, t)

/-- Bytes at consecutive addresses. -/
def cellsAt (a : Nat) (data : List Byte) : List Host.Cell := data.zipIdx.map fun (b, i) => (a + i, b)

/-- Bytes of device memory stored line by line, each line at a timestamp of its own (R287, R293 item 3); the largest taken. -/
def State.storeLines (s : State) (pts : Nat) (cells : List Host.Cell) : State × Nat :=
  (distinct (cells.map fun c => c.1 / 128)).foldl (fun (acc : State × Nat) l =>
    let t := acc.1.storeTs pts [l]
    let here := cells.filter fun c => c.1 / 128 == l
    ({ acc.1 with mem := here.foldl (fun m c => mset m c.1 c.2) acc.1.mem
                  dev := { acc.1.dev with ts := assocSet acc.1.dev.ts l (t, t) } }, max acc.2 t)) (s, pts)

/-- Bytes read at their homes (R287): a lease to `pts` + L; the program timestamp after it. -/
def State.homeLoad (s : State) (pts pa n : Nat) : State × List Byte × Nat :=
  let lines := linesOf pa n
  let p := lines.foldl (fun t l => max t (s.lineTs l).1) pts
  (s.onDev fun d => { d with ts := lines.foldl (fun m l =>
      let e := s.lineTs l
      assocSet m l (e.1, max e.2 (max e.1 (pts + s.lease)))) d.ts }, s.bytesAt pa n, p)

/-- The largest write timestamp of the device: where a group starts, so that it acquires what was written before (log 3). -/
def State.topTs (s : State) : Nat := s.dev.ts.foldl (fun m x => max m x.2.1) 0

/-- A store of the device's own, at a timestamp of its own (R293 item 3), no lower than `pts`, that of what it follows; nothing
outside enabled memory (R23). -/
def State.put (s : State) (pa : Nat) (data : List Byte) (pts : Nat := 0) : State :=
  if s.inMem pa data.length then (s.homeStore pts pa data).1 else s

/-! ## Outbound messages (R412 to R414) -/

/-- A peer that carries traffic (R417); an access to any other peer, TRAINING too, fails at once: DESIGN CHOICE (log 40). -/
def Peer.live (p : Peer) : Bool := p.st == .up || p.st == .degraded

/-- A bare acknowledgement: it takes a SEQ, but no sender waits for its acknowledgement (log 21). -/
def Msg.isAck : Msg → Bool
  | .ack => true
  | _ => false

/-- A message that is answered by more than an acknowledgement: its refusal may come after it is acknowledged (R411, R420). -/
def Msg.isAsked : Msg → Bool
  | .read .. | .atomic .. | .coll .. => true
  | _ => false

/-- A peer has sent nothing that waits to be acknowledged. -/
def Peer.idle (p : Peer) : Bool := p.unacked.all fun x => x.msg.isAck

/-- A message sent to a live peer, with its next SEQ; nothing where the peer is not live. -/
def State.send (s : State) (n : Nat) (m : Msg) : State :=
  match s.peer? n with
  | none => s
  | some p =>
    if p.live then
      (s.updPeer n fun p => { p with txSeq := (p.txSeq + 1) % 2 ^ 32, unacked := p.unacked ++ [⟨p.txSeq, m, 0, s.dev.clk⟩],
                                     asked := if m.isAsked then p.asked ++ [(p.txSeq, m)] else p.asked }).updLink
        fun l => { l with out := l.out ++ [(n, p.txSeq, p.rxSeq, m)] }
    else s

/-- A context's identifier and generation in one word (R275). -/
def State.ctxgen (s : State) (c : Nat) : Word := BitVec.ofNat 32 (c + 4096 * s.gen c)

/-- A WRITE sent, whose acknowledgement completes something (R412). -/
def State.sendWrite (s : State) (n : Nat) (cg : Word) (wa : Nat) (data : List Byte) (what : AckFor) : State :=
  match s.peer? n with
  | none => s
  | some p =>
    let (i, s) := s.fresh
    (s.send n (.write cg 0#32 wa data)).updLink fun l => { l with acks := l.acks ++ [⟨i, n, p.txSeq, what⟩] }

/-- The host peer is UP (R414). -/
def State.hostLive (s : State) : Bool :=
  match s.peer? s.dev.link.hostpeer with
  | some p => p.st == .up
  | none => false

/-! ## Page tables (R263 to R267) -/

/-- What a walk answers (R264, R266, R274). -/
inductive WalkRes where
  | leaf (e : TlbEntry)
  | violation
  | absent
  | requestable
deriving DecidableEq, Repr

/-- A next-table entry is malformed (R266 items 1, 2, 3, 6). -/
def State.badTable (s : State) (level e : Nat) : Bool :=
  level == 0 || field e 11 2 != 0 || field e 63 52 != 0 || !s.inMem (field e 51 12 * 4096) 4096

/-- Bytes that a leaf of a level maps (R264). -/
def leafSize (level : Nat) : Nat := 2 ^ (12 + 9 * level)

/-- A leaf entry is malformed (R266). -/
def State.badLeaf (s : State) (level e : Nat) : Bool :=
  decide (level ≥ 3) || field e 11 10 != 0 || field e 63 52 != 0 || (level != 0 && field e 7 7 != 0)
    || (level == 1 && field e 20 12 != 0) || (level == 2 && field e 29 12 != 0)
    || (field e 9 8 != 3 && !s.inMem (field e 51 12 * 4096) (leafSize level))

/-- The translation that a leaf gives for the page holding `va` (R265); `pa` is the entry's own address. -/
def leafEntry (asn va level e pa : Nat) : TlbEntry :=
  let sz := leafSize level
  { asn := asn, vbase := va / sz * sz, size := sz,
    pbase := if field e 9 8 = 3 then field e 43 12 * 4096 else field e 51 12 * 4096,
    typ := field e 9 8, r := field e 2 2 == 1, w := field e 3 3 == 1, x := field e 4 4 == 1, dty := field e 6 6 == 1,
    peer := field e 51 44, pte := pa, cont := level == 0 && field e 7 7 == 1 }

/-- The sixteen leaves of a contiguous group agree (R267). -/
def contOk (es : List Nat) : Bool :=
  match es with
  | [] => false
  | e0 :: _ => (es.zip (List.range 16)).all fun (e, i) =>
      field e 7 7 == 1 && field e 1 0 == 3 && (e % 2 ^ 12 ||| 0x60) == (e0 % 2 ^ 12 ||| 0x60) &&
        field e 51 16 == field e0 51 16 && field e 15 12 == i

/-- A level-0 leaf with CONT set, of a group that may not agree (R267, log 9). -/
def State.contLeaf (s : State) (asn va e pa : Nat) : TlbEntry :=
  let base := pa / 128 * 128
  let es := (List.range 16).map fun i => s.natAt (base + 8 * i) 8
  if contOk es then leafEntry asn va 0 e pa
  else
    let i := (Config.contChoice (va / 65536)).val
    let c := es.getD i e
    if field c 1 0 == 3 && !s.badLeaf 0 c then leafEntry asn va 0 c (base + 8 * i) else leafEntry asn va 0 e pa

/-- The answer of a leaf entry met at a level (R264 to R267). -/
def State.leafRes (s : State) (asn va level e pa : Nat) : WalkRes :=
  if s.badLeaf level e then .violation
  else .leaf (if level = 0 && field e 7 7 == 1 then s.contLeaf asn va e pa else leafEntry asn va level e pa)

/-- The walk from a table at a level (R264). -/
def State.walkFrom (s : State) (asn va : Nat) : Nat → Nat → WalkRes
  | 0, table =>
    let pa := table + 8 * field va 20 12
    let e := s.natAt pa 8
    if field e 0 0 = 0 then (if field e 1 1 = 1 then .requestable else .absent)
    else if field e 1 1 = 0 then .violation
    else s.leafRes asn va 0 e pa
  | l + 1, table =>
    let pa := table + 8 * field va (20 + 9 * (l + 1)) (12 + 9 * (l + 1))
    let e := s.natAt pa 8
    if field e 0 0 = 0 then (if field e 1 1 = 1 then .requestable else .absent)
    else if field e 1 1 = 0 then
      (if s.badTable (l + 1) e then .violation else s.walkFrom asn va l (field e 51 12 * 4096))
    else s.leafRes asn va (l + 1) e pa

/-- The walk of an address of a context (R94, R264). -/
def State.walk (s : State) (ctx va : Nat) : WalkRes :=
  match s.ctx? ctx with
  | none => .violation
  | some c => s.walkFrom c.e.asn va 4 c.e.root

/-- Bits of a page-table entry ORed in (R269): nothing where the leaf has changed to V = 0. -/
def State.orPte (s : State) (pa bit : Nat) : State :=
  let e := s.natAt pa 8
  if field e 0 0 = 0 || field e bit bit == 1 then s else s.put pa (bytesOfNat (e + 2 ^ bit) 8)

/-! ## TLBs (R270) -/

/-- A TLB entry serves an address of an address space. -/
def TlbEntry.covers (e : TlbEntry) (asn va : Nat) : Bool :=
  e.asn == asn && decide (e.vbase ≤ va) && decide (va < e.vbase + e.size)

/-- The first address and the size of the page that an entry belongs to (R267). -/
def TlbEntry.page (e : TlbEntry) : Nat × Nat := if e.cont then (e.vbase / 65536 * 65536, 65536) else (e.vbase, e.size)

/-- The physical (or, for X, window) address that an entry gives. -/
def TlbEntry.pa (e : TlbEntry) (va : Nat) : Nat := e.pbase + (va - e.vbase)

/-- An entry installed at the head; the oldest beyond the size leave (log 4). -/
def tlbPut (cap : Nat) (e : TlbEntry) (l : List TlbEntry) : List TlbEntry :=
  (e :: l.filter (fun x => !(x.asn == e.asn && x.vbase == e.vbase && x.size == e.size))).take cap

/-- The first `n` of the elements chosen, and every other. -/
def keepFirst {α : Type} (p : α → Bool) : Nat → List α → List α
  | _, [] => []
  | n, x :: r =>
    if p x then
      match n with
      | 0 => keepFirst p 0 r
      | n + 1 => x :: keepFirst p n r
    else x :: keepFirst p n r

/-- An entry installed in its slice of the L2 TLB; the slice's oldest beyond its size leave (R270, log 4). -/
def slicePut (cap home : Nat) (e : TlbEntry) (l : List (Nat × TlbEntry)) : List (Nat × TlbEntry) :=
  (home, e) :: keepFirst (fun x => x.1 == home) (cap - 1)
    (l.filter fun x => !(x.1 == home && x.2.asn == e.asn && x.2.vbase == e.vbase && x.2.size == e.size))

/-- The address-space number of a context (R94). -/
def State.asnOf (s : State) (ctx : Nat) : Nat := ((s.ctx? ctx).map (fun c => c.e.asn)).getD 0

/-- What an access needs of a leaf (R268): the types it may reach and its permission bits. -/
structure Access where
  types : List Nat
  r : Bool
  w : Bool
  x : Bool
deriving DecidableEq, Repr

def Access.load : Access := ⟨[0, 1], true, false, false⟩
def Access.store : Access := ⟨[0, 1], false, true, false⟩
def Access.atomic : Access := ⟨[0], true, true, false⟩
def Access.rld : Access := ⟨[3], true, false, false⟩
def Access.rst : Access := ⟨[3], false, true, false⟩
def Access.ratom : Access := ⟨[3], true, true, false⟩
def Access.copyRead : Access := ⟨[0, 1, 2, 3], true, false, false⟩
def Access.copyWrite : Access := ⟨[0, 1, 2, 3], false, true, false⟩
def Access.unitRead : Access := ⟨[0, 1, 2], true, false, false⟩
def Access.unitWrite : Access := ⟨[0, 1, 2], false, true, false⟩
def Access.table : Access := ⟨[0], true, false, false⟩
def Access.code : Access := ⟨[0], false, false, true⟩
def Access.list : Access := ⟨[0], true, true, false⟩

/-- The leaf permits the access (R268). -/
def Access.ok (a : Access) (e : TlbEntry) : Bool :=
  a.types.contains e.typ && (!a.r || e.r) && (!a.w || e.w) && (!a.x || e.x)

/-- The KIND of a page request for an access (R275): read, write, code; bit 3 for an engine. -/
def Access.kind (a : Access) (engine : Bool) : Nat :=
  (if a.r then 1 else 0) + (if a.w then 2 else 0) + (if a.x then 4 else 0) + (if engine then 8 else 0)

/-! ## Invalidation (R273) -/

/-- A page of an address space, by its first address and size, is named, or overlaps one that is. -/
def MmuRun.namesPage (r : MmuRun) (asn base size : Nat) : Bool :=
  r.all || (asn == r.asn && (r.count == 0 || (decide (base < r.va + 4096 * r.count) && decide (r.va < base + size))))

/-- An entry translates a named page, as one of a 64 KiB page where it is (R267). -/
def MmuRun.names (r : MmuRun) (e : TlbEntry) : Bool := r.namesPage e.asn e.page.1 e.page.2

/-- A TLB may take a translation: no command that runs names it, so that what a command has removed stays out until it completes
(R273; log 4). -/
def State.mayHold (s : State) (e : TlbEntry) : Bool := s.dev.mmu.run.all fun r => !r.names e

/-- A translation at its home slice: held there, or walked and installed with A set (R269 to R271). -/
def State.walkInstall (s : State) (ctx va : Nat) : State × WalkRes :=
  let asn := s.asnOf ctx
  let home := s.homeTlb va asn
  match s.dev.l2tlb.find? (fun x => x.1 == home && x.2.covers asn va) with
  | some x => (s, .leaf x.2)
  | none =>
    match s.walk ctx va with
    | .leaf e =>
      let s := s.orPte e.pte 5
      (if s.mayHold e then s.onDev fun d => { d with l2tlb := slicePut Config.l2TlbEntries home e d.l2tlb } else s, .leaf e)
    | r => (s, r)

/-- DTY set before the first write that uses an entry (R269): the entry, marked; `none` where the leaf has changed to
V = 0, so that the access walks again. -/
def State.dirty (s : State) (core : Nat) (e : TlbEntry) : Option State :=
  if e.dty then some s
  else if field (s.natAt e.pte 8) 0 0 = 0 then none
  else
    let mark := fun (x : TlbEntry) => if x.pte == e.pte then { x with dty := true } else x
    some ((((s.orPte e.pte 6).updCore core fun c => { c with tlb := c.tlb.map mark, walkTlb := c.walkTlb.map mark })).onDev
      fun d => { d with l2tlb := d.l2tlb.map fun x => (x.1, mark x.2) })

/-- An entry whose leaf was found changed to V = 0 leaves the TLBs through which it was used, so that the access walks again
(R269, R270). -/
def State.forget (s : State) (core : Nat) (e : TlbEntry) : State :=
  let other := fun (x : TlbEntry) => x.pte != e.pte
  (s.updCore core fun c => { c with tlb := c.tlb.filter other, walkTlb := c.walkTlb.filter other }).onDev
    fun d => { d with l2tlb := d.l2tlb.filter fun x => other x.2 }

/-! ## Page requests (R275, R276) -/

/-- The words TEAMS and PREQS of a context's table entry, written as they change (R92). -/
def State.writeCount (s : State) (ctx off n : Nat) : State :=
  s.put (s.dev.ctxRegs.base + 256 * ctx + off) (bytesOfNat n 4)

/-- Page requests of a context that count toward its quota (R97 item 4, R275). -/
def State.preqCount (s : State) (ctx : Nat) : Nat := (s.dev.preqs.filter (fun r => r.ctx == ctx && r.counted)).length

/-- A request changed. -/
def State.updPreq (s : State) (ctx vpage : Nat) (f : PageReq → PageReq) : State :=
  s.onDev fun d => { d with preqs := updIf (fun x => x.ctx == ctx && x.vpage == vpage) f d.preqs }

/-- The request counts once the quota has room for it, with PREQS written (R92, R97 item 4, R275); one that is held does not: DESIGN CHOICE
(log 43). -/
def State.countPreq (s : State) (r : PageReq) : State :=
  match s.ctx? r.ctx with
  | none => s
  | some c =>
    if !r.counted && (c.e.qpreq = 0 || s.preqCount r.ctx < c.e.qpreq) then
      let s := s.updPreq r.ctx r.vpage fun x => { x with counted := true }
      s.writeCount r.ctx 0x5C (s.preqCount r.ctx)
    else s

/-- Requests that the quota permits are counted, and sent while the host peer is UP, oldest first (R97 item 4, R275, R414). -/
def State.sendPreqs (s : State) : State :=
  let s := s.dev.preqs.foldl State.countPreq s
  if !s.hostLive then s
  else (s.dev.preqs.filter fun r => r.counted && !r.sent).foldl (fun s r =>
    (s.updPreq r.ctx r.vpage fun x => { x with sent := true }).send s.dev.link.hostpeer
      (.preq (BitVec.ofNat 32 (r.ctx + 4096 * r.gen)) r.reqid (r.vpage * 4096) r.kind)) s

/-- A page requested (R275): one request per context and 4 KiB page; later accesses join it. A dying context requests nothing: what it
requested has been released (R98). -/
def State.requestPage (s : State) (ctx vpage kind : Nat) (eng : Option Nat) : State :=
  let join := fun (l : List Nat) => match eng with
    | some i => if l.contains i then l else l ++ [i]
    | none => l
  if s.dev.preqs.any (fun r => r.ctx == ctx && r.vpage == vpage) then
    s.updPreq ctx vpage fun r => { r with engs := join r.engs }
  else
    match s.ctx? ctx with
    | none => s
    | some c =>
      if c.st == .dying then s
      else ((s.updCtx ctx fun c => { c with reqid := c.reqid + 1#32 }).onDev fun d =>
        { d with preqs := d.preqs ++ [⟨ctx, s.gen ctx, c.reqid, vpage, kind, false, false, join []⟩] }).sendPreqs

/-- A request for a page is outstanding. -/
def State.requested (s : State) (ctx vpage : Nat) : Bool := s.dev.preqs.any (fun r => r.ctx == ctx && r.vpage == vpage)

/-! ## Accesses of threads (R304, R150, R274) and of engines (R278) -/

/-- How a translation of a thread's access comes out. -/
inductive Trans where
  | hit (e : TlbEntry)
  | miss
  | fault (code : BitVec 8)
  | park (vpage : Nat)
deriving DecidableEq, Repr

/-- The translation of a thread's access through the core's L1 TLB. A miss that a walk has already answered without a
leaf walks again and takes that answer (R270, R274). -/
def State.translate (s : State) (core ctx va : Nat) : Trans :=
  let c := s.core core
  match c.tlb.find? (fun e => e.covers (s.asnOf ctx) va) with
  | some e => .hit e
  | none =>
    if s.requested ctx (va / 4096) then .park (va / 4096)
    else if c.walks.contains (ctx, va / 4096) then
      match s.walk ctx va with
      | .leaf _ => .miss
      | .violation => .fault 0x11#8
      | .absent => .fault 0x10#8
      | .requestable => .park (va / 4096)
    else .miss

/-- A translation asked of the home slice after a miss (R270). -/
def State.askTlb (s : State) (core ctx va : Nat) : State :=
  if s.dev.refills.contains (core, ctx, va / 4096) then s
  else s.onDev fun d => { d with refills := d.refills ++ [(core, ctx, va / 4096)] }

/-- A walk's answer without a leaf is used once. -/
def State.useWalk (s : State) (core ctx va : Nat) : State :=
  if (s.core core).walks.contains (ctx, va / 4096) then
    s.updCore core fun c => { c with walks := c.walks.filter (· ≠ (ctx, va / 4096)) }
  else s

/-- How an engine's access comes out: its entry, a fault at an address, or a wait for the page of an address (R278). -/
inductive EngRes where
  | ok (e : TlbEntry)
  | fault (code : BitVec 8) (va : Nat)
  | wait (va : Nat)
deriving DecidableEq, Repr

/-- An engine's access joins the request of its page, or makes it (R275, R278); `eng` is 0 where a thread waits itself. In a dying
context, whose requests are released and get no answer (R98, R103), it fails as one answered FAIL: DESIGN CHOICE (log 40). -/
def State.engWait (s : State) (ctx eng va : Nat) (a : Access) : State × EngRes :=
  if s.ctxState ctx == .dying then (s, .fault 0x13#8 va)
  else (s.requestPage ctx (va / 4096) (a.kind true) (if eng = 0 then none else some eng), .wait va)

/-- An engine's access that meets no leaf (R274, R278). -/
def State.engNoLeaf (s : State) (ctx eng va : Nat) (a : Access) : WalkRes → State × EngRes
  | .requestable => s.engWait ctx eng va a
  | .absent => (s, .fault 0x10#8 va)
  | _ => (s, .fault 0x11#8 va)

/-- An engine's access through an entry, on a core where it has one: its permission, and DTY before a write (R268, R269). -/
def State.engUse (s : State) (core : Option Nat) (ctx eng va : Nat) (a : Access) (e : TlbEntry) : State × EngRes :=
  if !a.ok e then (s, .fault 0x11#8 va)
  else if !a.w then (s, .ok e)
  else
    match s.dirty (core.getD 0) e with
    | some s => (s, .ok { e with dty := true })
    | none =>
      match (s.forget (core.getD 0) e).walkInstall ctx va with
      | (s, .leaf e) =>
        if !a.ok e then (s, .fault 0x11#8 va)
        else match s.dirty (core.getD 0) e with
          | some s => (s, .ok { e with dty := true })
          | none => (s, .fault 0x10#8 va)
      | (s, r) => s.engNoLeaf ctx eng va a r

/-- An engine's translation (R278): of engine operation `eng` of `ctx`, through the core's L1 TLB, or its walk-ahead TLB for
the copy engine (`ahead`, R270). A page that was answered FAIL gives 0x13; one that is requested is joined (R275). -/
def State.engAccess (s : State) (core : Option Nat) (ctx eng va : Nat) (a : Access) (ahead : Bool := false) : State × EngRes :=
  if va / 2 ^ 57 ≠ 0 then (s, .fault 0x11#8 va)
  else if s.dev.engFail.contains (eng, va / 4096) then (s, .fault 0x13#8 va)
  else
    let held := core.bind fun c =>
      (if ahead then (s.core c).walkTlb else (s.core c).tlb).find? fun e => e.covers (s.asnOf ctx) va
    match held with
    | some e => s.engUse core ctx eng va a e
    | none =>
      if s.requested ctx (va / 4096) then s.engWait ctx eng va a
      else match s.walkInstall ctx va with
        | (s, .leaf e) =>
          let fill := fun (k : Core) =>
            if !s.mayHold e then k
            else if ahead then { k with walkTlb := tlbPut Config.walkTlbEntries e k.walkTlb }
            else { k with tlb := tlbPut Config.l1TlbEntries e k.tlb }
          (match core with
            | some c => s.updCore c fill
            | none => s).engUse core ctx eng va a e
        | (s, r) => s.engNoLeaf ctx eng va a r

/-- An engine operation has ended: what its page requests answered is forgotten. -/
def State.endEng (s : State) (eng : Nat) : State :=
  s.onDev fun d => { d with engFail := d.engFail.filter fun x => x.1 != eng }

/-- The pages that a range of addresses touches, as the first address of the range in each. -/
def pagesOf (va n : Nat) : List Nat :=
  if n = 0 then []
  else (List.range ((va + n - 1) / 4096 - va / 4096 + 1)).map fun i => if i = 0 then va else (va / 4096 + i) * 4096

/-- An engine's access to a range, page by page in ascending address (R274): the pieces (physical address, length) and
their types, or the first page's fault or wait. -/
def State.engRange (s : State) (core : Option Nat) (ctx eng va n : Nat) (a : Access) (ahead : Bool := false) :
    State × EngRes × List (Nat × Nat × TlbEntry) :=
  (pagesOf va n).foldl (fun acc v =>
    match acc with
    | (s, .ok e0, ps) =>
      match s.engAccess core ctx eng v a ahead with
      | (s, .ok e) => (s, .ok e0, ps ++ [(e.pa v, min (va + n) ((v / 4096 + 1) * 4096) - v, e)])
      | (s, r) => (s, r, [])
    | acc => acc) (s, .ok .nil, [])

/-- Bytes that an engine reads, as loads at their homes at a timestamp no earlier than `pts` (R287, R293 item 2), with the fault
or wait of the first page that is not readable, and the timestamp of the reads. X pages are read by the engine that owns the
access, not here. -/
def State.engReadAt (s : State) (core : Option Nat) (ctx eng va n : Nat) (a : Access) (pts : Nat) (ahead : Bool := false) :
    State × EngRes × List Byte × Nat :=
  match s.engRange core ctx eng va n a ahead with
  | (s, r, ps) =>
    let (s, b, p) := ps.foldl (fun (acc : State × List Byte × Nat) (pa, len, _) =>
      let (s, b, p) := acc
      let (s, b', p') := s.homeLoad pts pa len
      (s, b ++ b', max p p')) (s, [], pts)
    (s, r, b, p)

/-- Bytes that the device reads by C-type loads of its own (R169, R225), placed by no group's program timestamp. -/
def State.engRead (s : State) (core : Option Nat) (ctx eng va n : Nat) (a : Access) (ahead : Bool := false) : State × EngRes × List Byte :=
  match s.engReadAt core ctx eng va n a 0 ahead with
  | (s, r, b, _) => (s, r, b)

/-- Bytes that an engine writes at timestamps of their own (R293 item 3); the largest timestamp taken. -/
def State.engWrite (s : State) (core : Option Nat) (ctx eng va : Nat) (data : List Byte) (a : Access) (pts : Nat) :
    State × EngRes × Nat :=
  match s.engRange core ctx eng va data.length a with
  | (s, .ok e, ps) =>
    let (s, _, t) := ps.foldl (fun (acc : State × Nat × Nat) (pa, len, _) =>
      let (s, off, t) := acc
      let (s, t') := s.storeLines pts (cellsAt pa ((data.drop off).take len))
      (s, off + len, max t t')) (s, 0, pts)
    (s, .ok e, t)
  | (s, r, _) => (s, r, pts)

end Sys2Proof.Machine
end

