-- ==== Sys2Proof/Machine/Overlay.lean ====
section
/-! DEFINITION. The instruction store: overlay tables, copies, bindings, pins, fetches asked for, parking (11_overlay,
R152). The overlay instructions themselves are in OverlayOps. -/

namespace Sys2Proof.Machine

/-! ## Images and tables -/

/-- An overlay table entry (R65). -/
structure OvEntry where
  id : Nat
  slots : Nat
  share : Bool
  gen : Nat
  start : Nat
  length : Nat
  digest : List Byte
deriving DecidableEq, Repr

/-- An overlay table entry from its 64 bytes. -/
def ovEntryOf (b : List Byte) : OvEntry :=
  { id := natOfBytes (b.take 2), slots := natOfBytes ((b.drop 2).take 1), share := (natOfBytes ((b.drop 3).take 1)) % 2 == 1,
    gen := natOfBytes ((b.drop 4).take 4), start := natOfBytes ((b.drop 8).take 4), length := natOfBytes ((b.drop 12).take 4),
    digest := (b.drop 16).take 32 }

/-- An image that a thread may execute: where it lies, its overlay table and the count of entries. -/
structure Image where
  base : Nat
  table : Nat
  count : Nat
deriving DecidableEq, Repr

/-- The trap handler of a grid (R95): image, overlay, entry. -/
def State.handler (s : State) (gr : Grid) : Option (Nat × Nat × Word) :=
  if gr.lr.trapimg ≠ 0 then some (gr.lr.trapimg, gr.lr.trapov, gr.lr.trapentry)
  else match s.ctx? gr.ctx with
    | some c => if c.e.trapimg ≠ 0 then some (c.e.trapimg, c.e.trapov, c.e.trapentry) else none
    | none => none

/-- The image that a thread of a grid executes: the grid's, or the handler's inside the handler (R183 item 1). -/
def State.imageOf (s : State) (gr : Grid) (inTrap : Bool) : Option Image :=
  if inTrap then
    match s.handler gr, gr.trap with
    | some (img, _, _), .ok t n => some ⟨img, img + t, n⟩
    | _, _ => none
  else some ⟨gr.lr.codebase, gr.lr.ovtable, gr.lr.ovcount⟩

/-- The base of the image that a thread executes (the key of its bindings, R221). -/
def State.imageBase (s : State) (gr : Grid) (inTrap : Bool) : Nat :=
  if inTrap then ((s.handler gr).map (fun h => h.1)).getD 0 else gr.lr.codebase

/-- How a search of an overlay table comes out. -/
inductive TableRes where
  | found (e : OvEntry)
  | none
  | fault (code : BitVec 8) (va : Nat)
  | wait (va : Nat)
deriving DecidableEq, Repr

/-- The first entry of a table that `want` accepts, read by C-type loads (R225), for engine operation `eng`. -/
def State.searchTable (s : State) (core ctx eng : Nat) (want : OvEntry → Bool) : Nat → Nat → State × TableRes
  | 0, _ => (s, .none)
  | n + 1, va =>
    match s.engRead (some core) ctx eng va 64 .table with
    | (s, .ok _, b) =>
      let e := ovEntryOf b
      if want e then (s, .found e) else s.searchTable core ctx eng want n (va + 64)
    | (s, .fault c v, _) => (s, .fault c v)
    | (s, .wait v, _) => (s, .wait v)

/-- The address lies in the overlay that an entry describes. -/
def OvEntry.holds (e : OvEntry) (a : Nat) : Bool := decide (e.start ≤ a) && decide (a < e.start + e.slots * 4096)

/-! ## Copies -/

def Core.copy? (c : Core) (id : Nat) : Option Copy := c.copies.find? (fun x => x.id == id)

/-- The current binding of (context, image, identifier) on a core: its copy and the bound START (R221). -/
def Core.bound? (c : Core) (ctx image id : Nat) : Option (Copy × Bind) :=
  c.copies.findSome? fun k =>
    (k.binds.find? (fun b => b.ctx == ctx && b.image == image && b.id == id && !b.stale)).map fun b => (k, b)

/-- The code word at a code-image address, in a copy used at `start`; `none` outside the overlay. -/
def Copy.word? (k : Copy) (start : Nat) (a : Nat) : Option Word :=
  if start ≤ a && a < start + k.slots * 4096 && a % 4 = 0 then some (mget k.words ((a - start) / 4)) else none

/-- The binding through which a thread of a group uses its copy (R221): of its context and image, with the START, identifier and
generation through which it came; of another image where it came back into a copy of that (log 40). -/
def State.bindOf (s : State) (g : Group) (th : Thread) : Option Bind :=
  let image := ((s.grid? g.grid).map fun gr => s.imageBase gr th.inTrap).getD 0
  let mine := fun (b : Bind) => b.ctx == g.ctx && b.start == th.start && (b.id, b.gen) == th.ov
  ((s.core g.core).copy? th.copy).bind fun k =>
    match k.binds.find? fun b => mine b && b.image == image with
    | some b => some b
    | none => k.binds.find? mine

/-- Bits [31:27] of the word are 11111 (R35). -/
def isHeader (w : Word) : Bool := w.toNat / 2 ^ 27 == 31

/-- The header of the clause that holds an address of a copy used at `start`: the nearest header at or before it, at most
15 words back (R35). -/
def Copy.headerOf (k : Copy) (start a : Nat) : Option (Nat × Word) :=
  (List.range 16).findSome? fun n =>
    if a < 4 * n then none
    else match k.word? start (a - 4 * n) with
      | some w => if isHeader w then some (a - 4 * n, w) else none
      | none => none

/-- The group holds its core's resources: its team is resident or being saved. -/
def State.residentTeam (s : State) (id : Nat) : Bool :=
  match s.team? id with
  | some t => t.st == .resident || t.st == .saving
  | none => false

/-- A token is bound to a copy, or to the fetch that will make it. -/
def OtTok.refers (tok : OtTok) (id : Nat) : Bool :=
  match tok with
  | .loading _ c _ => c == id
  | .held _ c _ _ _ => c == id
  | _ => false

/-- The pins that the contexts chosen hold on a copy of a core (R222). -/
def State.pinsOf (s : State) (core id : Nat) (sel : Nat → Bool) : Nat :=
  let ts := s.dev.teams.filter (fun t => t.core == core && sel t.ctx && (t.st == .resident || t.st == .saving))
  let gs := s.dev.groups.filter (fun g => g.core == core && sel g.ctx && s.residentTeam g.team)
  (ts.map fun t => (t.ot.filter (fun o => o.refers id)).length).sum
    + (gs.filter (fun g => g.threads.any (fun t => !t.ended && t.copy == id))).length
    + (gs.map fun g => (g.rstack.filter (fun e => e.copy == id)).length).sum

/-- The pin count of a copy on a core (R222). -/
def State.pins (s : State) (core id : Nat) : Nat := s.pinsOf core id fun _ => true

/-- Slots held by copies of a core, and by fetches that have taken theirs (R225). -/
def Core.slotsUsed (c : Core) : Nat := (c.copies.map fun k => k.slots).sum + (c.fetches.map fun f => f.slotNos.length).sum

/-- Free slots (R220). -/
def Core.freeSlots (c : Core) : List Nat := (List.range 64).filter fun n => !(c.copies.any fun k => k.slotNos.contains n) && !(c.fetches.any fun f => f.slotNos.contains n)

/-- A copy entered (R223). -/
def State.enterCopy (s : State) (core id : Nat) : State :=
  s.updCore core fun c => { c with copies := updIf (fun k => k.id == id) (fun k => { k with entered := s.dev.clk }) c.copies }

/-! ## Fetches -/

/-- A fetch of (context, image, identifier), or of a recorded key, asked of the core's fetcher; requests for one key are
merged (R225 case 2). Its identity, and the state after it. -/
def State.askFetch (s : State) (core ctx image id : Nat) (key : Option CopyKey) : Nat × State :=
  match (s.core core).fetches.find? (fun f => f.ctx == ctx && f.image == image && f.ident == id && f.key == key && (key.isSome || !f.stale)) with
  | some f => (f.id, s)
  | none =>
    let (n, s) := s.fresh
    (n, s.updCore core fun c => { c with fetches := c.fetches ++ [⟨n, ctx, image, id, key, none, none, [], false⟩] })

/-! ## References recorded by a save (R236) -/

/-- A binding is the one that a key records. -/
def Bind.matches (b : Bind) (ctx : Nat) (k : CopyKey) : Bool :=
  b.ctx == ctx && b.image == k.image && b.id == k.ident && b.gen == k.gen && b.start == k.start

/-- A copy with a recorded key on a core (R236 item 1): one of the team's context, or one that both contexts share (R96,
R226). -/
def State.copyFor (s : State) (core ctx : Nat) (k : CopyKey) : Option Copy :=
  let dom := ((s.ctx? ctx).map fun c => c.e.domain).getD 0
  (s.core core).copies.find? fun c => c.slots == k.slots && c.digest == k.digest &&
    ((c.binds.any fun b => b.matches ctx k) || (k.share && c.share && dom != 0 && c.domain == dom))

/-- A recorded reference resolved on a core: the copy's identity, or that of a fetch of the recorded key (R236); where the save recorded
an overlay still being fetched, the current copy of it, or a fetch as any. The binding
is current unless an `OVINV` has named it since, or the overlay has a current one there (log 40). -/
def State.resolve (s : State) (core ctx : Nat) (k : CopyKey) : State × Nat :=
  match s.copyFor core ctx k with
  | some c =>
    let stale := k.stale || ((s.core core).bound? ctx k.image k.ident).isSome
    let add := fun (y : Copy) => { y with binds := y.binds ++ [⟨ctx, k.image, k.ident, k.gen, k.start, k.share, stale⟩] }
    (if c.binds.any fun b => b.matches ctx k then s
      else s.updCore core fun x => { x with copies := updIf (fun y => y.id == c.id) add x.copies }, c.id)
  | none =>
    if k.digest.isEmpty then
      match (s.core core).bound? ctx k.image k.ident with
      | some (c, _) => (s, c.id)
      | none => let (n, s) := s.askFetch core ctx k.image k.ident none; (s, n)
    else let (n, s) := s.askFetch core ctx k.image k.ident (some k); (s, n)

/-- A token's copy under another identity. -/
def OtTok.renameIf (id n : Nat) (o : OtTok) : OtTok :=
  match o with
  | .loading i c w => .loading i (if c = id then n else c) w
  | .held i c g a w => .held i (if c = id then n else c) g a w
  | o => o

/-- A team refers to a copy, on its core no more, under the identity of the one that serves the recorded key, so that what refers to
that pins it (R222, R236). -/
def State.renameCopy (s : State) (team id n : Nat) : State :=
  let put := fun (c : Nat) => if c = id then n else c
  let obj := fun (o : ParkObj) => match o with
    | .copy c => ParkObj.copy (put c)
    | o => o
  s.onDev fun d => { d with
    teams := updIf (fun t => t.id == team) (fun t =>
      { t with keys := t.keys.map fun (c, k) => (put c, k), ot := t.ot.map (OtTok.renameIf id n) }) d.teams
    groups := updIf (fun g => g.team == team) (fun g =>
      { g with threads := g.threads.map fun th => { th with copy := put th.copy, park := th.park.map obj }
               subs := g.subs.map obj
               rstack := g.rstack.map fun e => { e with copy := put e.copy } }) d.groups }

/-! ## Parking (R152) -/

/-- A thread parks on an object, in the descriptor that has it or a free one of the 8; `none` where all are in use
(R150 case 4). `key`: the address accessed, or the fetch awaited. -/
def State.park (s : State) (gid t : Nat) (o : ParkObj) (key : Nat := 0) : Option State :=
  match s.group? gid with
  | none => none
  | some g =>
    if g.subs.contains o || g.subs.length < 8 then
      some (s.updGroup gid fun g =>
        { g.updThread t (fun th => { th with park := some o, parkKey := key }) with
          subs := if g.subs.contains o then g.subs else g.subs ++ [o] })
    else none

/-- A thread parks on the page of an address that it, or what acts for it, waits for (R152, R274). -/
def State.parkPage (s : State) (gid t ctx va : Nat) : Option State := s.park gid t (.page ctx (va / 4096)) va

/-- A thread parks until an overlay of an image is resident under its current binding (R237): the fetch is asked for where a
descriptor is free. -/
def State.parkOverlay (s : State) (core gid t ctx image id : Nat) : Option State :=
  let (n, s') := s.askFetch core ctx image id none
  s'.park gid t (.overlay ctx image id) n

/-- The threads of the groups chosen that `hit` chooses run again, and what each then holds; a descriptor on which no thread is
left is freed. -/
def State.unparkIf (s : State) (sel : Group → Bool) (hit : Thread → Bool) (f : Thread → Thread) : State :=
  s.onDev fun d => { d with groups := updIf (fun g => sel g && g.threads.any hit) (fun g =>
    let ths := updIf hit (fun th => f { th with park := none }) g.threads
    { g with threads := ths, subs := g.subs.filter fun o => ths.any fun th => th.park == some o }) d.groups }

/-- The threads of the groups chosen that are parked on an object become runnable; the descriptor is freed. -/
def State.unpark (s : State) (sel : Group → Bool) (o : ParkObj) (f : Thread → Thread) : State :=
  s.unparkIf sel (fun th => th.park == some o) f

end Sys2Proof.Machine
end

