-- ==== Sys2Proof/Machine/Ops.lean ====
section
/-! DEFINITION. The named operations: saves asked for (R133), the context's freeze (R98, R99),
taking a fault and entering the trap handler (R183), the return from it (R185), and how a unit acts on the threads of its
stream (R53, R145, R146, R150, R153). -/

namespace Sys2Proof.Machine

/-! ## Saves and freezes -/

/-- Every resident team that `sel` chooses is asked to stop at its groups' next clause boundaries (R133, R138); the teams
of one cluster, and of a cooperative grid, go together (R136 case 4). -/
def State.requestSave (s : State) (sel : Team → Bool) : State :=
  let coop := fun (g : Nat) => match s.grid? g with
    | some gr => gr.lr.flags / 2 % 2 == 1
    | none => false
  let cl := (s.dev.teams.filter fun t => sel t && t.st == .resident).map fun t => t.cluster
  let gr := ((s.dev.teams.filter fun t => sel t && t.st == .resident).map fun t => t.grid).filter coop
  let hit := fun (t : Team) => t.st == .resident && (cl.contains t.cluster || gr.contains t.grid)
  s.onDev fun d => { d with
    teams := updIf hit (fun t => { t with st := .saving }) d.teams
    clusters := updIf (fun c => c.st == .placed && (cl.contains c.id || gr.contains c.grid)) (fun c => { c with st := .saving }) d.clusters }

/-- The number of a context's state (R92). -/
def CtxState.code : CtxState → Nat
  | .free => 0 | .built => 1 | .active => 2 | .suspended => 3 | .frozen => 4 | .dying => 5

/-- STATUS of a context's entry in memory (R92). -/
def State.writeStatus (s : State) (ctx : Nat) : State :=
  s.put (s.dev.ctxRegs.base + 256 * ctx) (bytesOfNat ((s.ctxState ctx).code + 4096 * s.gen ctx) 4)

/-- FAULT to FAULTVA of a context's entry (R92). -/
def State.writeFault (s : State) (ctx : Nat) : State :=
  match s.ctx? ctx with
  | none => s
  | some c => s.put (s.dev.ctxRegs.base + 256 * ctx + 4)
      (bytesOfNat c.fault.w.toNat 4 ++ bytesOfNat c.fault.pc.toNat 4 ++ bytesOfNat c.fault.cause 4 ++ bytesOfNat c.fault.va.toNat 8)

/-- A context's state changed, with STATUS written (R92). -/
def State.setCtxState (s : State) (ctx : Nat) (st : CtxState) : State :=
  (s.updCtx ctx fun c => { c with st := st }).writeStatus ctx

/-- The place of a fault in the order of those of one clk, from its FAULT word (R92, R100 case 1). -/
def faultPlace (w : Word) : Nat := field w.toNat 15 8 * 2 ^ 14 + field w.toNat 22 16 * 2 ^ 7 + field w.toNat 24 23 * 2 ^ 5 + field w.toNat 29 25

/-- FAULT to FAULTVA for a fault of a thread (R92). -/
def FaultRec.regs (r : FaultRec) (g : Group) (t cause : Nat) : FaultRegs :=
  { w := BitVec.ofNat 32 (r.code.toNat + g.core * 2 ^ 8 + g.reed * 2 ^ 16 + g.rslot * 2 ^ 23 + t * 2 ^ 25)
    pc := ((g.thread? t).map (fun th => th.vpc)).getD 0#32, cause := cause, va := r.va }

/-- FAULT to FAULTVA set, in the context and in its entry. -/
def State.setFault (s : State) (ctx : Nat) (r : FaultRegs) : State := (s.updCtx ctx fun c => { c with fault := r }).writeFault ctx

/-- The context freezes at a fault of a thread (R98, R99): FAULT to FAULTVA are recorded and every team is asked to save. The
thread keeps its fault. CAUSE 1: no trap handler; 2: inside it. Of the faults of the clk in which the context freezes, FAULT
keeps the first in order (R100 case 1); a dying context records none. A SUSPENDED context freezes too at a fault of a team that runs on to
its clause boundary: DESIGN CHOICE (log 43). -/
def State.freeze (s : State) (ctx gid t : Nat) (r : FaultRec) (cause : Nat) : State :=
  match s.ctx? ctx, s.group? gid with
  | some c, some g =>
    let s' := s.updThread gid t fun th => { th with froze := some r }
    let regs := r.regs g t cause
    match c.st with
    | .active | .suspended =>
      ((((s'.updCtx ctx fun c => { c with froze := some (s.dev.clk, c.fault) }).setCtxState ctx .frozen).setFault ctx regs).requestSave
        (fun x => x.ctx == ctx))
    | .frozen =>
      if (c.froze.any fun f => f.1 == s.dev.clk) && decide (faultPlace regs.w < faultPlace c.fault.w) then s'.setFault ctx regs else s'
    | _ => s
  | _, _ => s

/-! ## Taking a fault (R153, R154, R183) -/

/-- The code-image header of the grid's trap handler, read at the grid's first trap entry (R64, R183 item 1). -/
def State.readTrapImage (s : State) (gr : Grid) (core : Nat) : State × EngRes :=
  match s.handler gr with
  | none => (s, .fault 0x06#8 0)
  | some (img, _, _) =>
    match s.engRead (some core) gr.ctx 0 img 20 .table with
    | (s, .ok e, b) =>
      let n := fun (o k : Nat) => natOfBytes ((b.drop o).take k)
      if n 0 4 = 0x314D4B50 && n 4 2 = 1 && 1 ≤ n 12 4 && n 12 4 ≤ 4096 then
        (s.updGrid gr.id fun g => { g with trap := .ok (n 16 4) (n 12 4) }, .ok e)
      else (s.updGrid gr.id fun g => { g with trap := .bad }, .fault 0x06#8 0)
    | (s, r, _) => (s, r)

/-- A thread executes a copy through a binding (R221). -/
def Thread.enter (th : Thread) (k : Copy) (b : Bind) : Thread := { th with copy := k.id, start := b.start, ov := (b.id, b.gen) }

/-- The thread's trap entry is completed where the handler's overlay is resident (R183: reached as a `CALLX` to TRAPOV);
else the thread parks on what it waits for, and a fault of the entry, or of what it waited for, freezes the context (R183
item 4, R228). -/
def State.completeTrap (s : State) (gid t : Nat) : State :=
  match s.group? gid with
  | none => s
  | some g =>
    match g.thread? t, s.grid? g.grid with
    | some th, some gr =>
      let fail := fun (s : State) (f : FaultRec) =>
        (s.updThread gid t fun th => { th with due := none }).freeze g.ctx gid t { f with unit := th.xunit } 2
      let plain := fun (c : BitVec 8) (va : Nat) => (⟨c, 0#10, 0#32, BitVec.ofNat 64 va⟩ : FaultRec)
      let (s, r) := match th.due, gr.trap with
        | some _, _ => (s, EngRes.fault 0x06#8 0)
        | none, .ok _ _ => (s, .ok .nil)
        | none, .bad => (s, .fault 0x06#8 0)
        | none, .unread => s.readTrapImage gr g.core
      match r with
      | .wait va => (s.parkPage gid t g.ctx va).getD s
      | .fault c va => fail s (th.due.getD (plain c va))
      | .ok _ =>
        match s.handler gr with
        | none => fail s (plain 0x06#8 0)
        | some (img, ov, entry) =>
          match (s.core g.core).bound? g.ctx img ov with
          | none => (s.parkOverlay g.core gid t g.ctx img ov).getD s
          | some (k, b) =>
            match k.word? b.start entry.toNat with
            | none => fail s (plain 0x06#8 0)
            | some w =>
              if isHeader w then
                (s.updThread gid t fun th => { (th.enter k b) with vpc := entry, trapPending := false })
                  |>.enterCopy g.core k.id
              else fail s (plain 0x04#8 0)
    | _, _ => s

/-- A fault taken by a thread (R153, R154, R183): trap entry where the grid has a handler and the thread is outside it;
else the context freezes (R98, R99). `xpc` is the address at which the thread resumes; a fault that has come back for its unit is met when it
resumes there. The faults of a dying context are discarded (R98). -/
def State.takeFault (s : State) (gid t : Nat) (r : FaultRec) (isAsync : Bool) (xpc : Word) : State :=
  match s.group? gid with
  | none => s
  | some g =>
    match g.thread? t, s.grid? g.grid with
    | some th, some gr =>
      if s.ctxState g.ctx == .dying then s
      else if (s.handler gr).isNone then s.freeze g.ctx gid t r 1
      else if th.inTrap then s.freeze g.ctx gid t r 2
      else
        (s.updThread gid t fun th => { th with
          xcode := BitVec.ofNat 32 (r.code.toNat + 2 ^ 8 * r.num.toNat + if isAsync then 2 ^ 18 else 0)
          xunit := r.unit, xva := r.va, xpc := xpc, inTrap := true, trapPending := true, noBreak := false,
          due := none, kept := th.due.map fun r => { r with unit := th.vpc } }).completeTrap gid t
    | _, _ => s

/-! ## How a unit comes out for one thread -/

/-- A unit's outcome for a thread: executed; executed and gone from the stream (a transfer, a wait, an end, a park); the
stream stops at it (R150); a fault, with its number, address, and whether the thread resumes after the unit (R183). -/
inductive SRes where
  | ok (s : State)
  | leave (s : State)
  | stop (s : State)
  | fault (s : State) (code : BitVec 8) (num : BitVec 10) (va : BitVec 64) (after : Bool)

/-- A fault with no number and no address, resumed at the unit. -/
def SRes.plain (s : State) (code : BitVec 8) : SRes := .fault s code 0#10 0#64 false
/-- A fault with an address. -/
def SRes.at_ (s : State) (code : BitVec 8) (va : Nat) : SRes := .fault s code 0#10 (BitVec.ofNat 64 va) false

/-- A thread parks at its unit, or the stream stops where no descriptor is free (R150 case 4, R152). -/
def State.stopOr (s : State) (parked : Option State) : SRes :=
  match parked with
  | some s => .leave s
  | none => .stop s

/-- A transfer to an address of a copy already checked (R40, R163), through a binding. -/
def State.goto (s : State) (gid t : Nat) (a : Word) (k : Copy) (b : Bind) : State :=
  s.updThread gid t fun th => { (th.enter k b) with vpc := a }

/-- The overlay of an image that holds a code-image address, and its resident copy under the current binding (R163
item 2, R185, R237): the thread parks where there is none, and faults where no overlay holds the address. -/
def State.reach (s : State) (g : Group) (gr : Grid) (t : Nat) (inTrap : Bool) (a : Nat)
    (go : State → Copy → Bind → SRes) : SRes :=
  match s.imageOf gr inTrap with
  | none => .plain s 0x06#8
  | some img =>
    match s.searchTable g.core g.ctx 0 (fun e => e.holds a) img.count img.table with
    | (s, .none) => .plain s 0x06#8
    | (s, .fault c va) => .at_ s c va
    | (s, .wait va) => s.stopOr (s.parkPage g.id t g.ctx va)
    | (s, .found e) =>
      match (s.core g.core).bound? g.ctx img.base e.id with
      | some (k, b) => go s k b
      | none => s.stopOr (s.parkOverlay g.core g.id t g.ctx img.base e.id)

/-- The copy that a thread refers to by an identity, and what it then does: one no longer on the core, as after a resumption, is
the copy that serves the recorded key, for which the thread parks while it is fetched (R236). -/
def State.seekCopy (s : State) (g : Group) (t id : Nat) (go : State → Copy → SRes) : SRes :=
  match (s.core g.core).copy? id with
  | some k => go s k
  | none =>
    match (s.team? g.team).bind fun x => assoc x.keys id with
    | none => .plain s 0x06#8
    | some k =>
      match s.resolve g.core g.ctx k with
      | (s, n) =>
        let s := if n = id then s else s.renameCopy g.team id n
        match (s.core g.core).copy? n with
        | some c => go s c
        | none => s.stopOr (s.park g.id t (.copy id) n)

/-- The return from the handler (R185). -/
def State.returnTrap (s : State) (gid t : Nat) : SRes :=
  match s.group? gid with
  | none => .ok s
  | some g =>
    match g.thread? t, s.grid? g.grid with
    | some th, some gr =>
      if !th.inTrap then .fault s 0x40#8 1023#10 0#64 true
      else if th.xpc.toNat % 4 ≠ 0 then .plain s 0x04#8
      else s.reach g gr t false th.xpc.toNat fun s k b =>
        .leave ((s.updThread gid t fun th =>
          { (th.enter k b) with inTrap := false, vpc := th.xpc, noBreak := true,
                                 due := th.kept.filter fun r => r.unit == th.xpc, kept := none }).enterCopy g.core k.id)
    | _, _ => .ok s

/-! ## Streams -/

/-- The stream of a reed. -/
def State.streamAt (s : State) (core reed : Nat) : Option Stream := s.dev.streams.find? (fun x => x.core == core && x.reed == reed)

/-- The stream that an instruction word acts on. -/
def State.stream? (s : State) : Option Stream := s.streamAt s.dev.focus.1 s.dev.focus.2

def State.updStream (s : State) (core reed : Nat) (f : Stream → Stream) : State :=
  s.onDev fun d => { d with streams := updIf (fun x => x.core == core && x.reed == reed) f d.streams }

/-- A thread executes the unit (R53): PRED 7 is unpredicated, or off for every thread with NEG. -/
def predOn (st : Stream) (th : Thread) : Bool := xor (if st.pred = 7#3 then true else th.p.getLsbD st.pred.toNat) st.neg

/-- The rounding mode of the unit, in place of the instruction's default 0 (R53, R75). -/
def Stream.rnd (st : Stream) : BitVec 2 := if st.re then st.rm else 0#2
/-- The cache policy of the unit (R53). -/
def Stream.policy (st : Stream) : Nat := if st.ce then st.pol.toNat else 0

/-- What follows a unit: the threads still in the stream advance to the next unit. -/
def State.advance (s : State) (st : Stream) (kept : List Nat) : State :=
  (s.updGroup st.grp fun g => kept.foldl (fun g t => g.updThread t fun th => { th with vpc := st.next }) g).updStream
    st.core st.reed fun x => { x with mask := maskOf kept }

/-- The unit's effect on the threads of the stream in ascending order (R12, R14, R53, R150, R153): the threads kept. -/
def runEach (st : Stream) (f : State → Nat → Thread → SRes) : List Nat → State → State × List Nat
  | [], s => (s, [])
  | t :: r, s =>
    match (s.group? st.grp).bind (fun g => g.thread? t) with
    | none => let (s2, k) := runEach st f r s; (s2, t :: k)
    | some th =>
      if predOn st th then
        match f s t th with
        | .ok s' => let (s2, k) := runEach st f r s'; (s2, t :: k)
        | .leave s' => runEach st f r s'
        | .stop s' => (s', [])
        | .fault s' code num va after =>
          (s'.takeFault st.grp t ⟨code, num, st.unit, va⟩ false (if after then st.unit + 4#32 else st.unit), [])
      else let (s2, k) := runEach st f r s; (s2, t :: k)

/-- An instruction word acts only on the threads of a stream (R142). -/
def State.onStream (s : State) (f : Stream → Group → State) : Host.Outcome State Fault Refusal :=
  match s.stream? with
  | none => .fault .noStream
  | some st =>
    match s.group? st.grp with
    | none => .fault .noStream
    | some g => .next (f st g)

/-- A unit whose effect reaches beyond its group's registers. -/
def State.perThread (s : State) (f : Stream → State → Nat → Thread → SRes) : Host.Outcome State Fault Refusal :=
  s.onStream fun st _ =>
    let (s', kept) := runEach st (f st) st.threads s
    s'.advance st kept

/-- The first thread of the stream that executes the unit. -/
def firstOn (st : Stream) (g : Group) : List Nat → Option Nat
  | [] => none
  | t :: r =>
    match g.thread? t with
    | some th => if predOn st th then some t else firstOn st g r
    | none => firstOn st g r

/-- A unit that executes once for the group, at its first thread predicated on, if there is one (R145, R230, R245). -/
def State.perGroup (s : State) (f : Stream → State → Group → Nat → SRes) : Host.Outcome State Fault Refusal :=
  s.onStream fun st g =>
    match firstOn st g st.threads with
    | none => s.advance st st.threads
    | some t =>
      let before := st.threads.takeWhile (· ≠ t)
      match f st s g t with
      | .ok s' => s'.advance st st.threads
      | .leave s' => s'.advance st before
      | .stop s' => s'.advance st before
      | .fault s' code num va after =>
        (s'.takeFault st.grp t ⟨code, num, st.unit, va⟩ false (if after then st.unit + 4#32 else st.unit)).advance st before

/-! ## Units whose whole effect lies in their group's registers -/

/-- Such a unit's outcome for a thread. -/
inductive GRes where
  | ok (g : Group)
  | fault (code : BitVec 8)

/-- The effect on the threads of the stream in ascending order: the group, the threads kept, the thread that faults. -/
def runRegs (st : Stream) (f : Group → Nat → Thread → GRes) : List Nat → Group → Group × List Nat × Option (Nat × BitVec 8)
  | [], g => (g, [], none)
  | t :: r, g =>
    match g.thread? t with
    | none => let (g2, k, x) := runRegs st f r g; (g2, t :: k, x)
    | some th =>
      if predOn st th then
        match f g t th with
        | .ok g' => let (g2, k, x) := runRegs st f r g'; (g2, t :: k, x)
        | .fault c => (g, [], some (t, c))
      else let (g2, k, x) := runRegs st f r g; (g2, t :: k, x)

/-- The group as a unit left it, with the fault of the thread that met one. -/
def State.settle (s : State) (st : Stream) (r : Group × List Nat × Option (Nat × BitVec 8)) : State :=
  let s := s.updGroup st.grp fun _ => r.1
  let s := match r.2.2 with
    | none => s
    | some (t, c) => s.takeFault st.grp t ⟨c, 0#10, st.unit, 0#64⟩ false st.unit
  s.advance st r.2.1

/-- A unit of a register class, for each thread. -/
def State.regsUnit (s : State) (f : Stream → Group → Nat → Thread → GRes) : Host.Outcome State Fault Refusal :=
  s.onStream fun st g => s.settle st (runRegs st (f st) st.threads g)

/-- A uniform unit of a register class (R145): once, at the first thread predicated on. -/
def State.regsUniform (s : State) (f : Stream → Group → Nat → Thread → GRes) : Host.Outcome State Fault Refusal :=
  s.onStream fun st g =>
    match firstOn st g st.threads with
    | none => s.settle st (g, st.threads, none)
    | some t =>
      match g.thread? t with
      | none => s.settle st (g, st.threads, none)
      | some th =>
        match f st g t th with
        | .ok g' => s.settle st (g', st.threads, none)
        | .fault c => s.settle st (g, st.threads.takeWhile (· ≠ t), some (t, c))

/-- A unit that writes words to a destination: uniform where every operand it names selects a g register (R48, R161
item 2). -/
def State.valueUnit (s : State) (uniform : Bool) (d : Opnd) (f : Stream → Group → Thread → Except (BitVec 8) (List Word)) :
    Host.Outcome State Fault Refusal :=
  let one := fun (st : Stream) (g : Group) (t : Nat) (th : Thread) => match f st g th with
    | .ok ws => GRes.ok (wrN g t d ws)
    | .error c => .fault c
  if uniform then s.regsUniform one else s.regsUnit one

/-- A unit that writes one predicate of each thread. -/
def State.predUnit (s : State) (pd : BitVec 3) (f : Stream → Group → Thread → Bool) : Host.Outcome State Fault Refusal :=
  s.regsUnit fun st g t th => .ok (g.updThread t fun x => wrP x pd (f st g th))

end Sys2Proof.Machine
end

