-- ==== Sys2Proof/Machine/Token.lean ====
section
/-! DEFINITION. Tokens and the results they count (R36, R150 case 3, R154, R198). -/

namespace Sys2Proof.Machine

/-- The count of a token (R36). -/
def Group.count (g : Group) (n : Nat) : Nat := g.sb.getD n 0

/-- A token's count changed. -/
def Group.setCount (g : Group) (n x : Nat) : Group := { g with sb := g.sb.set n x }

/-- A result that will return, recorded; its token counts it (R36). -/
def State.addResult (s : State) (gid t : Nat) (sb : Option Nat) (unit : Word) (kind : ResKind) (engine : Bool) : Nat × State :=
  let (n, s) := s.fresh
  let s := s.onDev fun d => { d with results := d.results ++ [⟨n, gid, t, sb, unit, kind, false, [], 0, none, engine, []⟩] }
  (n, match sb with
    | some k => s.updGroup gid fun g => g.setCount k (g.count k + 1)
    | none => s)

/-- The token can take one more result (R36, R150 case 3). -/
def State.hasRoom (s : State) (gid n : Nat) : Bool :=
  match s.group? gid with
  | some g => decide (g.count n < 255)
  | none => false

/-- A thread's unit issues one result through a token, or the stream stops at it. -/
def State.issueResult (s : State) (st : Stream) (t : Nat) (sb : BitVec 3) (kind : ResKind) : SRes :=
  if s.hasRoom st.grp sb.toNat then .ok (s.addResult st.grp t (some sb.toNat) st.unit kind false).2 else .stop s

/-- A result leaves: its token's count falls by one, and the largest timestamp its command admitted is kept for those
that await the token (R36, R293 item 4). -/
def State.dropResult (s : State) (r : Pending) : State :=
  let s := s.onDev fun d => { d with results := d.results.filter (fun x => x.id != r.id) }
  match r.sb with
  | none => s
  | some n => s.updGroup r.grp fun g =>
      { g.setCount n (g.count n - 1) with tokTs := g.tokTs.set n (max (g.tokTs.getD n 0) r.ts) }

/-- A fault that comes back in a clk, among those of the thread: in the order of their arrival, the lower code first in one clk
(R154). -/
def addFault (clk : Nat) (r : FaultRec) : List (Nat × FaultRec) → List (Nat × FaultRec)
  | [] => [(clk, r)]
  | (c, x) :: l => if c = clk ∧ r.code.toNat < x.code.toNat then (clk, r) :: (c, x) :: l else (c, x) :: addFault clk r l

/-- The grid of a group has no trap handler (R95). -/
def State.noHandler (s : State) (grid : Nat) : Bool := (s.grid? grid).any fun gr => (s.handler gr).isNone

/-- A fault recorded for delivery before the thread's next issue unit (R154). One that comes for a SUSPENDED context whose grid
has no trap handler freezes the context at once (R98). -/
def State.addAsync (s : State) (gid t : Nat) (r : FaultRec) : State :=
  match s.group? gid with
  | none => s
  | some g =>
    if s.ctxState g.ctx == .suspended && s.noHandler g.grid then s.freeze g.ctx gid t r 1
    else s.updThread gid t fun th => { th with async := addFault s.dev.clk r th.async }

/-- A command's fault gathered: the lowest code, at the first place that met it (R154 item 4). -/
def Pending.meet (p : Pending) (code : BitVec 8) (va : Nat) : Pending :=
  match p.fault with
  | some f => if code.toNat < f.code.toNat then { p with fault := some ⟨code, 0#10, p.unit, BitVec.ofNat 64 va⟩ } else p
  | none => { p with fault := some ⟨code, 0#10, p.unit, BitVec.ofNat 64 va⟩ }

/-- A result recorded as ready to return. -/
def State.resultReady (s : State) (id ts : Nat) : State :=
  s.updPending id fun p => { p with ready := true, ts := max p.ts ts }

/-- The program timestamp of the group of a result. -/
def State.resultPts (s : State) (id : Nat) : Nat := (((s.pending? id).bind fun r => s.group? r.grp).map fun g => g.pts).getD 0

/-- The largest timestamp that a result's command has met, raised (R293 item 4). -/
def State.resultTs (s : State) (id ts : Nat) : State := s.updPending id fun p => { p with ts := max p.ts ts }

/-- A command's token returns, with its largest timestamp and the fault gathered (R154, R293 item 4). -/
def State.returnToken (s : State) (id ts : Nat) : State :=
  match (s.resultReady id ts).pending? id with
  | none => s
  | some r => (match r.fault with
    | some f => s.addAsync r.grp r.thread f
    | none => s).dropResult r

end Sys2Proof.Machine
end

