-- ==== Sys2Proof/Machine/Barrier.lean ====
section
/-! DEFINITION. Barriers, `CVSIGN` and stage rings (R243 to R257), and their release (R249 to R251). -/

namespace Sys2Proof.Machine

/-! ## Arrivals -/

/-- A result that reads or changes coherent memory, or a tile line (R322). -/
def ResKind.isMem : ResKind → Bool
  | .load _ _ _ _ _ => true
  | .atom _ _ _ _ _ => true
  | .vmv _ _ _ _ _ _ _ => true
  | _ => false

/-- The result targets a register that the save waits for (R133 item 1): all but tokens and remote results. -/
def ResKind.saveWaits : ResKind → Bool
  | .token => false
  | .remote .. => false
  | _ => true

def ResKind.isRemote : ResKind → Bool
  | .remote .. => true
  | _ => false

/-- Every access to coherent memory that the group has made has taken its place in the memory order (R251). -/
def State.memSettled (s : State) (g : Group) : Bool :=
  g.sq.isEmpty && s.dev.results.all fun r => r.grp != g.id || !r.kind.isMem || r.ready

/-- Every unended thread of the group waits at an object, and the group's accesses have taken their places (R247, R251). -/
def State.groupAt (s : State) (g : Group) (w : WaitOn) : Bool :=
  g.threads.all (fun th => th.ended || th.wait == some w) && g.threads.any (fun th => th.wait == some w) && s.memSettled g

/-- The groups of a team. -/
def State.groupsOf (s : State) (team : Nat) : List Group := s.dev.groups.filter fun g => g.team == team

/-- One of the team's groups has arrived (R247). -/
def State.teamAt (s : State) (team : Nat) (w : WaitOn) : Bool := (s.groupsOf team).any fun g => s.groupAt g w

/-! ## Release -/

/-- RPTR of the zones of these cores advances by one, modulo 256 (R259). -/
def State.advanceRptr (s : State) (cores : List Nat) : State :=
  (distinct (cores.map zoneOf)).foldl (fun s z => s.updZone z fun x => { x with rptr := (x.rptr + 1) % 256 }) s

/-- The threads of the groups chosen that wait at an object become runnable; each released group's program timestamp rises
to the largest among the arrivals, the members that have ended among them (R249 to R251). -/
def State.releaseAt (s : State) (sel member : Group → Bool) (w : WaitOn) : State :=
  let hit := fun (g : Group) => sel g && g.threads.any fun th => th.wait == some w
  let top := (s.dev.groups.filter fun g => hit g || (g.ended && member g)).foldl (fun m g => max m g.pts) 0
  let free := fun (g : Group) =>
    { g with pts := max g.pts top
             threads := updIf (fun th => th.wait == some w) (fun th => { th with wait := none }) g.threads }
  s.onDev fun d => { d with groups := updIf hit free d.groups }

/-- Cores of the released groups that are on a core (R259). -/
def State.waitCores (s : State) (sel : Group → Bool) (w : WaitOn) : List Nat :=
  (s.dev.groups.filter fun g => sel g && s.residentTeam g.team && g.threads.any fun th => th.wait == some w).map fun g => g.core

/-- A reconvergence barrier opens when every thread of its mask has arrived or ended (R246); at least one has arrived. -/
def State.checkRb (s : State) (gid n : Nat) : State :=
  match s.group? gid with
  | none => s
  | some g =>
    match g.rb.getD n none with
    | none => s
    | some m =>
      let done := (List.range 32).all fun i => !bitAt m i || match g.thread? i with
        | some th => th.ended || th.wait == some (.rb n)
        | none => true
      if done && g.threads.any (fun th => th.wait == some (.rb n)) then s.releaseAt (fun x => x.id == gid) (fun _ => false) (.rb n) else s

/-- A team barrier opens when every group of its phase mask has arrived or ended (R249, R250). -/
def State.checkTb (s : State) (team n : Nat) : State :=
  match s.team? team with
  | none => s
  | some tm =>
    match (tm.tb.getD n ⟨none, false, 0⟩).mask with
    | none => s
    | some m =>
      let gs := s.groupsOf team
      let done := (List.range 32).all fun i => !bitAt m i || match gs.find? (fun g => g.slot == i) with
        | some g => g.ended || s.groupAt g (.tb n)
        | none => true
      let sel := fun (g : Group) => g.team == team
      if done then
        ((s.advanceRptr (s.waitCores sel (.tb n))).releaseAt sel (fun g => g.team == team && bitAt m g.slot) (.tb n)).updTeam team
          fun t => { t with tb := t.tb.set n ⟨none, false, 0⟩ }
      else s

/-- The rank bit of a team in a cluster of width `clw` (R247). -/
def rankBit (clw : Nat) (t : Team) : Nat := t.rj * clw + t.ri

/-- Every member team of a mask has arrived or retired. -/
def State.teamsAt (s : State) (clw : Nat) (m : Word) (w : WaitOn) (l : List Team) : Bool :=
  l.all fun t => !bitAt m (rankBit clw t) || t.st == .retired || s.teamAt t.id w

/-- The groups of the teams of a list that a mask names. -/
def membersOf (clw : Nat) (m : Option Word) (l : List Team) (g : Group) : Bool :=
  l.any fun t => t.id == g.team && bitAt (m.getD 0#32) (rankBit clw t)

/-- A cluster barrier opens (R250); its release follows. -/
def State.checkCb (s : State) (cl n : Nat) : State :=
  match s.cluster? cl with
  | none => s
  | some c =>
    let b := c.cb.getD n ⟨none, false, 0⟩
    match b.mask, s.grid? c.grid with
    | some m, some gr =>
      if !b.releasing && s.teamsAt gr.lr.clw m (.cb n) (s.dev.teams.filter fun t => t.cluster == cl) then
        s.updCluster cl fun c => { c with cb := c.cb.set n ⟨some m, true, s.dev.clk⟩ }
      else s
    | _, _ => s

/-- A grid barrier opens (R247, R250): its members are the named ranks of every cluster of the grid. -/
def State.checkGb (s : State) (gid n : Nat) : State :=
  match s.grid? gid with
  | none => s
  | some gr =>
    let b := gr.gb.getD n ⟨none, false, 0⟩
    match b.mask with
    | none => s
    | some m =>
      if !b.releasing && s.teamsAt gr.lr.clw m (.gb n) (s.dev.teams.filter fun t => t.grid == gid) then
        s.updGrid gid fun g => { g with gb := g.gb.set n ⟨some m, true, s.dev.clk⟩ }
      else s

/-- Every barrier that a group's arrival or end can open. -/
def State.checkBars (s : State) (g : Group) : State :=
  let s := (List.range 16).foldl (fun s n => s.checkRb g.id n) s
  let s := (List.range 8).foldl (fun s n => s.checkTb g.team n) s
  let s := match s.team? g.team with
    | some t => (List.range 4).foldl (fun s n => s.checkCb t.cluster n) s
    | none => s
  (List.range 2).foldl (fun s n => s.checkGb g.grid n) s

/-- Event BARRIER_RELEASE (R250): barrier `n` of a grid, or of a cluster, that has opened releases its threads, in the events of that clk or of
the next: DESIGN CHOICE (log 44). -/
def execBarrierRelease (grid : Bool) (owner n : Nat) (s : State) : Host.Outcome State Fault Refusal :=
  .next <|
    if grid then
      match s.grid? owner with
      | none => s
      | some gr =>
        let b := gr.gb.getD n ⟨none, false, 0⟩
        let sel := fun (g : Group) => g.grid == owner
        let member := membersOf gr.lr.clw b.mask (s.dev.teams.filter fun t => t.grid == owner)
        if b.releasing then
          ((s.advanceRptr (s.waitCores sel (.gb n))).releaseAt sel member (.gb n)).updGrid
            owner fun g => { g with gb := g.gb.set n ⟨none, false, 0⟩ }
        else s
    else
      match s.cluster? owner with
      | none => s
      | some c =>
        let b := c.cb.getD n ⟨none, false, 0⟩
        let teams := s.dev.teams.filter fun t => t.cluster == owner
        let sel := fun (g : Group) => teams.any fun t => t.id == g.team
        let member := membersOf (((s.grid? c.grid).map fun g => g.lr.clw).getD 1) b.mask teams
        if b.releasing then
          ((s.advanceRptr (s.waitCores sel (.cb n))).releaseAt sel member (.cb n)).updCluster owner
            fun c => { c with cb := c.cb.set n ⟨none, false, 0⟩ }
        else s

/-! ## The instructions -/

/-- A thread waits (R244): its vpc passes the unit. -/
def State.waitAt (s : State) (st : Stream) (t : Nat) (w : WaitOn) : SRes :=
  .leave (s.updThread st.grp t fun th => { th with vpc := st.next, wait := some w })

/-- An instruction of the class (R243): the membership value of each thread, which must agree with the first's; what each
thread does, told whether it is the first; then the barriers looked at again. -/
def State.memberUnit (s : State) (m : Opnd) (f : Stream → State → Group → Nat → Bool → Word → SRes) :
    Host.Outcome State Fault Refusal :=
  s.onStream fun st g0 =>
    let first := firstOn st g0 st.threads
    let m0 := ((first.bind fun t => g0.thread? t).map fun th => rd g0 th m).getD 0#32
    let (s', kept) := runEach st (fun s t th =>
      match s.group? st.grp with
      | none => .ok s
      | some g => if rd g th m ≠ m0 then .plain s 0x24#8 else f st s g t (first == some t) m0) st.threads s
    (s'.advance st kept).checkBars g0

/-- `RBSET` (R245). -/
def execRbset (n : BitVec 4) (m : Opnd) (s : State) : Host.Outcome State Fault Refusal :=
  s.memberUnit m fun st s g _ first v =>
    if !first then .ok s
    else if v = 0#32 then .plain s 0x24#8
    else if g.threads.any (fun th => th.wait == some (.rb n.toNat)) && g.rb.getD n.toNat none ≠ some v then .plain s 0x24#8
    else .ok (s.updGroup st.grp fun g => { g with rb := g.rb.set n.toNat (some v) })

/-- `RBJOIN` (R246). -/
def execRbjoin (n : BitVec 4) (m : Opnd) (s : State) : Host.Outcome State Fault Refusal :=
  s.memberUnit m fun st s g t _ v =>
    if g.rb.getD n.toNat none ≠ some v || !bitAt v t then .plain s 0x24#8 else s.waitAt st t (.rb n.toNat)

/-- No bit of a mask at or above `k` is set. -/
def maskBelow (m : Word) (k : Nat) : Bool := decide (m.toNat < 2 ^ k)

/-- `TBAR` (R247, R248). -/
def execTbar (n : BitVec 4) (m : Opnd) (s : State) : Host.Outcome State Fault Refusal :=
  s.memberUnit m fun st s g t _ v =>
    match s.team? g.team, s.grid? g.grid with
    | some tm, some gr =>
      let b := tm.tb.getD n.toNat ⟨none, false, 0⟩
      if (b.mask.isSome && b.mask ≠ some v) || v = 0#32 || !maskBelow v gr.lr.teamGroups || !bitAt v g.slot then .plain s 0x24#8
      else (s.updTeam g.team fun x => { x with tb := x.tb.set n.toNat ⟨some v, false, 0⟩ }).waitAt st t (.tb n.toNat)
    | _, _ => .plain s 0x24#8

/-- Another group of the team has already arrived (R247). -/
def State.otherAt (s : State) (g : Group) (w : WaitOn) : Bool := (s.groupsOf g.team).any fun x => x.id != g.id && s.groupAt x w

/-- `CBAR` (R247, R248). -/
def execCbar (n : BitVec 4) (m : Opnd) (s : State) : Host.Outcome State Fault Refusal :=
  s.memberUnit m fun st s g t _ v =>
    match s.team? g.team, s.grid? g.grid with
    | some tm, some gr =>
      match s.cluster? tm.cluster with
      | none => .plain s 0x24#8
      | some c =>
        let b := c.cb.getD n.toNat ⟨none, false, 0⟩
        if (b.mask.isSome && b.mask ≠ some v) || v = 0#32 || !maskBelow v (gr.lr.clw * gr.lr.clh)
            || !bitAt v (rankBit gr.lr.clw tm) || s.otherAt g (.cb n.toNat) then .plain s 0x24#8
        else (s.updCluster c.id fun x => { x with cb := x.cb.set n.toNat ⟨some v, b.releasing, b.openedAt⟩ }).waitAt st t (.cb n.toNat)
    | _, _ => .plain s 0x24#8

/-- `GBAR` (R127, R247, R248): only in a cooperative grid. -/
def execGbar (n : BitVec 4) (m : Opnd) (s : State) : Host.Outcome State Fault Refusal :=
  s.memberUnit m fun st s g t _ v =>
    match s.team? g.team, s.grid? g.grid with
    | some tm, some gr =>
      let b := gr.gb.getD n.toNat ⟨none, false, 0⟩
      if gr.lr.flags / 2 % 2 ≠ 1 || (b.mask.isSome && b.mask ≠ some v) || v = 0#32 || !maskBelow v (gr.lr.clw * gr.lr.clh)
          || !bitAt v (rankBit gr.lr.clw tm) || s.otherAt g (.gb n.toNat) then .plain s 0x24#8
      else (s.updGrid gr.id fun x => { x with gb := x.gb.set n.toNat ⟨some v, b.releasing, b.openedAt⟩ }).waitAt st t (.gb n.toNat)
    | _, _ => .plain s 0x24#8

/-- Every thread of a mask has signed or ended (R252, R353). -/
def allSigned (g : Group) (mask done : Word) : Bool :=
  (List.range 32).all fun i => !bitAt mask i || bitAt done i || match g.thread? i with
    | some th => th.ended
    | none => true

/-- `CVSIGN` (R252). One that faults on a FREE register leaves it FREE (R153): DESIGN CHOICE (log 44). -/
def execCvsign (n : BitVec 4) (m : Opnd) (pd : BitVec 3) (s : State) : Host.Outcome State Fault Refusal :=
  s.memberUnit m fun st s g t _ v =>
    match s.team? g.team with
    | none => .plain s 0x23#8
    | some tm =>
      let sign := fun (mask done : Word) (owner : Nat) =>
        if owner ≠ g.id || !bitAt v t || bitAt done t then SRes.plain s 0x23#8
        else if v ≠ mask then .plain s 0x24#8
        else
          let done := done ||| (1#32 <<< t)
          let last := allSigned g mask done
          .ok ((s.updTeam g.team fun x => { x with cv := x.cv.set n.toNat (if last then .free else .signing mask done owner) }).updThread
            st.grp t fun th => wrP th pd last)
      match tm.cv.getD n.toNat .free with
      | .bound _ => .plain s 0x23#8
      | .free => if v = 0#32 then .plain s 0x24#8 else sign v 0#32 g.id
      | .signing mask done owner => sign mask done owner

/-- A ring descriptor (R253): producer, consumer and SC, where it is valid for a team of `k` groups. -/
def ringDesc (w : Word) (k : Nat) : Option (Nat × Nat × Nat) :=
  let p := field w.toNat 4 0
  let c := field w.toNat 9 5
  let sc := field w.toNat 12 10
  if sc = 0 || w.toNat ≥ 2 ^ 13 || p = c || p ≥ k || c ≥ k then none else some (p, c, sc)

/-- The checks of a ring instruction (R253, R254): the ring as bound by it, or the fault. -/
def State.ringCheck (s : State) (g : Group) (n : Nat) (stage : Nat) (phase : Bool) (v : Word) : Except (BitVec 8) Ring :=
  match s.team? g.team, s.grid? g.grid with
  | some tm, some gr =>
    let r := tm.rings.getD n ⟨none, 0#8, []⟩
    if r.desc.isSome && r.desc ≠ some v then .error 0x24#8
    else match ringDesc v gr.lr.teamGroups with
      | none => .error 0x24#8
      | some (p, c, sc) =>
        if g.slot ≠ p && g.slot ≠ c then .error 0x24#8
        else if stage > sc then .error 0x25#8
        else if (!phase && g.slot ≠ p) || (phase && g.slot ≠ c) then .error 0x25#8
        else .ok { r with desc := some v }
  | _, _ => .error 0x24#8

/-- `RINGWAIT` (R254). -/
def execRingwait (n : BitVec 4) (stage : BitVec 3) (phase : BitVec 1) (m : Opnd) (s : State) : Host.Outcome State Fault Refusal :=
  s.memberUnit m fun st s g t _ v =>
    match s.ringCheck g n.toNat stage.toNat (phase == 1#1) v with
    | .error c => .plain s c
    | .ok r =>
      let s := s.updTeam g.team fun x => { x with rings := x.rings.set n.toNat r }
      if r.phase.getLsbD stage.toNat == (phase == 1#1) then .ok s
      else s.waitAt st t (.ring n.toNat stage.toNat (phase == 1#1))

/-- A stage handed on (R255). -/
def Ring.pass (r : Ring) (stage clk : Nat) : Ring :=
  { r with phase := r.phase ^^^ (1#8 <<< stage), passed := assocSet r.passed stage clk }

/-- `RINGPASS` (R255, R256): a stage passed in this clk is not passed again in it (R262 item 4); at the group's first thread. As a release it waits until the group's accesses have taken their
places; the group released acquires them. -/
def execRingpass (n : BitVec 4) (stage : BitVec 3) (phase : BitVec 1) (m : Opnd) (s : State) : Host.Outcome State Fault Refusal :=
  s.memberUnit m fun _ s g _ first v =>
    if !first then .ok s
    else match s.ringCheck g n.toNat stage.toNat (phase == 1#1) v with
      | .error c => .plain s c
      | .ok r =>
        if r.phase.getLsbD stage.toNat != (phase == 1#1) || assoc r.passed stage.toNat == some s.dev.clk then .plain s 0x25#8
        else if !s.memSettled g then .stop s
        else
          let s := s.updTeam g.team fun x => { x with rings := x.rings.set n.toNat (r.pass stage.toNat s.dev.clk) }
          let w := WaitOn.ring n.toNat stage.toNat (phase != 1#1)
          let other := fun (x : Group) => x.team == g.team && (ringDesc v 32).any fun (p, c, _) => x.slot == p || x.slot == c
          let s := s.onDev fun d => { d with groups := updIf other (fun x => { x with pts := max x.pts g.pts }) d.groups }
          .ok (s.releaseAt (fun x => x.team == g.team) (fun _ => false) w)

end Sys2Proof.Machine
end

