-- ==== Sys2Proof/Machine/Flags.lean ====
section
/-! DEFINITION. Numbers and their flags: the IEEE formats, exact values, the one rounding (R69 to R78, R187 to R189),
MK8 and the integers of a slot (R72 to R74, R82), integral rounding and conversion (R196, R202). -/

namespace Sys2Proof.Machine

/-- The exception flags (R188). -/
abbrev FFlags := BitVec 6
def flagIV : FFlags := 1#6
def flagDZ : FFlags := 2#6
def flagOF : FFlags := 4#6
def flagUF : FFlags := 8#6
def flagNX : FFlags := 16#6
def flagST : FFlags := 32#6

/-- A binary format (R69): significand bits with the hidden one, exponent bits. -/
structure Fmt where
  p : Nat
  ebits : Nat
deriving DecidableEq, Repr

def fp32 : Fmt := ⟨24, 8⟩
def fp16 : Fmt := ⟨11, 5⟩
def bf16 : Fmt := ⟨8, 8⟩

def Fmt.bias (f : Fmt) : Int := 2 ^ (f.ebits - 1) - 1
def Fmt.emin (f : Fmt) : Int := 1 - f.bias
/-- The exponent of the smallest subnormal. -/
def Fmt.qmin (f : Fmt) : Int := f.emin - (f.p - 1 : Nat)
/-- Bits of the infinity, the largest finite magnitude, the canonical NaN and the sign (R69). -/
def Fmt.inf (f : Fmt) : Nat := (2 ^ f.ebits - 1) * 2 ^ (f.p - 1)
def Fmt.maxFin (f : Fmt) : Nat := f.inf - 1
def Fmt.nan (f : Fmt) : Nat := f.inf + 2 ^ (f.p - 2)
def Fmt.signBit (f : Fmt) : Nat := 2 ^ (f.p - 1 + f.ebits)

/-- An exact value: NaN, an infinity, or ± m × 2^e (a zero has a sign). -/
inductive Ex where
  | nan
  | inf (neg : Bool)
  | num (neg : Bool) (m : Nat) (e : Int)
deriving DecidableEq, Repr

/-- The value that bits of a format hold (R69). -/
def Fmt.decode (f : Fmt) (b : Nat) : Ex :=
  let neg := b / f.signBit % 2 == 1
  let x := b % f.signBit
  let ex := x / 2 ^ (f.p - 1)
  let fr := x % 2 ^ (f.p - 1)
  if ex = 2 ^ f.ebits - 1 then (if fr = 0 then .inf neg else .nan)
  else if ex = 0 then .num neg fr f.qmin
  else .num neg (fr + 2 ^ (f.p - 1)) (f.qmin + ((ex : Int) - 1))

/-- The rounding of `2q + r/2^s`-like remainders: whether the magnitude rounds up (R75). -/
def roundUp (mode : BitVec 2) (neg : Bool) (q rem half : Nat) : Bool :=
  if rem = 0 then false
  else match mode with
    | 0#2 => decide (rem > half) || (rem == half && q % 2 == 1)
    | 1#2 => false
    | 2#2 => !neg
    | _ => neg

/-- A magnitude m × 2^e rounded to a multiple of 2^q: the multiple, and whether it differs. -/
def roundAt (mode : BitVec 2) (neg : Bool) (m : Nat) (e q : Int) : Nat × Bool :=
  if q ≤ e then (m * 2 ^ (e - q).toNat, false)
  else
    let s := (q - e).toNat
    let k := m / 2 ^ s
    let rem := m % 2 ^ s
    (if roundUp mode neg k rem (2 ^ (s - 1)) then k + 1 else k, rem != 0)

/-- The bits of k × 2^q, with q at or above the smallest subnormal's exponent and k below 2^p. -/
def Fmt.encode (f : Fmt) (neg : Bool) (k : Nat) (q : Int) : Nat :=
  let (k, q) := if k = 2 ^ f.p then (2 ^ (f.p - 1), q + 1) else (k, q)
  let mag := if k < 2 ^ (f.p - 1) then k else ((q - f.qmin).toNat + 1) * 2 ^ (f.p - 1) + (k - 2 ^ (f.p - 1))
  (if neg then f.signBit else 0) + mag

/-- A magnitude k × 2^q, rounded with unbounded exponent, lies beyond the largest finite one. -/
def Fmt.beyond (f : Fmt) (k : Nat) (q : Int) : Bool :=
  decide (k ≥ 2 ^ (f.p - 1)) && decide ((if k = 2 ^ f.p then q + f.p else q + (f.p - 1 : Nat)) > f.bias)

/-- A value overflows a format in a mode, an infinity included (R75, R82). -/
def Fmt.overflows (f : Fmt) (mode : BitVec 2) : Ex → Bool
  | .nan => false
  | .inf _ => true
  | .num neg m e =>
    let q := max ((Nat.log2 m : Int) + e - (f.p - 1 : Nat)) f.qmin
    m != 0 && f.beyond (roundAt mode neg m e q).1 q

/-- A finite nonzero magnitude rounded to a format (R75, R76): the bits, whether they are an infinity, whether they differ
from the value, and whether the value rounded with unbounded exponent lies below the smallest normal (R187). -/
def Fmt.round (f : Fmt) (mode : BitVec 2) (neg : Bool) (m : Nat) (e : Int) : Nat × Bool × Bool × Bool :=
  let top : Int := (Nat.log2 m : Int) + e
  let q0 := top - (f.p - 1 : Nat)
  let (k0, _) := roundAt mode neg m e q0
  let tiny := decide (top < f.emin) && !(k0 == 2 ^ f.p && top + 1 == f.emin)
  let q := max q0 f.qmin
  let (k, nx) := roundAt mode neg m e q
  let sgn := if neg then f.signBit else 0
  if f.beyond k q then
    let toInf := match mode with
      | 0#2 => true
      | 1#2 => false
      | 2#2 => !neg
      | _ => neg
    if toInf then (sgn + f.inf, true, true, false) else (sgn + f.maxFin, false, true, false)
  else (f.encode neg k q, false, nx, tiny)

/-- `Result(x, fmt, mode, sat)` of R187: the bits and the flags raised. -/
def Fmt.result (f : Fmt) (mode : BitVec 2) (sat : Bool) : Ex → Nat × FFlags
  | .nan => (f.nan, 0#6)
  | .inf neg =>
    let sgn := if neg then f.signBit else 0
    if sat then (sgn + f.maxFin, flagST) else (sgn + f.inf, 0#6)
  | .num neg m e =>
    if m = 0 then (if neg then f.signBit else 0, 0#6)
    else
      let (b, inf, nx, tiny) := f.round mode neg m e
      let sgn := if neg then f.signBit else 0
      if inf then (if sat then (sgn + f.maxFin, flagST ||| flagNX) else (b, flagOF ||| flagNX))
      else (b, (if nx then flagNX else 0#6) ||| (if nx && tiny then flagUF else 0#6))

/-- `RoundF32` (R12), no flags. -/
def roundF32 (mode : BitVec 2) (x : Ex) : Word := BitVec.ofNat 32 (fp32.result mode false x).1

/-- The value of an FP32 register. -/
def val32 (w : Word) : Ex := fp32.decode w.toNat

/-! ## Exact operations, with the invalid and divide-by-zero they raise (R77, R78, R189, R194) -/

/-- A signed integer times a power of two, as an exact value; a zero takes the sign given. -/
def exOfInt (x : Int) (e : Int) (zneg : Bool) : Ex :=
  if x = 0 then .num zneg 0 0 else .num (decide (x < 0)) x.natAbs e

/-- The signed integer of ± m. -/
def sgnInt (neg : Bool) (m : Nat) : Int := if neg then -(m : Int) else m

/-- An exact sum (R78). -/
def exAdd (mode : BitVec 2) : Ex → Ex → Ex × FFlags
  | .nan, _ => (.nan, 0#6)
  | _, .nan => (.nan, 0#6)
  | .inf a, .inf b => if a == b then (.inf a, 0#6) else (.nan, flagIV)
  | .inf a, _ => (.inf a, 0#6)
  | _, .inf b => (.inf b, 0#6)
  | .num a m e, .num b n k =>
    let q := min e k
    let x := sgnInt a (m * 2 ^ (e - q).toNat) + sgnInt b (n * 2 ^ (k - q).toNat)
    (exOfInt x q (if m = 0 && n = 0 && a == b then a else mode == 3#2), 0#6)

/-- A value negated. -/
def exNeg : Ex → Ex
  | .nan => .nan
  | .inf a => .inf (!a)
  | .num a m e => .num (!a) m e

/-- An exact product. -/
def exMul : Ex → Ex → Ex × FFlags
  | .nan, _ => (.nan, 0#6)
  | _, .nan => (.nan, 0#6)
  | .inf a, .inf b => (.inf (xor a b), 0#6)
  | .inf a, .num b n _ => if n = 0 then (.nan, flagIV) else (.inf (xor a b), 0#6)
  | .num a m _, .inf b => if m = 0 then (.nan, flagIV) else (.inf (xor a b), 0#6)
  | .num a m e, .num b n k => (.num (xor a b) (m * n) (e + k), 0#6)

/-- A product and a sum, exact (R197). -/
def exFma (mode : BitVec 2) (a b c : Ex) : Ex × FFlags :=
  let (p, f) := exMul a b
  let (x, g) := exAdd mode p c
  (x, f ||| g)

/-- A quotient (R194 item 2), with a sticky bit far below the precision of every format: it has at least 65 bits, whatever the operands. -/
def exDiv : Ex → Ex → Ex × FFlags
  | .nan, _ => (.nan, 0#6)
  | _, .nan => (.nan, 0#6)
  | .inf _, .inf _ => (.nan, flagIV)
  | .inf a, .num b _ _ => (.inf (xor a b), 0#6)
  | .num a _ _, .inf b => (.num (xor a b) 0 0, 0#6)
  | .num a m e, .num b n k =>
    if n = 0 then (if m = 0 then (.nan, flagIV) else (.inf (xor a b), flagDZ))
    else if m = 0 then (.num (xor a b) 0 0, 0#6)
    else
      let d := 66 + Nat.log2 n
      let x := m * 2 ^ d
      (.num (xor a b) (2 * (x / n) + if x % n = 0 then 0 else 1) (e - k - (d + 1 : Nat)), 0#6)

/-- The integer square root, bit by bit from bit `i - 1` down. -/
def isqrtFrom (n : Nat) : Nat → Nat → Nat
  | 0, r => r
  | i + 1, r => if (r + 2 ^ i) * (r + 2 ^ i) ≤ n then isqrtFrom n i (r + 2 ^ i) else isqrtFrom n i r

/-- The integer square root. -/
def isqrt (n : Nat) : Nat := isqrtFrom n (Nat.log2 n / 2 + 1) 0

/-- A square root (R194 item 3), with a sticky bit. -/
def exSqrt : Ex → Ex × FFlags
  | .nan => (.nan, 0#6)
  | .inf a => if a then (.nan, flagIV) else (.inf false, 0#6)
  | .num a m e =>
    if m = 0 then (.num a 0 0, 0#6)
    else if a then (.nan, flagIV)
    else
      let (m, e) := if e % 2 = 0 then (m, e) else (2 * m, e - 1)
      let x := m * 2 ^ 64
      let r := isqrt x
      (.num false (2 * r + if r * r = x then 0 else 1) (e / 2 - 33), 0#6)

/-- A key that orders numbers by value, −0 below +0 (R77). -/
def Fmt.key (f : Fmt) (b : Nat) : Int := if b / f.signBit % 2 == 1 then -(b % f.signBit : Nat) - 1 else (b % f.signBit : Nat)

def Fmt.isNaN (f : Fmt) (b : Nat) : Bool := decide (b % f.signBit > f.inf)

/-- minimumNumber and maximumNumber on the bits of a format (R77). -/
def Fmt.minNum (f : Fmt) (a b : Nat) : Nat :=
  if f.isNaN a then (if f.isNaN b then f.nan else b)
  else if f.isNaN b then a
  else if f.key a ≤ f.key b then a else b
def Fmt.maxNum (f : Fmt) (a b : Nat) : Nat :=
  if f.isNaN a then (if f.isNaN b then f.nan else b)
  else if f.isNaN b then a
  else if f.key a ≤ f.key b then b else a

/-- The sign cleared or changed; a NaN becomes the canonical one (R194 item 5). -/
def Fmt.abs (f : Fmt) (a : Nat) : Nat := if f.isNaN a then f.nan else a % f.signBit
def Fmt.neg (f : Fmt) (a : Nat) : Nat := if f.isNaN a then f.nan else if a ≥ f.signBit then a - f.signBit else a + f.signBit

def isNaN32 (w : Word) : Bool := fp32.isNaN w.toNat
/-- A key that orders FP32 numbers by value, the zeros equal (R177). -/
def order32 (w : Word) : Int := if w.toNat ≥ 2 ^ 31 then -(w.toNat - 2 ^ 31 : Nat) else w.toNat

/-! ## Integral rounding (R196, R202) -/

/-- A finite value rounded to an integral one: the magnitude, and whether it differs. -/
def integral (mode : BitVec 2) (neg : Bool) (m : Nat) (e : Int) : Nat × Bool := roundAt mode neg m e 0

/-- `FRND` (R196): the exact value to form the result from. -/
def exRnd (mode : BitVec 2) : Ex → Ex
  | .num neg m e => .num neg (integral mode neg m e).1 0
  | x => x

/-- `FFRACT` (R196): x − floor(x). -/
def exFract : Ex → Ex × FFlags
  | .nan => (.nan, 0#6)
  | .inf _ => (.nan, flagIV)
  | .num neg m e =>
    if 0 ≤ e then (.num false 0 0, 0#6)
    else
      let u := 2 ^ (-e).toNat
      let r := m % u
      (.num false (if neg && r != 0 then u - r else r) e, 0#6)

/-- A conversion to an integer type of bounds lo and hi, with its default for what does not fit (R202). -/
def toIntType (mode : BitVec 2) (sat : Bool) (lo hi dflt : Int) : Ex → Int × FFlags
  | .nan => if sat then (0, flagST) else (dflt, flagIV)
  | .inf neg => if sat then (if neg then lo else hi, flagST) else (dflt, flagIV)
  | .num neg m e =>
    let (k, nx) := integral mode neg m e
    let n := sgnInt neg k
    if n < lo then (if sat then (lo, flagST) else (dflt, flagIV))
    else if n > hi then (if sat then (hi, flagST) else (dflt, flagIV))
    else (n, if nx then flagNX else 0#6)

/-! ## MK8 (R72 to R74) -/

/-- The run of bits equal to bit 6, from bit 6 down (R72). -/
def k8Run (c : Nat) : Nat → Nat → Nat
  | 0, r => r
  | n + 1, r => if r < 7 && field c (6 - r) (6 - r) == field c 6 6 then k8Run c n (r + 1) else r

/-- The magnitude of a nonzero code, in units of 2^-6 (R72). -/
def k8Mag (c : Nat) : Nat :=
  let r := k8Run c 6 1
  let k : Int := if field c 6 6 = 1 then (r : Int) - 1 else -(r : Int)
  let w := if r < 7 then 6 - r else 0
  let fr := c % 2 ^ w
  (2 ^ w + fr) * 2 ^ (k + 6 - w).toNat

/-- `DecodeK8` (R72, R73); NaR decodes as NaN. -/
def decodeK8 (b : Nat) : Ex :=
  let c := b % 128
  if c = 0 then (if b / 128 % 2 = 0 then .num false 0 0 else .nan) else .num (b / 128 % 2 == 1) (k8Mag c) (-6)

/-- How an MK8 encoding comes out (R74). -/
inductive K8Res where
  | byte (b : Nat) (under nx : Bool)
  | nar
  | overflow (neg : Bool)
deriving DecidableEq, Repr

/-- The largest code whose magnitude is at most x/y, in units of 2^-6. -/
def k8Floor (x y : Nat) : Nat := ((List.range 128).filter fun c => c == 0 || decide (k8Mag c * y ≤ x)).length - 1

/-- `EncodeK8` before the overflow policy (R74). -/
def encodeK8 : Ex → K8Res
  | .nan => .nar
  | .inf neg => .overflow neg
  | .num neg m e =>
    if m = 0 then .byte 0 false false
    else
      let x := m * 64 * 2 ^ e.toNat
      let y := 2 ^ (-e).toNat
      if x > 4096 * y then .overflow neg
      else
        let c := k8Floor x y
        let lo := if c = 0 then 0 else k8Mag c
        let exact := x == lo * y
        let c' := if exact || c = 127 then c
          else
            let hi := k8Mag (c + 1)
            if 2 * x < (lo + hi) * y then c else if 2 * x > (lo + hi) * y then c + 1 else if c % 2 = 0 then c else c + 1
        if c' = 0 then .byte 0 true true else .byte (c' + if neg then 128 else 0) false (!exact)

/-- A value written to INT8 (R82): the byte, SAT, NAR, and whether it differs. -/
def encodeS8 (mode : BitVec 2) : Ex → Nat × Bool × Bool × Bool
  | .nan => (0, false, true, false)
  | .inf neg => (if neg then 128 else 127, true, false, false)
  | .num neg m e =>
    let (k, nx) := integral mode neg m e
    let n := sgnInt neg k
    if n < -128 then (128, true, false, true) else if n > 127 then (127, true, false, true)
    else ((n % 256).toNat, false, false, nx)

end Sys2Proof.Machine
end

