-- ==== Sys2Proof/Machine/Slot.lean ====
section
/-! DEFINITION. Store queues (R290), atomic operations (R308), and writing through a format slot with its outlier list
(R79 to R87). -/

namespace Sys2Proof.Machine

/-! ## Atomics (R308) -/

/-- The size of an atomic (R308). -/
def AtomOp.size : AtomOp → Nat
  | .addS64 | .exch64 | .cas64 => 8
  | _ => 4

/-- The new value that an atomic writes (R308). -/
def AtomOp.apply (op : AtomOp) (old b cmp : BitVec 64) : BitVec 64 :=
  let o : Word := old.extractLsb' 0 32
  let x : Word := b.extractLsb' 0 32
  let w : Word := match op with
    | .addS32 => o + x
    | .addF32 => roundF32 0#2 (exAdd 0#2 (val32 o) (val32 x)).1
    | .minS32 => if o.toInt ≤ x.toInt then o else x
    | .minN32 => if o.toNat ≤ x.toNat then o else x
    | .maxS32 => if o.toInt ≤ x.toInt then x else o
    | .maxN32 => if o.toNat ≤ x.toNat then x else o
    | .and32 => o &&& x
    | .or32 => o ||| x
    | .xor32 => o ^^^ x
    | .exch32 => x
    | .cas32 => if o = cmp.extractLsb' 0 32 then x else o
    | _ => 0#32
  match op with
  | .addS64 => old + b
  | .exch64 => b
  | .cas64 => if old = cmp then b else old
  | _ => w.zeroExtend 64

/-- An atomic at its home: the old value, and the store of the new one at its timestamp (R287, R309). -/
def State.homeAtomic (s : State) (pts pa : Nat) (op : AtomOp) (b cmp : BitVec 64) : State × BitVec 64 × Nat :=
  let old := BitVec.ofNat 64 (s.natAt pa op.size)
  let (s, t) := s.homeStore pts pa (bytesOfNat (op.apply old b cmp).toNat op.size)
  (s, old, t)

/-! ## Store queues (R290) -/

/-- The group's store queue has room for another of its 16 entries: those that have left (`left`, the unacknowledged-store
counter) take none. -/
def State.sqRoom (s : State) (gid : Nat) : Bool :=
  match s.group? gid with
  | some g => decide (g.sq.length < 16 + g.left)
  | none => false

/-- An entry at the end of the group's store queue. -/
def State.pushSq (s : State) (gid t : Nat) (loc : Loc) (op : SqOp) : State :=
  let (n, s) := s.fresh
  s.updGroup gid fun g => { g with sq := g.sq ++ [⟨n, t, loc, op⟩] }

/-- A store enters the queue, and the oldest entry there leaves for its home while the next thread is streamed (log 15). -/
def State.queueStore (s : State) (gid t : Nat) (loc : Loc) (op : SqOp) : State :=
  (s.pushSq gid t loc op).updGroup gid fun g => { g with left := min g.sq.length (g.left + 1) }

/-! ## Format slots (R79 to R82) -/

/-- A format slot is valid (R80). -/
def FmtSlot.valid (f : FmtSlot) : Bool :=
  decide (f.fmt ≤ 4) && f.resv == 0 && (!(f.ovf == 1 || f.ovf == 2) || (f.fmt == 3 && f.olbase != 0))
    && (f.ovf != 3 || decide (f.fmt ≤ 2)) && (f.fmt != 3 || f.rnd == 0)
    && (f.scale != 0 || f.scaleref == 0) && (f.scale != 1 || decide (f.scaleref < 2 ^ 32))

/-- A format slot from its 16 bytes (R79). -/
def fmtSlotOf (b : List Byte) : FmtSlot :=
  let n := natOfBytes b
  { fmt := field n 2 0, scale := field n 4 3, rnd := field n 6 5, ovf := field n 8 7, resv := field n 11 9,
    cap := field n 31 12, olbase := field n 76 32, scaleref := field n 127 77 }

/-- Bytes of an element of a slot's format. -/
def FmtSlot.bytes (f : FmtSlot) : Nat := if f.fmt = 0 then 4 else if f.fmt ≤ 2 then 2 else 1

/-- The IEEE format of a slot's element format. -/
def FmtSlot.ieee (f : FmtSlot) : Fmt := if f.fmt = 0 then fp32 else if f.fmt = 1 then bf16 else fp16

/-- An element's decoded value (R72, R73, R81). -/
def FmtSlot.decode (f : FmtSlot) (x : Nat) : Ex :=
  if f.fmt = 3 then decodeK8 x
  else if f.fmt = 4 then exOfInt (signed 8 x) 0 false
  else f.ieee.decode x

/-- What a value becomes in a slot's format (R82): the element, the slot flags it sets, whether it differs from the value
other than by becoming a NaN, and the sign of an MK8 overflow that goes to the outlier list. -/
structure SlotOut where
  elem : Nat
  flags : Nat
  nx : Bool
  out : Option Bool
deriving DecidableEq, Repr

def slotSAT : Nat := 1
def slotFULL : Nat := 2
def slotNAR : Nat := 4
def slotUNDER : Nat := 8

/-- A value written into a slot's format (R82). -/
def FmtSlot.encode (f : FmtSlot) (x : Ex) : SlotOut :=
  if f.fmt = 3 then
    match encodeK8 x with
    | .nar => ⟨0x80, slotNAR, false, none⟩
    | .byte b under nx => ⟨b, if under then slotUNDER else 0, nx, none⟩
    | .overflow neg =>
      if f.ovf = 0 then ⟨0x7F + if neg then 128 else 0, slotSAT, true, none⟩ else ⟨0, 0, false, some neg⟩
  else if f.fmt = 4 then
    let (b, sat, nar, nx) := encodeS8 (BitVec.ofNat 2 f.rnd) x
    ⟨b, (if sat then slotSAT else 0) + (if nar then slotNAR else 0), sat || nx, none⟩
  else
    let mode := BitVec.ofNat 2 f.rnd
    let (b, fl) := f.ieee.result mode (f.ovf == 0) x
    let sat := f.ovf == 0 && f.ieee.overflows mode x
    ⟨b, (if sat then slotSAT else 0) + (if x = .nan then slotNAR else 0), sat || fl &&& flagNX ≠ 0#6, none⟩

/-- The per-tensor scale of a slot, 1 where it has none (R81). -/
def FmtSlot.tensorScale (f : FmtSlot) : Ex := if f.scale = 1 then fp32.decode f.scaleref else .num false 1 0

/-! ## Outlier lists (R83, R84, R86, R87) -/

/-- How an append comes out. -/
inductive AppRes where
  | done (ts : Nat)
  | full
  | fault (code : BitVec 8) (va : Nat)
  | wait (va : Nat)
deriving DecidableEq, Repr

/-- Where a slot's list lies. -/
def FmtSlot.listVa (f : FmtSlot) : Nat := f.olbase * 4096

/-- An append to a slot's list (R84): WIDX and the record, as one step at its home. -/
def State.appendOutlier (s : State) (core ctx eng : Nat) (f : FmtSlot) (row col : Nat) (value : Word) (pts : Nat) :
    State × AppRes :=
  match s.engRange (some core) ctx eng f.listVa 4 .list with
  | (s, .fault c v, _) => (s, .fault c v)
  | (s, .wait v, _) => (s, .wait v)
  | (s, .ok _, hd) =>
    let n := natOfBytes (hd.foldl (fun l (pa, len, _) => l ++ s.bytesAt pa len) [])
    if n ≥ f.cap then (s, .full)
    else
      let va := f.listVa + 64 + 12 * n
      match s.engWrite (some core) ctx eng va (bytesOfNat row 4 ++ bytesOfNat col 4 ++ bytesOfNat value.toNat 4) .list pts with
      | (s, .fault c v, _) => (s, .fault c v)
      | (s, .wait v, _) => (s, .wait v)
      | (s, .ok _, t1) =>
        match s.engWrite (some core) ctx eng f.listVa (bytesOfNat (n + 1) 4) .list t1 with
        | (s, .ok _, t2) => (s, .done t2)
        | (s, .fault c v, _) => (s, .fault c v)
        | (s, .wait v, _) => (s, .wait v)

/-- The flags word of a slot ORed by an engine (R86), with the timestamp taken; discarded where the slot has no region (R87). -/
def State.orSlotFlags (s : State) (core ctx eng : Nat) (f : FmtSlot) (flags pts : Nat) : State × EngRes × Nat :=
  if flags = 0 || f.olbase = 0 then (s, .ok .nil, pts)
  else
    match s.engRange (some core) ctx eng (f.listVa + 4) 4 .list with
    | (s, .ok e, [(pa, _, _)]) =>
      let (s, _, t) := s.homeAtomic pts pa .or32 (BitVec.ofNat 64 flags) 0#64
      (s, .ok e, t)
    | (s, r, _) => (s, r, pts)

end Sys2Proof.Machine
end

