-- ==== Sys2Proof/Machine/Tile.lean ====
section
/-! DEFINITION. Tile handles: their shape, storage, presence and consumer counts (R318 to R322, R335). -/

namespace Sys2Proof.Machine

/-- The row pitch of a handle (R318): ROWB rounded up to a power of two, at least 16. -/
def pitchOf (rowb : Nat) : Nat := max 16 (2 ^ (List.range 13).countP fun k => decide (2 ^ k < rowb))

/-- The row pitch of a handle. -/
def Handle.pitch (h : Handle) : Nat := pitchOf h.rowb
/-- Bytes of a handle's byte space (R318). -/
def Handle.size (h : Handle) : Nat := h.rows * h.pitch
/-- Lines of a shape (R318). -/
def linesOfShape (rows rowb : Nat) : Nat := (rows * pitchOf rowb + 127) / 128
/-- Lines of a handle (R318). -/
def Handle.lineCount (h : Handle) : Nat := linesOfShape h.rows h.rowb

/-- A handle of a team. -/
def State.handleOf (s : State) (team h : Nat) : Option Handle := (s.team? team).bind fun t => t.handle? h

def State.updHandle (s : State) (team h : Nat) (f : Handle → Handle) : State := s.updTeam team fun t => t.updHandle h f

/-! ## What handles draw on (R319, R320) -/

/-- The shape of a cluster, in teams. -/
def State.teamsPerCluster (s : State) (t : Team) : Nat := ((s.grid? t.grid).map fun g => g.lr.clw * g.lr.clh).getD 1

/-- The rank of a team in its cluster (R127). -/
def State.rankOf (s : State) (t : Team) : Nat := t.rj * ((s.grid? t.grid).map fun g => g.lr.clw).getD 1 + t.ri

/-- Lines n below `n` with n mod `k` = `r`. -/
def shareOf (n k r : Nat) : Nat := (n + k - 1 - r) / k

/-- Lines of a team's TLINES reservation that handles draw (R319): its own at level 0, its cluster's at level 1. -/
def State.linesDrawn (s : State) (t : Team) : Nat :=
  ((t.handles.filter fun h => h.level == 0).map fun h => h.lineCount).sum +
  ((s.dev.teams.filter fun x => x.cluster == t.cluster).map fun x =>
    ((x.handles.filter fun h => h.level == 1).map fun h => shareOf h.lineCount (s.teamsPerCluster t) (s.rankOf t)).sum).sum

/-- L2USED of a core (R319, R336). -/
def State.l2Used (s : State) (core : Nat) : Nat :=
  ((s.dev.teams.filter fun t => t.core == core && t.st != .saved).map fun t =>
    ((t.handles.filter fun h => h.level == 2).map fun h => h.lineCount).sum).sum

/-- TLINES of a team's grid. -/
def State.tlinesOf (s : State) (t : Team) : Nat := ((s.grid? t.grid).map fun g => g.lr.tlines).getD 0

/-- The level can supply `n` lines to a team (R319, R325); a slice holds 3 MiB, whatever L2LINES allows (R21, R336). -/
def State.canSupply (s : State) (t : Team) (level n : Nat) : Bool :=
  if level = 0 then decide (s.linesDrawn t + n ≤ s.tlinesOf t)
  else if level = 1 then
    (s.dev.teams.filter fun x => x.cluster == t.cluster).all fun x =>
      decide (s.linesDrawn x + shareOf n (s.teamsPerCluster t) (s.rankOf x) ≤ s.tlinesOf x)
  else if level = 2 then decide (s.l2Used t.core + n ≤ min (s.core t.core).l2lines Config.l2SliceLines)
  else false

/-- A handle allocated (R325), every line present and zero (R321 item 1); `none` where it cannot be. -/
def State.allocHandle (s : State) (team h rows rowb level : Nat) : Option State :=
  match s.team? team with
  | none => none
  | some t =>
    let most := ((s.grid? t.grid).map fun g => g.lr.handles).getD 0
    if (t.handle? h).isSome || t.handles.length ≥ most || !s.canSupply t level (linesOfShape rows rowb) then none
    else some (s.updTeam team fun t => { t with handles := t.handles ++ [⟨h, rows, rowb, level, [], [], 0⟩] })

/-! ## Lines, and the threads parked on them (R321, R335) -/

/-- Threads of a team parked on a line run again. -/
def State.freeLine (s : State) (team h line : Nat) : State := s.unpark (fun g => g.team == team) (.line team h line) id

/-- Every thread of a team parked on a line of a handle runs again. -/
def State.freeLines (s : State) (team h : Nat) : State :=
  let objs := distinct ((s.dev.groups.filter fun g => g.team == team).foldl (fun l g => l ++ g.subs.filter fun o => match o with
    | .line t x _ => t == team && x == h
    | _ => false) [])
  objs.foldl (fun s o => s.unpark (fun g => g.team == team) o id) s

/-- A line set present (R321, R338 item 1). -/
def State.linePresent (s : State) (team h line : Nat) : State :=
  (s.updHandle team h fun x => { x with absent := x.absent.filter (· ≠ line) }).freeLine team h line

/-- Lines made absent (R321 item 2). -/
def State.linesAbsent (s : State) (team h : Nat) (lines : List Nat) : State :=
  s.updHandle team h fun x => { x with absent := distinct (x.absent ++ lines) }

/-- The lines that a copy command may write, known at its issue (R321 item 2). -/
def copyMayWrite (op : CopyOp) (h : Handle) (r0 : Nat) : List Nat :=
  match op with
  | .cpy => (List.range h.lineCount).drop (r0 * h.pitch / 128)
  | .cpyg | .cpfill => List.range h.lineCount
  | .cpst => []

/-- A copy command into or out of a handle is in flight (R326). -/
def State.copyInFlight (s : State) (team h : Nat) : Bool :=
  s.dev.cores.any fun (_, c) => c.cmds.any fun x => x.team == team && x.h == h

/-- The lines that hold a byte of these rows, `width` bytes of each. -/
def rowLines (x : Handle) (first count width : Nat) : List Nat :=
  distinct ((List.range count).foldl (fun l i => l ++ linesOf ((first + i) * x.pitch) width) [])

/-- A drain's target handle whose lines are still to be made absent (R362 item 1). -/
def DrainTo.waitsFor (d : DrainTo) (h : Nat) : Bool :=
  match d with
  | .handle x c => x == h && !c
  | _ => false

def EqKind.waitsFor (k : EqKind) (h : Nat) : Bool :=
  match k with
  | .drain _ d _ none => d.waitsFor h
  | .drain _ d _ (some (d2, _)) => d.waitsFor h || d2.waitsFor h
  | _ => false

def DrainTo.clear (d : DrainTo) (h : Nat) : DrainTo :=
  match d with
  | .handle x c => .handle x (c || x == h)
  | d => d

/-- A drain whose target's lines have been made absent. -/
def EqKind.clear (k : EqKind) (h : Nat) : EqKind :=
  match k with
  | .drain a d f o => .drain a (d.clear h) f (o.map fun (d, f) => (d.clear h, f))
  | k => k

/-- Bytes of an element of a team's format slot. -/
def State.slotBytes (s : State) (team fs : Nat) : Nat :=
  match ((s.team? team).bind fun t => s.grid? t.grid).bind fun g => g.lr.fs[fs]? with
  | some f => f.bytes
  | none => 4

/-- Bytes of an element that a drain writes to a handle. -/
def State.drainBytes (s : State) (team : Nat) (k : EqKind) (h : Nat) : Nat :=
  match k with
  | .drain _ d f o => if d.waitsFor h then s.slotBytes team f else (o.map fun (_, f) => s.slotBytes team f).getD 4
  | _ => 4

/-- CONS of a handle raised by one (R335). -/
def State.consUp (s : State) (team h : Nat) : State := s.updHandle team h fun x => { x with cons := x.cons + 1 }

/-- CONS of a handle lowered by one; at 0 the operands-consumed event: the stores that parked run again, and the refills
that were held clear their bits (R335, R338 item 3). -/
def State.consDown (s : State) (team h : Nat) : State :=
  let s := s.updHandle team h fun x => { x with cons := x.cons - 1 }
  match s.handleOf team h with
  | none => s
  | some x =>
    if x.cons ≠ 0 then s
    else
      let s := s.freeLines team h
      (s.dev.cores.map fun (c, _) => c).foldl (fun s c =>
        let s := (s.core c).cmds.foldl (fun s k =>
          if k.team == team && k.h == h && k.cleared.isNone then
            let l := copyMayWrite k.op x (field k.q3.toNat 15 0)
            (s.linesAbsent team h l).updCore c fun y => { y with cmds := updIf (fun z => z.id == k.id) (fun z => { z with cleared := some l }) y.cmds }
          else s) s
        (s.core c).eq.foldl (fun s e =>
          if e.team == team && e.kind.waitsFor h then
            (s.linesAbsent team h (rowLines x 0 64 (64 * s.drainBytes team e.kind h))).updCore c fun y =>
              { y with eq := updIf (fun z => z.id == e.id) (fun z => { z with kind := z.kind.clear h }) y.eq }
          else s) s) s

/-! ## Bytes of handles, in the memory order (R322) -/

/-- The key of a tile line among the lines' timestamps: above every line of device memory. -/
def tileKey (team h line : Nat) : Nat := 2 ^ 60 + (team * 256 + h) * 2 ^ 25 + line

/-- The keys of the lines that a range of a handle touches. -/
def tileKeys (team h off n : Nat) : List Nat := (linesOf off n).map (tileKey team h)

/-- Bytes stored into a handle (R287, R322); nothing where it has gone. -/
def State.tileStore (s : State) (pts team h off : Nat) (data : List Byte) : State × Nat :=
  match s.handleOf team h with
  | none => (s, pts)
  | some x =>
    let keys := tileKeys team h off data.length
    let t := s.storeTs pts keys
    let d := data.take (x.size - off)
    ((s.updHandle team h fun x => { x with data := msets x.data off d }).onDev fun d =>
      { d with ts := keys.foldl (fun m k => assocSet m k (t, t)) d.ts }, t)

/-- Bytes of a handle stored likewise (R293 item 3, R322). -/
def State.tileStoreLines (s : State) (pts team h : Nat) (cells : List Host.Cell) : State × Nat :=
  (distinct (cells.map fun c => c.1 / 128)).foldl (fun (acc : State × Nat) l =>
    let t := acc.1.storeTs pts [tileKey team h l]
    let here := cells.filter fun c => c.1 / 128 == l
    ((acc.1.updHandle team h fun x => { x with data := here.foldl (fun m c => mset m c.1 c.2) x.data }).onDev fun d =>
      { d with ts := assocSet d.ts (tileKey team h l) (t, t) }, max acc.2 t)) (s, pts)

/-- Free bytes (log 8). -/
def State.freeBytes (s : State) : Nat → State × List Byte
  | 0 => (s, [])
  | n + 1 =>
    let (w, s) := s.freeWord
    let (s, l) := s.freeBytes n
    (s, w.extractLsb' 0 8 :: l)

/-- Bytes read from a handle (R287, R322). Of a handle freed after the access issued, the spec gives no bytes (log 8). -/
def State.tileLoad (s : State) (pts team h off n : Nat) : State × List Byte × Nat :=
  match s.handleOf team h with
  | none => let (s, b) := s.freeBytes n; (s, b, pts)
  | some x =>
    let keys := tileKeys team h off n
    let p := keys.foldl (fun t k => max t (s.lineTs k).1) pts
    (s.onDev fun d => { d with ts := keys.foldl (fun m k =>
        let e := s.lineTs k
        assocSet m k (e.1, max e.2 (max e.1 (pts + s.lease)))) d.ts }, mgets x.data off n, p)

/-- An atomic on a handle's bytes (R308, R322). -/
def State.tileAtomic (s : State) (pts team h off : Nat) (op : AtomOp) (b cmp : BitVec 64) : State × BitVec 64 × Nat :=
  let (s, l, _) := s.tileLoad pts team h off op.size
  let old := BitVec.ofNat 64 (natOfBytes l)
  let (s, t) := s.tileStore pts team h off (bytesOfNat (op.apply old b cmp).toNat op.size)
  (s, old, t)

end Sys2Proof.Machine
end

