-- ==== Sys2Proof/Machine/Access.lean ====
section
/-! DEFINITION. Loads, stores, atomics and `VMV` of threads (R303 to R312), order and wait (R313 to R315), the combining
buffer (R297), and how accesses are performed at their homes (R285 to R291). -/

namespace Sys2Proof.Machine

/-! ## Checks (R304) -/

/-- How the checks of an access come out: the entry and the physical address, or the thread's outcome. -/
inductive AccRes where
  | ok (s : State) (e : TlbEntry) (pa : Nat)
  | out (r : SRes)

/-- The outcome of a walk that gives no leaf, for a thread's access, or one made for it by a unit (`eng`, R275) (R274). -/
def State.noLeaf (s : State) (g : Group) (t va : Nat) (a : Access) (r : WalkRes) (eng : Bool := false) : SRes :=
  match r with
  | .requestable =>
    s.stopOr ((s.requestPage g.ctx (va / 4096) (a.kind eng) none).parkPage g.id t g.ctx va)
  | .absent => .at_ s 0x10#8 va
  | _ => .at_ s 0x11#8 va

/-- The translation and permission of a thread's access (R304 item 4): a TLB miss stops the stream (R150 case 1). -/
def State.accessPage (s : State) (g : Group) (t va : Nat) (a : Access) (eng : Bool := false) : AccRes :=
  match s.translate g.core g.ctx va with
  | .miss => .out (.stop (s.askTlb g.core g.ctx va))
  | .fault c => .out (.at_ (s.useWalk g.core g.ctx va) c va)
  | .park _ => .out ((s.useWalk g.core g.ctx va).noLeaf g t va a .requestable eng)
  | .hit e =>
    if !a.ok e then .out (.at_ s 0x11#8 va)
    else if a.w then
      match s.dirty g.core e with
      | some s => .ok s e (e.pa va)
      | none => .out (.stop ((s.forget g.core e).askTlb g.core g.ctx va))
    else .ok s e (e.pa va)

/-- A misaligned access (R304 item 3): it is translated, and a refusal of its translation is the lower code; it requests nothing. -/
def State.misaligned (s : State) (g : Group) (va : Nat) (a : Access) : SRes :=
  match s.translate g.core g.ctx va with
  | .miss => .stop (s.askTlb g.core g.ctx va)
  | .fault c => .at_ (s.useWalk g.core g.ctx va) c va
  | .park _ => .at_ (s.useWalk g.core g.ctx va) 0x12#8 va
  | .hit e => .at_ s (if a.ok e then 0x12#8 else 0x11#8) va

/-- The checks of a thread's access in their order (R304): `align` is its alignment in bytes. -/
def State.checkAccess (s : State) (g : Group) (t : Nat) (addr : BitVec 64) (align : Nat) (a : Access) : AccRes :=
  let va := addr.toNat
  if va ≥ 2 ^ 57 then .out (.at_ s 0x11#8 va)
  else if va < 4096 then .out (.at_ s 0x11#8 va)
  else if va % align ≠ 0 then .out (s.misaligned g va a)
  else s.accessPage g t va a

/-- The translation and permission of an access that a unit makes for a thread: no instruction of the access chapter, it may be to page 0
(R304 item 2); of a misaligned one's codes the lowest is reported (R16). -/
def State.unitAccess (s : State) (g : Group) (t va align : Nat) (a : Access) : AccRes :=
  if va ≥ 2 ^ 57 then .out (.at_ s 0x11#8 va)
  else if va % align ≠ 0 then .out (s.misaligned g va a)
  else s.accessPage g t va a true

/-! ## The combining buffer (R297) -/

/-- A gathered byte as a cell of memory. -/
def CombByte.cell (b : CombByte) : Host.Cell := (b.addr, b.byte)

/-- Gathered bytes of a core's combining buffer in a range. -/
def State.gathered (s : State) (core pa n : Nat) : List Host.Cell :=
  (((s.core core).comb.map fun x => x.bytes).flatten.filter fun b => pa ≤ b.addr && b.addr < pa + n).map CombByte.cell

/-- A gathered line holds a byte stored by one of these threads of a group. -/
def CombLine.holds (x : CombLine) (gid : Nat) (ts : List Nat) : Bool := x.bytes.any fun b => b.grp == gid && ts.contains b.thread

/-- The group's program timestamp raised. -/
def State.raisePts (s : State) (gid p : Nat) : State := s.updGroup gid fun g => { g with pts := max g.pts p }

/-- A line of gathered bytes stored at its home, all at one timestamp, above the program timestamps of `gid`, which flushes
it, and of the groups that stored them, which rise to it (R287, R297). -/
def State.flushLine (s : State) (gid : Nat) (x : CombLine) : State :=
  let who := fun (g : Group) => g.id == gid || x.bytes.any fun b => b.grp == g.id
  let lines := distinct (x.bytes.map fun b => b.addr / 128)
  let t := s.storeTs ((s.dev.groups.filter who).foldl (fun p g => max p g.pts) 0) lines
  { s with mem := x.bytes.foldl (fun m b => mset m b.addr b.byte) s.mem
           dev := { s.dev with ts := lines.foldl (fun m l => assocSet m l (t, t)) s.dev.ts
                               groups := updIf who (fun g => { g with pts := max g.pts t }) s.dev.groups } }

/-- The lowest free slot of 64, where there is one. -/
def freeSlot (l : List CombLine) : Option Nat := (List.range 64).find? fun n => !(l.any fun x => x.slot == n)

/-- A store gathered into the core's buffer (R297): into its line, or a free slot, or the slot of the line least recently
written, which is flushed first. -/
def State.gather (s : State) (core gid t pa : Nat) (e : TlbEntry) (data : List Byte) : State :=
  let line := pa / 128
  let new := (List.range data.length).map fun i => (⟨pa + i, data.getD i 0#8, gid, t, e.asn, e.page.1, e.page.2⟩ : CombByte)
  let add := fun (x : CombLine) =>
    { x with bytes := x.bytes.filter (fun b => !(pa ≤ b.addr && b.addr < pa + data.length)) ++ new, lastWritten := s.dev.clk }
  let c := s.core core
  if c.comb.any fun x => x.line == line then
    s.updCore core fun c => { c with comb := updIf (fun x => x.line == line) add c.comb }
  else
    match freeSlot c.comb with
    | some n => s.updCore core fun c => { c with comb := c.comb ++ [add ⟨n, line, [], 0⟩] }
    | none =>
      match firstBy (fun x y => decide (x.lastWritten < y.lastWritten || (x.lastWritten = y.lastWritten && x.slot < y.slot))) c.comb with
      | none => s
      | some old =>
        (s.flushLine gid old).updCore core fun c =>
          { c with comb := c.comb.filter (fun x => x.slot != old.slot) ++ [add ⟨old.slot, line, [], 0⟩] }

/-! ## Loads and stores of threads -/

/-- A load's issue for one thread (R305): the checks, then one result through the token. On a W page the policy has no effect. -/
def State.loadThread (s : State) (st : Stream) (t : Nat) (th : Thread) (d base : Opnd) (x : BitVec 6) (sb : BitVec 3)
    (size : Nat) (ext : LoadExt) : SRes :=
  match s.group? st.grp with
  | none => .ok s
  | some g =>
    let dst := match d with
      | .v n => n.toNat
      | .g n => n.toNat
    match s.checkAccess g t (addrM g th base x st.imm size) size .load with
    | .out r => r
    | .ok s e pa =>
      s.issueResult st t sb
        (.load (.mem pa) ext dst (if e.typ = 1 then 0 else st.policy) (if e.typ = 1 then s.gathered g.core pa size else []))

/-- A load (R305). -/
def State.load (s : State) (d base : Opnd) (x : BitVec 6) (sb : BitVec 3) (size : Nat) (ext : LoadExt) :
    Host.Outcome State Fault Refusal :=
  s.perThread fun st s t th => s.loadThread st t th d base x sb size ext

/-- A store's issue for one thread (R306, R307): into the store queue, or on a W page the combining buffer. -/
def State.storeThread (s : State) (st : Stream) (t : Nat) (th : Thread) (d base : Opnd) (x : BitVec 6) (size : Nat) : SRes :=
  if th.helper then .ok s
  else match s.group? st.grp with
    | none => .ok s
    | some g =>
      match s.checkAccess g t (addrM g th base x st.imm size) size .store with
      | .out r => r
      | .ok s' e pa =>
        let data := (bytesOf (rdN g th d ((size + 3) / 4))).take size
        if e.typ = 1 then .ok (s'.gather g.core st.grp t pa e data)
        else if s'.sqRoom st.grp then .ok (s'.queueStore st.grp t (.mem pa) (.bytes data))
        else .stop s'

/-- A store (R306). -/
def State.store (s : State) (d base : Opnd) (x : BitVec 6) (size : Nat) : Host.Outcome State Fault Refusal :=
  s.perThread fun st s t th => s.storeThread st t th d base x size

/-- The operand and the compare value of an atomic (R308). -/
def AtomOp.operands (op : AtomOp) (g : Group) (th : Thread) (data : VReg) : BitVec 64 × BitVec 64 :=
  let r := fun (i : Nat) => rd g th (.v (data + BitVec.ofNat 6 i))
  match op with
  | .cas32 => ((r 1).zeroExtend 64, (r 0).zeroExtend 64)
  | .addS64 | .exch64 => (r 1 ++ r 0, 0#64)
  | .cas64 => (r 3 ++ r 2, r 1 ++ r 0)
  | _ => ((r 0).zeroExtend 64, 0#64)

/-- An atomic's issue for one thread (R307, R309): through the token, or with no return into the store queue. -/
def State.atomThread (s : State) (st : Stream) (t : Nat) (th : Thread) (op : AtomOp) (ret : Option (VReg × BitVec 3))
    (data : VReg) (base : Opnd) : SRes :=
  if th.helper then .ok s
  else match s.group? st.grp with
    | none => .ok s
    | some g =>
      match s.checkAccess g t (addrN g th base st.imm) op.size .atomic with
      | .out r => r
      | .ok s' _ pa =>
        let (b, c) := op.operands g th data
        match ret with
        | some (d, sb) => s'.issueResult st t sb (.atom (.mem pa) op b c d.toNat)
        | none => if s'.sqRoom st.grp then .ok (s'.queueStore st.grp t (.mem pa) (.atom op b c)) else .stop s'

/-- An atomic with return (R308, R309). -/
def State.atom (s : State) (op : AtomOp) (d data : VReg) (base : Opnd) (sb : BitVec 3) : Host.Outcome State Fault Refusal :=
  s.perThread fun st s t th => s.atomThread st t th op (some (d, sb)) data base

/-- An atomic without return (R308, R309). -/
def State.atomNoret (s : State) (op : AtomOp) (data : VReg) (base : Opnd) : Host.Outcome State Fault Refusal :=
  s.perThread fun st s t th => s.atomThread st t th op none data base

/-! ## `VMV` (R310, R311) -/

/-- Bytes of a matrix element. -/
def VmvFmt.size : VmvFmt → Nat
  | .k8 => 1
  | .bf16 => 2
  | .f32 => 4

/-- The payload of a `VMV` (R310): first source register, K, N. -/
def vmvPayload (imm : Option (BitVec 24)) : Nat × Nat × Nat :=
  let p := (imm.getD 0#24).toNat
  (field p 5 0, field p 9 6 + 1, field p 13 10 + 1)

/-- The pages of a matrix checked in ascending address (R274, R311): the physical address and type of each, or the outcome
of the first that is not present. -/
def State.vmvPages (s : State) (g : Group) (t : Nat) : List Nat → State × (List (Nat × TlbEntry) ⊕ SRes)
  | [] => (s, .inl [])
  | va :: r =>
    if va ≥ 2 ^ 57 then (s, .inr (.at_ s 0x11#8 va))
    else match s.accessPage g t va .load with
      | .out x => (s, .inr x)
      | .ok s e _ =>
        match s.vmvPages g t r with
        | (s, .inl l) => (s, .inl ((va / 4096, e) :: l))
        | x => x

/-- `VMV`'s issue for one thread (R311): X is read at issue. -/
def State.vmvThread (s : State) (st : Stream) (t : Nat) (th : Thread) (fmt : VmvFmt) (d base : Opnd) (x : BitVec 6)
    (sb : BitVec 3) : SRes :=
  match s.group? st.grp with
  | none => .ok s
  | some g =>
    let (xs, k, n) := vmvPayload st.imm
    let e := fmt.size
    let a := addrM g th base x none e
    match s.checkAccess g t a e .load with
    | .out r => r
    | .ok s _ _ =>
      match s.vmvPages g t (pagesOf a.toNat (k * n * e)) with
      | (_, .inr r) => r
      | (s, .inl ps) =>
        let pas := (List.range (k * n)).map fun i =>
          let va := a.toNat + e * i
          match assoc ps (va / 4096) with
          | some en => en.pa va
          | none => 0
        let comb := ps.foldl (fun l (p, en) => if en.typ = 1 then l ++ s.gathered g.core (en.pa (p * 4096)) 4096 else l) []
        let dst := match d with
          | .v n => n.toNat
          | .g n => n.toNat
        s.issueResult st t sb (.vmv fmt pas comb k n ((List.range k).map fun i => mget th.v (xs + i)) dst)

/-- The value of a matrix element's bytes. -/
def vmvElem (f : VmvFmt) (x : Nat) : Ex :=
  match f with
  | .k8 => decodeK8 x
  | .bf16 => Fmt.decode Sys2Proof.Machine.bf16 x
  | .f32 => Fmt.decode fp32 x

/-- One column (R311): ascending i, one rounding per step, with the flags of every step. -/
def vmvColumn (xs : List Word) (col : List Ex) : Word × FFlags :=
  (xs.zip col).foldl (fun (acc : Word × FFlags) (x, w) =>
    let (e, f1) := exFma 0#2 (val32 x) w (val32 acc.1)
    let (b, f2) := fp32.result 0#2 false e
    (BitVec.ofNat 32 b, acc.2 ||| f1 ||| f2)) (0#32, 0#6)

/-! ## Performing accesses (R285 to R291) -/

/-- An earlier access of the group that has not taken its place in the memory order. -/
def State.earlier (s : State) (gid id : Nat) : Bool :=
  (match s.group? gid with
    | some g => g.sq.any fun e => decide (e.id < id)
    | none => false) ||
  s.dev.results.any fun r => r.grp == gid && decide (r.id < id) && r.kind.isMem && !r.ready

/-- An L1 with a line that a load has used (R285): one of .stream, or marked before, is the first to be replaced; where the L1
is full, a line fetched takes the place of the first. -/
def useL1 (l : List L1Line) (x : L1Line) (stream : Bool) : List L1Line :=
  let l := (l.filter fun y => y.line != x.line).take (Config.l1Lines - 1)
  if stream then l ++ [x] else x :: l

/-- A load of the L1 or the home (R285, R287): its bytes and the program timestamp after it. A line fetched by .l1 or
.stream is kept in the L1. -/
def State.loadMem (s : State) (core pts pa n pol : Nat) : State × List Byte × Nat :=
  if pol = 1 || pol = 3 then s.homeLoad pts pa n
  else
    let line := pa / 128
    match (s.core core).l1.find? (fun x => x.line == line && decide (pts ≤ s.atFloor x.rts)) with
    | some x =>
      (if pol = 2 then s.updCore core fun c => { c with l1 := useL1 c.l1 x true } else s, mgets x.data pa n, max pts (s.atFloor x.wts))
    | none =>
      let (s, b, p) := s.homeLoad pts pa n
      let e := s.lineTs line
      let copy : L1Line := ⟨line, e.1, e.2, msets [] (line * 128) (s.bytesAt (line * 128) 128)⟩
      (s.updCore core fun c => { c with l1 := useL1 c.l1 copy (pol == 2) }, b, p)

/-- Bytes with those gathered in the combining buffer in their place (R297). -/
def overlay (pa : Nat) (b : List Byte) (comb : List Host.Cell) : List Byte :=
  (List.range b.length).map fun i => match assoc comb (pa + i) with
    | some x => x
    | none => b.getD i 0#8

/-- Bytes of a load (R305). -/
def LoadExt.size : LoadExt → Nat
  | .s8 | .n8 => 1
  | .s16 | .n16 => 2
  | .b32 => 4
  | .b64 => 8
  | .b128 => 16

/-- A result's access performed, if it has not been and every earlier access of its group has taken its place (R290, R291,
R309): its bytes are kept until it returns. -/
def State.perform (s : State) (r : Pending) : State :=
  if r.ready || s.earlier r.grp r.id then s
  else match s.group? r.grp with
    | none => s
    | some g =>
      match r.kind with
      | .load (.mem pa) ext _ pol comb =>
        let (s, b, p) := s.loadMem g.core g.pts pa ext.size pol
        (s.raisePts r.grp p).updPending r.id fun x => { x with ready := true, val := overlay pa b comb }
      | .load (.tile tm h off) ext _ _ _ =>
        let (s, b, p) := s.tileLoad g.pts tm h off ext.size
        (s.raisePts r.grp p).updPending r.id fun x => { x with ready := true, val := b }
      | .atom (.tile tm h off) op b c _ =>
        let (s, old, p) := s.tileAtomic g.pts tm h off op b c
        (s.raisePts r.grp p).updPending r.id fun x => { x with ready := true, val := bytesOfNat old.toNat op.size }
      | .atom (.mem pa) op b c _ =>
        let (s, old, p) := s.homeAtomic g.pts pa op b c
        (s.raisePts r.grp p).updPending r.id fun x => { x with ready := true, val := bytesOfNat old.toNat op.size }
      | .vmv fmt pas comb _ _ _ _ =>
        let (s, v) := pas.foldl (fun (acc : State × List Byte) pa =>
          let pts := ((acc.1.group? r.grp).map fun g => g.pts).getD 0
          let (s, b, p) := acc.1.loadMem g.core pts pa fmt.size 0
          (s.raisePts r.grp p, acc.2 ++ overlay pa b comb)) (s, [])
        s.updPending r.id fun x => { x with ready := true, val := v }
      | _ => s

/-- The team is saved: its store queues leave from where it resumes (R292). -/
def State.savedTeam (s : State) (id : Nat) : Bool :=
  match s.team? id with
  | some t => t.st == .saved
  | none => false

/-- A store-queue entry performed at its home (R287, R290, R297): the state, and the timestamp taken. -/
def State.performStore (s : State) (g : Group) (e : SqEntry) : State × Nat :=
  match e.loc, e.op with
  | .mem pa, .bytes data => s.homeStore g.pts pa data
  | .mem pa, .atom op b c => let (s, _, t) := s.homeAtomic g.pts pa op b c; (s, t)
  | _, .line x => (s.flushLine g.id x, g.pts)
  | .tile tm h off, .bytes data => s.tileStore g.pts tm h off data
  | _, _ => (s, g.pts)

/-- The loads and atomics of a group performed, as far as each can be (R290, R309). -/
def State.performLoads (s : State) (gid : Nat) (sel : Nat → Bool) : State :=
  (s.dev.results.filter fun r => r.grp == gid && sel r.id).foldl (fun s r => match s.pending? r.id with
    | some r => s.perform r
    | none => s) s

/-- The oldest entry of a group's store queue performed, unless a load or atomic issued before it has not been; the loads and
atomics issued directly after it, before the next entry, follow it at once (R290, R291). -/
def State.leaveQueue (s : State) (gid : Nat) : State :=
  match s.group? gid with
  | none => s
  | some g =>
    match g.sq with
    | [] => s
    | e :: rest =>
      if s.dev.results.any fun r => r.grp == gid && decide (r.id < e.id) && r.kind.isMem && !r.ready then s
      else
        let (s, t) := s.performStore g e
        let s := s.updGroup gid fun g => { g with sq := g.sq.drop 1, left := g.left - 1, pts := max g.pts t }
        let s := s.onDev fun d => { d with
          pushes := d.pushes.map fun p => if p.grp == gid && decide (e.id < p.id) then { p with pts := max p.pts t } else p }
        s.performLoads gid fun i => decide (e.id < i) && rest.head?.all fun x => decide (i < x.id)

/-- Every access that the group has made takes its place in the memory order (R282, R290, R291): before what a thread of it does
at a home at once (R206). -/
def State.settleGroup (s : State) (gid : Nat) : Nat → State
  | 0 => s.performLoads gid fun _ => true
  | n + 1 => ((s.performLoads gid fun _ => true).leaveQueue gid).settleGroup gid n

/-- Event STORE_TIMESTAMP (R287, R290): the oldest entry of the group's store queue is performed at its home. -/
def execStoreTimestamp (gid : Nat) (s : State) : Host.Outcome State Fault Refusal :=
  .next <|
    match s.group? gid with
    | none => s
    | some g =>
      if s.savedTeam g.team || g.sq.isEmpty then s
      else
        let s' := s.leaveQueue gid
        if s' = s then s else s'.checkBars g

/-! ## Order and wait (R313 to R315) -/

/-- A group is held until a condition holds (R314): every streamed thread keeps its vpc and the stream ends for it. -/
def State.holdOn (s : State) (gid : Nat) (h : Hold) : SRes := .stop (s.updGroup gid fun g => { g with hold := some h })

/-- `FENCE` (R314). -/
def execFence (s : State) : Host.Outcome State Fault Refusal :=
  s.perGroup fun st s g _ => if g.sq.isEmpty then .ok s else s.holdOn st.grp .fence

/-- The condition of `XFENCE` (R300, R314): the group's accesses to coherent memory have taken their places, its `RST` and
`RATOM` have taken effect, and its `RLD` and `RATOM` have returned. -/
def State.xfenceMet (s : State) (g : Group) : Bool :=
  s.memSettled g && g.remote == 0 && s.dev.results.all fun r => r.grp != g.id || !r.kind.isRemote

/-- `XFENCE` (R300, R314): the group's program timestamp rises to every write admitted so far, so that no later access reads a lease
from before it (log 3). -/
def execXfence (s : State) : Host.Outcome State Fault Refusal :=
  s.perGroup fun st s g _ => if s.xfenceMet g then .ok (s.raisePts st.grp s.topTs) else s.holdOn st.grp .xfence

/-- The combining-buffer lines of a core that hold a byte stored by one of these threads of a group, in ascending address. -/
def State.linesHeld (s : State) (core gid : Nat) (ts : List Nat) : List CombLine :=
  sortBy (fun x => x.line) ((s.core core).comb.filter fun x => x.holds gid ts)

/-- Lines moved to the group's store queue for a thread while it has room (R315). -/
def State.enterLines (s : State) (core gid t : Nat) : List CombLine → State
  | [] => s
  | x :: r =>
    if s.sqRoom gid then
      ((s.updCore core fun c => { c with comb := c.comb.filter fun y => y.slot != x.slot }).pushSq gid t (.mem (x.line * 128)) (.line x)).enterLines
        core gid t r
    else s

/-- An entry of a store queue is a flushed line. -/
def SqEntry.isLine (e : SqEntry) : Bool :=
  match e.op with
  | .line _ => true
  | _ => false

/-- A flush that one of these threads gave is still in the group's store queue. -/
def Group.flushing (g : Group) (ts : List Nat) : Bool := g.sq.any fun e => e.isLine && ts.contains e.thread

/-- `WCFLUSH` (R315): the lines enter the queue for the group's first streamed thread. -/
def execWcflush (s : State) : Host.Outcome State Fault Refusal :=
  s.perGroup fun st s g t =>
    let s := s.enterLines g.core st.grp t (s.linesHeld g.core st.grp st.threads)
    if !(s.linesHeld g.core st.grp st.threads).isEmpty then .stop s
    else if (s.group? st.grp).any fun g => g.flushing st.threads then s.holdOn st.grp (.flush st.mask)
    else .ok s

/-- Every token that a mask names is at 0 (R36, R314). -/
def Group.tokensDone (g : Group) (m : BitVec 8) : Bool := (List.range 8).all fun n => !m.getLsbD n || g.count n == 0

/-- The waiter's program timestamp above those of every line that the awaited commands admitted (R293 item 4). -/
def Group.acquire (g : Group) (m : BitVec 8) : Group :=
  { g with pts := (List.range 8).foldl (fun p n => if m.getLsbD n && g.tokTs.getD n 0 ≠ 0 then max p (g.tokTs.getD n 0 + 1) else p) g.pts }

/-- `WAIT` (R314). -/
def execWait (m : BitVec 8) (s : State) : Host.Outcome State Fault Refusal :=
  s.perGroup fun st s g _ =>
    if g.tokensDone m then .ok (s.updGroup st.grp fun g => g.acquire m) else s.holdOn st.grp (.wait m)

/-! ## The instructions -/

/-- `LD_S8` (R305). -/
def execLdS8 (sb : BitVec 3) (d : VReg) (base : Opnd) (x : BitVec 6) (s : State) : Host.Outcome State Fault Refusal := s.load (.v d) base x sb 1 .s8

/-- `LD_N8` (R305). -/
def execLdN8 (sb : BitVec 3) (d : VReg) (base : Opnd) (x : BitVec 6) (s : State) : Host.Outcome State Fault Refusal := s.load (.v d) base x sb 1 .n8

/-- `LD_S16` (R305). -/
def execLdS16 (sb : BitVec 3) (d : VReg) (base : Opnd) (x : BitVec 6) (s : State) : Host.Outcome State Fault Refusal := s.load (.v d) base x sb 2 .s16

/-- `LD_N16` (R305). -/
def execLdN16 (sb : BitVec 3) (d : VReg) (base : Opnd) (x : BitVec 6) (s : State) : Host.Outcome State Fault Refusal := s.load (.v d) base x sb 2 .n16

/-- `LD_B32` (R305). -/
def execLdB32 (sb : BitVec 3) (d : VReg) (base : Opnd) (x : BitVec 6) (s : State) : Host.Outcome State Fault Refusal := s.load (.v d) base x sb 4 .b32

/-- `LD_B64` (R305). -/
def execLdB64 (sb : BitVec 3) (d : VReg) (base : Opnd) (x : BitVec 6) (s : State) : Host.Outcome State Fault Refusal := s.load (.v d) base x sb 8 .b64

/-- `LD_B128` (R305). -/
def execLdB128 (sb : BitVec 3) (d : VReg) (base : Opnd) (x : BitVec 6) (s : State) : Host.Outcome State Fault Refusal := s.load (.v d) base x sb 16 .b128

/-- `ST_B8` (R306). -/
def execStB8 (d : Opnd) (base : Opnd) (x : BitVec 6) (s : State) : Host.Outcome State Fault Refusal := s.store d base x 1

/-- `ST_B16` (R306). -/
def execStB16 (d : Opnd) (base : Opnd) (x : BitVec 6) (s : State) : Host.Outcome State Fault Refusal := s.store d base x 2

/-- `ST_B32` (R306). -/
def execStB32 (d : Opnd) (base : Opnd) (x : BitVec 6) (s : State) : Host.Outcome State Fault Refusal := s.store d base x 4

/-- `ST_B64` (R306). -/
def execStB64 (d : Opnd) (base : Opnd) (x : BitVec 6) (s : State) : Host.Outcome State Fault Refusal := s.store d base x 8

/-- `ST_B128` (R306). -/
def execStB128 (d : Opnd) (base : Opnd) (x : BitVec 6) (s : State) : Host.Outcome State Fault Refusal := s.store d base x 16

/-- `ATOM_ADD_S32` (R308, R309). -/
def execAtomAddS32 (sb : BitVec 3) (d : VReg) (data : VReg) (base : Opnd) (s : State) : Host.Outcome State Fault Refusal := s.atom .addS32 d data base sb

/-- `ATOM_ADD_S32_NORET` (R308, R309). -/
def execAtomAddS32Noret (data : VReg) (base : Opnd) (s : State) : Host.Outcome State Fault Refusal := s.atomNoret .addS32 data base

/-- `ATOM_ADD_F32` (R308, R309). -/
def execAtomAddF32 (sb : BitVec 3) (d : VReg) (data : VReg) (base : Opnd) (s : State) : Host.Outcome State Fault Refusal := s.atom .addF32 d data base sb

/-- `ATOM_ADD_F32_NORET` (R308, R309). -/
def execAtomAddF32Noret (data : VReg) (base : Opnd) (s : State) : Host.Outcome State Fault Refusal := s.atomNoret .addF32 data base

/-- `ATOM_MIN_S32` (R308, R309). -/
def execAtomMinS32 (sb : BitVec 3) (d : VReg) (data : VReg) (base : Opnd) (s : State) : Host.Outcome State Fault Refusal := s.atom .minS32 d data base sb

/-- `ATOM_MIN_S32_NORET` (R308, R309). -/
def execAtomMinS32Noret (data : VReg) (base : Opnd) (s : State) : Host.Outcome State Fault Refusal := s.atomNoret .minS32 data base

/-- `ATOM_MIN_N32` (R308, R309). -/
def execAtomMinN32 (sb : BitVec 3) (d : VReg) (data : VReg) (base : Opnd) (s : State) : Host.Outcome State Fault Refusal := s.atom .minN32 d data base sb

/-- `ATOM_MIN_N32_NORET` (R308, R309). -/
def execAtomMinN32Noret (data : VReg) (base : Opnd) (s : State) : Host.Outcome State Fault Refusal := s.atomNoret .minN32 data base

/-- `ATOM_MAX_S32` (R308, R309). -/
def execAtomMaxS32 (sb : BitVec 3) (d : VReg) (data : VReg) (base : Opnd) (s : State) : Host.Outcome State Fault Refusal := s.atom .maxS32 d data base sb

/-- `ATOM_MAX_S32_NORET` (R308, R309). -/
def execAtomMaxS32Noret (data : VReg) (base : Opnd) (s : State) : Host.Outcome State Fault Refusal := s.atomNoret .maxS32 data base

/-- `ATOM_MAX_N32` (R308, R309). -/
def execAtomMaxN32 (sb : BitVec 3) (d : VReg) (data : VReg) (base : Opnd) (s : State) : Host.Outcome State Fault Refusal := s.atom .maxN32 d data base sb

/-- `ATOM_MAX_N32_NORET` (R308, R309). -/
def execAtomMaxN32Noret (data : VReg) (base : Opnd) (s : State) : Host.Outcome State Fault Refusal := s.atomNoret .maxN32 data base

/-- `ATOM_AND_B32` (R308, R309). -/
def execAtomAndB32 (sb : BitVec 3) (d : VReg) (data : VReg) (base : Opnd) (s : State) : Host.Outcome State Fault Refusal := s.atom .and32 d data base sb

/-- `ATOM_AND_B32_NORET` (R308, R309). -/
def execAtomAndB32Noret (data : VReg) (base : Opnd) (s : State) : Host.Outcome State Fault Refusal := s.atomNoret .and32 data base

/-- `ATOM_OR_B32` (R308, R309). -/
def execAtomOrB32 (sb : BitVec 3) (d : VReg) (data : VReg) (base : Opnd) (s : State) : Host.Outcome State Fault Refusal := s.atom .or32 d data base sb

/-- `ATOM_OR_B32_NORET` (R308, R309). -/
def execAtomOrB32Noret (data : VReg) (base : Opnd) (s : State) : Host.Outcome State Fault Refusal := s.atomNoret .or32 data base

/-- `ATOM_XOR_B32` (R308, R309). -/
def execAtomXorB32 (sb : BitVec 3) (d : VReg) (data : VReg) (base : Opnd) (s : State) : Host.Outcome State Fault Refusal := s.atom .xor32 d data base sb

/-- `ATOM_XOR_B32_NORET` (R308, R309). -/
def execAtomXorB32Noret (data : VReg) (base : Opnd) (s : State) : Host.Outcome State Fault Refusal := s.atomNoret .xor32 data base

/-- `ATOM_EXCH_B32` (R308, R309). -/
def execAtomExchB32 (sb : BitVec 3) (d : VReg) (data : VReg) (base : Opnd) (s : State) : Host.Outcome State Fault Refusal := s.atom .exch32 d data base sb

/-- `ATOM_CAS_B32` (R308, R309). -/
def execAtomCasB32 (sb : BitVec 3) (d : VReg) (data : VReg) (base : Opnd) (s : State) : Host.Outcome State Fault Refusal := s.atom .cas32 d data base sb

/-- `ATOM_ADD_S64` (R308, R309). -/
def execAtomAddS64 (sb : BitVec 3) (d : VReg) (data : VReg) (base : Opnd) (s : State) : Host.Outcome State Fault Refusal := s.atom .addS64 d data base sb

/-- `ATOM_ADD_S64_NORET` (R308, R309). -/
def execAtomAddS64Noret (data : VReg) (base : Opnd) (s : State) : Host.Outcome State Fault Refusal := s.atomNoret .addS64 data base

/-- `ATOM_EXCH_B64` (R308, R309). -/
def execAtomExchB64 (sb : BitVec 3) (d : VReg) (data : VReg) (base : Opnd) (s : State) : Host.Outcome State Fault Refusal := s.atom .exch64 d data base sb

/-- `ATOM_CAS_B64` (R308, R309). -/
def execAtomCasB64 (sb : BitVec 3) (d : VReg) (data : VReg) (base : Opnd) (s : State) : Host.Outcome State Fault Refusal := s.atom .cas64 d data base sb

/-- `VMV_K8` (R310, R311). -/
def execVmvK8 (sb : BitVec 3) (d : VReg) (base : Opnd) (x : BitVec 6) (s : State) : Host.Outcome State Fault Refusal :=
  s.perThread fun st s t th => s.vmvThread st t th .k8 (.v d) base x sb

/-- `VMV_BF16` (R310, R311). -/
def execVmvBf16 (sb : BitVec 3) (d : VReg) (base : Opnd) (x : BitVec 6) (s : State) : Host.Outcome State Fault Refusal :=
  s.perThread fun st s t th => s.vmvThread st t th .bf16 (.v d) base x sb

/-- `VMV_F32` (R310, R311). -/
def execVmvF32 (sb : BitVec 3) (d : VReg) (base : Opnd) (x : BitVec 6) (s : State) : Host.Outcome State Fault Refusal :=
  s.perThread fun st s t th => s.vmvThread st t th .f32 (.v d) base x sb

end Sys2Proof.Machine
end

