-- ==== Sys2Proof/Machine/Control.lean ====
section
/-! DEFINITION. Control transfers, `PAUSE`, traps and the return from them (R40, R155, R162 to R165, R184, R185). `EXIT` and
`KILL` are in End. -/

namespace Sys2Proof.Machine

/-- A transfer within the overlay that the thread executes (R163 items 1 and 3, R40). -/
def State.checkTarget (s : State) (core : Nat) (th : Thread) (a : Word) : Option (BitVec 8) :=
  match (s.core core).copy? th.copy with
  | none => some 0x06#8
  | some k =>
    if a.toNat < th.start || th.start + k.slots * 4096 ≤ a.toNat then some 0x06#8
    else match k.word? th.start a.toNat with
      | none => some 0x04#8
      | some w => if isHeader w then none else some 0x04#8

/-- `BRA` and `BRX` for one thread (R162). -/
def State.branch (s : State) (st : Stream) (t : Nat) (th : Thread) (a : Word) : SRes :=
  match s.checkTarget st.core th a with
  | some c => .plain s c
  | none => .leave (s.updThread st.grp t fun th => { th with vpc := a })

/-- The target of a direct transfer (R50, R54): H + 4 × offset, H the header of its own clause. -/
def Stream.target (st : Stream) (off : BitVec 19) : Word := st.hdr + 4#32 * branchOffset st.imm off

/-- The fall-through address of the stream's clause (R33). -/
def Stream.fall (st : Stream) : Word := st.last + 4#32

/-- `NOP` (R56, R162). -/
def execNop (s : State) : Host.Outcome State Fault Refusal := s.perThread fun _ s _ _ => .ok s

/-- `BRA` (R162, R163). -/
def execBra (off : BitVec 19) (s : State) : Host.Outcome State Fault Refusal :=
  s.perThread fun st s t th => s.branch st t th (st.target off)

/-- `BRX` (R162, R163): each thread's own target. -/
def execBrx (a : Opnd) (s : State) : Host.Outcome State Fault Refusal :=
  s.perThread fun st s t th =>
    match s.group? st.grp with
    | none => .ok s
    | some g => s.branch st t th (rd g th a)

/-- The call's entry for a transferring thread (R164): pushed by the unit's first, joined by the others. `n` is the depth
of the stack as the unit began; `none` where all 8 entries are live. -/
def State.pushCall (s : State) (st : Stream) (t n : Nat) (th : Thread) : Option State :=
  match s.group? st.grp with
  | none => none
  | some g =>
    if g.rstack.length > n then
      some (s.updGroup st.grp fun g => { g with rstack := g.rstack.modify n fun e => { e with mask := e.mask ||| (1#32 <<< t) } })
    else if g.rstack.length ≥ 8 then none
    else
      let b := s.bindOf g th
      some (s.updGroup st.grp fun g => { g with rstack := g.rstack ++
        [⟨st.fall, (b.map (fun b => b.id)).getD 0, (b.map (fun b => b.gen)).getD 0, th.copy, th.start, 1#32 <<< t⟩] })

/-- `CALL` (R162 to R164): the stack is checked last. -/
def execCall (off : BitVec 19) (s : State) : Host.Outcome State Fault Refusal :=
  s.onStream fun st g0 =>
    let a := st.target off
    let (s', kept) := runEach st (fun s t th =>
      match s.checkTarget st.core th a with
      | some c => .plain s c
      | none =>
        match s.pushCall st t g0.rstack.length th with
        | none => .plain s 0x06#8
        | some s => .leave (s.updThread st.grp t fun th => { th with vpc := a })) st.threads s
    s'.advance st kept

/-- `CALLX` (R163 item 2, R164, R223, R237): into another overlay, parking until it is resident. -/
def execCallx (off : BitVec 19) (s : State) : Host.Outcome State Fault Refusal :=
  s.onStream fun st g0 =>
    let a := st.target off
    let (s', kept) := runEach st (fun s t th =>
      match s.group? st.grp with
      | none => .ok s
      | some g =>
        match s.grid? g.grid with
        | none => .plain s 0x06#8
        | some gr => s.reach g gr t th.inTrap a.toNat fun s k b =>
          match k.word? b.start a.toNat with
          | none => .plain s 0x04#8
          | some w =>
            if !isHeader w then .plain s 0x04#8
            else match s.pushCall st t g0.rstack.length th with
              | none => .plain s 0x06#8
              | some s => .leave ((s.goto st.grp t a k b).enterCopy st.core k.id)) st.threads s
    s'.advance st kept

/-- The topmost live entry whose mask holds a thread (R164, R165). -/
def topEntry (t : Nat) (l : List RetEntry) : Option RetEntry := (l.filter fun e => bitAt e.mask t).getLast?

/-- A thread's bit cleared from the entries chosen; an entry left empty is freed (R166). -/
def dropMask (p : RetEntry → Bool) (t : Nat) (l : List RetEntry) : List RetEntry :=
  (updIf p (fun e => { e with mask := e.mask &&& ~~~(1#32 <<< t) }) l).filter fun e => e.mask ≠ 0#32

/-- A thread's bit cleared from the topmost entry that holds it; an entry left empty is freed (R165). -/
def dropTop (t : Nat) : List RetEntry → List RetEntry
  | [] => []
  | e :: r =>
    if r.any (fun x => bitAt x.mask t) then e :: dropTop t r
    else if bitAt e.mask t then
      let m := e.mask &&& ~~~(1#32 <<< t)
      if m = 0#32 then r else { e with mask := m } :: r
    else e :: r

/-- `RET` (R165, R236, R237). A return address past the end of its overlay gives 0x06 (log 40). -/
def execRet (s : State) : Host.Outcome State Fault Refusal :=
  s.perThread fun st s t _ =>
    match s.group? st.grp with
    | none => .ok s
    | some g =>
      match topEntry t g.rstack with
      | none => .plain s 0x06#8
      | some e => s.seekCopy g t e.copy fun s k =>
          if e.ret.toNat < e.start || e.start + k.slots * 4096 ≤ e.ret.toNat then .plain s 0x06#8
          else match k.word? e.start e.ret.toNat with
            | none => .plain s 0x04#8
            | some w =>
              if !isHeader w then .plain s 0x04#8
              else .leave (((s.updGroup st.grp fun g => { g with rstack := dropTop t g.rstack }).updThread st.grp t fun th =>
                { th with vpc := e.ret, copy := k.id, start := e.start, ov := (e.ident, e.gen) }).enterCopy st.core k.id)

/-- `PAUSE` (R155): lowers the group's issue priority for a count of clk; 0 ends a pause in force. -/
def execPause (n : BitVec 19) (s : State) : Host.Outcome State Fault Refusal :=
  s.perGroup fun st s _ _ =>
    .ok (s.updGroup st.grp fun g => { g with pauseEnd := if n = 0#19 then s.dev.clk else s.dev.clk + 1 + n.toNat })

/-- `TRAP` (R184): trap (0x40) with NUM n, resumed at the word after the unit (R183). -/
def execTrap (n : BitVec 10) (s : State) : Host.Outcome State Fault Refusal :=
  s.perThread fun _ s _ _ => .fault s 0x40#8 n 0#64 true

/-- `BRK` (R184): breakpoint (0x41) with NUM n. -/
def execBrk (n : BitVec 10) (s : State) : Host.Outcome State Fault Refusal :=
  s.perThread fun _ s _ _ => .fault s 0x41#8 n 0#64 true

/-- `RTI` (R185). -/
def execRti (s : State) : Host.Outcome State Fault Refusal :=
  s.perThread fun st s t _ => s.returnTrap st.grp t

end Sys2Proof.Machine
end

