-- ==== Sys2Proof/WellFormed.lean ====
section
/-! DEFINITION. Which instructions are well-formed: the operand values that R44 item 2.2 refuses as illegal instruction
(0x01) and that need nothing but the word. What needs the IMM prefix, the kernel's REGS, the role or a format slot is
checked where a clause is loaded (Machine/Clause.lean). -/

namespace Sys2Proof

/-- The register that starts a pair (R48). -/
def Opnd.even : Opnd → Bool
  | .v n => n.toNat % 2 == 0
  | .g n => n.toNat % 2 == 0

/-- The register that starts a quad (R48). -/
def Opnd.quad : Opnd → Bool
  | .v n => n.toNat % 4 == 0
  | .g n => n.toNat % 4 == 0

/-- A 6-bit register number that is a multiple of k (R48, R358, R375). -/
def multipleOf (k : Nat) (n : BitVec 6) : Bool := n.toNat % k == 0

/-- The special-register numbers that `MFS` may name (R104, R132, R182). -/
def mfsNumber (n : Nat) : Bool :=
  n == 0x010 || n == 0x011 || (0x020 ≤ n && n ≤ 0x024) || (0x030 ≤ n && n ≤ 0x03F)
    || (0x040 ≤ n && n ≤ 0x044) || n == 0x050 || (0x060 ≤ n && n ≤ 0x071)

/-- The special-register numbers marked RW, which `MTS` may name (R182). -/
def mtsNumber (n : Nat) : Bool := n == 0x010 || n == 0x011 || n == 0x040

/-- The instruction's own operand rules (R44, R48, and the rule of each instruction). Every event is well-formed: one
that names nothing has no effect. -/
def wellFormed : Instr → Bool
  | .sel n _ _ _ => n != 7#3
  | .shlImm _ _ imm => decide (imm.toNat < 32)
  | .shrImm _ _ imm => decide (imm.toNat < 32)
  | .add64 d a b => d.even && a.even && b.even
  | .sub64 d a b => d.even && a.even && b.even
  | .mul64 d a b => d.even && a.even && b.even
  | .lea _ d a _ => d.even && a.even
  | .sextS8 d _ => d.even
  | .sextS16 d _ => d.even
  | .sextS32 d _ => d.even
  | .zextN8 d _ => d.even
  | .zextN16 d _ => d.even
  | .zextN32 d _ => d.even
  | .icmpEq pd _ _ => pd != 7#3
  | .icmpNe pd _ _ => pd != 7#3
  | .icmpLtS32 pd _ _ => pd != 7#3
  | .icmpLeS32 pd _ _ => pd != 7#3
  | .icmpGtS32 pd _ _ => pd != 7#3
  | .icmpGeS32 pd _ _ => pd != 7#3
  | .icmpLtN32 pd _ _ => pd != 7#3
  | .icmpLeN32 pd _ _ => pd != 7#3
  | .icmpGtN32 pd _ _ => pd != 7#3
  | .icmpGeN32 pd _ _ => pd != 7#3
  | .fcmpEqF32 pd _ _ => pd != 7#3
  | .fcmpNeF32 pd _ _ => pd != 7#3
  | .fcmpLtF32 pd _ _ => pd != 7#3
  | .fcmpLeF32 pd _ _ => pd != 7#3
  | .fcmpGtF32 pd _ _ => pd != 7#3
  | .fcmpGeF32 pd _ _ => pd != 7#3
  | .fcmpUnF32 pd _ _ => pd != 7#3
  | .fcmpOrdF32 pd _ _ => pd != 7#3
  | .pand pd _ _ => pd != 7#3
  | .por pd _ _ => pd != 7#3
  | .pxor pd _ _ => pd != 7#3
  | .pnot pd _ => pd != 7#3
  | .voteAny pd _ => pd != 7#3
  | .voteAll pd _ => pd != 7#3
  | .mfs _ num => mfsNumber num.toNat
  | .mts num _ => mtsNumber num.toNat
  | .clk d => d.even
  | .cvtF32S64 _ a => a.even
  | .cvtS64F32 d _ => d.even
  | .qntK8 _ a _ _ => a.even
  | .qntS8 _ a _ _ => a.even
  | .tmovToRegister _ _ _ ge gidx _ => (ge == 1#1 || gidx == 0#6)
  | .tmovToSlice _ _ _ ge gidx _ => (ge == 1#1 || gidx == 0#6)
  | .ldS8 _ _ base _ => base.even
  | .ldN8 _ _ base _ => base.even
  | .ldS16 _ _ base _ => base.even
  | .ldN16 _ _ base _ => base.even
  | .ldB32 _ _ base _ => base.even
  | .ldB64 _ d base _ => base.even && multipleOf 2 d
  | .ldB128 _ d base _ => base.even && multipleOf 4 d
  | .ldtB64 _ d _ _ => multipleOf 2 d
  | .ldtB128 _ d _ _ => multipleOf 4 d
  | .vmvK8 _ _ base _ => base.even
  | .vmvBf16 _ _ base _ => base.even
  | .vmvF32 _ _ base _ => base.even
  | .stB8 _ base _ => base.even
  | .stB16 _ base _ => base.even
  | .stB32 _ base _ => base.even
  | .stB64 d base _ => base.even && d.even
  | .stB128 d base _ => base.even && d.quad
  | .sttB64 d _ _ => d.even
  | .sttB128 d _ _ => d.quad
  | .atomAddS32 _ _ _ base => base.even
  | .atomAddF32 _ _ _ base => base.even
  | .atomMinS32 _ _ _ base => base.even
  | .atomMinN32 _ _ _ base => base.even
  | .atomMaxS32 _ _ _ base => base.even
  | .atomMaxN32 _ _ _ base => base.even
  | .atomAndB32 _ _ _ base => base.even
  | .atomOrB32 _ _ _ base => base.even
  | .atomXorB32 _ _ _ base => base.even
  | .atomExchB32 _ _ _ base => base.even
  | .atomCasB32 _ _ data base => base.even && multipleOf 2 data
  | .atomAddS64 _ d data base => base.even && multipleOf 2 data && multipleOf 2 d
  | .atomExchB64 _ d data base => base.even && multipleOf 2 data && multipleOf 2 d
  | .atomCasB64 _ d data base => base.even && multipleOf 4 data && multipleOf 2 d
  | .atomAddS32Noret _ base => base.even
  | .atomAddF32Noret _ base => base.even
  | .atomMinS32Noret _ base => base.even
  | .atomMinN32Noret _ base => base.even
  | .atomMaxS32Noret _ base => base.even
  | .atomMaxN32Noret _ base => base.even
  | .atomAndB32Noret _ base => base.even
  | .atomOrB32Noret _ base => base.even
  | .atomXorB32Noret _ base => base.even
  | .atomAddS64Noret data base => base.even && multipleOf 2 data
  | .atomtCasB32 _ _ data _ => multipleOf 2 data
  | .wait m => m != 0#8
  | .tbar n _ => decide (n.toNat < 8)
  | .cbar n _ => decide (n.toNat < 4)
  | .gbar n _ => decide (n.toNat < 2)
  | .cvsign _ _ pd => pd != 7#3
  | .ringwait n _ _ _ => decide (n.toNat < 8)
  | .ringpass n _ _ _ => decide (n.toNat < 8)
  | .talloc _ _ level => level != 3#2
  | .cpy _ q _ _ => q.quad
  | .cpyg _ q _ => q.quad
  | .cpst _ q _ _ => q.quad
  | .mbindR _ _ g _ _ => multipleOf 2 g
  | .msignReg _ v => decide (v.toNat ≤ 32)
  | .msignSlice _ _ ge gidx _ => (ge == 1#1 || gidx == 0#6)
  | .msignReReg _ v => decide (v.toNat ≤ 32)
  | .msignReSlice _ _ ge gidx _ => (ge == 1#1 || gidx == 0#6)
  | .mmac acc gA _ => multipleOf 4 (0#1 ++ acc) && multipleOf 2 gA
  | .accalloc _ n => decide (0 < n.toNat) && decide (n.toNat ≤ 32)
  | .accfree _ n => decide (0 < n.toNat) && decide (n.toNat ≤ 32)
  | .mdrainMemory _ gQ _ _ => multipleOf 4 gQ
  | .mdrainTMemory _ gQ _ _ => multipleOf 4 gQ
  | .accld v _ _ _ _ => decide (v.toNat ≤ 48)
  | .accst v _ _ _ => decide (v.toNat ≤ 48)
  | .bpush a _ _ => multipleOf 8 a
  | .bpop d _ _ _ => multipleOf 8 d
  | .cont a _ => multipleOf 8 a
  | .wgpush a _ _ => multipleOf 8 a
  | .mesh d _ b _ => d.even && b.even
  | .fseal d _ => d.even
  | .fwait d _ => d.even
  | .attr _ a _ _ => multipleOf 8 a
  | .attrD _ a _ _ => multipleOf 8 a
  | .bary _ a _ => multipleOf 8 a
  | .smp _ _ b _ => b.even
  | .rldB32 _ _ base _ => base.even
  | .rldB64 _ d base _ => base.even && multipleOf 2 d
  | .rldB128 _ d base _ => base.even && multipleOf 4 d
  | .rstB32 _ base _ => base.even
  | .rstB64 d base _ => base.even && d.even
  | .rstB128 d base _ => base.even && d.quad
  | .ratomAddS32 _ _ base _ => base.even
  | .ratomAddS64 _ d base _ => base.even && multipleOf 2 d
  | .ratomExchB64 _ d base _ => base.even && multipleOf 2 d
  | .ratomCasB64 _ d base _ => base.even && multipleOf 4 d
  | .coll g _ => multipleOf 2 g
  | .cwait g _ => multipleOf 2 g
  | _ => true

end Sys2Proof
end

