-- ==== Sys2Proof/Decode.lean ====
section
/-! DEFINITION. The encoding: fields, formats (R49), the opcode map (R55), prefixes (R51), the clause header (R34); the
decoder, total on any bytes, and the encoder. -/

namespace Sys2Proof

/-- Bits [lo+n-1:lo] of a word (R2). -/
def bits (w : BitVec 32) (lo n : Nat) : BitVec n := w.extractLsb' lo n

/-- The 7-bit field of an operand (R48). -/
def Opnd.bits : Opnd → BitVec 7
  | .v n => 0#1 ++ n
  | .g n => 1#1 ++ n

/-- The operand a 7-bit field selects (R48): 0 to 63 a v register, 64 to 127 a g register. -/
def Opnd.ofBits (b : BitVec 7) : Opnd :=
  if b.toNat < 64 then .v (b.setWidth 6) else .g (b.setWidth 6)

/-- The 7-bit field of a predicate source (R176). -/
def PSrc.bits (s : PSrc) : BitVec 7 := 0#3 ++ BitVec.ofBool s.neg ++ s.p

/-- The predicate source of a field (R176). -/
def PSrc.ofBits (b : BitVec 7) : PSrc := ⟨b.getLsbD 3, b.setWidth 3⟩

/-- Bits [10:0] of format G (R49). -/
def GSrc.bits : GSrc → BitVec 11
  | .reg n => 0#5 ++ n
  | .imm x => 1#1 ++ x

/-- The b operand of format G (R49). -/
def GSrc.ofBits (b : BitVec 11) : GSrc :=
  if b.toNat < 1024 then .reg (b.setWidth 6) else .imm (b.setWidth 10)

/-- The word of format A (R49): the class, then the fields, most significant first. -/
def packA (cls : BitVec 5) (op : BitVec 6) (d : BitVec 7) (a : BitVec 7) (b : BitVec 7) : BitVec 32 :=
  cls ++ op ++ d ++ a ++ b

/-- The word of format I (R49): the class, then the fields, most significant first. -/
def packI (cls : BitVec 5) (op : BitVec 3) (d : BitVec 7) (a : BitVec 7) (imm : BitVec 10) : BitVec 32 :=
  cls ++ op ++ d ++ a ++ imm

/-- The word of format G (R49): the class, then the fields, most significant first. -/
def packG (cls : BitVec 5) (op : BitVec 4) (d : BitVec 6) (a : BitVec 6) (src : BitVec 11) : BitVec 32 :=
  cls ++ op ++ d ++ a ++ src

/-- The word of format Q (R49): the class, then the fields, most significant first. -/
def packQ (cls : BitVec 5) (op : BitVec 3) (d : BitVec 6) (a : BitVec 6) (b : BitVec 6) (c : BitVec 6) : BitVec 32 :=
  cls ++ op ++ d ++ a ++ b ++ c

/-- The word of format T (R49): the class, then the fields, most significant first. -/
def packT (cls : BitVec 5) (op : BitVec 3) (sb : BitVec 3) (d : BitVec 7) (a : BitVec 7) (b : BitVec 7) : BitVec 32 :=
  cls ++ op ++ sb ++ d ++ a ++ b

/-- The word of format M (R49): the class, then the fields, most significant first. -/
def packM (cls : BitVec 5) (op : BitVec 4) (sb : BitVec 3) (d : BitVec 7) (base : BitVec 7) (x : BitVec 6) : BitVec 32 :=
  cls ++ op ++ sb ++ d ++ base ++ x

/-- The word of format N (R49): the class, then the fields, most significant first. -/
def packN (cls : BitVec 5) (op : BitVec 5) (sb : BitVec 3) (d : BitVec 6) (data : BitVec 6) (base : BitVec 7) : BitVec 32 :=
  cls ++ op ++ sb ++ d ++ data ++ base

/-- The word of format E (R49): the class, then the fields, most significant first. -/
def packE (cls : BitVec 5) (op : BitVec 5) (d : BitVec 7) (a : BitVec 7) (b : BitVec 7) : BitVec 32 :=
  cls ++ op ++ d ++ a ++ b ++ 0#1

/-- The word of format S (R49): the class, then the fields, most significant first. -/
def packS (cls : BitVec 5) (op : BitVec 5) (d : BitVec 7) (t : BitVec 1) (rc : BitVec 1) (ge : BitVec 1) (gidx : BitVec 6) (imm : BitVec 5) : BitVec 32 :=
  cls ++ op ++ d ++ t ++ rc ++ ge ++ gidx ++ imm ++ 0#1

/-- The word of format B (R49): the class, then the fields, most significant first. -/
def packB (cls : BitVec 5) (op : BitVec 4) (off : BitVec 19) : BitVec 32 :=
  cls ++ op ++ 0#4 ++ off

/-- The word of format Y (R49): the class, then the fields, most significant first. -/
def packY (cls : BitVec 5) (op : BitVec 3) (n : BitVec 4) (m : BitVec 7) (stage : BitVec 3) (phase : BitVec 1) : BitVec 32 :=
  cls ++ op ++ n ++ m ++ stage ++ phase ++ 0#9

/-- The word of format O (R49): the class, then the fields, most significant first. -/
def packO (cls : BitVec 5) (op : BitVec 3) (ot : BitVec 4) (d : BitVec 7) (id : BitVec 12) : BitVec 32 :=
  cls ++ op ++ ot ++ d ++ 0#1 ++ id

/-- The word of format H (R49): the class, then the fields, most significant first. -/
def packH (cls : BitVec 5) (op : BitVec 4) (sb : BitVec 3) (h : BitVec 8) (reg : BitVec 7) (aux : BitVec 5) : BitVec 32 :=
  cls ++ op ++ sb ++ h ++ reg ++ aux

/-- The word of format X1 (R49): the class, then the fields, most significant first. -/
def packX1 (cls : BitVec 5) (op : BitVec 4) (cv : BitVec 4) (acc : BitVec 5) (h : BitVec 8) (fs : BitVec 3) (sb : BitVec 3) : BitVec 32 :=
  cls ++ op ++ cv ++ acc ++ h ++ fs ++ sb

/-- The word of format X2 (R49): the class, then the fields, most significant first. -/
def packX2 (cls : BitVec 5) (op : BitVec 4) (reg : BitVec 7) (acc : BitVec 5) (aux : BitVec 7) (sb : BitVec 3) : BitVec 32 :=
  cls ++ op ++ reg ++ acc ++ aux ++ sb ++ 0#1

/-- The word of format X3 (R49): the class, then the fields, most significant first. -/
def packX3 (cls : BitVec 5) (op : BitVec 4) (cv : BitVec 4) (src : BitVec 19) : BitVec 32 :=
  cls ++ op ++ cv ++ src

/-- The word of a `SEL` (R170): sub-opcode 56 + N. -/
def packSel (n : BitVec 3) (d a b : BitVec 7) : BitVec 32 := 2#5 ++ 7#3 ++ n ++ d ++ a ++ b

/-- The word of a `LEA` (R175): sub-opcode 4 + s. -/
def packLea (s : BitVec 2) (d a b : BitVec 7) : BitVec 32 := 26#5 ++ 1#4 ++ s ++ d ++ a ++ b

/-- The word of an instruction, from the formats of R49 and the map of R55; an event has none. -/
def encode : Instr → Option (BitVec 32)
  | .nop => some (packB 0#5 0#4 0#19)
  | .bra off => some (packB 0#5 1#4 off)
  | .brx a => some (packB 0#5 2#4 (0#12 ++ a.bits))
  | .call off => some (packB 0#5 3#4 off)
  | .callx off => some (packB 0#5 4#4 off)
  | .ret => some (packB 0#5 5#4 0#19)
  | .exit => some (packB 0#5 6#4 0#19)
  | .pause n => some (packB 0#5 7#4 n)
  | .kill => some (packB 0#5 8#4 0#19)
  | .gmov d b => some (packG 1#5 0#4 d 0#6 b.bits)
  | .gadd d a b => some (packG 1#5 1#4 d a b.bits)
  | .gsub d a b => some (packG 1#5 2#4 d a b.bits)
  | .gmul d a b => some (packG 1#5 3#4 d a b.bits)
  | .gand d a b => some (packG 1#5 4#4 d a b.bits)
  | .gor d a b => some (packG 1#5 5#4 d a b.bits)
  | .gxor d a b => some (packG 1#5 6#4 d a b.bits)
  | .gshl d a b => some (packG 1#5 7#4 d a b.bits)
  | .gshr d a b => some (packG 1#5 8#4 d a b.bits)
  | .gsel d a b => some (packG 1#5 9#4 d a b.bits)
  | .gcmpS32 d a b => some (packG 1#5 10#4 d a b.bits)
  | .gcmpN32 d a b => some (packG 1#5 11#4 d a b.bits)
  | .gld d a imm => some (packG 1#5 12#4 d a (1#1 ++ imm))
  | .add d a b => some (packA 2#5 0#6 d.bits a.bits b.bits)
  | .sub d a b => some (packA 2#5 1#6 d.bits a.bits b.bits)
  | .mul d a b => some (packA 2#5 2#6 d.bits a.bits b.bits)
  | .mulhS32 d a b => some (packA 2#5 3#6 d.bits a.bits b.bits)
  | .mulhN32 d a b => some (packA 2#5 4#6 d.bits a.bits b.bits)
  | .mad d a b => some (packA 2#5 5#6 d.bits a.bits b.bits)
  | .divS32 d a b => some (packA 2#5 6#6 d.bits a.bits b.bits)
  | .divN32 d a b => some (packA 2#5 7#6 d.bits a.bits b.bits)
  | .remS32 d a b => some (packA 2#5 8#6 d.bits a.bits b.bits)
  | .remN32 d a b => some (packA 2#5 9#6 d.bits a.bits b.bits)
  | .minS32 d a b => some (packA 2#5 10#6 d.bits a.bits b.bits)
  | .minN32 d a b => some (packA 2#5 11#6 d.bits a.bits b.bits)
  | .maxS32 d a b => some (packA 2#5 12#6 d.bits a.bits b.bits)
  | .maxN32 d a b => some (packA 2#5 13#6 d.bits a.bits b.bits)
  | .abs d a => some (packA 2#5 14#6 d.bits a.bits 0#7)
  | .neg d a => some (packA 2#5 15#6 d.bits a.bits 0#7)
  | .and d a b => some (packA 2#5 16#6 d.bits a.bits b.bits)
  | .or d a b => some (packA 2#5 17#6 d.bits a.bits b.bits)
  | .xor d a b => some (packA 2#5 18#6 d.bits a.bits b.bits)
  | .not d a => some (packA 2#5 19#6 d.bits a.bits 0#7)
  | .shl d a b => some (packA 2#5 20#6 d.bits a.bits b.bits)
  | .shr d a b => some (packA 2#5 21#6 d.bits a.bits b.bits)
  | .sha d a b => some (packA 2#5 22#6 d.bits a.bits b.bits)
  | .rot d a b => some (packA 2#5 23#6 d.bits a.bits b.bits)
  | .bfeS32 d a b => some (packA 2#5 24#6 d.bits a.bits b.bits)
  | .bfeN32 d a b => some (packA 2#5 25#6 d.bits a.bits b.bits)
  | .bfi d a b => some (packA 2#5 26#6 d.bits a.bits b.bits)
  | .popc d a => some (packA 2#5 27#6 d.bits a.bits 0#7)
  | .clz d a => some (packA 2#5 28#6 d.bits a.bits 0#7)
  | .brev d a => some (packA 2#5 29#6 d.bits a.bits 0#7)
  | .mov d a => some (packA 2#5 30#6 d.bits a.bits 0#7)
  | .sel n d a b => some (packSel n d.bits a.bits b.bits)
  | .addImm d a imm => some (packI 3#5 0#3 d.bits a.bits imm)
  | .mulImm d a imm => some (packI 3#5 1#3 d.bits a.bits imm)
  | .andImm d a imm => some (packI 3#5 2#3 d.bits a.bits imm)
  | .orImm d a imm => some (packI 3#5 3#3 d.bits a.bits imm)
  | .xorImm d a imm => some (packI 3#5 4#3 d.bits a.bits imm)
  | .shlImm d a imm => some (packI 3#5 5#3 d.bits a.bits imm)
  | .shrImm d a imm => some (packI 3#5 6#3 d.bits a.bits imm)
  | .movi d imm => some (packI 3#5 7#3 d.bits 0#7 imm)
  | .add64 d a b => some (packA 26#5 0#6 d.bits a.bits b.bits)
  | .sub64 d a b => some (packA 26#5 1#6 d.bits a.bits b.bits)
  | .mul64 d a b => some (packA 26#5 2#6 d.bits a.bits b.bits)
  | .lea s d a b => some (packLea s d.bits a.bits b.bits)
  | .sextS8 d a => some (packA 26#5 8#6 d.bits a.bits 0#7)
  | .sextS16 d a => some (packA 26#5 9#6 d.bits a.bits 0#7)
  | .sextS32 d a => some (packA 26#5 10#6 d.bits a.bits 0#7)
  | .zextN8 d a => some (packA 26#5 11#6 d.bits a.bits 0#7)
  | .zextN16 d a => some (packA 26#5 12#6 d.bits a.bits 0#7)
  | .zextN32 d a => some (packA 26#5 13#6 d.bits a.bits 0#7)
  | .icmpEq pd a b => some (packA 8#5 0#6 (0#4 ++ pd) a.bits b.bits)
  | .icmpNe pd a b => some (packA 8#5 1#6 (0#4 ++ pd) a.bits b.bits)
  | .icmpLtS32 pd a b => some (packA 8#5 2#6 (0#4 ++ pd) a.bits b.bits)
  | .icmpLeS32 pd a b => some (packA 8#5 3#6 (0#4 ++ pd) a.bits b.bits)
  | .icmpGtS32 pd a b => some (packA 8#5 4#6 (0#4 ++ pd) a.bits b.bits)
  | .icmpGeS32 pd a b => some (packA 8#5 5#6 (0#4 ++ pd) a.bits b.bits)
  | .icmpLtN32 pd a b => some (packA 8#5 6#6 (0#4 ++ pd) a.bits b.bits)
  | .icmpLeN32 pd a b => some (packA 8#5 7#6 (0#4 ++ pd) a.bits b.bits)
  | .icmpGtN32 pd a b => some (packA 8#5 8#6 (0#4 ++ pd) a.bits b.bits)
  | .icmpGeN32 pd a b => some (packA 8#5 9#6 (0#4 ++ pd) a.bits b.bits)
  | .fcmpEqF32 pd a b => some (packA 8#5 10#6 (0#4 ++ pd) a.bits b.bits)
  | .fcmpNeF32 pd a b => some (packA 8#5 11#6 (0#4 ++ pd) a.bits b.bits)
  | .fcmpLtF32 pd a b => some (packA 8#5 12#6 (0#4 ++ pd) a.bits b.bits)
  | .fcmpLeF32 pd a b => some (packA 8#5 13#6 (0#4 ++ pd) a.bits b.bits)
  | .fcmpGtF32 pd a b => some (packA 8#5 14#6 (0#4 ++ pd) a.bits b.bits)
  | .fcmpGeF32 pd a b => some (packA 8#5 15#6 (0#4 ++ pd) a.bits b.bits)
  | .fcmpUnF32 pd a b => some (packA 8#5 16#6 (0#4 ++ pd) a.bits b.bits)
  | .fcmpOrdF32 pd a b => some (packA 8#5 17#6 (0#4 ++ pd) a.bits b.bits)
  | .pand pd pa pb => some (packA 8#5 18#6 (0#4 ++ pd) pa.bits pb.bits)
  | .por pd pa pb => some (packA 8#5 19#6 (0#4 ++ pd) pa.bits pb.bits)
  | .pxor pd pa pb => some (packA 8#5 20#6 (0#4 ++ pd) pa.bits pb.bits)
  | .pnot pd pa => some (packA 8#5 21#6 (0#4 ++ pd) pa.bits 0#7)
  | .pmovPv d => some (packA 8#5 22#6 d.bits 0#7 0#7)
  | .pmovVp a => some (packA 8#5 23#6 0#7 a.bits 0#7)
  | .voteAny pd pa => some (packA 8#5 24#6 (0#4 ++ pd) pa.bits 0#7)
  | .voteAll pd pa => some (packA 8#5 25#6 (0#4 ++ pd) pa.bits 0#7)
  | .voteBallot d pa => some (packA 8#5 26#6 d.bits pa.bits 0#7)
  | .mfs d num => some (packI 9#5 0#3 d.bits 0#7 num)
  | .mts num a => some (packI 9#5 1#3 0#7 a.bits num)
  | .clk d => some (packI 9#5 2#3 d.bits 0#7 0#10)
  | .trap n => some (packI 24#5 0#3 0#7 0#7 n)
  | .brk n => some (packI 24#5 1#3 0#7 0#7 n)
  | .rti => some (packI 24#5 2#3 0#7 0#7 0#10)
  | .faddF32 d a b => some (packA 4#5 0#6 d.bits a.bits b.bits)
  | .faddF16x2 d a b => some (packA 4#5 1#6 d.bits a.bits b.bits)
  | .faddBf16x2 d a b => some (packA 4#5 2#6 d.bits a.bits b.bits)
  | .fsubF32 d a b => some (packA 4#5 3#6 d.bits a.bits b.bits)
  | .fsubF16x2 d a b => some (packA 4#5 4#6 d.bits a.bits b.bits)
  | .fsubBf16x2 d a b => some (packA 4#5 5#6 d.bits a.bits b.bits)
  | .fmulF32 d a b => some (packA 4#5 6#6 d.bits a.bits b.bits)
  | .fmulF16x2 d a b => some (packA 4#5 7#6 d.bits a.bits b.bits)
  | .fmulBf16x2 d a b => some (packA 4#5 8#6 d.bits a.bits b.bits)
  | .fminF32 d a b => some (packA 4#5 9#6 d.bits a.bits b.bits)
  | .fminF16x2 d a b => some (packA 4#5 10#6 d.bits a.bits b.bits)
  | .fminBf16x2 d a b => some (packA 4#5 11#6 d.bits a.bits b.bits)
  | .fmaxF32 d a b => some (packA 4#5 12#6 d.bits a.bits b.bits)
  | .fmaxF16x2 d a b => some (packA 4#5 13#6 d.bits a.bits b.bits)
  | .fmaxBf16x2 d a b => some (packA 4#5 14#6 d.bits a.bits b.bits)
  | .fabsF32 d a => some (packA 4#5 15#6 d.bits a.bits 0#7)
  | .fabsF16x2 d a => some (packA 4#5 16#6 d.bits a.bits 0#7)
  | .fabsBf16x2 d a => some (packA 4#5 17#6 d.bits a.bits 0#7)
  | .fnegF32 d a => some (packA 4#5 18#6 d.bits a.bits 0#7)
  | .fnegF16x2 d a => some (packA 4#5 19#6 d.bits a.bits 0#7)
  | .fnegBf16x2 d a => some (packA 4#5 20#6 d.bits a.bits 0#7)
  | .fdivF32 d a b => some (packA 4#5 21#6 d.bits a.bits b.bits)
  | .fsqrtF32 d a => some (packA 4#5 22#6 d.bits a.bits 0#7)
  | .frndF32 d a => some (packA 4#5 23#6 d.bits a.bits 0#7)
  | .ffractF32 d a => some (packA 4#5 24#6 d.bits a.bits 0#7)
  | .fmaF32 d a b c => some (packQ 5#5 0#3 d a b c)
  | .fmsF32 d a b c => some (packQ 5#5 1#3 d a b c)
  | .fnmaF32 d a b c => some (packQ 5#5 2#3 d a b c)
  | .fclampF32 d a b c => some (packQ 5#5 3#3 d a b c)
  | .fmaF16x2 d a b c => some (packQ 5#5 4#3 d a b c)
  | .fmaBf16x2 d a b c => some (packQ 5#5 5#3 d a b c)
  | .fmsF16x2 d a b c => some (packQ 5#5 6#3 d a b c)
  | .fmsBf16x2 d a b c => some (packQ 5#5 7#3 d a b c)
  | .frcpF32 d a sb => some (packT 25#5 0#3 sb d.bits a.bits 0#7)
  | .frsqF32 d a sb => some (packT 25#5 1#3 sb d.bits a.bits 0#7)
  | .fexp2F32 d a sb => some (packT 25#5 2#3 sb d.bits a.bits 0#7)
  | .flog2F32 d a sb => some (packT 25#5 3#3 sb d.bits a.bits 0#7)
  | .fsinF32 d a sb => some (packT 25#5 4#3 sb d.bits a.bits 0#7)
  | .fcosF32 d a sb => some (packT 25#5 5#3 sb d.bits a.bits 0#7)
  | .cvtF32S32 d a => some (packA 6#5 0#6 d.bits a.bits 0#7)
  | .cvtF32N32 d a => some (packA 6#5 1#6 d.bits a.bits 0#7)
  | .cvtS32F32 d a => some (packA 6#5 2#6 d.bits a.bits 0#7)
  | .cvtN32F32 d a => some (packA 6#5 3#6 d.bits a.bits 0#7)
  | .cvtF16F32 d a => some (packA 6#5 4#6 d.bits a.bits 0#7)
  | .cvtF32F16 d a lane => some (packA 6#5 5#6 d.bits a.bits (0#3 ++ lane ++ 0#3))
  | .cvtBf16F32 d a => some (packA 6#5 6#6 d.bits a.bits 0#7)
  | .cvtF32Bf16 d a lane => some (packA 6#5 7#6 d.bits a.bits (0#3 ++ lane ++ 0#3))
  | .cvtF16x2F32 d a b => some (packA 6#5 8#6 d.bits a.bits b.bits)
  | .cvtBf16x2F32 d a b => some (packA 6#5 9#6 d.bits a.bits b.bits)
  | .cvtF32S64 d a => some (packA 6#5 10#6 d.bits a.bits 0#7)
  | .cvtS64F32 d a => some (packA 6#5 11#6 d.bits a.bits 0#7)
  | .cvtkK8F32 d a fs lane => some (packA 6#5 12#6 d.bits a.bits (0#2 ++ lane ++ fs))
  | .cvtkF32K8 d a fs lane => some (packA 6#5 13#6 d.bits a.bits (0#2 ++ lane ++ fs))
  | .qntK8 d a fs lane => some (packA 6#5 14#6 d.bits a.bits (0#2 ++ lane ++ fs))
  | .qntS8 d a fs lane => some (packA 6#5 15#6 d.bits a.bits (0#2 ++ lane ++ fs))
  | .dqntK8 d a fs lane => some (packA 6#5 16#6 d.bits a.bits (0#2 ++ lane ++ fs))
  | .dqntS8 d a fs lane => some (packA 6#5 17#6 d.bits a.bits (0#2 ++ lane ++ fs))
  | .packB8 d a b => some (packA 6#5 18#6 d.bits a.bits b.bits)
  | .packB16 d a b => some (packA 6#5 19#6 d.bits a.bits b.bits)
  | .unpackS8 d a lane => some (packA 6#5 20#6 d.bits a.bits (0#2 ++ lane ++ 0#3))
  | .unpackN8 d a lane => some (packA 6#5 21#6 d.bits a.bits (0#2 ++ lane ++ 0#3))
  | .unpackS16 d a lane => some (packA 6#5 22#6 d.bits a.bits (0#3 ++ lane ++ 0#3))
  | .unpackN16 d a lane => some (packA 6#5 23#6 d.bits a.bits (0#3 ++ lane ++ 0#3))
  | .xget d a b => some (packE 7#5 0#5 d.bits a.bits b.bits)
  | .xshiftUp d a b => some (packE 7#5 1#5 d.bits a.bits b.bits)
  | .xshiftDn d a b => some (packE 7#5 2#5 d.bits a.bits b.bits)
  | .xscanAddS32 d a => some (packE 7#5 3#5 d.bits a.bits 0#7)
  | .xscanAddF32 d a => some (packE 7#5 4#5 d.bits a.bits 0#7)
  | .xscanMinS32 d a => some (packE 7#5 5#5 d.bits a.bits 0#7)
  | .xscanMaxS32 d a => some (packE 7#5 6#5 d.bits a.bits 0#7)
  | .xscanMinF32 d a => some (packE 7#5 7#5 d.bits a.bits 0#7)
  | .xscanMaxF32 d a => some (packE 7#5 8#5 d.bits a.bits 0#7)
  | .xredAddS32 d a => some (packE 7#5 9#5 d.bits a.bits 0#7)
  | .xredAddF32 d a => some (packE 7#5 10#5 d.bits a.bits 0#7)
  | .xredMinS32 d a => some (packE 7#5 11#5 d.bits a.bits 0#7)
  | .xredMaxS32 d a => some (packE 7#5 12#5 d.bits a.bits 0#7)
  | .xredMinF32 d a => some (packE 7#5 13#5 d.bits a.bits 0#7)
  | .xredMaxF32 d a => some (packE 7#5 14#5 d.bits a.bits 0#7)
  | .xmatch d a => some (packE 7#5 15#5 d.bits a.bits 0#7)
  | .xbcast d a => some (packE 7#5 16#5 d.bits a.bits 0#7)
  | .xquadH d a => some (packE 7#5 17#5 d.bits a.bits 0#7)
  | .xquadV d a => some (packE 7#5 18#5 d.bits a.bits 0#7)
  | .xquadD d a => some (packE 7#5 19#5 d.bits a.bits 0#7)
  | .tmovToRegister d t rc ge gidx imm => some (packS 7#5 20#5 d.bits t rc ge gidx imm)
  | .tmovToSlice a t rc ge gidx imm => some (packS 7#5 21#5 a.bits t rc ge gidx imm)
  | .ttr t => some (packS 7#5 22#5 0#7 t 0#1 0#1 0#6 0#5)
  | .ldS8 sb d base x => some (packM 10#5 0#4 sb (0#1 ++ d) base.bits x)
  | .ldN8 sb d base x => some (packM 10#5 1#4 sb (0#1 ++ d) base.bits x)
  | .ldS16 sb d base x => some (packM 10#5 2#4 sb (0#1 ++ d) base.bits x)
  | .ldN16 sb d base x => some (packM 10#5 3#4 sb (0#1 ++ d) base.bits x)
  | .ldB32 sb d base x => some (packM 10#5 4#4 sb (0#1 ++ d) base.bits x)
  | .ldB64 sb d base x => some (packM 10#5 5#4 sb (0#1 ++ d) base.bits x)
  | .ldB128 sb d base x => some (packM 10#5 6#4 sb (0#1 ++ d) base.bits x)
  | .ldtB32 sb d base x => some (packM 10#5 7#4 sb (0#1 ++ d) base.bits x)
  | .ldtB64 sb d base x => some (packM 10#5 8#4 sb (0#1 ++ d) base.bits x)
  | .ldtB128 sb d base x => some (packM 10#5 9#4 sb (0#1 ++ d) base.bits x)
  | .vmvK8 sb d base x => some (packM 10#5 10#4 sb (0#1 ++ d) base.bits x)
  | .vmvBf16 sb d base x => some (packM 10#5 11#4 sb (0#1 ++ d) base.bits x)
  | .vmvF32 sb d base x => some (packM 10#5 12#4 sb (0#1 ++ d) base.bits x)
  | .stB8 d base x => some (packM 11#5 0#4 0#3 d.bits base.bits x)
  | .stB16 d base x => some (packM 11#5 1#4 0#3 d.bits base.bits x)
  | .stB32 d base x => some (packM 11#5 2#4 0#3 d.bits base.bits x)
  | .stB64 d base x => some (packM 11#5 3#4 0#3 d.bits base.bits x)
  | .stB128 d base x => some (packM 11#5 4#4 0#3 d.bits base.bits x)
  | .sttB32 d base x => some (packM 11#5 5#4 0#3 d.bits base.bits x)
  | .sttB64 d base x => some (packM 11#5 6#4 0#3 d.bits base.bits x)
  | .sttB128 d base x => some (packM 11#5 7#4 0#3 d.bits base.bits x)
  | .atomAddS32 sb d data base => some (packN 12#5 0#5 sb d data base.bits)
  | .atomAddF32 sb d data base => some (packN 12#5 1#5 sb d data base.bits)
  | .atomMinS32 sb d data base => some (packN 12#5 2#5 sb d data base.bits)
  | .atomMinN32 sb d data base => some (packN 12#5 3#5 sb d data base.bits)
  | .atomMaxS32 sb d data base => some (packN 12#5 4#5 sb d data base.bits)
  | .atomMaxN32 sb d data base => some (packN 12#5 5#5 sb d data base.bits)
  | .atomAndB32 sb d data base => some (packN 12#5 6#5 sb d data base.bits)
  | .atomOrB32 sb d data base => some (packN 12#5 7#5 sb d data base.bits)
  | .atomXorB32 sb d data base => some (packN 12#5 8#5 sb d data base.bits)
  | .atomExchB32 sb d data base => some (packN 12#5 9#5 sb d data base.bits)
  | .atomCasB32 sb d data base => some (packN 12#5 10#5 sb d data base.bits)
  | .atomAddS64 sb d data base => some (packN 12#5 11#5 sb d data base.bits)
  | .atomExchB64 sb d data base => some (packN 12#5 12#5 sb d data base.bits)
  | .atomCasB64 sb d data base => some (packN 12#5 13#5 sb d data base.bits)
  | .atomAddS32Noret data base => some (packN 12#5 14#5 0#3 0#6 data base.bits)
  | .atomAddF32Noret data base => some (packN 12#5 15#5 0#3 0#6 data base.bits)
  | .atomMinS32Noret data base => some (packN 12#5 16#5 0#3 0#6 data base.bits)
  | .atomMinN32Noret data base => some (packN 12#5 17#5 0#3 0#6 data base.bits)
  | .atomMaxS32Noret data base => some (packN 12#5 18#5 0#3 0#6 data base.bits)
  | .atomMaxN32Noret data base => some (packN 12#5 19#5 0#3 0#6 data base.bits)
  | .atomAndB32Noret data base => some (packN 12#5 20#5 0#3 0#6 data base.bits)
  | .atomOrB32Noret data base => some (packN 12#5 21#5 0#3 0#6 data base.bits)
  | .atomXorB32Noret data base => some (packN 12#5 22#5 0#3 0#6 data base.bits)
  | .atomAddS64Noret data base => some (packN 12#5 23#5 0#3 0#6 data base.bits)
  | .atomtAddS32 sb d data base => some (packN 12#5 24#5 sb d data base.bits)
  | .atomtMinS32 sb d data base => some (packN 12#5 25#5 sb d data base.bits)
  | .atomtMaxS32 sb d data base => some (packN 12#5 26#5 sb d data base.bits)
  | .atomtExchB32 sb d data base => some (packN 12#5 27#5 sb d data base.bits)
  | .atomtCasB32 sb d data base => some (packN 12#5 28#5 sb d data base.bits)
  | .atomtAddF32 sb d data base => some (packN 12#5 29#5 sb d data base.bits)
  | .fence => some (packI 13#5 0#3 0#7 0#7 0#10)
  | .xfence => some (packI 13#5 1#3 0#7 0#7 0#10)
  | .wcflush => some (packI 13#5 2#3 0#7 0#7 0#10)
  | .wait m => some (packI 13#5 3#3 0#7 0#7 (0#2 ++ m))
  | .rbset n m => some (packY 14#5 0#3 n m.bits 0#3 0#1)
  | .rbjoin n m => some (packY 14#5 1#3 n m.bits 0#3 0#1)
  | .tbar n m => some (packY 14#5 2#3 n m.bits 0#3 0#1)
  | .cbar n m => some (packY 14#5 3#3 n m.bits 0#3 0#1)
  | .gbar n m => some (packY 14#5 4#3 n m.bits 0#3 0#1)
  | .cvsign n m pd => some (packY 14#5 5#3 n m.bits pd 0#1)
  | .ringwait n stage ph m => some (packY 14#5 6#3 n m.bits stage ph)
  | .ringpass n stage ph m => some (packY 14#5 7#3 n m.bits stage ph)
  | .ovload ot id => some (packO 15#5 0#3 ot 0#7 id)
  | .ovdrop ot => some (packO 15#5 1#3 ot 0#7 0#12)
  | .ovinv id => some (packO 15#5 2#3 0#4 0#7 id)
  | .ovq d ot => some (packO 15#5 3#3 ot d.bits 0#12)
  | .talloc h a level => some (packH 16#5 0#4 0#3 h a.bits (0#3 ++ level))
  | .tfree h => some (packH 16#5 1#4 0#3 h 0#7 0#5)
  | .tpres d h => some (packH 16#5 2#4 0#3 h d.bits 0#5)
  | .cpy h q sb b4 => some (packH 16#5 3#4 sb h q.bits b4)
  | .cpyg h q sb => some (packH 16#5 4#4 sb h q.bits 0#5)
  | .cpst h q sb b4 => some (packH 16#5 5#4 sb h q.bits b4)
  | .cpfill h a sb => some (packH 16#5 6#4 sb h a.bits 0#5)
  | .macq => some (packX1 17#5 0#4 0#4 0#5 0#8 0#3 0#3)
  | .mrel => some (packX1 17#5 1#4 0#4 0#5 0#8 0#3 0#3)
  | .mbind cv acc h fs sb => some (packX1 17#5 2#4 cv acc h fs sb)
  | .mbindR cv acc g fs sb => some (packX1 17#5 3#4 cv acc (0#2 ++ g) fs sb)
  | .msignReg cv v => some (packX3 17#5 4#4 cv (0#1 ++ v ++ 0#12))
  | .msignSlice cv t ge gidx imm => some (packX3 17#5 5#4 cv (t ++ ge ++ gidx ++ imm ++ 0#6))
  | .msignReReg cv v => some (packX3 17#5 6#4 cv (0#1 ++ v ++ 0#12))
  | .msignReSlice cv t ge gidx imm => some (packX3 17#5 7#4 cv (t ++ ge ++ gidx ++ imm ++ 0#6))
  | .msignReNone cv => some (packX3 17#5 8#4 cv 0#19)
  | .mzero acc => some (packX1 17#5 9#4 0#4 acc 0#8 0#3 0#3)
  | .mmac acc gA sb => some (packX1 17#5 10#4 0#4 acc (0#2 ++ gA) 0#3 sb)
  | .accalloc acc n => some (packX2 18#5 0#4 0#7 acc (0#1 ++ n) 0#3)
  | .accfree acc n => some (packX2 18#5 1#4 0#7 acc (0#1 ++ n) 0#3)
  | .mdrainHandle acc h fs sb => some (packX1 18#5 2#4 0#4 acc h fs sb)
  | .mdrainTHandle acc h fs sb => some (packX1 18#5 3#4 0#4 acc h fs sb)
  | .mdrainMemory acc gQ fs sb => some (packX2 18#5 4#4 (1#1 ++ gQ) acc (0#4 ++ fs) sb)
  | .mdrainTMemory acc gQ fs sb => some (packX2 18#5 5#4 (1#1 ++ gQ) acc (0#4 ++ fs) sb)
  | .accld v acc h c sb => some (packX2 18#5 6#4 (0#1 ++ v) acc (0#4 ++ c ++ h) sb)
  | .accst v acc h c => some (packX2 18#5 7#4 (0#1 ++ v) acc (0#4 ++ c ++ h) 0#3)
  | .bpush a b sb => some (packT 20#5 0#3 sb 0#7 (0#1 ++ a) b.bits)
  | .bpop d a b sb => some (packT 20#5 1#3 sb (0#1 ++ d) a.bits b.bits)
  | .cont a b => some (packT 20#5 2#3 0#3 0#7 (0#1 ++ a) b.bits)
  | .bflush b => some (packT 20#5 3#3 0#3 0#7 0#7 b.bits)
  | .bquery d b sb => some (packT 20#5 4#3 sb d.bits 0#7 b.bits)
  | .wgpush a b sb => some (packT 20#5 5#3 sb 0#7 (0#1 ++ a) b.bits)
  | .mesh d a b sb => some (packT 21#5 0#3 sb d.bits a.bits b.bits)
  | .fseal d sb => some (packT 21#5 1#3 sb d.bits 0#7 0#7)
  | .fwait d a => some (packT 21#5 2#3 0#3 d.bits a.bits 0#7)
  | .attr d a b sb => some (packT 22#5 0#3 sb (0#1 ++ d) (0#1 ++ a) b.bits)
  | .attrD d a b sb => some (packT 22#5 1#3 sb (0#1 ++ d) (0#1 ++ a) b.bits)
  | .bary d a sb => some (packT 22#5 2#3 sb (0#1 ++ d) (0#1 ++ a) 0#7)
  | .smp d a b sb => some (packT 22#5 3#3 sb (0#1 ++ d) (0#1 ++ a) b.bits)
  | .rldB32 sb d base x => some (packM 23#5 0#4 sb (0#1 ++ d) base.bits x)
  | .rldB64 sb d base x => some (packM 23#5 1#4 sb (0#1 ++ d) base.bits x)
  | .rldB128 sb d base x => some (packM 23#5 2#4 sb (0#1 ++ d) base.bits x)
  | .rstB32 d base x => some (packM 23#5 3#4 0#3 d.bits base.bits x)
  | .rstB64 d base x => some (packM 23#5 4#4 0#3 d.bits base.bits x)
  | .rstB128 d base x => some (packM 23#5 5#4 0#3 d.bits base.bits x)
  | .ratomAddS32 sb d base x => some (packM 23#5 6#4 sb (0#1 ++ d) base.bits x)
  | .ratomAddS64 sb d base x => some (packM 23#5 7#4 sb (0#1 ++ d) base.bits x)
  | .ratomExchB64 sb d base x => some (packM 23#5 8#4 sb (0#1 ++ d) base.bits x)
  | .ratomCasB64 sb d base x => some (packM 23#5 9#4 sb (0#1 ++ d) base.bits x)
  | .coll g sb => some (packM 23#5 10#4 sb 0#7 (1#1 ++ g) 0#6)
  | .cwait g d => some (packM 23#5 11#4 0#3 d.bits (1#1 ++ g) 0#6)
  | .clauseIssue _ _ => none
  | .ageExpiry _ _ => none
  | .pauseEnd _ => none
  | .resultReturn _ => none
  | .storeTimestamp _ => none
  | .ptsTick => none
  | .tlbRefill _ _ _ => none
  | .barrierRelease _ _ _ => none
  | .levelStep => none
  | .ctxBind _ => none
  | .ctxStart _ => none
  | .ctxSuspend _ => none
  | .ctxResume _ => none
  | .ctxThaw _ => none
  | .ctxKill _ => none
  | .contextDrainComplete _ => none
  | .doorbell _ _ _ _ _ _ => none
  | .packetParse _ _ => none
  | .packetLaunch _ _ _ => none
  | .packetRetire _ _ _ => none
  | .queueEnable _ _ => none
  | .queuePreempt _ _ => none
  | .queueResume _ _ => none
  | .queueThaw _ _ => none
  | .queueReset _ _ => none
  | .teamPlace _ => none
  | .argumentWindowLoad _ => none
  | .teamSaveComplete _ => none
  | .teamResume _ => none
  | .forwardedArrival _ _ => none
  | .groupEnd _ => none
  | .gridRetire _ => none
  | .overlayFetchComplete _ _ => none
  | .ovwaitTimeout _ _ => none
  | .accGrant _ => none
  | .accwaitTimeout _ => none
  | .matrixOperationComplete _ => none
  | .drainComplete _ _ => none
  | .copyCommandStart _ => none
  | .copyLineWritten _ _ => none
  | .binEnable _ _ => none
  | .binDisable _ _ => none
  | .recordAccept _ _ => none
  | .ringRefill _ _ => none
  | .btimeout _ _ => none
  | .binLaunch _ _ => none
  | .quadTest _ => none
  | .classify _ _ => none
  | .tileWriteOut _ _ => none
  | .sealComplete _ => none
  | .write _ _ _ _ _ _ => none
  | .read _ _ _ _ _ _ => none
  | .readresp _ _ _ _ _ _ => none
  | .atomic _ _ _ _ _ _ _ _ => none
  | .atomicresp _ _ _ _ _ _ => none
  | .panswer _ _ _ _ _ _ => none
  | .collMessage _ _ _ _ _ _ _ => none
  | .mgmt _ _ _ _ _ _ _ => none
  | .ack _ _ _ => none
  | .nak _ _ _ _ _ => none
  | .retransmitTimeout _ => none
  | .peerOpen _ => none
  | .peerClose _ => none
  | .peerThaw _ => none
  | .handshakeDone _ => none
  | .portUp _ => none
  | .portDown _ => none
  | .invalidateAsnRange => none
  | .invalidateAll => none
  | .attestationReport => none
  | .reportWritten => none
  | .energyRead _ => none
  | .powerOnReset => none
  | .networkBootRetry => none
  | .blockReady _ _ => none
  | .thermalTrip _ => none
  | .biasStep _ _ => none
  | .tempUpdate _ _ => none
  | .registerWrite _ _ => none
  | .invalidationComplete => none
  | .accumulatorIncrement _ _ => none
  | .standbyRailLoss => none
  | .boardPowerRemoval => none
  | .networkImageFetch _ => none
  | .fusedCounterRaise _ => none

/-- The instruction that the sub-opcode of class 00000 names (R55); `none` where it is unassigned. -/
def rawControl (w : BitVec 32) : Option Instr :=
  match (bits w 23 4).toNat with
  | 0 => some (.nop)
  | 1 => some (.bra (bits w 0 19))
  | 3 => some (.call (bits w 0 19))
  | 4 => some (.callx (bits w 0 19))
  | 2 => some (.brx (Opnd.ofBits (bits w 0 7)))
  | 5 => some (.ret)
  | 6 => some (.exit)
  | 8 => some (.kill)
  | 7 => some (.pause (bits w 0 19))
  | _ => none

/-- The instruction that the sub-opcode of class 00001 names (R55); `none` where it is unassigned. -/
def rawUniform (w : BitVec 32) : Option Instr :=
  match (bits w 23 4).toNat with
  | 0 => some (.gmov (bits w 17 6) (GSrc.ofBits (bits w 0 11)))
  | 1 => some (.gadd (bits w 17 6) (bits w 11 6) (GSrc.ofBits (bits w 0 11)))
  | 2 => some (.gsub (bits w 17 6) (bits w 11 6) (GSrc.ofBits (bits w 0 11)))
  | 3 => some (.gmul (bits w 17 6) (bits w 11 6) (GSrc.ofBits (bits w 0 11)))
  | 4 => some (.gand (bits w 17 6) (bits w 11 6) (GSrc.ofBits (bits w 0 11)))
  | 5 => some (.gor (bits w 17 6) (bits w 11 6) (GSrc.ofBits (bits w 0 11)))
  | 6 => some (.gxor (bits w 17 6) (bits w 11 6) (GSrc.ofBits (bits w 0 11)))
  | 7 => some (.gshl (bits w 17 6) (bits w 11 6) (GSrc.ofBits (bits w 0 11)))
  | 8 => some (.gshr (bits w 17 6) (bits w 11 6) (GSrc.ofBits (bits w 0 11)))
  | 9 => some (.gsel (bits w 17 6) (bits w 11 6) (GSrc.ofBits (bits w 0 11)))
  | 10 => some (.gcmpS32 (bits w 17 6) (bits w 11 6) (GSrc.ofBits (bits w 0 11)))
  | 11 => some (.gcmpN32 (bits w 17 6) (bits w 11 6) (GSrc.ofBits (bits w 0 11)))
  | 12 => some (.gld (bits w 17 6) (bits w 11 6) (bits w 0 10))
  | _ => none

/-- The instruction that the sub-opcode of class 00010 names (R55); `none` where it is unassigned. -/
def rawInteger (w : BitVec 32) : Option Instr :=
  match (bits w 21 6).toNat with
  | 0 => some (.add (Opnd.ofBits (bits w 14 7)) (Opnd.ofBits (bits w 7 7)) (Opnd.ofBits (bits w 0 7)))
  | 1 => some (.sub (Opnd.ofBits (bits w 14 7)) (Opnd.ofBits (bits w 7 7)) (Opnd.ofBits (bits w 0 7)))
  | 2 => some (.mul (Opnd.ofBits (bits w 14 7)) (Opnd.ofBits (bits w 7 7)) (Opnd.ofBits (bits w 0 7)))
  | 3 => some (.mulhS32 (Opnd.ofBits (bits w 14 7)) (Opnd.ofBits (bits w 7 7)) (Opnd.ofBits (bits w 0 7)))
  | 4 => some (.mulhN32 (Opnd.ofBits (bits w 14 7)) (Opnd.ofBits (bits w 7 7)) (Opnd.ofBits (bits w 0 7)))
  | 5 => some (.mad (Opnd.ofBits (bits w 14 7)) (Opnd.ofBits (bits w 7 7)) (Opnd.ofBits (bits w 0 7)))
  | 6 => some (.divS32 (Opnd.ofBits (bits w 14 7)) (Opnd.ofBits (bits w 7 7)) (Opnd.ofBits (bits w 0 7)))
  | 7 => some (.divN32 (Opnd.ofBits (bits w 14 7)) (Opnd.ofBits (bits w 7 7)) (Opnd.ofBits (bits w 0 7)))
  | 8 => some (.remS32 (Opnd.ofBits (bits w 14 7)) (Opnd.ofBits (bits w 7 7)) (Opnd.ofBits (bits w 0 7)))
  | 9 => some (.remN32 (Opnd.ofBits (bits w 14 7)) (Opnd.ofBits (bits w 7 7)) (Opnd.ofBits (bits w 0 7)))
  | 10 => some (.minS32 (Opnd.ofBits (bits w 14 7)) (Opnd.ofBits (bits w 7 7)) (Opnd.ofBits (bits w 0 7)))
  | 11 => some (.minN32 (Opnd.ofBits (bits w 14 7)) (Opnd.ofBits (bits w 7 7)) (Opnd.ofBits (bits w 0 7)))
  | 12 => some (.maxS32 (Opnd.ofBits (bits w 14 7)) (Opnd.ofBits (bits w 7 7)) (Opnd.ofBits (bits w 0 7)))
  | 13 => some (.maxN32 (Opnd.ofBits (bits w 14 7)) (Opnd.ofBits (bits w 7 7)) (Opnd.ofBits (bits w 0 7)))
  | 14 => some (.abs (Opnd.ofBits (bits w 14 7)) (Opnd.ofBits (bits w 7 7)))
  | 15 => some (.neg (Opnd.ofBits (bits w 14 7)) (Opnd.ofBits (bits w 7 7)))
  | 16 => some (.and (Opnd.ofBits (bits w 14 7)) (Opnd.ofBits (bits w 7 7)) (Opnd.ofBits (bits w 0 7)))
  | 17 => some (.or (Opnd.ofBits (bits w 14 7)) (Opnd.ofBits (bits w 7 7)) (Opnd.ofBits (bits w 0 7)))
  | 18 => some (.xor (Opnd.ofBits (bits w 14 7)) (Opnd.ofBits (bits w 7 7)) (Opnd.ofBits (bits w 0 7)))
  | 19 => some (.not (Opnd.ofBits (bits w 14 7)) (Opnd.ofBits (bits w 7 7)))
  | 20 => some (.shl (Opnd.ofBits (bits w 14 7)) (Opnd.ofBits (bits w 7 7)) (Opnd.ofBits (bits w 0 7)))
  | 21 => some (.shr (Opnd.ofBits (bits w 14 7)) (Opnd.ofBits (bits w 7 7)) (Opnd.ofBits (bits w 0 7)))
  | 22 => some (.sha (Opnd.ofBits (bits w 14 7)) (Opnd.ofBits (bits w 7 7)) (Opnd.ofBits (bits w 0 7)))
  | 23 => some (.rot (Opnd.ofBits (bits w 14 7)) (Opnd.ofBits (bits w 7 7)) (Opnd.ofBits (bits w 0 7)))
  | 24 => some (.bfeS32 (Opnd.ofBits (bits w 14 7)) (Opnd.ofBits (bits w 7 7)) (Opnd.ofBits (bits w 0 7)))
  | 25 => some (.bfeN32 (Opnd.ofBits (bits w 14 7)) (Opnd.ofBits (bits w 7 7)) (Opnd.ofBits (bits w 0 7)))
  | 26 => some (.bfi (Opnd.ofBits (bits w 14 7)) (Opnd.ofBits (bits w 7 7)) (Opnd.ofBits (bits w 0 7)))
  | 27 => some (.popc (Opnd.ofBits (bits w 14 7)) (Opnd.ofBits (bits w 7 7)))
  | 28 => some (.clz (Opnd.ofBits (bits w 14 7)) (Opnd.ofBits (bits w 7 7)))
  | 29 => some (.brev (Opnd.ofBits (bits w 14 7)) (Opnd.ofBits (bits w 7 7)))
  | 30 => some (.mov (Opnd.ofBits (bits w 14 7)) (Opnd.ofBits (bits w 7 7)))
  | 56 => some (.sel 0#3 (Opnd.ofBits (bits w 14 7)) (Opnd.ofBits (bits w 7 7)) (Opnd.ofBits (bits w 0 7)))
  | 57 => some (.sel 1#3 (Opnd.ofBits (bits w 14 7)) (Opnd.ofBits (bits w 7 7)) (Opnd.ofBits (bits w 0 7)))
  | 58 => some (.sel 2#3 (Opnd.ofBits (bits w 14 7)) (Opnd.ofBits (bits w 7 7)) (Opnd.ofBits (bits w 0 7)))
  | 59 => some (.sel 3#3 (Opnd.ofBits (bits w 14 7)) (Opnd.ofBits (bits w 7 7)) (Opnd.ofBits (bits w 0 7)))
  | 60 => some (.sel 4#3 (Opnd.ofBits (bits w 14 7)) (Opnd.ofBits (bits w 7 7)) (Opnd.ofBits (bits w 0 7)))
  | 61 => some (.sel 5#3 (Opnd.ofBits (bits w 14 7)) (Opnd.ofBits (bits w 7 7)) (Opnd.ofBits (bits w 0 7)))
  | 62 => some (.sel 6#3 (Opnd.ofBits (bits w 14 7)) (Opnd.ofBits (bits w 7 7)) (Opnd.ofBits (bits w 0 7)))
  | _ => none

/-- The instruction that the sub-opcode of class 00011 names (R55); `none` where it is unassigned. -/
def rawIntegerImm (w : BitVec 32) : Option Instr :=
  match (bits w 24 3).toNat with
  | 0 => some (.addImm (Opnd.ofBits (bits w 17 7)) (Opnd.ofBits (bits w 10 7)) (bits w 0 10))
  | 1 => some (.mulImm (Opnd.ofBits (bits w 17 7)) (Opnd.ofBits (bits w 10 7)) (bits w 0 10))
  | 2 => some (.andImm (Opnd.ofBits (bits w 17 7)) (Opnd.ofBits (bits w 10 7)) (bits w 0 10))
  | 3 => some (.orImm (Opnd.ofBits (bits w 17 7)) (Opnd.ofBits (bits w 10 7)) (bits w 0 10))
  | 4 => some (.xorImm (Opnd.ofBits (bits w 17 7)) (Opnd.ofBits (bits w 10 7)) (bits w 0 10))
  | 5 => some (.shlImm (Opnd.ofBits (bits w 17 7)) (Opnd.ofBits (bits w 10 7)) (bits w 0 10))
  | 6 => some (.shrImm (Opnd.ofBits (bits w 17 7)) (Opnd.ofBits (bits w 10 7)) (bits w 0 10))
  | 7 => some (.movi (Opnd.ofBits (bits w 17 7)) (bits w 0 10))
  | _ => none

/-- The instruction that the sub-opcode of class 00100 names (R55); `none` where it is unassigned. -/
def rawFloat (w : BitVec 32) : Option Instr :=
  match (bits w 21 6).toNat with
  | 0 => some (.faddF32 (Opnd.ofBits (bits w 14 7)) (Opnd.ofBits (bits w 7 7)) (Opnd.ofBits (bits w 0 7)))
  | 1 => some (.faddF16x2 (Opnd.ofBits (bits w 14 7)) (Opnd.ofBits (bits w 7 7)) (Opnd.ofBits (bits w 0 7)))
  | 2 => some (.faddBf16x2 (Opnd.ofBits (bits w 14 7)) (Opnd.ofBits (bits w 7 7)) (Opnd.ofBits (bits w 0 7)))
  | 3 => some (.fsubF32 (Opnd.ofBits (bits w 14 7)) (Opnd.ofBits (bits w 7 7)) (Opnd.ofBits (bits w 0 7)))
  | 4 => some (.fsubF16x2 (Opnd.ofBits (bits w 14 7)) (Opnd.ofBits (bits w 7 7)) (Opnd.ofBits (bits w 0 7)))
  | 5 => some (.fsubBf16x2 (Opnd.ofBits (bits w 14 7)) (Opnd.ofBits (bits w 7 7)) (Opnd.ofBits (bits w 0 7)))
  | 6 => some (.fmulF32 (Opnd.ofBits (bits w 14 7)) (Opnd.ofBits (bits w 7 7)) (Opnd.ofBits (bits w 0 7)))
  | 7 => some (.fmulF16x2 (Opnd.ofBits (bits w 14 7)) (Opnd.ofBits (bits w 7 7)) (Opnd.ofBits (bits w 0 7)))
  | 8 => some (.fmulBf16x2 (Opnd.ofBits (bits w 14 7)) (Opnd.ofBits (bits w 7 7)) (Opnd.ofBits (bits w 0 7)))
  | 9 => some (.fminF32 (Opnd.ofBits (bits w 14 7)) (Opnd.ofBits (bits w 7 7)) (Opnd.ofBits (bits w 0 7)))
  | 10 => some (.fminF16x2 (Opnd.ofBits (bits w 14 7)) (Opnd.ofBits (bits w 7 7)) (Opnd.ofBits (bits w 0 7)))
  | 11 => some (.fminBf16x2 (Opnd.ofBits (bits w 14 7)) (Opnd.ofBits (bits w 7 7)) (Opnd.ofBits (bits w 0 7)))
  | 12 => some (.fmaxF32 (Opnd.ofBits (bits w 14 7)) (Opnd.ofBits (bits w 7 7)) (Opnd.ofBits (bits w 0 7)))
  | 13 => some (.fmaxF16x2 (Opnd.ofBits (bits w 14 7)) (Opnd.ofBits (bits w 7 7)) (Opnd.ofBits (bits w 0 7)))
  | 14 => some (.fmaxBf16x2 (Opnd.ofBits (bits w 14 7)) (Opnd.ofBits (bits w 7 7)) (Opnd.ofBits (bits w 0 7)))
  | 15 => some (.fabsF32 (Opnd.ofBits (bits w 14 7)) (Opnd.ofBits (bits w 7 7)))
  | 16 => some (.fabsF16x2 (Opnd.ofBits (bits w 14 7)) (Opnd.ofBits (bits w 7 7)))
  | 17 => some (.fabsBf16x2 (Opnd.ofBits (bits w 14 7)) (Opnd.ofBits (bits w 7 7)))
  | 18 => some (.fnegF32 (Opnd.ofBits (bits w 14 7)) (Opnd.ofBits (bits w 7 7)))
  | 19 => some (.fnegF16x2 (Opnd.ofBits (bits w 14 7)) (Opnd.ofBits (bits w 7 7)))
  | 20 => some (.fnegBf16x2 (Opnd.ofBits (bits w 14 7)) (Opnd.ofBits (bits w 7 7)))
  | 21 => some (.fdivF32 (Opnd.ofBits (bits w 14 7)) (Opnd.ofBits (bits w 7 7)) (Opnd.ofBits (bits w 0 7)))
  | 22 => some (.fsqrtF32 (Opnd.ofBits (bits w 14 7)) (Opnd.ofBits (bits w 7 7)))
  | 23 => some (.frndF32 (Opnd.ofBits (bits w 14 7)) (Opnd.ofBits (bits w 7 7)))
  | 24 => some (.ffractF32 (Opnd.ofBits (bits w 14 7)) (Opnd.ofBits (bits w 7 7)))
  | _ => none

/-- The instruction that the sub-opcode of class 00101 names (R55); `none` where it is unassigned. -/
def rawFloat4 (w : BitVec 32) : Option Instr :=
  match (bits w 24 3).toNat with
  | 0 => some (.fmaF32 (bits w 18 6) (bits w 12 6) (bits w 6 6) (bits w 0 6))
  | 1 => some (.fmsF32 (bits w 18 6) (bits w 12 6) (bits w 6 6) (bits w 0 6))
  | 2 => some (.fnmaF32 (bits w 18 6) (bits w 12 6) (bits w 6 6) (bits w 0 6))
  | 3 => some (.fclampF32 (bits w 18 6) (bits w 12 6) (bits w 6 6) (bits w 0 6))
  | 4 => some (.fmaF16x2 (bits w 18 6) (bits w 12 6) (bits w 6 6) (bits w 0 6))
  | 5 => some (.fmaBf16x2 (bits w 18 6) (bits w 12 6) (bits w 6 6) (bits w 0 6))
  | 6 => some (.fmsF16x2 (bits w 18 6) (bits w 12 6) (bits w 6 6) (bits w 0 6))
  | 7 => some (.fmsBf16x2 (bits w 18 6) (bits w 12 6) (bits w 6 6) (bits w 0 6))
  | _ => none

/-- The instruction that the sub-opcode of class 00110 names (R55); `none` where it is unassigned. -/
def rawConv (w : BitVec 32) : Option Instr :=
  match (bits w 21 6).toNat with
  | 0 => some (.cvtF32S32 (Opnd.ofBits (bits w 14 7)) (Opnd.ofBits (bits w 7 7)))
  | 1 => some (.cvtF32N32 (Opnd.ofBits (bits w 14 7)) (Opnd.ofBits (bits w 7 7)))
  | 2 => some (.cvtS32F32 (Opnd.ofBits (bits w 14 7)) (Opnd.ofBits (bits w 7 7)))
  | 3 => some (.cvtN32F32 (Opnd.ofBits (bits w 14 7)) (Opnd.ofBits (bits w 7 7)))
  | 4 => some (.cvtF16F32 (Opnd.ofBits (bits w 14 7)) (Opnd.ofBits (bits w 7 7)))
  | 6 => some (.cvtBf16F32 (Opnd.ofBits (bits w 14 7)) (Opnd.ofBits (bits w 7 7)))
  | 10 => some (.cvtF32S64 (Opnd.ofBits (bits w 14 7)) (Opnd.ofBits (bits w 7 7)))
  | 11 => some (.cvtS64F32 (Opnd.ofBits (bits w 14 7)) (Opnd.ofBits (bits w 7 7)))
  | 5 => some (.cvtF32F16 (Opnd.ofBits (bits w 14 7)) (Opnd.ofBits (bits w 7 7)) (bits w 3 1))
  | 7 => some (.cvtF32Bf16 (Opnd.ofBits (bits w 14 7)) (Opnd.ofBits (bits w 7 7)) (bits w 3 1))
  | 22 => some (.unpackS16 (Opnd.ofBits (bits w 14 7)) (Opnd.ofBits (bits w 7 7)) (bits w 3 1))
  | 23 => some (.unpackN16 (Opnd.ofBits (bits w 14 7)) (Opnd.ofBits (bits w 7 7)) (bits w 3 1))
  | 20 => some (.unpackS8 (Opnd.ofBits (bits w 14 7)) (Opnd.ofBits (bits w 7 7)) (bits w 3 2))
  | 21 => some (.unpackN8 (Opnd.ofBits (bits w 14 7)) (Opnd.ofBits (bits w 7 7)) (bits w 3 2))
  | 8 => some (.cvtF16x2F32 (Opnd.ofBits (bits w 14 7)) (Opnd.ofBits (bits w 7 7)) (Opnd.ofBits (bits w 0 7)))
  | 9 => some (.cvtBf16x2F32 (Opnd.ofBits (bits w 14 7)) (Opnd.ofBits (bits w 7 7)) (Opnd.ofBits (bits w 0 7)))
  | 18 => some (.packB8 (Opnd.ofBits (bits w 14 7)) (Opnd.ofBits (bits w 7 7)) (Opnd.ofBits (bits w 0 7)))
  | 19 => some (.packB16 (Opnd.ofBits (bits w 14 7)) (Opnd.ofBits (bits w 7 7)) (Opnd.ofBits (bits w 0 7)))
  | 12 => some (.cvtkK8F32 (Opnd.ofBits (bits w 14 7)) (Opnd.ofBits (bits w 7 7)) (bits w 0 3) (bits w 3 2))
  | 13 => some (.cvtkF32K8 (Opnd.ofBits (bits w 14 7)) (Opnd.ofBits (bits w 7 7)) (bits w 0 3) (bits w 3 2))
  | 14 => some (.qntK8 (Opnd.ofBits (bits w 14 7)) (Opnd.ofBits (bits w 7 7)) (bits w 0 3) (bits w 3 2))
  | 15 => some (.qntS8 (Opnd.ofBits (bits w 14 7)) (Opnd.ofBits (bits w 7 7)) (bits w 0 3) (bits w 3 2))
  | 16 => some (.dqntK8 (Opnd.ofBits (bits w 14 7)) (Opnd.ofBits (bits w 7 7)) (bits w 0 3) (bits w 3 2))
  | 17 => some (.dqntS8 (Opnd.ofBits (bits w 14 7)) (Opnd.ofBits (bits w 7 7)) (bits w 0 3) (bits w 3 2))
  | _ => none

/-- The instruction that the sub-opcode of class 00111 names (R55); `none` where it is unassigned. -/
def rawExch (w : BitVec 32) : Option Instr :=
  match (bits w 22 5).toNat with
  | 0 => some (.xget (Opnd.ofBits (bits w 15 7)) (Opnd.ofBits (bits w 8 7)) (Opnd.ofBits (bits w 1 7)))
  | 1 => some (.xshiftUp (Opnd.ofBits (bits w 15 7)) (Opnd.ofBits (bits w 8 7)) (Opnd.ofBits (bits w 1 7)))
  | 2 => some (.xshiftDn (Opnd.ofBits (bits w 15 7)) (Opnd.ofBits (bits w 8 7)) (Opnd.ofBits (bits w 1 7)))
  | 3 => some (.xscanAddS32 (Opnd.ofBits (bits w 15 7)) (Opnd.ofBits (bits w 8 7)))
  | 4 => some (.xscanAddF32 (Opnd.ofBits (bits w 15 7)) (Opnd.ofBits (bits w 8 7)))
  | 5 => some (.xscanMinS32 (Opnd.ofBits (bits w 15 7)) (Opnd.ofBits (bits w 8 7)))
  | 6 => some (.xscanMaxS32 (Opnd.ofBits (bits w 15 7)) (Opnd.ofBits (bits w 8 7)))
  | 7 => some (.xscanMinF32 (Opnd.ofBits (bits w 15 7)) (Opnd.ofBits (bits w 8 7)))
  | 8 => some (.xscanMaxF32 (Opnd.ofBits (bits w 15 7)) (Opnd.ofBits (bits w 8 7)))
  | 9 => some (.xredAddS32 (Opnd.ofBits (bits w 15 7)) (Opnd.ofBits (bits w 8 7)))
  | 10 => some (.xredAddF32 (Opnd.ofBits (bits w 15 7)) (Opnd.ofBits (bits w 8 7)))
  | 11 => some (.xredMinS32 (Opnd.ofBits (bits w 15 7)) (Opnd.ofBits (bits w 8 7)))
  | 12 => some (.xredMaxS32 (Opnd.ofBits (bits w 15 7)) (Opnd.ofBits (bits w 8 7)))
  | 13 => some (.xredMinF32 (Opnd.ofBits (bits w 15 7)) (Opnd.ofBits (bits w 8 7)))
  | 14 => some (.xredMaxF32 (Opnd.ofBits (bits w 15 7)) (Opnd.ofBits (bits w 8 7)))
  | 15 => some (.xmatch (Opnd.ofBits (bits w 15 7)) (Opnd.ofBits (bits w 8 7)))
  | 16 => some (.xbcast (Opnd.ofBits (bits w 15 7)) (Opnd.ofBits (bits w 8 7)))
  | 17 => some (.xquadH (Opnd.ofBits (bits w 15 7)) (Opnd.ofBits (bits w 8 7)))
  | 18 => some (.xquadV (Opnd.ofBits (bits w 15 7)) (Opnd.ofBits (bits w 8 7)))
  | 19 => some (.xquadD (Opnd.ofBits (bits w 15 7)) (Opnd.ofBits (bits w 8 7)))
  | 20 => some (.tmovToRegister (Opnd.ofBits (bits w 15 7)) (bits w 14 1) (bits w 13 1) (bits w 12 1) (bits w 6 6) (bits w 1 5))
  | 21 => some (.tmovToSlice (Opnd.ofBits (bits w 15 7)) (bits w 14 1) (bits w 13 1) (bits w 12 1) (bits w 6 6) (bits w 1 5))
  | 22 => some (.ttr (bits w 14 1))
  | _ => none

/-- The instruction that the sub-opcode of class 01000 names (R55); `none` where it is unassigned. -/
def rawCmp (w : BitVec 32) : Option Instr :=
  match (bits w 21 6).toNat with
  | 0 => some (.icmpEq (bits w 14 3) (Opnd.ofBits (bits w 7 7)) (Opnd.ofBits (bits w 0 7)))
  | 1 => some (.icmpNe (bits w 14 3) (Opnd.ofBits (bits w 7 7)) (Opnd.ofBits (bits w 0 7)))
  | 2 => some (.icmpLtS32 (bits w 14 3) (Opnd.ofBits (bits w 7 7)) (Opnd.ofBits (bits w 0 7)))
  | 3 => some (.icmpLeS32 (bits w 14 3) (Opnd.ofBits (bits w 7 7)) (Opnd.ofBits (bits w 0 7)))
  | 4 => some (.icmpGtS32 (bits w 14 3) (Opnd.ofBits (bits w 7 7)) (Opnd.ofBits (bits w 0 7)))
  | 5 => some (.icmpGeS32 (bits w 14 3) (Opnd.ofBits (bits w 7 7)) (Opnd.ofBits (bits w 0 7)))
  | 6 => some (.icmpLtN32 (bits w 14 3) (Opnd.ofBits (bits w 7 7)) (Opnd.ofBits (bits w 0 7)))
  | 7 => some (.icmpLeN32 (bits w 14 3) (Opnd.ofBits (bits w 7 7)) (Opnd.ofBits (bits w 0 7)))
  | 8 => some (.icmpGtN32 (bits w 14 3) (Opnd.ofBits (bits w 7 7)) (Opnd.ofBits (bits w 0 7)))
  | 9 => some (.icmpGeN32 (bits w 14 3) (Opnd.ofBits (bits w 7 7)) (Opnd.ofBits (bits w 0 7)))
  | 10 => some (.fcmpEqF32 (bits w 14 3) (Opnd.ofBits (bits w 7 7)) (Opnd.ofBits (bits w 0 7)))
  | 11 => some (.fcmpNeF32 (bits w 14 3) (Opnd.ofBits (bits w 7 7)) (Opnd.ofBits (bits w 0 7)))
  | 12 => some (.fcmpLtF32 (bits w 14 3) (Opnd.ofBits (bits w 7 7)) (Opnd.ofBits (bits w 0 7)))
  | 13 => some (.fcmpLeF32 (bits w 14 3) (Opnd.ofBits (bits w 7 7)) (Opnd.ofBits (bits w 0 7)))
  | 14 => some (.fcmpGtF32 (bits w 14 3) (Opnd.ofBits (bits w 7 7)) (Opnd.ofBits (bits w 0 7)))
  | 15 => some (.fcmpGeF32 (bits w 14 3) (Opnd.ofBits (bits w 7 7)) (Opnd.ofBits (bits w 0 7)))
  | 16 => some (.fcmpUnF32 (bits w 14 3) (Opnd.ofBits (bits w 7 7)) (Opnd.ofBits (bits w 0 7)))
  | 17 => some (.fcmpOrdF32 (bits w 14 3) (Opnd.ofBits (bits w 7 7)) (Opnd.ofBits (bits w 0 7)))
  | 18 => some (.pand (bits w 14 3) (PSrc.ofBits (bits w 7 7)) (PSrc.ofBits (bits w 0 7)))
  | 19 => some (.por (bits w 14 3) (PSrc.ofBits (bits w 7 7)) (PSrc.ofBits (bits w 0 7)))
  | 20 => some (.pxor (bits w 14 3) (PSrc.ofBits (bits w 7 7)) (PSrc.ofBits (bits w 0 7)))
  | 21 => some (.pnot (bits w 14 3) (PSrc.ofBits (bits w 7 7)))
  | 22 => some (.pmovPv (Opnd.ofBits (bits w 14 7)))
  | 23 => some (.pmovVp (Opnd.ofBits (bits w 7 7)))
  | 24 => some (.voteAny (bits w 14 3) (PSrc.ofBits (bits w 7 7)))
  | 25 => some (.voteAll (bits w 14 3) (PSrc.ofBits (bits w 7 7)))
  | 26 => some (.voteBallot (Opnd.ofBits (bits w 14 7)) (PSrc.ofBits (bits w 7 7)))
  | _ => none

/-- The instruction that the sub-opcode of class 01001 names (R55); `none` where it is unassigned. -/
def rawSpecial (w : BitVec 32) : Option Instr :=
  match (bits w 24 3).toNat with
  | 0 => some (.mfs (Opnd.ofBits (bits w 17 7)) (bits w 0 10))
  | 1 => some (.mts (bits w 0 10) (Opnd.ofBits (bits w 10 7)))
  | 2 => some (.clk (Opnd.ofBits (bits w 17 7)))
  | _ => none

/-- The instruction that the sub-opcode of class 01010 names (R55); `none` where it is unassigned. -/
def rawLoad (w : BitVec 32) : Option Instr :=
  match (bits w 23 4).toNat with
  | 0 => some (.ldS8 (bits w 20 3) (bits w 13 6) (Opnd.ofBits (bits w 6 7)) (bits w 0 6))
  | 1 => some (.ldN8 (bits w 20 3) (bits w 13 6) (Opnd.ofBits (bits w 6 7)) (bits w 0 6))
  | 2 => some (.ldS16 (bits w 20 3) (bits w 13 6) (Opnd.ofBits (bits w 6 7)) (bits w 0 6))
  | 3 => some (.ldN16 (bits w 20 3) (bits w 13 6) (Opnd.ofBits (bits w 6 7)) (bits w 0 6))
  | 4 => some (.ldB32 (bits w 20 3) (bits w 13 6) (Opnd.ofBits (bits w 6 7)) (bits w 0 6))
  | 5 => some (.ldB64 (bits w 20 3) (bits w 13 6) (Opnd.ofBits (bits w 6 7)) (bits w 0 6))
  | 6 => some (.ldB128 (bits w 20 3) (bits w 13 6) (Opnd.ofBits (bits w 6 7)) (bits w 0 6))
  | 7 => some (.ldtB32 (bits w 20 3) (bits w 13 6) (Opnd.ofBits (bits w 6 7)) (bits w 0 6))
  | 8 => some (.ldtB64 (bits w 20 3) (bits w 13 6) (Opnd.ofBits (bits w 6 7)) (bits w 0 6))
  | 9 => some (.ldtB128 (bits w 20 3) (bits w 13 6) (Opnd.ofBits (bits w 6 7)) (bits w 0 6))
  | 10 => some (.vmvK8 (bits w 20 3) (bits w 13 6) (Opnd.ofBits (bits w 6 7)) (bits w 0 6))
  | 11 => some (.vmvBf16 (bits w 20 3) (bits w 13 6) (Opnd.ofBits (bits w 6 7)) (bits w 0 6))
  | 12 => some (.vmvF32 (bits w 20 3) (bits w 13 6) (Opnd.ofBits (bits w 6 7)) (bits w 0 6))
  | _ => none

/-- The instruction that the sub-opcode of class 01011 names (R55); `none` where it is unassigned. -/
def rawStore (w : BitVec 32) : Option Instr :=
  match (bits w 23 4).toNat with
  | 0 => some (.stB8 (Opnd.ofBits (bits w 13 7)) (Opnd.ofBits (bits w 6 7)) (bits w 0 6))
  | 1 => some (.stB16 (Opnd.ofBits (bits w 13 7)) (Opnd.ofBits (bits w 6 7)) (bits w 0 6))
  | 2 => some (.stB32 (Opnd.ofBits (bits w 13 7)) (Opnd.ofBits (bits w 6 7)) (bits w 0 6))
  | 3 => some (.stB64 (Opnd.ofBits (bits w 13 7)) (Opnd.ofBits (bits w 6 7)) (bits w 0 6))
  | 4 => some (.stB128 (Opnd.ofBits (bits w 13 7)) (Opnd.ofBits (bits w 6 7)) (bits w 0 6))
  | 5 => some (.sttB32 (Opnd.ofBits (bits w 13 7)) (Opnd.ofBits (bits w 6 7)) (bits w 0 6))
  | 6 => some (.sttB64 (Opnd.ofBits (bits w 13 7)) (Opnd.ofBits (bits w 6 7)) (bits w 0 6))
  | 7 => some (.sttB128 (Opnd.ofBits (bits w 13 7)) (Opnd.ofBits (bits w 6 7)) (bits w 0 6))
  | _ => none

/-- The instruction that the sub-opcode of class 01100 names (R55); `none` where it is unassigned. -/
def rawAtomic (w : BitVec 32) : Option Instr :=
  match (bits w 22 5).toNat with
  | 0 => some (.atomAddS32 (bits w 19 3) (bits w 13 6) (bits w 7 6) (Opnd.ofBits (bits w 0 7)))
  | 1 => some (.atomAddF32 (bits w 19 3) (bits w 13 6) (bits w 7 6) (Opnd.ofBits (bits w 0 7)))
  | 2 => some (.atomMinS32 (bits w 19 3) (bits w 13 6) (bits w 7 6) (Opnd.ofBits (bits w 0 7)))
  | 3 => some (.atomMinN32 (bits w 19 3) (bits w 13 6) (bits w 7 6) (Opnd.ofBits (bits w 0 7)))
  | 4 => some (.atomMaxS32 (bits w 19 3) (bits w 13 6) (bits w 7 6) (Opnd.ofBits (bits w 0 7)))
  | 5 => some (.atomMaxN32 (bits w 19 3) (bits w 13 6) (bits w 7 6) (Opnd.ofBits (bits w 0 7)))
  | 6 => some (.atomAndB32 (bits w 19 3) (bits w 13 6) (bits w 7 6) (Opnd.ofBits (bits w 0 7)))
  | 7 => some (.atomOrB32 (bits w 19 3) (bits w 13 6) (bits w 7 6) (Opnd.ofBits (bits w 0 7)))
  | 8 => some (.atomXorB32 (bits w 19 3) (bits w 13 6) (bits w 7 6) (Opnd.ofBits (bits w 0 7)))
  | 9 => some (.atomExchB32 (bits w 19 3) (bits w 13 6) (bits w 7 6) (Opnd.ofBits (bits w 0 7)))
  | 10 => some (.atomCasB32 (bits w 19 3) (bits w 13 6) (bits w 7 6) (Opnd.ofBits (bits w 0 7)))
  | 11 => some (.atomAddS64 (bits w 19 3) (bits w 13 6) (bits w 7 6) (Opnd.ofBits (bits w 0 7)))
  | 12 => some (.atomExchB64 (bits w 19 3) (bits w 13 6) (bits w 7 6) (Opnd.ofBits (bits w 0 7)))
  | 13 => some (.atomCasB64 (bits w 19 3) (bits w 13 6) (bits w 7 6) (Opnd.ofBits (bits w 0 7)))
  | 14 => some (.atomAddS32Noret (bits w 7 6) (Opnd.ofBits (bits w 0 7)))
  | 15 => some (.atomAddF32Noret (bits w 7 6) (Opnd.ofBits (bits w 0 7)))
  | 16 => some (.atomMinS32Noret (bits w 7 6) (Opnd.ofBits (bits w 0 7)))
  | 17 => some (.atomMinN32Noret (bits w 7 6) (Opnd.ofBits (bits w 0 7)))
  | 18 => some (.atomMaxS32Noret (bits w 7 6) (Opnd.ofBits (bits w 0 7)))
  | 19 => some (.atomMaxN32Noret (bits w 7 6) (Opnd.ofBits (bits w 0 7)))
  | 20 => some (.atomAndB32Noret (bits w 7 6) (Opnd.ofBits (bits w 0 7)))
  | 21 => some (.atomOrB32Noret (bits w 7 6) (Opnd.ofBits (bits w 0 7)))
  | 22 => some (.atomXorB32Noret (bits w 7 6) (Opnd.ofBits (bits w 0 7)))
  | 23 => some (.atomAddS64Noret (bits w 7 6) (Opnd.ofBits (bits w 0 7)))
  | 24 => some (.atomtAddS32 (bits w 19 3) (bits w 13 6) (bits w 7 6) (Opnd.ofBits (bits w 0 7)))
  | 25 => some (.atomtMinS32 (bits w 19 3) (bits w 13 6) (bits w 7 6) (Opnd.ofBits (bits w 0 7)))
  | 26 => some (.atomtMaxS32 (bits w 19 3) (bits w 13 6) (bits w 7 6) (Opnd.ofBits (bits w 0 7)))
  | 27 => some (.atomtExchB32 (bits w 19 3) (bits w 13 6) (bits w 7 6) (Opnd.ofBits (bits w 0 7)))
  | 28 => some (.atomtCasB32 (bits w 19 3) (bits w 13 6) (bits w 7 6) (Opnd.ofBits (bits w 0 7)))
  | 29 => some (.atomtAddF32 (bits w 19 3) (bits w 13 6) (bits w 7 6) (Opnd.ofBits (bits w 0 7)))
  | _ => none

/-- The instruction that the sub-opcode of class 01101 names (R55); `none` where it is unassigned. -/
def rawOrder (w : BitVec 32) : Option Instr :=
  match (bits w 24 3).toNat with
  | 0 => some (.fence)
  | 1 => some (.xfence)
  | 2 => some (.wcflush)
  | 3 => some (.wait (bits w 0 8))
  | _ => none

/-- The instruction that the sub-opcode of class 01110 names (R55); `none` where it is unassigned. -/
noncomputable def rawBarrier (w : BitVec 32) : Option Instr :=
  match (bits w 24 3).toNat with
  | 0 => some (.rbset (bits w 20 4) (Opnd.ofBits (bits w 13 7)))
  | 1 => some (.rbjoin (bits w 20 4) (Opnd.ofBits (bits w 13 7)))
  | 2 => some (.tbar (bits w 20 4) (Opnd.ofBits (bits w 13 7)))
  | 3 => some (.cbar (bits w 20 4) (Opnd.ofBits (bits w 13 7)))
  | 4 => some (.gbar (bits w 20 4) (Opnd.ofBits (bits w 13 7)))
  | 5 => some (.cvsign (bits w 20 4) (Opnd.ofBits (bits w 13 7)) (bits w 10 3))
  | 6 => some (.ringwait (bits w 20 4) (bits w 10 3) (bits w 9 1) (Opnd.ofBits (bits w 13 7)))
  | 7 => some (.ringpass (bits w 20 4) (bits w 10 3) (bits w 9 1) (Opnd.ofBits (bits w 13 7)))
  | _ => none

/-- The instruction that the sub-opcode of class 01111 names (R55); `none` where it is unassigned. -/
noncomputable def rawOverlay (w : BitVec 32) : Option Instr :=
  match (bits w 24 3).toNat with
  | 0 => some (.ovload (bits w 20 4) (bits w 0 12))
  | 1 => some (.ovdrop (bits w 20 4))
  | 2 => some (.ovinv (bits w 0 12))
  | 3 => some (.ovq (Opnd.ofBits (bits w 13 7)) (bits w 20 4))
  | _ => none

/-- The instruction that the sub-opcode of class 10000 names (R55); `none` where it is unassigned. -/
noncomputable def rawHandle (w : BitVec 32) : Option Instr :=
  match (bits w 23 4).toNat with
  | 0 => some (.talloc (bits w 12 8) (Opnd.ofBits (bits w 5 7)) (bits w 0 2))
  | 1 => some (.tfree (bits w 12 8))
  | 2 => some (.tpres (Opnd.ofBits (bits w 5 7)) (bits w 12 8))
  | 3 => some (.cpy (bits w 12 8) (Opnd.ofBits (bits w 5 7)) (bits w 20 3) (bits w 0 5))
  | 4 => some (.cpyg (bits w 12 8) (Opnd.ofBits (bits w 5 7)) (bits w 20 3))
  | 5 => some (.cpst (bits w 12 8) (Opnd.ofBits (bits w 5 7)) (bits w 20 3) (bits w 0 5))
  | 6 => some (.cpfill (bits w 12 8) (Opnd.ofBits (bits w 5 7)) (bits w 20 3))
  | _ => none

/-- The instruction that the sub-opcode of class 10001 names (R55); `none` where it is unassigned. -/
noncomputable def rawMatrix (w : BitVec 32) : Option Instr :=
  match (bits w 23 4).toNat with
  | 0 => some (.macq)
  | 1 => some (.mrel)
  | 2 => some (.mbind (bits w 19 4) (bits w 14 5) (bits w 6 8) (bits w 3 3) (bits w 0 3))
  | 3 => some (.mbindR (bits w 19 4) (bits w 14 5) (bits w 6 6) (bits w 3 3) (bits w 0 3))
  | 4 => some (.msignReg (bits w 19 4) (bits w 12 6))
  | 6 => some (.msignReReg (bits w 19 4) (bits w 12 6))
  | 5 => some (.msignSlice (bits w 19 4) (bits w 18 1) (bits w 17 1) (bits w 11 6) (bits w 6 5))
  | 7 => some (.msignReSlice (bits w 19 4) (bits w 18 1) (bits w 17 1) (bits w 11 6) (bits w 6 5))
  | 8 => some (.msignReNone (bits w 19 4))
  | 9 => some (.mzero (bits w 14 5))
  | 10 => some (.mmac (bits w 14 5) (bits w 6 6) (bits w 0 3))
  | _ => none

/-- The instruction that the sub-opcode of class 10010 names (R55); `none` where it is unassigned. -/
noncomputable def rawAcc (w : BitVec 32) : Option Instr :=
  match (bits w 23 4).toNat with
  | 0 => some (.accalloc (bits w 11 5) (bits w 4 6))
  | 1 => some (.accfree (bits w 11 5) (bits w 4 6))
  | 2 => some (.mdrainHandle (bits w 14 5) (bits w 6 8) (bits w 3 3) (bits w 0 3))
  | 3 => some (.mdrainTHandle (bits w 14 5) (bits w 6 8) (bits w 3 3) (bits w 0 3))
  | 4 => some (.mdrainMemory (bits w 11 5) (bits w 16 6) (bits w 4 3) (bits w 1 3))
  | 5 => some (.mdrainTMemory (bits w 11 5) (bits w 16 6) (bits w 4 3) (bits w 1 3))
  | 6 => some (.accld (bits w 16 6) (bits w 11 5) (bits w 4 1) (bits w 5 2) (bits w 1 3))
  | 7 => some (.accst (bits w 16 6) (bits w 11 5) (bits w 4 1) (bits w 5 2))
  | _ => none

/-- The instruction that the sub-opcode of class 10100 names (R55); `none` where it is unassigned. -/
noncomputable def rawSheng (w : BitVec 32) : Option Instr :=
  match (bits w 24 3).toNat with
  | 0 => some (.bpush (bits w 7 6) (Opnd.ofBits (bits w 0 7)) (bits w 21 3))
  | 1 => some (.bpop (bits w 14 6) (Opnd.ofBits (bits w 7 7)) (Opnd.ofBits (bits w 0 7)) (bits w 21 3))
  | 2 => some (.cont (bits w 7 6) (Opnd.ofBits (bits w 0 7)))
  | 3 => some (.bflush (Opnd.ofBits (bits w 0 7)))
  | 4 => some (.bquery (Opnd.ofBits (bits w 14 7)) (Opnd.ofBits (bits w 0 7)) (bits w 21 3))
  | 5 => some (.wgpush (bits w 7 6) (Opnd.ofBits (bits w 0 7)) (bits w 21 3))
  | _ => none

/-- The instruction that the sub-opcode of class 10101 names (R55); `none` where it is unassigned. -/
noncomputable def rawFrame (w : BitVec 32) : Option Instr :=
  match (bits w 24 3).toNat with
  | 0 => some (.mesh (Opnd.ofBits (bits w 14 7)) (Opnd.ofBits (bits w 7 7)) (Opnd.ofBits (bits w 0 7)) (bits w 21 3))
  | 1 => some (.fseal (Opnd.ofBits (bits w 14 7)) (bits w 21 3))
  | 2 => some (.fwait (Opnd.ofBits (bits w 14 7)) (Opnd.ofBits (bits w 7 7)))
  | _ => none

/-- The instruction that the sub-opcode of class 10110 names (R55); `none` where it is unassigned. -/
noncomputable def rawAttr (w : BitVec 32) : Option Instr :=
  match (bits w 24 3).toNat with
  | 0 => some (.attr (bits w 14 6) (bits w 7 6) (Opnd.ofBits (bits w 0 7)) (bits w 21 3))
  | 1 => some (.attrD (bits w 14 6) (bits w 7 6) (Opnd.ofBits (bits w 0 7)) (bits w 21 3))
  | 2 => some (.bary (bits w 14 6) (bits w 7 6) (bits w 21 3))
  | 3 => some (.smp (bits w 14 6) (bits w 7 6) (Opnd.ofBits (bits w 0 7)) (bits w 21 3))
  | _ => none

/-- The instruction that the sub-opcode of class 10111 names (R55); `none` where it is unassigned. -/
noncomputable def rawLink (w : BitVec 32) : Option Instr :=
  match (bits w 23 4).toNat with
  | 0 => some (.rldB32 (bits w 20 3) (bits w 13 6) (Opnd.ofBits (bits w 6 7)) (bits w 0 6))
  | 1 => some (.rldB64 (bits w 20 3) (bits w 13 6) (Opnd.ofBits (bits w 6 7)) (bits w 0 6))
  | 2 => some (.rldB128 (bits w 20 3) (bits w 13 6) (Opnd.ofBits (bits w 6 7)) (bits w 0 6))
  | 3 => some (.rstB32 (Opnd.ofBits (bits w 13 7)) (Opnd.ofBits (bits w 6 7)) (bits w 0 6))
  | 4 => some (.rstB64 (Opnd.ofBits (bits w 13 7)) (Opnd.ofBits (bits w 6 7)) (bits w 0 6))
  | 5 => some (.rstB128 (Opnd.ofBits (bits w 13 7)) (Opnd.ofBits (bits w 6 7)) (bits w 0 6))
  | 6 => some (.ratomAddS32 (bits w 20 3) (bits w 13 6) (Opnd.ofBits (bits w 6 7)) (bits w 0 6))
  | 7 => some (.ratomAddS64 (bits w 20 3) (bits w 13 6) (Opnd.ofBits (bits w 6 7)) (bits w 0 6))
  | 8 => some (.ratomExchB64 (bits w 20 3) (bits w 13 6) (Opnd.ofBits (bits w 6 7)) (bits w 0 6))
  | 9 => some (.ratomCasB64 (bits w 20 3) (bits w 13 6) (Opnd.ofBits (bits w 6 7)) (bits w 0 6))
  | 10 => some (.coll (bits w 6 6) (bits w 20 3))
  | 11 => some (.cwait (bits w 6 6) (Opnd.ofBits (bits w 13 7)))
  | _ => none

/-- The instruction that the sub-opcode of class 11000 names (R55); `none` where it is unassigned. -/
def rawTrap (w : BitVec 32) : Option Instr :=
  match (bits w 24 3).toNat with
  | 0 => some (.trap (bits w 0 10))
  | 1 => some (.brk (bits w 0 10))
  | 2 => some (.rti)
  | _ => none

/-- The instruction that the sub-opcode of class 11001 names (R55); `none` where it is unassigned. -/
def rawTrans (w : BitVec 32) : Option Instr :=
  match (bits w 24 3).toNat with
  | 0 => some (.frcpF32 (Opnd.ofBits (bits w 14 7)) (Opnd.ofBits (bits w 7 7)) (bits w 21 3))
  | 1 => some (.frsqF32 (Opnd.ofBits (bits w 14 7)) (Opnd.ofBits (bits w 7 7)) (bits w 21 3))
  | 2 => some (.fexp2F32 (Opnd.ofBits (bits w 14 7)) (Opnd.ofBits (bits w 7 7)) (bits w 21 3))
  | 3 => some (.flog2F32 (Opnd.ofBits (bits w 14 7)) (Opnd.ofBits (bits w 7 7)) (bits w 21 3))
  | 4 => some (.fsinF32 (Opnd.ofBits (bits w 14 7)) (Opnd.ofBits (bits w 7 7)) (bits w 21 3))
  | 5 => some (.fcosF32 (Opnd.ofBits (bits w 14 7)) (Opnd.ofBits (bits w 7 7)) (bits w 21 3))
  | _ => none

/-- The instruction that the sub-opcode of class 11010 names (R55); `none` where it is unassigned. -/
def rawWide (w : BitVec 32) : Option Instr :=
  match (bits w 21 6).toNat with
  | 0 => some (.add64 (Opnd.ofBits (bits w 14 7)) (Opnd.ofBits (bits w 7 7)) (Opnd.ofBits (bits w 0 7)))
  | 1 => some (.sub64 (Opnd.ofBits (bits w 14 7)) (Opnd.ofBits (bits w 7 7)) (Opnd.ofBits (bits w 0 7)))
  | 2 => some (.mul64 (Opnd.ofBits (bits w 14 7)) (Opnd.ofBits (bits w 7 7)) (Opnd.ofBits (bits w 0 7)))
  | 4 => some (.lea 0#2 (Opnd.ofBits (bits w 14 7)) (Opnd.ofBits (bits w 7 7)) (Opnd.ofBits (bits w 0 7)))
  | 5 => some (.lea 1#2 (Opnd.ofBits (bits w 14 7)) (Opnd.ofBits (bits w 7 7)) (Opnd.ofBits (bits w 0 7)))
  | 6 => some (.lea 2#2 (Opnd.ofBits (bits w 14 7)) (Opnd.ofBits (bits w 7 7)) (Opnd.ofBits (bits w 0 7)))
  | 7 => some (.lea 3#2 (Opnd.ofBits (bits w 14 7)) (Opnd.ofBits (bits w 7 7)) (Opnd.ofBits (bits w 0 7)))
  | 8 => some (.sextS8 (Opnd.ofBits (bits w 14 7)) (Opnd.ofBits (bits w 7 7)))
  | 9 => some (.sextS16 (Opnd.ofBits (bits w 14 7)) (Opnd.ofBits (bits w 7 7)))
  | 10 => some (.sextS32 (Opnd.ofBits (bits w 14 7)) (Opnd.ofBits (bits w 7 7)))
  | 11 => some (.zextN8 (Opnd.ofBits (bits w 14 7)) (Opnd.ofBits (bits w 7 7)))
  | 12 => some (.zextN16 (Opnd.ofBits (bits w 14 7)) (Opnd.ofBits (bits w 7 7)))
  | 13 => some (.zextN32 (Opnd.ofBits (bits w 14 7)) (Opnd.ofBits (bits w 7 7)))
  | _ => none

/-- The instruction named by class and sub-opcode (R47, R55), before its zero fields are looked at. -/
noncomputable def rawDecode (w : BitVec 32) : Option Instr :=
  match (bits w 27 5).toNat with
  | 0 => rawControl w
  | 1 => rawUniform w
  | 2 => rawInteger w
  | 3 => rawIntegerImm w
  | 4 => rawFloat w
  | 5 => rawFloat4 w
  | 6 => rawConv w
  | 7 => rawExch w
  | 8 => rawCmp w
  | 9 => rawSpecial w
  | 10 => rawLoad w
  | 11 => rawStore w
  | 12 => rawAtomic w
  | 13 => rawOrder w
  | 14 => rawBarrier w
  | 15 => rawOverlay w
  | 16 => rawHandle w
  | 17 => rawMatrix w
  | 18 => rawAcc w
  | 20 => rawSheng w
  | 21 => rawFrame w
  | 22 => rawAttr w
  | 23 => rawLink w
  | 24 => rawTrap w
  | 25 => rawTrans w
  | 26 => rawWide w
  | _ => none

/-- Why a word is no instruction. -/
inductive DecodeError where
  /-- Class 11111: a clause header (R35). -/
  | header
  /-- Class 11100 or 11101: a prefix (R51). -/
  | isPrefix
  /-- A reserved class or an unassigned sub-opcode: illegal instruction (R44, R56). -/
  | unassigned
  /-- A nonzero reserved field or an out-of-range operand: illegal instruction (R44, R47). -/
  | illegalField
  /-- Fewer than four bytes. -/
  | short
deriving DecidableEq, Repr

/-- The instruction of a word (R44 item 2.2): the word must be the very encoding of a well-formed instruction, so that a
nonzero zero field is refused. -/
noncomputable def decodeWord (w : BitVec 32) : Except DecodeError Instr :=
  match (bits w 27 5).toNat with
  | 31 => .error .header
  | 28 => .error .isPrefix
  | 29 => .error .isPrefix
  | _ =>
    match rawDecode w with
    | none => .error .unassigned
    | some i => if encode i = some w ∧ wellFormed i = true then .ok i else .error .illegalField

/-- The little-endian word of four bytes (R3). -/
def wordOfBytes (b0 b1 b2 b3 : BitVec 8) : BitVec 32 := b3 ++ b2 ++ b1 ++ b0

/-- The four bytes of a word, lowest address first (R3). -/
def bytesOfWord (w : BitVec 32) : List (BitVec 8) := [bits w 0 8, bits w 8 8, bits w 16 8, bits w 24 8]

/-- Decoding from bytes: the instruction and the bytes after it. -/
noncomputable def decodeBytes : List (BitVec 8) → Except DecodeError (Instr × List (BitVec 8))
  | b0 :: b1 :: b2 :: b3 :: rest =>
    match decodeWord (wordOfBytes b0 b1 b2 b3) with
    | .ok i => .ok (i, rest)
    | .error e => .error e
  | _ => .error .short

/-- The instruction read from the table's bits: the words laid out in bytes, and given to the decoder. -/
noncomputable def decodeTableWord (nbits w : Nat) : Option Instr :=
  match decodeBytes (bytesOfWord (BitVec.ofNat 32 (w % 2 ^ nbits))) with
  | .ok (i, _) => some i
  | .error _ => none

/-! ## Prefixes and headers -/

/-- The fields of a MOD prefix (R51). -/
structure Mod where
  neg : Bool
  pred : BitVec 3
  ce : Bool
  pol : BitVec 2
  re : Bool
  rm : BitVec 2
  sat : Bool
deriving DecidableEq, Repr

/-- A MOD with every field disabled (R52). -/
def Mod.plain : Mod := ⟨false, 7#3, false, 0#2, false, 0#2, false⟩

/-- The MOD prefix of a word: [26:19] and [7:0] are zero (R51). -/
def modOfWord (w : BitVec 32) : Option Mod :=
  if bits w 27 5 = 29#5 ∧ bits w 19 8 = 0#8 ∧ bits w 0 8 = 0#8 then
    some ⟨w.getLsbD 18, bits w 15 3, w.getLsbD 14, bits w 12 2, w.getLsbD 11, bits w 9 2, w.getLsbD 8⟩
  else none

/-- The word of a MOD prefix (R51). -/
def wordOfMod (m : Mod) : BitVec 32 :=
  29#5 ++ 0#8 ++ BitVec.ofBool m.neg ++ m.pred ++ BitVec.ofBool m.ce ++ m.pol ++ BitVec.ofBool m.re ++ m.rm
    ++ BitVec.ofBool m.sat ++ 0#8

/-- The IMM bits of an IMM prefix: [26:24] are zero (R51). -/
def immOfWord (w : BitVec 32) : Option (BitVec 24) :=
  if bits w 27 5 = 28#5 ∧ bits w 24 3 = 0#3 then some (bits w 0 24) else none

/-- The word of an IMM prefix (R51). -/
def wordOfImm (x : BitVec 24) : BitVec 32 := 28#5 ++ 0#3 ++ x

/-- A clause header (R34). -/
structure Header where
  drain : Bool
  wait : BitVec 8
  eclass : BitVec 3
  count : BitVec 4
deriving DecidableEq, Repr

/-- The word carries the header's class (R35). -/
def isHeaderWord (w : BitVec 32) : Bool := bits w 27 5 == 31#5

/-- The fields of a header word (R34); bit 16 is ignored. -/
def headerOfWord (w : BitVec 32) : Header := ⟨w.getLsbD 15, bits w 7 8, bits w 4 3, bits w 0 4⟩

/-- The word of a header, bit 16 clear (R34). -/
def wordOfHeader (h : Header) : BitVec 32 := 31#5 ++ 0#11 ++ BitVec.ofBool h.drain ++ h.wait ++ h.eclass ++ h.count

end Sys2Proof
end

