-- ==== Sys2Proof/Machine/TileCopy.lean ====
section
/-! DEFINITION. Thread access to tile lines (R328, R329), the handle instructions (R323 to R327), copy commands and the
copy engine (R330 to R335). -/

namespace Sys2Proof.Machine

/-! ## `LDT`, `STT`, `ATOMT` (R328, R329) -/

/-- The offset that the base register and format M give (R328): `n` is the access size. -/
def tileOffM (g : Group) (th : Thread) (base : Opnd) (x : BitVec 6) (imm : Option (BitVec 24)) (n : Nat) : BitVec 64 :=
  let o := ((rd g th base).extractLsb' 8 24).zeroExtend 64
  match base with
  | .v _ =>
    let off : BitVec 64 := match imm with
      | none => x.signExtend 64
      | some i => (i ++ x).signExtend 64
    o + off * BitVec.ofNat 64 n
  | .g _ =>
    let disp : BitVec 64 := match imm with
      | none => 0#64
      | some i => i.signExtend 64
    o + (mget th.v x.toNat).signExtend 64 + disp

/-- The offset that the base register and format N give (R328). -/
def tileOffN (g : Group) (th : Thread) (base : Opnd) (imm : Option (BitVec 24)) : BitVec 64 :=
  ((rd g th base).extractLsb' 8 24).zeroExtend 64 + match imm with
    | none => 0#64
    | some i => i.signExtend 64

/-- The handle number that a base register holds (R328). -/
def tileHandle (g : Group) (th : Thread) (base : Opnd) : Nat := ((rd g th base).extractLsb' 0 8).toNat

/-- How the checks of a tile access come out: the byte offset, or the thread's outcome. -/
inductive TileRes where
  | ok (off : Nat)
  | out (r : SRes)

/-- The checks of a tile access in their order (R329, R335). -/
def State.checkTile (s : State) (g : Group) (t h : Nat) (o : BitVec 64) (n : Nat) (write : Bool) : TileRes :=
  match s.handleOf g.team h with
  | none => .out (.plain s 0x20#8)
  | some x =>
    let off := o.toNat
    if off + n > x.size then .out (.plain s 0x20#8)
    else if off % n ≠ 0 then .out (.plain s 0x12#8)
    else if x.absent.contains (off / 128) || (write && x.cons ≠ 0) then .out (s.stopOr (s.park g.id t (.line g.team h (off / 128))))
    else .ok off

/-- `LDT` for one thread (R305, R329). -/
def State.ldtThread (s : State) (st : Stream) (t : Nat) (th : Thread) (d : VReg) (base : Opnd) (x : BitVec 6) (sb : BitVec 3)
    (ext : LoadExt) : SRes :=
  match s.group? st.grp with
  | none => .ok s
  | some g =>
    let h := tileHandle g th base
    match s.checkTile g t h (tileOffM g th base x st.imm ext.size) ext.size false with
    | .out r => r
    | .ok off => s.issueResult st t sb (.load (.tile g.team h off) ext d.toNat 0 [])

/-- `STT` for one thread (R306, R307, R329). -/
def State.sttThread (s : State) (st : Stream) (t : Nat) (th : Thread) (d base : Opnd) (x : BitVec 6) (n : Nat) : SRes :=
  if th.helper then .ok s
  else match s.group? st.grp with
    | none => .ok s
    | some g =>
      let h := tileHandle g th base
      match s.checkTile g t h (tileOffM g th base x st.imm n) n true with
      | .out r => r
      | .ok off =>
        if s.sqRoom st.grp then .ok (s.queueStore st.grp t (.tile g.team h off) (.bytes ((bytesOf (rdN g th d ((n + 3) / 4))).take n)))
        else .stop s

/-- `ATOMT` for one thread (R307, R309, R329). -/
def State.atomtThread (s : State) (st : Stream) (t : Nat) (th : Thread) (op : AtomOp) (d data : VReg) (base : Opnd)
    (sb : BitVec 3) : SRes :=
  if th.helper then .ok s
  else match s.group? st.grp with
    | none => .ok s
    | some g =>
      let h := tileHandle g th base
      match s.checkTile g t h (tileOffN g th base st.imm) op.size true with
      | .out r => r
      | .ok off =>
        let (b, c) := op.operands g th data
        s.issueResult st t sb (.atom (.tile g.team h off) op b c d.toNat)

/-! ## Handle instructions (R324 to R327) -/

/-- `TALLOC` (R325). -/
def execTalloc (h : BitVec 8) (a : Opnd) (level : BitVec 2) (s : State) : Host.Outcome State Fault Refusal :=
  s.perGroup fun _ s g t =>
    match g.thread? t with
    | none => .ok s
    | some th =>
      let w := (rd g th a).toNat
      match s.allocHandle g.team h.toNat (field w 31 12 + 1) (field w 11 0 + 1) level.toNat with
      | some s => .ok s
      | none => .plain s 0x20#8

/-- `TFREE` (R326): waits as `FENCE` does while a copy command of the handle is in flight or its CONS is above 0. -/
def execTfree (h : BitVec 8) (s : State) : Host.Outcome State Fault Refusal :=
  s.perGroup fun st s g _ =>
    match s.handleOf g.team h.toNat with
    | none => .plain s 0x20#8
    | some x =>
      if s.copyInFlight g.team h.toNat || x.cons ≠ 0 then s.holdOn st.grp (.tfree h.toNat)
      else .ok ((s.updTeam g.team fun t => { t with handles := t.handles.filter fun y => y.h != h.toNat }).freeLines g.team h.toNat)

/-- A handle's presence summary (R327). -/
def Handle.presence (x : Handle) : Word :=
  let n := x.lineCount - x.absent.length
  BitVec.ofNat 32 (n + if x.absent.isEmpty then 2 ^ 31 else 0)

/-- `TPRES` (R324, R327). -/
def execTpres (d : Opnd) (h : BitVec 8) (s : State) : Host.Outcome State Fault Refusal :=
  let one := fun (st : Stream) (s : State) (t : Nat) =>
    match s.group? st.grp with
    | none => SRes.ok s
    | some g =>
      match s.handleOf g.team h.toNat with
      | none => .plain s 0x20#8
      | some x => .ok (s.updGroup st.grp fun g => wr g t d x.presence)
  if d.isG then s.perGroup fun st s _ t => one st s t else s.perThread fun st s t _ => one st s t

/-! ## Issue of copy commands (R331 to R334) -/

/-- A copy command's issue for thread `t` (R334): its quad, or the pattern, in `q`. -/
def State.copyIssue (s : State) (st : Stream) (g : Group) (t : Nat) (op : CopyOp) (h : Nat) (q : List Word) (sb : BitVec 3) (b4 : Nat) :
    SRes :=
  match s.handleOf g.team h with
  | none => .plain s 0x20#8
  | some x =>
    if !g.sq.isEmpty then .stop s
    else if (s.core g.core).cmds.length ≥ 256 || !s.hasRoom st.grp sb.toNat then .stop s
    else
      let w := fun (i : Nat) => q.getD i 0#32
      let (rid, s) := s.addResult st.grp t (some sb.toNat) st.unit .token true
      let (cid, s) := s.fresh
      let lines := copyMayWrite op x (field (w 3).toNat 15 0)
      let held := x.cons ≠ 0 && op ≠ .cpst
      let s := if held then s else s.linesAbsent g.team h lines
      .ok (s.updCore g.core fun c => { c with cmds := c.cmds ++
        [{ id := cid, op := op, grp := st.grp, team := g.team, h := h, recVa := (w 1 ++ w 0).toNat, q2 := w 2, q3 := w 3, b4 := b4,
           pol := st.policy, pts := g.pts, res := rid, cleared := if held then none else some lines, started := false, trec := none, idx := [],
           lines := [], rx := [] }] })

/-- A copy instruction (R324): for each thread, or once for the group where its register is uniform. -/
def State.copyUnit (s : State) (op : CopyOp) (h : BitVec 8) (q : Opnd) (n : Nat) (sb : BitVec 3) (b4 : Nat) :
    Host.Outcome State Fault Refusal :=
  let one := fun (st : Stream) (s : State) (t : Nat) =>
    match s.group? st.grp with
    | none => SRes.ok s
    | some g =>
      match g.thread? t with
      | none => .ok s
      | some th => s.copyIssue st g t op h.toNat (rdN g th q n) sb b4
  if q.isG then s.perGroup fun st s _ t => one st s t else s.perThread fun st s t _ => one st s t

/-- `CPY` (R331, R334). -/
def execCpy (h : BitVec 8) (q : Opnd) (sb : BitVec 3) (b4 : BitVec 5) (s : State) : Host.Outcome State Fault Refusal :=
  s.copyUnit .cpy h q 4 sb b4.toNat

/-- `CPYG` (R332, R334). -/
def execCpyg (h : BitVec 8) (q : Opnd) (sb : BitVec 3) (s : State) : Host.Outcome State Fault Refusal := s.copyUnit .cpyg h q 4 sb 0

/-- `CPST` (R331, R334). -/
def execCpst (h : BitVec 8) (q : Opnd) (sb : BitVec 3) (b4 : BitVec 5) (s : State) : Host.Outcome State Fault Refusal :=
  s.copyUnit .cpst h q 4 sb b4.toNat

/-- `CPFILL` (R333, R334). -/
def execCpfill (h : BitVec 8) (a : Opnd) (sb : BitVec 3) (s : State) : Host.Outcome State Fault Refusal := s.copyUnit .cpfill h a 1 sb 0

/-! ## Tensor records (R330) -/

/-- A tensor record from its 64 bytes, where the checks that need no element size pass. -/
def tensorOf (b : List Byte) : Option TensorRec :=
  let n := fun (o k : Nat) => natOfBytes ((b.drop o).take k)
  let dim := (List.range 5).map fun i => n (8 + 4 * i) 4
  let stride := 0 :: (List.range 4).map fun i => n (0x1C + 5 * i) 5
  let box := (List.range 5).map fun i => n (0x30 + 2 * i) 2
  let rank := n 0x3A 1
  let fs := n 0x3B 1
  let at_ := fun (l : List Nat) (i : Nat) => l.getD i 0
  if rank < 1 || rank > 5 || fs ≥ 8 || n 0x3C 4 ≠ 0 then none
  else if (List.range 5).all fun i => decide (at_ dim i ≥ 1) && decide (at_ box i ≥ 1) &&
      (decide (i < rank) || (at_ dim i == 1 && at_ box i == 1 && at_ stride i == 0)) then
    some ⟨n 0 8, dim, stride, box, rank, fs⟩
  else none

/-- The checks of a record that need the element size (R330). -/
def TensorRec.sized (r : TensorRec) (e : Nat) : Bool :=
  r.base % e == 0 && decide (r.box.getD 0 0 * e ≤ 4096) && r.stride.all fun x => x % e == 0

/-- Bytes of an element of a record's format slot in a grid. -/
def State.recBytes (s : State) (grid : Nat) (r : TensorRec) : Nat :=
  match (s.grid? grid).bind fun g => g.lr.fs[r.fs]? with
  | some f => f.bytes
  | none => 4

/-! ## The copy engine (R334) -/

def State.updCmd (s : State) (core id : Nat) (f : CopyCmd → CopyCmd) : State :=
  s.updCore core fun c => { c with cmds := updIf (fun k => k.id == id) f c.cmds }

/-- The command leaves: its token returns when the result does (R334 item 5); `ts`: the largest timestamp of its last lines. -/
def State.copyDone (s : State) (core : Nat) (k : CopyCmd) (ts : Nat) : State :=
  ((s.updCore core fun c => { c with cmds := c.cmds.filter fun x => x.id != k.id }).resultReady k.res ts).endEng k.id

/-- The lines of a command, zeros in each line that it cleared (R334 items 2 and 3), and the largest timestamp taken. -/
def State.copyZeros (s : State) (k : CopyCmd) (lines : List Nat) : State × Nat :=
  lines.foldl (fun (acc : State × Nat) l =>
    match acc.1.handleOf k.team k.h with
    | none => acc
    | some x =>
      let (s, t) := acc.1.tileStore k.pts k.team k.h (l * 128) (List.replicate (min 128 (x.size - l * 128)) 0#8)
      (s.linePresent k.team k.h l, max acc.2 t)) (s, 0)

/-- A command whose record is invalid, or whose checks fail (R334 item 2). -/
def State.copyRefuse (s : State) (core : Nat) (k : CopyCmd) (code : BitVec 8) (va : Nat) : State :=
  let (s, t) := s.copyZeros k (k.cleared.getD [])
  (s.updPending k.res fun p => p.meet code va).copyDone core k t

/-- Rows of a box (R331): BOX1 × BOX2 × BOX3 × BOX4. -/
def TensorRec.boxRows (r : TensorRec) : Nat := (r.box.drop 1).foldl (· * ·) 1

/-- The handle rows that a command touches, first and count (R331, R332). -/
def CopyCmd.rowsOf (k : CopyCmd) (r : TensorRec) : Nat × Nat :=
  if k.op = .cpyg then (0, r.box.getD 1 1) else (field k.q3.toNat 15 0, r.boxRows)

/-- A handle row's place in the tensor (R331, R332): the address of its first byte and the count of bytes in range. -/
def CopyCmd.rowAt (k : CopyCmd) (r : TensorRec) (e row : Nat) : Nat × Nat :=
  let b := fun (i : Nat) => r.box.getD i 1
  let st := fun (i : Nat) => r.stride.getD i 0
  if k.op = .cpyg then
    let j := k.idx.getD row 0
    (r.base + j * st 1, if j < r.dim.getD 1 1 then min (b 0) (r.dim.getD 0 1) * e else 0)
  else
    let q := row - field k.q3.toNat 15 0
    let i0 := field k.q2.toNat 15 0 * b 0
    let ix := [field k.q2.toNat 31 16 * b 1 + q % b 1, field k.q3.toNat 23 16 * b 2 + q / b 1 % b 2,
               field k.q3.toNat 31 24 * b 3 + q / (b 1 * b 2) % b 3, k.b4 * b 4 + q / (b 1 * b 2 * b 3) % b 4]
    let inside := (List.range 4).all fun d => decide (ix.getD d 0 < r.dim.getD (d + 1) 1)
    (r.base + i0 * e + ((List.range 4).map fun d => ix.getD d 0 * st (d + 1)).sum,
      if inside then min (b 0) (r.dim.getD 0 1 - i0) * e else 0)

/-- What a command moves of one line: the handle bytes (offset and length), and their address where they are in range. -/
def CopyCmd.pieces (k : CopyCmd) (r : TensorRec) (x : Handle) (e line : Nat) : List (Nat × Nat × Option Nat) :=
  let (first, count) := k.rowsOf r
  let lo := line * 128
  let hi := lo + 128
  let r0 := max first (lo / x.pitch)
  let r1 := min (first + count) ((hi + x.pitch - 1) / x.pitch)
  ((List.range (r1 - r0)).map fun i =>
    let row := r0 + i
    let a := row * x.pitch
    let (va, n) := k.rowAt r e row
    let inLo := max lo a
    let inHi := min hi (a + n)
    let zLo := max lo (a + n)
    let zHi := min hi (a + r.box.getD 0 1 * e)
    (if inLo < inHi then [(inLo, inHi - inLo, some (va + (inLo - a)))] else []) ++
    (if zLo < zHi then [(zLo, zHi - zLo, none)] else [])).flatten

/-- One physical piece of a line: the handle offset, length, physical (or window) address and entry. -/
def State.physPieces (s : State) (core ctx eng : Nat) (a : Access) : List (Nat × Nat × Option Nat) → State × EngRes × List (Nat × Nat × Option (Nat × TlbEntry))
  | [] => (s, .ok .nil, [])
  | (off, n, none) :: r =>
    match s.physPieces core ctx eng a r with
    | (s, x, l) => (s, x, (off, n, none) :: l)
  | (off, n, some va) :: r =>
    match s.engRange (some core) ctx eng va n a true with
    | (s, .ok _, ps) =>
      let l := (ps.foldl (fun (acc : Nat × List (Nat × Nat × Option (Nat × TlbEntry))) (pa, len, e) =>
        (acc.1 + len, acc.2 ++ [(acc.1, len, some (pa, e))])) (off, [])).2
      match s.physPieces core ctx eng a r with
      | (s, x, l') => (s, x, l ++ l')
    | (s, x, _) => (s, x, [])

/-- A remote piece asked for (R268): a READ of it, or a WRITE of its bytes. A peer that is not live fails it (R420). -/
def State.askPiece (s : State) (core : Nat) (k : CopyCmd) (line off n wa peer : Nat) (data : Option (List Byte)) : State :=
  let cg := s.ctxgen (((s.group? k.grp).map fun g => g.ctx).getD 0)
  let add := fun (s : State) (tag : Nat) (failed : Bool) => s.updCmd core k.id fun k =>
    { k with rx := k.rx ++ [⟨peer, tag, line, off, n, failed, failed, []⟩] }
  match s.peer? peer with
  | none => add s 0 true
  | some p =>
    if !p.live then add s 0 true
    else match data with
      | none =>
        let (tag, s) := s.fresh
        add (s.send peer (.read cg (BitVec.ofNat 32 tag) wa n)) (tag % 2 ^ 32) false
      | some d =>
        add (s.sendWrite peer cg wa d .copy) p.txSeq false

/-- The places that the pieces of a record and of an index list take among those of a command's lines. -/
def recordPiece : Nat := 2 ^ 32
def indexPiece : Nat := 2 ^ 32 + 1

/-- What a command reads before it starts: its record, or its index list (R268, R330, R332); from X memory through the link. -/
def State.cmdRead (s : State) (core : Nat) (g : Group) (k : CopyCmd) (place va n : Nat) : State × EngRes × List Byte :=
  match s.physPieces core g.ctx k.id .copyRead [(0, n, some va)] with
  | (s, .ok e, l) =>
    let isFar := fun (e : TlbEntry) => e.typ == 3
    let far := l.filter fun (_, _, p) => p.any fun x => isFar x.2
    let mine := k.rx.filter fun p => p.line == place
    if !far.isEmpty && mine.isEmpty then
      (far.foldl (fun s (off, n, p) => match p with
        | some (wa, e) => s.askPiece core k place off n wa e.peer none
        | none => s) s, .wait va, [])
    else if mine.any fun p => !p.done then (s, .wait va, [])
    else if mine.any fun p => p.failed then (s, .fault 0x60#8 va, [])
    else
      let (s, b) := l.foldl (fun (acc : State × List Byte) (off, n, p) => match p with
        | some (pa, e) =>
          if isFar e then (acc.1, acc.2 ++ ((mine.find? fun (x : RxPiece) => x.off == off).map RxPiece.data).getD [])
          else let (s, b, _) := acc.1.homeLoad k.pts pa n; (s, acc.2 ++ b)
        | none => acc) (s, [])
      (s, .ok e, b)
  | (s, r, _) => (s, r, [])

/-- The tile walker asks for the translations of the whole box (R270, R334 item 3). -/
def State.walkAhead (s : State) (core ctx : Nat) (k : CopyCmd) (r : TensorRec) (x : Handle) (e : Nat) (lines : List Nat) : State :=
  lines.foldl (fun s l =>
    (k.pieces r x e l).foldl (fun s p => (s.physPieces core ctx k.id (if k.op = .cpst then .copyWrite else .copyRead) [p]).1) s) s

/-- Event COPY_COMMAND_START (R334 items 1, 2, 4, R335): the oldest command of the core's queue starts, once no operation
reads the handle that it would write. An index list that is not 4-aligned meets 0x20: DESIGN CHOICE (log 44). -/
def execCopyCommandStart (core : Nat) (s : State) : Host.Outcome State Fault Refusal :=
  .next <|
    match (s.core core).cmds with
    | [] => s
    | k :: _ =>
      match k.cleared, s.group? k.grp, s.handleOf k.team k.h with
      | some cl, some g, some x =>
        if k.started then s
        else if k.op = .cpfill then s.updCmd core k.id fun k => { k with started := true, lines := List.range x.lineCount }
        else if k.recVa % 64 ≠ 0 then s.copyRefuse core k 0x20#8 0
        else match s.cmdRead core g k recordPiece k.recVa 64 with
          | (s, .wait _, _) => s
          | (s, .fault c va, _) => s.copyRefuse core k c va
          | (s, .ok _, b) =>
            match tensorOf b with
            | none => s.copyRefuse core k 0x20#8 0
            | some r =>
              let e := s.recBytes g.grid r
              let (first, count) := k.rowsOf r
              if !r.sized e || decide (first + count > x.rows) || decide (r.box.getD 0 1 * e > x.rowb) then s.copyRefuse core k 0x20#8 0
              else
                let lines := rowLines x first count (r.box.getD 0 1 * e)
                let go := fun (s : State) (idx : List Nat) =>
                  let s := (cl.filter fun l => !lines.contains l).foldl (fun s l => s.linePresent k.team k.h l) s
                  (s.updCmd core k.id fun k => { k with started := true, trec := some r, idx := idx, lines := lines }).walkAhead core g.ctx
                    { k with idx := idx } r x e lines
                if k.op = .cpyg then
                  let va := (k.q3 ++ k.q2).toNat
                  if va % 4 ≠ 0 then s.copyRefuse core k 0x20#8 0
                  else match s.cmdRead core g k indexPiece va (4 * count) with
                    | (s, .wait _, _) => s
                    | (s, .fault c va, _) => s.copyRefuse core k c va
                    | (s, .ok _, b) => go s ((List.range count).map fun i => natOfBytes ((b.drop (4 * i)).take 4))
                else go s []
      | _, _, _ => s

/-- Bytes of memory that an engine loads for a command, line by line, where a policy has them performed (R285, R334 item 4); and
the timestamp of the loads. -/
def State.loadLines (s : State) (core pts pa n pol : Nat) : State × List Byte × Nat :=
  (linesOf pa n).foldl (fun (acc : State × List Byte × Nat) l =>
    let lo := max pa (l * 128)
    let (s, b, p) := acc.1.loadMem core pts lo (min (pa + n) (l * 128 + 128) - lo) pol
    (s, acc.2.1 ++ b, max acc.2.2 p)) (s, [], pts)

/-- The copy engine's next line (R321, R331 to R334): the started command writes one line of its handle, at one timestamp (R293 item 3),
or for `CPST` admits what it writes from one line, once that line is present. Bytes in X memory are moved through the link first. -/
def State.copyLine (s : State) (core line : Nat) : State :=
  match (s.core core).cmds with
  | [] => s
  | k :: _ =>
    match s.group? k.grp, s.handleOf k.team k.h with
    | some g, some x =>
      if !k.started || !k.lines.contains line then s
      else
        let finish := fun (s : State) (ts : Nat) =>
          let s := s.updCmd core k.id fun k =>
            { k with lines := k.lines.filter (· ≠ line), rx := k.rx.filter (fun p => p.line != line) }
          let s := s.updPending k.res fun p => { p with ts := max p.ts ts }
          match ((s.core core).cmds.find? fun z => z.id == k.id) with
          | some k' => if k'.lines.isEmpty then s.copyDone core k' ts else s
          | none => s
        let zero := fun (s : State) (c : BitVec 8) (va : Nat) =>
          let s := s.updPending k.res fun p => p.meet c va
          if k.op = .cpst then finish s 0
          else
            let (s, t) := s.copyZeros k [line]
            finish s t
        match k.op, k.trec with
        | .cpfill, _ =>
          let n := min 128 (x.size - line * 128)
          let (s, t) := s.tileStore k.pts k.team k.h (line * 128) (((List.replicate 32 (bytesOfNat (field k.recVa 31 0) 4)).flatten).take n)
          finish (s.linePresent k.team k.h line) t
        | _, none => s
        | op, some r =>
          let a := if op = .cpst then Access.copyWrite else .copyRead
          if op = .cpst && x.absent.contains line then s
          else
            let ps := k.pieces r x (s.recBytes g.grid r) line
            match s.physPieces core g.ctx k.id a ps with
            | (s, .wait _, _) => s
            | (s, .fault c va, _) => zero s c va
            | (s, .ok _, l) =>
              let far := l.filter fun (_, _, p) => match p with
                | some (_, e) => e.typ == 3
                | none => false
              let mine := k.rx.filter fun p => p.line == line
              if !far.isEmpty && mine.isEmpty then
                far.foldl (fun s (off, n, p) => match p with
                  | some (wa, e) =>
                    if op = .cpst then
                      let (s, b, _) := s.tileLoad k.pts k.team k.h off n
                      s.askPiece core k line off n wa e.peer (some b)
                    else s.askPiece core k line off n wa e.peer none
                  | none => s) s
              else if mine.any fun p => !p.done then s
              else if mine.any fun p => p.failed then zero s 0x60#8 0
              else if op = .cpst then
                let (s, cells, p) := l.foldl (fun (acc : State × List Host.Cell × Nat) (off, n, p) => match p with
                  | some (pa, e) =>
                    if e.typ = 3 then acc
                    else
                      let (s, b, p) := acc.1.tileLoad k.pts k.team k.h off n
                      (s, acc.2.1 ++ cellsAt pa b, max acc.2.2 p)
                  | none => acc) (s, [], k.pts)
                let (s, t) := s.storeLines p cells
                finish s (if cells.isEmpty then 0 else t)
              else
                let (s, cells, p) := l.foldl (fun (acc : State × List Host.Cell × Nat) (off, n, p) =>
                  let (s, b, p) := match p with
                    | none => (acc.1, List.replicate n 0#8, k.pts)
                    | some (pa, e) =>
                      if e.typ = 3 then (acc.1, ((mine.find? fun (x : RxPiece) => x.off == off).map RxPiece.data).getD [], k.pts)
                      else acc.1.loadLines core k.pts pa n (if e.typ = 0 then k.pol else 1)
                  (s, acc.2.1 ++ cellsAt off b, max acc.2.2 p)) (s, [], k.pts)
                let (s, t) := s.tileStoreLines p k.team k.h cells
                finish (s.linePresent k.team k.h line) t
    | _, _ => s

/-- A team is no longer on a core that it left (R134). -/
def State.movedFrom (s : State) (core team : Nat) : Bool :=
  match s.team? team with
  | some t => t.core != core || t.st == .saved
  | none => false

/-- Event COPY_LINE_WRITTEN (R321): a line of a team that has left the core arrives as a forwarded one (R134). -/
def execCopyLineWritten (core line : Nat) (s : State) : Host.Outcome State Fault Refusal :=
  .next <|
    match (s.core core).cmds with
    | [] => s
    | k :: _ => if s.movedFrom core k.team then s else s.copyLine core line

/-! ## The instructions of R328 -/

/-- `LDT_B32` (R328, R329). -/
def execLdtB32 (sb : BitVec 3) (d : VReg) (base : Opnd) (x : BitVec 6) (s : State) : Host.Outcome State Fault Refusal :=
  s.perThread fun st s t th => s.ldtThread st t th d base x sb .b32

/-- `LDT_B64` (R328, R329). -/
def execLdtB64 (sb : BitVec 3) (d : VReg) (base : Opnd) (x : BitVec 6) (s : State) : Host.Outcome State Fault Refusal :=
  s.perThread fun st s t th => s.ldtThread st t th d base x sb .b64

/-- `LDT_B128` (R328, R329). -/
def execLdtB128 (sb : BitVec 3) (d : VReg) (base : Opnd) (x : BitVec 6) (s : State) : Host.Outcome State Fault Refusal :=
  s.perThread fun st s t th => s.ldtThread st t th d base x sb .b128

/-- `STT_B32` (R328, R329). -/
def execSttB32 (d : Opnd) (base : Opnd) (x : BitVec 6) (s : State) : Host.Outcome State Fault Refusal :=
  s.perThread fun st s t th => s.sttThread st t th d base x 4

/-- `STT_B64` (R328, R329). -/
def execSttB64 (d : Opnd) (base : Opnd) (x : BitVec 6) (s : State) : Host.Outcome State Fault Refusal :=
  s.perThread fun st s t th => s.sttThread st t th d base x 8

/-- `STT_B128` (R328, R329). -/
def execSttB128 (d : Opnd) (base : Opnd) (x : BitVec 6) (s : State) : Host.Outcome State Fault Refusal :=
  s.perThread fun st s t th => s.sttThread st t th d base x 16

/-- `ATOMT_ADD_S32` (R328, R329). -/
def execAtomtAddS32 (sb : BitVec 3) (d : VReg) (data : VReg) (base : Opnd) (s : State) : Host.Outcome State Fault Refusal :=
  s.perThread fun st s t th => s.atomtThread st t th .addS32 d data base sb

/-- `ATOMT_MIN_S32` (R328, R329). -/
def execAtomtMinS32 (sb : BitVec 3) (d : VReg) (data : VReg) (base : Opnd) (s : State) : Host.Outcome State Fault Refusal :=
  s.perThread fun st s t th => s.atomtThread st t th .minS32 d data base sb

/-- `ATOMT_MAX_S32` (R328, R329). -/
def execAtomtMaxS32 (sb : BitVec 3) (d : VReg) (data : VReg) (base : Opnd) (s : State) : Host.Outcome State Fault Refusal :=
  s.perThread fun st s t th => s.atomtThread st t th .maxS32 d data base sb

/-- `ATOMT_EXCH_B32` (R328, R329). -/
def execAtomtExchB32 (sb : BitVec 3) (d : VReg) (data : VReg) (base : Opnd) (s : State) : Host.Outcome State Fault Refusal :=
  s.perThread fun st s t th => s.atomtThread st t th .exch32 d data base sb

/-- `ATOMT_CAS_B32` (R328, R329). -/
def execAtomtCasB32 (sb : BitVec 3) (d : VReg) (data : VReg) (base : Opnd) (s : State) : Host.Outcome State Fault Refusal :=
  s.perThread fun st s t th => s.atomtThread st t th .cas32 d data base sb

/-- `ATOMT_ADD_F32` (R328, R329). -/
def execAtomtAddF32 (sb : BitVec 3) (d : VReg) (data : VReg) (base : Opnd) (s : State) : Host.Outcome State Fault Refusal :=
  s.perThread fun st s t th => s.atomtThread st t th .addF32 d data base sb

end Sys2Proof.Machine
end

