-- ==== Sys2Proof/Machine/Matrix.lean ====
section
/-! DEFINITION. Accumulator banks (R339 to R342), engine ownership (R344 to R346), the engine queue (R347), binding and
signing (R348 to R353), the issue of `MMAC`, `MZERO`, drains, `ACCLD` and `ACCST` (R358 to R363). What the engine then does
is in Engine. -/

namespace Sys2Proof.Machine

/-! ## Banks (R339 to R342) -/

def Team.bank? (t : Team) (n : Nat) : Option Bank := t.banks.find? fun b => b.n == n

def State.updBank (s : State) (team n : Nat) (f : Bank → Bank) : State :=
  s.updTeam team fun t => { t with banks := updIf (fun b => b.n == n) f t.banks }

/-- Teams that hold a core's resources. -/
def State.teamsOn (s : State) (core : Nat) : List Team :=
  s.dev.teams.filter fun t => t.core == core && (t.st == .resident || t.st == .saving)

/-- Physical banks of a core that are not held (R343); a dying context's are released when it has drained (R98). -/
def State.freeBanks (s : State) (core : Nat) : Nat :=
  32 - ((s.dev.teams.filter fun t => t.core == core && t.st != .saved).map fun t => t.banks.length).sum

/-- Banks of a core that a context holds (R341). -/
def State.banksHeld (s : State) (core ctx : Nat) : Nat :=
  (((s.teamsOn core).filter fun t => t.ctx == ctx).map fun t => t.banks.length).sum

/-- The quota of banks of a context; 0 for none (R97). -/
def State.qacc (s : State) (ctx : Nat) : Nat := ((s.ctx? ctx).map fun c => c.e.qacc).getD 0

/-- A request's context holds few enough banks for it (R341). -/
def State.underQuota (s : State) (core : Nat) (r : AccReq) : Bool :=
  match s.team? r.team with
  | some t => s.qacc t.ctx = 0 || decide (s.banksHeld core t.ctx + r.n ≤ s.qacc t.ctx)
  | none => false

/-- A stream that ends at this unit for every thread in it: none advances, none is left. -/
def State.endStream (s : State) (st : Stream) : State := s.updStream st.core st.reed fun x => { x with mask := 0#32 }

/-- `ACCALLOC` (R340, R341): the group parks until the banks are granted. -/
def execAccalloc (acc : BitVec 5) (n : BitVec 6) (s : State) : Host.Outcome State Fault Refusal :=
  s.perGroup fun st s g t =>
    let first := acc.toNat
    let k := n.toNat
    match s.team? g.team with
    | none => .plain s 0x21#8
    | some tm =>
      let q := s.qacc g.ctx
      if first + k > 32 || tm.banks.any (fun b => decide (first ≤ b.n ∧ b.n < first + k)) || (q ≠ 0 && decide (k > q)) then
        .plain s 0x21#8
      else
        let r : AccReq := { grp := st.grp, team := g.team, first := first, n := k, threads := st.threads.dropWhile (· ≠ t),
                            unit := st.unit, next := st.next, since := s.dev.clk, queued := false }
        let r := { r with queued := s.underQuota g.core r }
        .stop ((s.updCore g.core fun c => { c with accq := c.accq ++ [r] }).updGroup st.grp fun g => { g with park := .acc })

/-- Requests whose context's holdings do not allow them are kept outside the queue; those kept outside enter its tail when the
holdings allow (R341). -/
def State.admitReqs (s : State) (core : Nat) : State :=
  (s.core core).accq.foldl (fun s r =>
    let free := s.underQuota core r
    if r.queued && !free then
      s.updCore core fun c => { c with accq := updIf (fun x => x.grp == r.grp) (fun x => { x with queued := false }) c.accq }
    else if !r.queued && free then
      s.updCore core fun c => { c with accq := c.accq.filter (fun x => x.grp != r.grp) ++ [{ r with queued := true, since := s.dev.clk }] }
    else s) s

/-- The unit of a request is the last of a clause with DRAIN set, which completes with the grant (R37). -/
def State.drainsAt (s : State) (r : AccReq) : Bool :=
  match (s.group? r.grp).bind fun g => g.thread? (r.threads.headD 0) with
  | none => false
  | some th =>
    match ((s.core (((s.group? r.grp).map fun g => g.core).getD 0)).copy? th.copy).bind fun k => k.headerOf th.start r.unit.toNat with
    | some (h, w) => (headerOfWord w).drain && h + 4 * (headerOfWord w).count.toNat + 4 == r.next.toNat
    | none => false

/-- Event ACC_GRANT (R340, R341): the head of the core's request queue gets its banks, where enough are free. -/
def execAccGrant (core : Nat) (s : State) : Host.Outcome State Fault Refusal :=
  .next <|
    let s := s.admitReqs core
    match (s.core core).accq.find? fun r => r.queued with
    | none => s
    | some r =>
      if s.freeBanks core < r.n then s
      else
        let s := s.updTeam r.team fun t =>
          { t with banks := sortBy (fun b => b.n) (t.banks ++ (List.range r.n).map fun i => ⟨r.first + i, .unset, []⟩) }
        let s := s.updCore core fun c => { c with accq := c.accq.filter fun x => x.grp != r.grp }
        (s.updGroup r.grp fun g =>
          { r.threads.foldl (fun g t => g.updThread t fun th => { th with vpc := r.next }) g with
            park := if s.drainsAt r then .drain else .none }).admitReqs core

/-- Event ACCWAIT_TIMEOUT (R342): every group queued has waited for the limit; the oldest takes wait timeout (0x42). -/
def execAccwaitTimeout (core : Nat) (s : State) : Host.Outcome State Fault Refusal :=
  .next <|
    let c := s.core core
    let q := c.accq.filter fun r => r.queued
    match q with
    | [] => s
    | r :: _ =>
      if c.accwait = 0#32 || decide (r.n ≤ s.freeBanks core) || q.any fun r => decide (s.dev.clk < r.since + c.accwait.toNat) then s
      else
        let s := s.updCore core fun c => { c with accq := (c.accq.filter fun x => x.grp != r.grp).map fun x => { x with since := s.dev.clk } }
        let s := s.updGroup r.grp fun g => { g with park := .none }
        s.takeFault r.grp (r.threads.headD 0) ⟨0x42#8, 0#10, r.unit, 0#64⟩ false r.unit

/-- The banks that an engine-queue entry names. -/
def EqKind.banks : EqKind → List Nat
  | .op b => [b.acc]
  | .share acc .. => [acc, acc + 1, acc + 2, acc + 3]
  | .mzero acc => [acc]
  | .drain acc .. => [acc]
  | .accld acc .. => [acc]
  | .accst acc .. => [acc]

/-- An entry of a core's engine queue, or one due, names a bank of a team in a range (R340). -/
def State.bankBusy (s : State) (core team first n : Nat) : Bool :=
  ((s.core core).eq ++ (s.core core).due).any fun e => e.team == team && e.kind.banks.any fun b => decide (first ≤ b ∧ b < first + n)

/-- `ACCFREE` (R340). -/
def execAccfree (acc : BitVec 5) (n : BitVec 6) (s : State) : Host.Outcome State Fault Refusal :=
  s.perGroup fun st s g _ =>
    let first := acc.toNat
    let k := n.toNat
    match s.team? g.team with
    | none => .plain s 0x21#8
    | some tm =>
      if (List.range k).any fun i => (tm.bank? (first + i)).isNone then .plain s 0x21#8
      else if s.bankBusy g.core g.team first k then s.holdOn st.grp (.accfree first k)
      else .ok (s.updTeam g.team fun t => { t with banks := t.banks.filter fun b => !(decide (first ≤ b.n ∧ b.n < first + k)) })

/-! ## The latch (R352) -/

/-- The two buffers of a core's latch. -/
def Core.buffers (c : Core) : List LBuf := if c.latch.isEmpty then [⟨.free, []⟩, ⟨.free, []⟩] else c.latch

def State.setBuf (s : State) (core i : Nat) (b : LBuf) : State :=
  s.updCore core fun c => { c with latch := c.buffers.set i b }

/-- The buffer of a latch that is HELD, and its rows. -/
def Core.held? (c : Core) : Option (Nat × WordMap) :=
  (c.buffers.zip (List.range 2)).findSome? fun (b, i) => if b.st = .held then some (i, b.rows) else none

/-- The lowest FREE buffer. -/
def Core.freeBuf (c : Core) : Option Nat :=
  (c.buffers.zip (List.range 2)).findSome? fun (b, i) => if b.st = .free then some i else none

/-- A queued or due entry reads a buffer. -/
def Core.bufRead (c : Core) (i : Nat) : Bool :=
  (c.eq ++ c.due).any fun e => match e.kind with
    | .op b => b.buf == some i
    | _ => false

/-- The team of a core's owner. -/
def State.ownerTeam (s : State) (core : Nat) : Option Team :=
  (s.core core).owner.bind fun g => (s.group? g).bind fun x => s.team? x.team

/-- The rows HELD at a save that its owner, resumed, has still to get back (R345, R352 item 5). -/
def State.rowsDue (s : State) (core : Nat) : Option (Team × WordMap) :=
  match s.ownerTeam core with
  | some t => match t.reown with
    | some (g, some rows) => if (s.core core).owner = some g then some (t, rows) else none
    | _ => none
  | none => none

/-- A binding of the owner whose rows have lost their buffer with a save (R352, R353). -/
def Cv.bufDue (gid : Nat) : Cv → Bool
  | .bound b => b.owner == gid && b.kind.any (fun k => k.source) && b.buf.isNone
  | _ => false

/-- The owner waits for a buffer that its save took from it. -/
def State.latchDue (s : State) (core : Nat) : Bool :=
  (s.rowsDue core).isSome || match (s.core core).owner, s.ownerTeam core with
    | some g, some t => t.cv.any (Cv.bufDue g)
    | _, _ => false

/-- Buffers that become FREE serve what the owner held at its save: its HELD rows, then the rows of its bindings, ascending
(R345, R352 item 5, R353). -/
def State.restoreLatch (s : State) (core : Nat) : State :=
  let back := fun (t : Team) => { t with reown := t.reown.filter fun x => (s.core core).owner != some x.1 || x.2.isSome }
  let s := match s.ownerTeam core with
    | some t => s.updTeam t.id back
    | none => s
  let s := match s.rowsDue core, (s.core core).freeBuf with
    | some (t, rows), some i => (s.setBuf core i ⟨.held, rows⟩).updTeam t.id fun t => { t with reown := none }
    | _, _ => s
  match (s.core core).owner, s.ownerTeam core with
  | some g, some t =>
    (t.cv.zip (List.range 16)).foldl (fun s (c, n) =>
      match c, (s.core core).freeBuf with
      | .bound b, some i =>
        if c.bufDue g then
          (s.setBuf core i ⟨.filling, []⟩).updTeam t.id fun t => { t with cv := t.cv.set n (.bound { b with buf := some i }) }
        else s
      | _, _ => s) s
  | _, _ => s

/-- The HELD buffer released (R352 items 3 and 5): FREE once no queued or due entry reads it. -/
def State.releaseHeld (s : State) (core : Nat) : State :=
  match (s.core core).held? with
  | none => s
  | some (i, rows) => s.setBuf core i (if (s.core core).bufRead i then ⟨.queued, rows⟩ else ⟨.free, []⟩)

/-! ## Ownership (R344, R345) -/

/-- The engine passes to the head of the queue, which runs again (R344); a resumed owner gets back what the latch held for it
(R345, R352 item 5). -/
def State.passOwner (s : State) (core : Nat) : State :=
  let s := match s.ownerTeam core with
    | some t => s.updTeam t.id fun t => { t with reown := none }
    | none => s
  let s := s.releaseHeld core
  match (s.core core).ownq with
  | [] => s.updCore core fun c => { c with owner := none, relAt := some s.dev.clk }
  | g :: r =>
    ((s.updCore core fun c => { c with owner := some g, ownq := r }).updGroup g fun x => { x with park := .none }).restoreLatch core

/-- A group joins the tail of the ownership queue and parks, or owns the engine at once (R344). -/
def State.joinOwner (s : State) (core gid : Nat) : State :=
  let s := (s.updCore core fun c => { c with ownq := c.ownq ++ [gid] }).updGroup gid fun g => { g with park := .macq }
  if (s.core core).owner.isNone then s.passOwner core else s

/-- `MACQ` (R344). An engine released in this clk is taken only in the next (R365 case 2). -/
def execMacq (s : State) : Host.Outcome State Fault Refusal :=
  s.perGroup fun st s g _ =>
    let c := s.core g.core
    if c.owner = some st.grp || c.ownq.contains st.grp then .ok s
    else if c.owner.isNone && c.ownq.isEmpty && c.relAt != some s.dev.clk then .ok (s.updCore g.core fun c => { c with owner := some st.grp })
    else .stop (s.joinOwner g.core st.grp)

/-- The group has a convergence register bound by `MBIND` (R344). -/
def Team.bindsFor (t : Team) (gid : Nat) : Bool :=
  t.cv.any fun c => match c with
    | .bound b => b.owner == gid
    | _ => false

/-- The group owns its core's engine (R346). -/
def State.owns (s : State) (g : Group) : Bool := (s.core g.core).owner == some g.id

/-- `MREL` (R344). -/
def execMrel (s : State) : Host.Outcome State Fault Refusal :=
  s.perGroup fun _ s g _ =>
    if !s.owns g then .plain s 0x22#8
    else if ((s.team? g.team).map fun t => t.bindsFor g.id).getD false then .plain s 0x23#8
    else .ok (s.passOwner g.core)

/-! ## The engine queue (R347) -/

/-- The queue takes another entry: of 16, none is due before it. -/
def Core.eqRoom (c : Core) : Bool := decide (c.eq.length < 16) && c.due.isEmpty

/-- An entry at the tail of the engine queue. -/
def State.pushEq (s : State) (core : Nat) (e : EqEntry) : State := s.updCore core fun c => { c with eq := c.eq ++ [e] }

def State.updEq (s : State) (core id : Nat) (f : EqEntry → EqEntry) : State :=
  s.updCore core fun c => { c with eq := updIf (fun e => e.id == id) f c.eq }

/-- An entry leaves; the first entry due takes its place. -/
def State.dropEq (s : State) (core id : Nat) : State :=
  (s.updCore core fun c =>
    let l := c.eq.filter fun e => e.id != id
    match c.due with
    | [] => { c with eq := l }
    | e :: r => { c with eq := l ++ [e], due := r }).endEng id

/-- A new entry of a group. -/
def eqEntry (id : Nat) (g : Group) (kind : EqKind) (need res : Nat) : EqEntry :=
  { id := id, grp := g.id, team := g.team, kind := kind, units := 0, need := need, list := [], added := 0, toRead := false,
    begun := true, share := none, rx := [], res := res }

/-! ## Outlier lists of B operands (R356) -/

/-- A slot's list feeds the side path (R356). -/
def FmtSlot.sidePath (f : FmtSlot) : Bool := f.fmt == 3 && (f.ovf == 1 || f.ovf == 2) && f.olbase != 0

/-- How a reading of a list comes out: every record read before a fault, or a wait for a page. -/
inductive ListRes where
  | done (l : List (Nat × Nat × Word)) (fault : Option (BitVec 8 × Nat))
  | wait
deriving DecidableEq, Repr

/-- Records of a list from index `i` on, `n` of them, read at a program timestamp. -/
def State.readRecords (s : State) (core ctx eng pts va i : Nat) : Nat → List (Nat × Nat × Word) → State × ListRes
  | 0, acc => (s, .done acc none)
  | n + 1, acc =>
    let a := va + 64 + 12 * i
    match s.engReadAt (some core) ctx eng a 12 .table pts with
    | (s, .wait _, _) => (s, .wait)
    | (s, .fault c v, _) => (s, .done acc (some (c, v)))
    | (s, .ok _, b, _) =>
      s.readRecords core ctx eng pts va (i + 1) n
        (acc ++ [(natOfBytes (b.take 4), natOfBytes ((b.drop 4).take 4), BitVec.ofNat 32 (natOfBytes (b.drop 8)))])

/-- A slot's outlier list read as C loads (R356): records 0 to min(WIDX, CAP) − 1. -/
def State.readOutliers (s : State) (core ctx eng pts : Nat) (f : FmtSlot) : State × ListRes :=
  match s.engReadAt (some core) ctx eng f.listVa 4 .table pts with
  | (s, .wait _, _) => (s, .wait)
  | (s, .fault c v, _) => (s, .done [] (some (c, v)))
  | (s, .ok _, b, _) => s.readRecords core ctx eng pts f.listVa 0 (min (natOfBytes b) f.cap) []

/-- The slots of a group's grid. -/
def State.slotsOf (s : State) (g : Group) : List FmtSlot := ((s.grid? g.grid).map fun x => x.lr.fs).getD []

/-- A slot of a group's grid; every slot of a launched grid is there (R126). -/
def State.slotAt (s : State) (g : Group) (n : Nat) : FmtSlot := (s.slotsOf g).getD n ⟨0, 0, 0, 0, 0, 0, 0, 0⟩

/-- Records in the order of R89: by chunk, then column, then k. -/
def sideOrder (q : Nat) (l : List (Nat × Nat × Word)) : List (Nat × Nat × Word) :=
  sortBy (fun (k, n, _) => (k / q * 2 ^ 33 + n) * 2 ^ 33 + k) l

/-- The chunk depth of two formats (R88). -/
def chunkDepth (a b : FmtSlot) : Nat :=
  let e := max a.bytes b.bytes
  if e = 1 then 8 else if e = 2 then 4 else 1

/-- A slot's outlier list read, and the records in a window (R356), with the fault that ended its reading; `none` where a page is awaited.
`q` the chunk depth, K, the origin and the columns of the window. -/
def State.sideList (s : State) (core ctx eng pts : Nat) (f : FmtSlot) (q k orow ocol cols : Nat) :
    State × Option (List (Nat × Nat × Word) × Option (BitVec 8 × Nat)) :=
  if !f.sidePath then (s, some ([], none))
  else match s.readOutliers core ctx eng pts f with
    | (s, .wait) => (s, none)
    | (s, .done l fault) =>
      let l := (l.filter fun (r, c, _) => orow ≤ r && r < orow + k && ocol ≤ c && c < ocol + cols).map
        fun (r, c, v) => (r - orow, c - ocol, v)
      (s, some (sideOrder q l, fault))

/-- A fault met by an engine command, delivered with its token (R154, R278). -/
def State.meetFault (s : State) (res : Nat) (f : Option (BitVec 8 × Nat)) : State :=
  match f with
  | some (c, va) => s.updPending res fun p => p.meet c va
  | none => s

/-- An entry's outlier list read for it (R356). -/
def State.readSide (s : State) (core : Nat) (e : EqEntry) (g : Group) (f : FmtSlot) (q k orow ocol cols : Nat) : State × EqEntry :=
  match s.sideList core g.ctx e.id g.pts f q k orow ocol cols with
  | (s, none) => (s, { e with toRead := true })
  | (s, some (l, fault)) => (s.meetFault e.res fault, { e with toRead := false, list := l })

/-! ## Binding (R348 to R350) -/

/-- The MODE of an operation (R349). -/
def modeOf (a : FmtSlot) : BankMode := if a.fmt = 4 then .integer else .float

/-- The checks of R349 item 3 on a bank. -/
def bankFits (b : Option Bank) (fa fb : FmtSlot) (k : Nat) : Bool :=
  match b with
  | none => false
  | some b => ((fa.fmt == 4) == (fb.fmt == 4)) && k % chunkDepth fa fb == 0 && decide (k * fa.bytes ≤ 64) &&
      (b.mode == .unset || b.mode == modeOf fa)

/-- A binding made (R349, R350): `src` is the B source. -/
def State.bind (s : State) (st : Stream) (g : Group) (t : Nat) (cv : BitVec 4) (acc : BitVec 5) (src : BSrc) (fs sb : BitVec 3) : SRes :=
  let p := (st.imm.getD 0#24).toNat
  let k := field p 5 0 + 1
  let afs := field p 8 6
  let mg := field p 14 9
  let mask := mget g.g mg
  let org := (mget g.g (mg + 1)).toNat
  match s.team? g.team with
  | none => .plain s 0x22#8
  | some tm =>
    let fa := s.slotAt g afs
    let fb := s.slotAt g fs.toNat
    if !s.owns g then .plain s 0x22#8
    else if (tm.cv.getD cv.toNat .free) ≠ .free then .plain s 0x23#8
    else if !bankFits (tm.bank? acc.toNat) fa fb k then .plain s 0x21#8
    else if mask = 0#32 then .plain s 0x23#8
    else
      let okB := match src with
        | .handle h => match tm.handle? h with
          | some x => decide (k ≤ x.rows) && decide (64 * fb.bytes ≤ x.rowb)
          | none => false
        | .record _ => true
      if !okB then .plain s 0x20#8
      else
        let waits := match src with
          | .handle _ => false
          | .record _ => !g.sq.isEmpty
        if waits || !s.hasRoom st.grp sb.toNat then .stop s
        else
          let (res, s) := s.addResult st.grp t (some sb.toNat) st.unit .token true
          let b : Binding := { mask := mask, signed := 0#32, owner := g.id, acc := acc.toNat, src := src, afs := afs, bfs := fs.toNat,
                               k := k, orow := field org 15 0, ocol := field org 31 16, res := res, kind := none, buf := none,
                               held := (s.core g.core).held?.map Prod.snd, rows := [] }
          let s := s.updBank g.team acc.toNat fun x => { x with mode := if x.mode = .unset then modeOf fa else x.mode }
          let s := match src with
            | .handle h => s.consUp g.team h
            | .record _ => s
          .ok (s.updTeam g.team fun x => { x with cv := x.cv.set cv.toNat (.bound b) })

/-- `MBIND` (R348 to R350). -/
def execMbind (cv : BitVec 4) (acc : BitVec 5) (h : BitVec 8) (fs sb : BitVec 3) (s : State) : Host.Outcome State Fault Refusal :=
  s.perGroup fun st s g t => s.bind st g t cv acc (.handle h.toNat) fs sb

/-- `MBIND_R` (R348 to R350). -/
def execMbindR (cv : BitVec 4) (acc : BitVec 5) (gr : BitVec 6) (fs sb : BitVec 3) (s : State) : Host.Outcome State Fault Refusal :=
  s.perGroup fun st s g t => s.bind st g t cv acc (.record (mget g.g (gr.toNat + 1) ++ mget g.g gr.toNat).toNat) fs sb

/-! ## Signing (R351 to R353) -/

/-- A bound operation whose members have all signed or ended is queued, or due where the queue is full (R347, R353); its
convergence register is FREE. -/
def State.queueOp (s : State) (g : Group) (cv : Nat) (b : Binding) : State :=
  let (id, s) := s.fresh
  let fa := s.slotAt g b.afs
  let fb := s.slotAt g b.bfs
  let q := chunkDepth fa fb
  let e := eqEntry id g (.op b) (8 * b.k / q) b.res
  let (s, e) := s.readSide g.core e g fb q b.k b.orow b.ocol 64
  let s := s.updTeam g.team fun t => { t with cv := t.cv.set cv .free }
  let s := match b.kind, b.buf with
    | some k, some i => if k.source then s.setBuf g.core i ⟨.queued, b.rows⟩ else s
    | _, _ => s
  if (s.core g.core).eqRoom then s.pushEq g.core e else s.updCore g.core fun c => { c with due := c.due ++ [e] }

/-- The rows that a signature hands over. -/
inductive SignSrc where
  | words (f : Group → Nat → Thread → List Word)
  | none

/-- `MSIGN` for one thread (R352, R353). -/
def State.signThread (s : State) (st : Stream) (t : Nat) (th : Thread) (cv : Nat) (src : SignSrc) (reuse : Bool) : SRes :=
  match s.group? st.grp with
  | none => .ok s
  | some g =>
    if !s.owns g then .plain s 0x22#8
    else match ((s.team? g.team).map fun (x : Team) => x.cv.getD cv Cv.free : Option Cv) with
      | some (.bound b) =>
        let source := match src with
          | .words _ => true
          | .none => false
        let kind : SignKind := ⟨source, reuse⟩
        if b.owner ≠ g.id || !bitAt b.mask t || bitAt b.signed t || (b.kind.isSome && b.kind ≠ some kind) then .plain s 0x23#8
        else
          let c := s.core g.core
          let done := b.signed ||| (1#32 <<< t)
          let last := allSigned g b.mask done
          let go := fun (s : State) (b : Binding) =>
            let b := { b with signed := done, kind := some kind }
            if last then SRes.ok (s.queueOp g cv b)
            else .ok (s.updTeam g.team fun x => { x with cv := x.cv.set cv (.bound b) })
          match src with
          | .none =>
            match b.kind, c.held? with
            | Option.none, Option.none => if s.latchDue g.core then .stop s else .plain s 0x23#8
            | Option.none, some (i, rows) =>
              let was := b.held.getD rows
              if last && !c.eqRoom then .stop s else go s { b with buf := if was = rows then some i else Option.none, rows := was }
            | some _, _ => if last && !c.eqRoom then .stop s else go s b
          | .words f =>
            let ws := f g t th
            let put := fun (b : Binding) => { b with rows := msets b.rows (32 * t) ws }
            match b.buf with
            | some _ => if last && !c.eqRoom then .stop s else go s (put b)
            | Option.none =>
              match c.freeBuf with
              | Option.none => .stop s
              | some i =>
                if s.latchDue g.core || (last && !c.eqRoom) then .stop s
                else go (s.setBuf g.core i ⟨.filling, []⟩) (put { b with buf := some i })
      | _ => .plain s 0x23#8

/-- The 32 words of a register source. -/
def regRows (v : BitVec 6) (_ : Group) (_ : Nat) (th : Thread) : List Word := mgets th.v v.toNat 32

/-- The 32 words of a slice source (R351): row slice r[(x + t) mod 32]. -/
def sliceRows (tt ge : BitVec 1) (gidx : BitVec 6) (imm : BitVec 5) (g : Group) (t : Nat) (_ : Thread) : List Word :=
  let x := (sliceIndex g ge gidx imm + t) % 32
  match g.thread? x with
  | some th => mgets th.v (if tt = 1#1 then 32 else 0) 32
  | none => []

/-- `MSIGN_REG` (R351, R353). -/
def execMsignReg (cv : BitVec 4) (v : BitVec 6) (s : State) : Host.Outcome State Fault Refusal :=
  s.perThread fun st s t th => s.signThread st t th cv.toNat (.words (regRows v)) false

/-- `MSIGN_SLICE` (R351, R353). -/
def execMsignSlice (cv : BitVec 4) (t ge : BitVec 1) (gidx : BitVec 6) (imm : BitVec 5) (s : State) : Host.Outcome State Fault Refusal :=
  s.perThread fun st s n th => s.signThread st n th cv.toNat (.words (sliceRows t ge gidx imm)) false

/-- `MSIGN_RE_REG` (R351, R353). -/
def execMsignReReg (cv : BitVec 4) (v : BitVec 6) (s : State) : Host.Outcome State Fault Refusal :=
  s.perThread fun st s t th => s.signThread st t th cv.toNat (.words (regRows v)) true

/-- `MSIGN_RE_SLICE` (R351, R353). -/
def execMsignReSlice (cv : BitVec 4) (t ge : BitVec 1) (gidx : BitVec 6) (imm : BitVec 5) (s : State) : Host.Outcome State Fault Refusal :=
  s.perThread fun st s n th => s.signThread st n th cv.toNat (.words (sliceRows t ge gidx imm)) true

/-- `MSIGN_RE_NONE` (R351, R352 item 4, R353). -/
def execMsignReNone (cv : BitVec 4) (s : State) : Host.Outcome State Fault Refusal :=
  s.perThread fun st s t th => s.signThread st t th cv.toNat .none true

/-- A thread of a group has ended: bindings and sign-offs whose other members have signed are complete (R252, R353). -/
def State.memberEnded (s : State) (gid : Nat) : State :=
  match s.group? gid with
  | none => s
  | some g =>
    match s.team? g.team with
    | none => s
    | some tm =>
      (tm.cv.zip (List.range 16)).foldl (fun s (c, n) =>
        match c with
        | .bound b => if b.owner == gid && allSigned g b.mask b.signed then s.queueOp g n b else s
        | .signing m d o => if o == gid && allSigned g m d then s.updTeam g.team fun t => { t with cv := t.cv.set n .free } else s
        | .free => s) s

/-! ## `MZERO`, `MMAC`, drains, `ACCLD`, `ACCST` (R358 to R363) -/

/-- A unit that takes an engine-queue entry: ownership first (R346), then its own checks, then room (R347). -/
def State.engineUnit (s : State) (f : Stream → State → Group → Team → Nat → SRes) : Host.Outcome State Fault Refusal :=
  s.perGroup fun st s g t =>
    if !s.owns g then .plain s 0x22#8
    else match s.team? g.team with
      | none => .plain s 0x22#8
      | some tm => f st s g tm t

/-- `MZERO` (R360). -/
def execMzero (acc : BitVec 5) (s : State) : Host.Outcome State Fault Refusal :=
  s.engineUnit fun _ s g tm _ =>
    if (tm.bank? acc.toNat).isNone then .plain s 0x21#8
    else if !(s.core g.core).eqRoom then .stop s
    else
      let (id, s) := s.fresh
      .ok (s.pushEq g.core (eqEntry id g (.mzero acc.toNat) 0 0))

/-- The lower of two fault codes, the first place that met it (R154 item 4). -/
def lowFault (a : Option (BitVec 8 × Nat)) (c : BitVec 8) (va : Nat) : Option (BitVec 8 × Nat) :=
  match a with
  | some (d, v) => if c.toNat < d.toNat then some (c, va) else some (d, v)
  | none => some (c, va)

/-- The place of a record's bytes among those that an engine asks of the link. -/
def recPlace (va : Nat) : Nat := 2 ^ 64 + va

/-- A tensor record read for the engine at a program timestamp, through the walk-ahead TLB (R268, R330, R350): the record where it is
valid, and, in X memory, what is to be asked of the link (offset, length, window address, peer); `rx`: what has been asked. -/
def State.readTensor (s : State) (core ctx eng grid va pts : Nat) (rx : List RxPiece) :
    State × EngRes × Option TensorRec × List (Nat × Nat × Nat × Nat) :=
  let valid := fun (b : List Byte) => (tensorOf b).filter fun r => r.sized (s.recBytes grid r)
  if va % 64 ≠ 0 then (s, .ok .nil, none, [])
  else match s.engAccess (some core) ctx eng va .copyRead true with
    | (s, .ok e) =>
      if e.typ = 3 then
        match rx.find? fun (p : RxPiece) => p.off == recPlace va with
        | none => (s, .wait va, none, [(recPlace va, 64, e.pa va, e.peer)])
        | some p =>
          if !p.done then (s, .wait va, none, [])
          else if p.failed then (s, .fault 0x60#8 va, none, [])
          else (s, .ok e, valid p.data, [])
      else
        let (s, b, _) := s.homeLoad pts (e.pa va) 64
        (s, .ok e, valid b, [])
    | (s, r) => (s, r, none, [])

/-- Pieces asked of their peers by READ messages; a peer that is not live fails its piece (R420). `line`: what they are kept
under. -/
def State.askReads (s : State) (ctx line : Nat) (far : List (Nat × Nat × Nat × Nat)) : State × List RxPiece :=
  far.foldl (fun (acc : State × List RxPiece) (off, len, wa, peer) =>
    if (acc.1.peer? peer).any Peer.live then
      let (tag, s) := acc.1.fresh
      (s.send peer (.read (s.ctxgen ctx) (BitVec.ofNat 32 tag) wa len), acc.2 ++ [⟨peer, tag % 2 ^ 32, line, off, len, false, false, []⟩])
    else (acc.1, acc.2 ++ [⟨peer, 0, line, off, len, true, true, []⟩])) (s, [])

/-- The teams of a cluster. -/
def State.clusterTeams (s : State) (cl : Nat) : List Team := s.dev.teams.filter fun t => t.cluster == cl

/-- An entry is a share of an operation of its cluster. -/
def EqEntry.inOp (e : EqEntry) (op : Nat) : Bool := e.share.any fun x => x.op == op

/-- The shares of an operation that are left, by core. -/
def State.opShares (s : State) (op : Nat) : List (Nat × EqEntry) :=
  (s.dev.cores.map fun (c, k) => (k.eq.filter fun e => e.inOp op).map fun e => (c, e)).flatten

/-- Every share of an operation changed. -/
def State.updShares (s : State) (op : Nat) (f : EqEntry → EqEntry) : State :=
  s.onDev fun d => { d with cores := d.cores.map fun (n, c) => (n, { c with eq := updIf (fun e => e.inOp op) f c.eq }) }

/-- A fault met by an operation is every share's (R359). -/
def State.meetShares (s : State) (op : Nat) (f : Option (BitVec 8 × Nat)) : State :=
  (s.opShares op).foldl (fun s x => s.meetFault x.2.res f) s

/-- Pieces asked of the link for an entry. -/
def State.askFor (s : State) (core ctx : Nat) (e : EqEntry) (far : List (Nat × Nat × Nat × Nat)) : State :=
  let (s, l) := s.askReads ctx 0 far
  s.updEq core e.id fun e => { e with rx := e.rx ++ l }

/-- The share that reads for an operation: the one that has asked the link for something of it, or else the one at hand. -/
def State.opReader (s : State) (core : Nat) (e : EqEntry) (op : Nat) : Nat × EqEntry :=
  ((s.opShares op).find? fun x => !x.2.rx.isEmpty).getD (core, e)

/-- The records of an operation's operands, and the list of B's slot, read for all its shares at once (R356, R359). -/
def State.readOp (s : State) (core : Nat) (g : Group) (e : EqEntry) : State :=
  match e.share, e.kind with
  | some x, .share _ a b k _ _ =>
    let (core, e) := s.opReader core e x.op
    let keep := fun (s : State) (recs : Option (TensorRec × TensorRec)) (fault : Option (BitVec 8 × Nat)) (l : List (Nat × Nat × Word)) =>
      s.updShares x.op fun e => { e with
        toRead := false, share := e.share.map fun y => { y with recs := some (recs, fault) }
        list := match e.kind with
          | .share _ _ _ _ i _ => (l.filter fun (_, n, _) => 128 * i ≤ n && n < 128 * i + 128).map fun (r, n, v) => (r, n - 128 * i, v)
          | _ => [] }
    match s.readTensor core g.ctx e.id g.grid a g.pts e.rx with
    | (s, .wait _, _, far) => s.askFor core g.ctx e far
    | (s, ea, ra, _) =>
      match s.readTensor core g.ctx e.id g.grid b g.pts e.rx with
      | (s, .wait _, _, far) => s.askFor core g.ctx e far
      | (s, eb, rb, _) =>
        let bad := fun (x : EngRes) (r : Option TensorRec) => match x, r with
          | .fault c va, _ => some (c, va)
          | _, none => some (0x21#8, 0)
          | _, _ => none
        match ra, rb with
        | some y, some z =>
          match s.sideList core g.ctx e.id g.pts (s.slotAt g z.fs) (32 * k / e.need) k 0 0 (z.dim.getD 0 1) with
          | (s, none) => s
          | (s, some (l, fault)) => keep (s.meetShares x.op fault) (some (y, z)) none l
        | _, _ => keep s none (match bad ea ra with
            | some f => lowFault (bad eb rb) f.1 f.2
            | none => bad eb rb) []
  | _, _ => s

/-- The cluster's operation begins once every team has given it (R359): the teams that agree take part, its records and B's list are
read, and each share may then be performed. -/
def State.beginMmac (s : State) (cl : Nat) : State :=
  match s.cluster? cl with
  | none => s
  | some c =>
    if (s.clusterTeams cl).all fun t => t.st == .retired || c.mmac.any fun m => m.team == t.id then
      let ranks := ((s.clusterTeams cl).filter fun t => c.mmac.any fun m => m.team == t.id && m.part).map fun t => (t.ri, t.rj)
      let s := s.updCluster cl fun c => { c with mmac := [] }
      let (op, s) := s.fresh
      let s := (s.clusterTeams cl).foldl (fun s t => s.updCore t.core fun k =>
        { k with eq := updIf (fun e => e.team == t.id && !e.begun)
                   (fun e => { e with begun := true, toRead := true, share := some ⟨op, ranks, none, none⟩ }) k.eq }) s
      match (s.opShares op).head? with
      | some (core, e) => match s.group? e.grp with
        | some g => s.readOp core g e
        | none => s
      | none => s
    else s

/-- `MMAC` (R358, R359). -/
def execMmac (acc : BitVec 5) (gA : BitVec 6) (sb : BitVec 3) (s : State) : Host.Outcome State Fault Refusal :=
  s.engineUnit fun st s g tm t =>
    let p := (st.imm.getD 0#24).toNat
    let gB := field p 5 0
    let k := field p 11 6 + 1
    let a := (mget g.g (gA.toNat + 1) ++ mget g.g gA.toNat).toNat
    let b := (mget g.g (gB + 1) ++ mget g.g gB).toNat
    match s.cluster? tm.cluster with
    | none => .plain s 0x23#8
    | some cl =>
      let read := fun (s : State) (va : Nat) =>
        s.readTensor g.core g.ctx 0 g.grid va g.pts ((s.core g.core).recs.filter fun p => p.line == g.id)
      let wait := fun (s : State) (va : Nat) (far : List (Nat × Nat × Nat × Nat)) =>
        if s.requested g.ctx (va / 4096) then s.stopOr (s.parkPage g.id t g.ctx va)
        else
          let (s, l) := s.askReads g.ctx g.id far
          .stop (s.updCore g.core fun c => { c with recs := c.recs ++ l })
      match read s a with
      | (s, .wait v, _, far) => wait s v far
      | (s, _, ra, _) =>
        match read s b with
        | (s, .wait v, _, far) => wait s v far
        | (s, _, rb, _) =>
          let s := s.updCore g.core fun c => { c with recs := c.recs.filter fun p => p.line != g.id }
          let fits := (List.range 4).all fun i => match ra, rb with
            | some x, some y => bankFits (tm.bank? (acc.toNat + i)) (s.slotAt g x.fs) (s.slotAt g y.fs) k
            | _, _ => (tm.bank? (acc.toNat + i)).isSome
          if !fits then .plain s 0x21#8
          else if !(s.core g.core).eqRoom || !s.hasRoom st.grp sb.toNat || (cl.mmac.any fun m => m.team == tm.id) then .stop s
          else
            let agrees := match cl.mmac.find? fun m => m.part with
              | some m => m.a == a && m.b == b && m.k == k
              | none => true
            if !agrees then
              .plain ((s.updCluster tm.cluster fun c => { c with mmac := c.mmac ++ [⟨tm.id, a, b, k, false⟩] }).beginMmac tm.cluster) 0x23#8
            else
              let (res, s) := s.addResult st.grp t (some sb.toNat) st.unit .token true
              let (id, s) := s.fresh
              let q := match ra, rb with
                | some x, some y => chunkDepth (s.slotAt g x.fs) (s.slotAt g y.fs)
                | _, _ => 1
              let e := { eqEntry id g (.share acc.toNat a b k tm.ri tm.rj) (4 * 8 * k / q) res with begun := false }
              let s : State := match ra with
                | some x => (List.range 4).foldl (fun (s : State) i =>
                    s.updBank tm.id (acc.toNat + i) fun z : Bank => { z with mode := if z.mode = .unset then modeOf (s.slotAt g x.fs) else z.mode }) s
                | none => s
              let s := s.pushEq g.core e
              .ok ((s.updCluster tm.cluster fun c => { c with mmac := c.mmac ++ [⟨tm.id, a, b, k, true⟩] }).beginMmac tm.cluster)

/-- The checks of a drain's target at issue (R362 items 1 and 2). -/
def drainCheck (tm : Team) (f : FmtSlot) : DrainTo → Option (BitVec 8)
  | .handle h _ =>
    match tm.handle? h with
    | some x => if x.rows < 64 || x.rowb < 64 * f.bytes then some 0x20#8 else none
    | none => some 0x20#8
  | .memory base pitch _ _ => if base % f.bytes ≠ 0 || pitch % f.bytes ≠ 0 then some 0x12#8 else none

/-- A handle target's lines made absent at issue, unless its consumers hold the drain (R362 item 1). -/
def State.drainClears (s : State) (team : Nat) (f : FmtSlot) : DrainTo → State × DrainTo
  | .handle h _ =>
    match s.handleOf team h with
    | some x => if x.cons = 0 then (s.linesAbsent team h (rowLines x 0 64 (64 * f.bytes)), .handle h true) else (s, .handle h false)
    | none => (s, .handle h true)
  | d => (s, d)

/-- A drain's issue (R361, R362). -/
def State.drainUnit (s : State) (acc : BitVec 5) (dst : Group → DrainTo) (fs : Nat) (dst2 : Stream → Group → Option (DrainTo × Nat))
    (sb : BitVec 3) : Host.Outcome State Fault Refusal :=
  s.engineUnit fun st s g tm t =>
    let f := s.slotAt g fs
    let d := dst g
    let o := dst2 st g
    let bad := (if (tm.bank? acc.toNat).isNone then [0x21#8] else []) ++ (drainCheck tm f d).toList ++
      (o.bind fun (d, n) => drainCheck tm (s.slotAt g n) d).toList
    match firstBy (fun (x y : BitVec 8) => decide (x.toNat < y.toNat)) bad with
    | some c => .plain s c
    | none =>
      if !g.sq.isEmpty || !(s.core g.core).eqRoom || !s.hasRoom st.grp sb.toNat then .stop s
      else
        let (res, s) := s.addResult st.grp t (some sb.toNat) st.unit .token true
        let (id, s) := s.fresh
        let (s, d) := s.drainClears g.team f d
        let (s, o) := match o with
          | none => (s, none)
          | some (d2, n) => let (s, d2) := s.drainClears g.team (s.slotAt g n) d2; (s, some (d2, n))
        .ok (s.pushEq g.core (eqEntry id g (.drain acc.toNat d fs o) 0 res))

/-- A memory target in a g quad (R361). -/
def memTarget (q : Nat) (g : Group) : DrainTo :=
  let w := fun (i : Nat) => (mget g.g (q + i)).toNat
  .memory (w 0 + 2 ^ 32 * w 1) (w 2) (field (w 3) 15 0) (field (w 3) 31 16)

/-- `MDRAIN_HANDLE` (R361, R362). -/
def execMdrainHandle (acc : BitVec 5) (h : BitVec 8) (fs sb : BitVec 3) (s : State) : Host.Outcome State Fault Refusal :=
  s.drainUnit acc (fun _ => .handle h.toNat false) fs.toNat (fun _ _ => none) sb

/-- `MDRAIN_T_HANDLE` (R361, R362). -/
def execMdrainTHandle (acc : BitVec 5) (h : BitVec 8) (fs sb : BitVec 3) (s : State) : Host.Outcome State Fault Refusal :=
  s.drainUnit acc (fun _ => .handle h.toNat false) fs.toNat
    (fun st _ => let p := (st.imm.getD 0#24).toNat; some (.handle (field p 7 0) false, field p 10 8)) sb

/-- `MDRAIN_MEMORY` (R361, R362). -/
def execMdrainMemory (acc : BitVec 5) (gQ : BitVec 6) (fs sb : BitVec 3) (s : State) : Host.Outcome State Fault Refusal :=
  s.drainUnit acc (memTarget gQ.toNat) fs.toNat (fun _ _ => none) sb

/-- `MDRAIN_T_MEMORY` (R361, R362). -/
def execMdrainTMemory (acc : BitVec 5) (gQ : BitVec 6) (fs sb : BitVec 3) (s : State) : Host.Outcome State Fault Refusal :=
  s.drainUnit acc (memTarget gQ.toNat) fs.toNat
    (fun st g => let p := (st.imm.getD 0#24).toNat; some (memTarget (field p 8 3) g, field p 2 0)) sb

/-- A unit of `ACCLD` or `ACCST` (R346, R347, R363): one entry for the group's unit. `entry` makes it of the threads that
execute. -/
def State.accUnit (s : State) (acc : BitVec 5) (entry : Stream → State → Group → List Nat → Nat → State × EqKind) (need : Nat)
    (sb : Nat) : Host.Outcome State Fault Refusal :=
  s.onStream fun st g =>
    let on := st.threads.filter fun t => match g.thread? t with
      | some th => predOn st th
      | none => false
    match on with
    | [] => s.advance st st.threads
    | t :: _ =>
      let before := st.threads.takeWhile (· ≠ t)
      let fail := fun (c : BitVec 8) => (s.takeFault st.grp t ⟨c, 0#10, st.unit, 0#64⟩ false st.unit).advance st before
      if !s.owns g then fail 0x22#8
      else if (((s.team? g.team).bind fun x => x.bank? acc.toNat)).isNone then fail 0x21#8
      else if !(s.core g.core).eqRoom then s.advance st before
      else
        let room := if need = 0 then on.length else 255 - g.count sb
        let take := on.take room
        match on.drop room with
        | [] =>
          let (s, k) := entry st s g take sb
          let (id, s) := s.fresh
          (s.pushEq g.core (eqEntry id g k 0 0)).advance st st.threads
        | u :: _ =>
          let kept := st.threads.takeWhile (· ≠ u)
          if take.isEmpty then s.advance st kept
          else
            let (s, k) := entry st s g take sb
            let (id, s) := s.fresh
            (s.pushEq g.core (eqEntry id g k 0 0)).advance st kept

/-- `ACCLD` (R363): one result per thread through the token. -/
def execAccld (v : BitVec 6) (acc : BitVec 5) (h : BitVec 1) (c : BitVec 2) (sb : BitVec 3) (s : State) : Host.Outcome State Fault Refusal :=
  s.accUnit acc (fun st s _ ts n =>
    let (s, l) := ts.foldl (fun (acc : State × List (Nat × Nat)) t =>
      let (r, s) := acc.1.addResult st.grp t (some n) st.unit .token false
      (s, acc.2 ++ [(t, r)])) (s, [])
    (s, .accld acc.toNat l v.toNat h.toNat c.toNat)) 1 sb.toNat

/-- `ACCST` (R363): the registers are read at issue. -/
def execAccst (v : BitVec 6) (acc : BitVec 5) (h : BitVec 1) (c : BitVec 2) (s : State) : Host.Outcome State Fault Refusal :=
  s.accUnit acc (fun _ s g ts _ =>
    (s, .accst acc.toNat h.toNat c.toNat (ts.map fun t => (t, match g.thread? t with
      | some th => mgets th.v v.toNat 16
      | none => [])))) 0 0

end Sys2Proof.Machine
end

