-- ==== Sys2Proof/Machine/Engine.lean ====
section
/-! DEFINITION. What the matrix engine does (R347, R354 to R357, R359, R360, R362, R363) and the levels it runs at (R258,
R259). -/

namespace Sys2Proof.Machine

/-! ## The numerics (R88, R89, R354) -/

/-- The exact value of an operand's bits in its slot's format; of INT8 the integer. -/
def opValue (f : FmtSlot) (x : Nat) : Ex := f.decode x

/-- One element of a floating-point bank (R89): chunks in ascending K, one rounding per chunk, each chunk's records after
it. -/
def macElem (q k : Nat) (a b : Nat → Ex) (side : List (Nat × Word)) (c : Word) : Word :=
  (List.range (k / q)).foldl (fun c ch =>
    let sum := (List.range q).foldl (fun x i => (exAdd 0#2 x (exMul (a (ch * q + i)) (b (ch * q + i))).1).1) (Ex.num false 0 0)
    let c := roundF32 0#2 (exAdd 0#2 (val32 c) sum).1
    (side.filter fun (r, _) => r / q == ch).foldl (fun c (r, v) => roundF32 0#2 (exAdd 0#2 (val32 c) (exMul (a r) (val32 v)).1).1) c) c

/-- One element of an integer bank (R89 item 4). -/
def macInt (k : Nat) (a b : Nat → Int) (c : Word) : Word :=
  c + BitVec.ofInt 32 ((List.range k).foldl (fun x i => x + a i * b i) 0)

/-- A 64×64 block multiplied into a bank (R354): the operands' bits by (row, k) and (k, column), the records by column. -/
def macBank (fa fb : FmtSlot) (q k : Nat) (a b : Nat → Nat → Nat) (side : List (Nat × Nat × Word)) (data : WordMap) : WordMap :=
  (List.range 4096).filterMap fun x =>
    let i := x / 64
    let j := x % 64
    let c := mget data x
    let w := if fa.fmt = 4 then macInt k (fun n => signed 8 (a i n)) (fun n => signed 8 (b n j)) c
      else macElem q k (fun n => opValue fa (a i n)) (fun n => opValue fb (b n j))
        ((side.filter fun (_, n, _) => n == j).map fun (r, _, v) => (r, v)) c
    if w = 0#32 then none else some (x, w)

/-- Element `k` of latch row `i`, of `e` bytes (R351). -/
def latchElem (rows : WordMap) (e i k : Nat) : Nat :=
  (mget rows (32 * (i / 2) + 16 * (i % 2) + k * e / 4)).toNat / 2 ^ (8 * (k * e % 4)) % 2 ^ (8 * e)

/-- An element of `e` bytes at an offset of fetched bytes. -/
def memElem (m : Mem) (e off : Nat) : Nat := natOfBytes (mgets m off e)

/-! ## Fetching operands from memory (R278, R350, R359) -/

/-- What a fetch found: its bytes by offset (0 where they cannot be obtained), its lowest fault, pages waited for, and the
pieces to be read through the link. -/
structure Fetched where
  data : Mem
  fault : Option (BitVec 8 × Nat)
  waits : List Nat
  far : List (Nat × Nat × Nat × Nat)
deriving DecidableEq, Repr

/-- Segments (offset, length, address) fetched by an engine page by page. -/
def State.fetchSegs (s : State) (core ctx eng pts : Nat) (segs : List (Nat × Nat × Nat)) (rx : List RxPiece) : State × Fetched :=
  segs.foldl (fun acc (off, n, va) =>
    (pagesOf va n).foldl (fun (acc : State × Fetched) v =>
      let (s, f) := acc
      let len := min (va + n) ((v / 4096 + 1) * 4096) - v
      let o := off + (v - va)
      match s.engAccess (some core) ctx eng v .copyRead true with
      | (s, .wait p) => (s, { f with waits := f.waits ++ [p] })
      | (s, .fault c v) => (s, { f with fault := lowFault f.fault c v })
      | (s, .ok e) =>
        if e.typ = 3 then
          match rx.find? fun (p : RxPiece) => p.off == o with
          | some p => if p.failed then (s, { f with fault := lowFault f.fault 0x60#8 v }) else (s, { f with data := msets f.data o p.data })
          | none => (s, { f with far := f.far ++ [(o, len, e.pa v, e.peer)] })
        else
          let (s, b, _) := s.homeLoad pts (e.pa v) len
          (s, { f with data := msets f.data o b })) acc) (s, ⟨[], none, [], []⟩)

/-- The segments of a two-dimensional operand: `n` runs along dimension 1 from `i1`, each of `w` elements of dimension 0
from `i0`; elements at or beyond DIMi read 0 (R350, R359). Offsets count `w` × `e` bytes a run. -/
def operandSegs (r : TensorRec) (e i0 w i1 n : Nat) : List (Nat × Nat × Nat) :=
  (List.range n).filterMap fun k =>
    let c := min w (r.dim.getD 0 1 - i0) * e
    if i1 + k < r.dim.getD 1 1 && c ≠ 0 then some (k * w * e, c, r.base + i0 * e + (i1 + k) * r.stride.getD 1 0) else none

/-! ## The entry that the engine is at (R347) -/

/-- A drain held by the consumers of its target: its lines have not been made absent (R362 item 1, R335). -/
def EqEntry.drainHeld (e : EqEntry) : Bool :=
  let busy := fun (d : DrainTo) => match d with
    | .handle _ cleared => !cleared
    | .memory .. => false
  match e.kind with
  | .drain _ d _ o => busy d || (o.map fun (d, _) => busy d).getD false
  | _ => false

/-- The first entry that may proceed: later entries pass a held drain unless they name its bank. -/
def pickEq : List EqEntry → List (Nat × Nat) → Option EqEntry
  | [], _ => none
  | e :: r, held =>
    if e.drainHeld || e.kind.banks.any (fun b => held.contains (e.team, b)) then pickEq r (held ++ e.kind.banks.map fun b => (e.team, b))
    else some e

/-- The entry that a core's engine is at. -/
def State.current (s : State) (core : Nat) : Option EqEntry := pickEq (s.core core).eq []

/-- The B lines of an operation on a handle are present (R355). -/
def State.bReady (s : State) (e : EqEntry) : Bool :=
  match e.kind with
  | .op b =>
    match b.src with
    | .handle h => match s.handleOf e.team h with
      | some x => (rowLines x 0 b.k (64 * s.slotBytes e.team b.bfs)).all fun l => !x.absent.contains l
      | none => true
    | .record _ => true
  | _ => true

/-- An entry is an operation or a share. -/
def EqKind.isOp : EqKind → Bool
  | .op _ => true
  | .share .. => true
  | _ => false

/-- Units of a chunk (R357, R359). -/
def EqEntry.chunkUnits (e : EqEntry) : Nat :=
  match e.kind with
  | .share .. => 32
  | _ => 8

/-- The chunk depth of an operation. -/
def EqEntry.q (e : EqEntry) : Nat :=
  match e.kind with
  | .op b => 8 * b.k / e.need
  | .share _ _ _ k _ _ => 32 * k / e.need
  | _ => 1

/-- What an engine at level `l` does in a clk (R357): a chunk's records, one a clk, after its units; else `l` units, none of
the next chunk while records are due. -/
def EqEntry.work (e : EqEntry) (l : Nat) : EqEntry :=
  match e.list[e.added]? with
  | some (k, _, _) =>
    let limit := e.chunkUnits * (k / e.q + 1)
    if e.units ≥ limit then { e with added := e.added + 1 } else { e with units := min (e.units + l) limit }
  | none => { e with units := min (e.units + l) e.need }

/-- Every unit and every record is done (R357). -/
def EqEntry.done (e : EqEntry) : Bool := decide (e.units ≥ e.need) && decide (e.added ≥ e.list.length)

/-! ## Levels (R258, R259) -/

/-- An engine is busy while it holds an operation that has issued and not completed (R258 item 1). A share of an operation that has not
begun (R359) does not make it busy: DESIGN CHOICE (log 40). -/
def Core.busy (c : Core) : Bool := (c.eq ++ c.due).any fun e => e.kind.isOp && e.begun

/-- The clusters of a zone's list in its order (R259). -/
def State.zoneList (s : State) (z : Nat) : List Nat :=
  let cl := distinct ((s.dev.teams.filter fun t => (t.st == .resident || t.st == .saving) && zoneOf t.core == z).map fun t => t.cluster)
  sortBy (fun c => match s.cluster? c with
    | some x => (((s.grid? x.grid).bind fun g => g.order).getD 0) * 2 ^ 64 + x.idx
    | none => 0) cl

/-- The place of a core's request in a zone's order (R259): its cluster's position counted from RPTR, then its rank. -/
def State.requestKey (s : State) (z core : Nat) : Nat :=
  let l := s.zoneList z
  let team := (((s.core core).eq ++ (s.core core).due).find? fun e => e.kind.isOp && e.begun).bind fun e => s.team? e.team
  match team with
  | some t =>
    let p := l.findIdx (· == t.cluster)
    ((p + l.length - (s.zone z).rptr % max 1 l.length) % max 1 l.length) * 2 ^ 16 + s.rankOf t
  | none => 2 ^ 32

/-- ZSLOPE as it acts (R260). -/
def Zone.slope (z : Zone) : Nat := if z.limit = 0 then 1 else min z.limit 128

/-- A step's decision in a zone (R258). -/
def State.stepZone (s : State) (z : Nat) : State :=
  let cores := (s.dev.cores.map fun (c, _) => c).filter fun c => zoneOf c == z
  let asks := sortBy (s.requestKey z) (sortBy id (cores.filter fun c => (s.core c).busy && (s.core c).level < 8))
  let up := asks.take (s.zone z).slope
  let down := cores.filter fun c => !(s.core c).busy && (s.core c).level > 0
  let s' := up.foldl (fun s c => s.updCore c fun k => { k with level := k.level + 1 }) s
  down.foldl (fun s c => s.updCore c fun k => { k with level := k.level - 1 }) s'

/-- The decision of the step that begins at this clk, once, made of what earlier clk have left (R258, R259). -/
def State.levelStep (s : State) : State :=
  if s.dev.clk % 4 = 0 && s.dev.nextStep ≤ s.dev.clk then
    ((List.range 12).foldl State.stepZone s).onDev fun d => { d with nextStep := d.clk + 1 }
  else s

/-- Event LEVEL_STEP (R258). -/
def execLevelStep (s : State) : Host.Outcome State Fault Refusal := .next s.levelStep

/-- The units that the engines perform in a clk. -/
def State.engineWork (s : State) : State :=
  (s.dev.cores.map fun (c, _) => c).foldl (fun s c =>
    let k := s.core c
    if k.level = 0 then s
    else match s.current c with
      | some e =>
        if e.kind.isOp && e.begun && !e.toRead && !e.done && s.bReady e then s.updEq c e.id fun e => e.work k.level else s
      | none => s) s

/-! ## Completion (R347, R354 to R357, R360, R363) -/

/-- The latch after an operation has read its buffer (R352 items 3 and 5). The entry has left the queue. A reuse that has not got back
the buffer that a save took from it leaves its rows to the owner as those of a save. -/
def State.latchDone (s : State) (core : Nat) (b : Binding) : State :=
  let s := match b.kind, b.buf with
    | some k, some i =>
      if k.source && k.reuse then (s.releaseHeld core).setBuf core i ⟨.held, b.rows⟩
      else if k.source then s.setBuf core i ⟨.free, []⟩
      else
        match (s.core core).buffers[i]? with
        | some x => if x.st == BufState.queued && !(s.core core).bufRead i then s.setBuf core i ⟨.free, []⟩ else s
        | none => s
    | some k, none =>
      if k.source && k.reuse && (s.core core).owner == some b.owner then
        match (s.releaseHeld core).ownerTeam core with
        | some t => (s.releaseHeld core).updTeam t.id fun t => { t with reown := some (b.owner, some b.rows) }
        | none => s
      else s
    | _, _ => s
  s.restoreLatch core

/-- An entry's operation is done (R335, R350): it leaves the queue, and its consumer count and its token fall. -/
def State.opDone (s : State) (core : Nat) (e : EqEntry) (b : Binding) : State :=
  let s := (s.dropEq core e.id).latchDone core b
  let s := match b.src with
    | .handle h => s.consDown e.team h
    | .record _ => s
  s.returnToken e.res 0

/-- The B operand of an operation: its bits by (k, n), or a wait. -/
inductive Operand where
  | bits (f : Nat → Nat → Nat) (fault : Option (BitVec 8 × Nat))
  | wait (s : State)

/-- The B operand fetched (R350, R355). -/
def State.fetchB (s : State) (core : Nat) (g : Group) (e : EqEntry) (b : Binding) : State × Operand :=
  let f := s.slotAt g b.bfs
  let n := f.bytes
  match b.src with
  | .handle h =>
    match s.handleOf e.team h with
    | none => (s, .bits (fun _ _ => 0) none)
    | some x => (s, .bits (fun k j => memElem x.data n (k * x.pitch + j * n)) none)
  | .record va =>
    match s.readTensor core g.ctx e.id g.grid va g.pts e.rx with
    | (s, .wait _, _, far) =>
      let (s, l) := s.askReads g.ctx 0 far
      (s, .wait (s.updEq core e.id fun e => { e with rx := e.rx ++ l }))
    | (s, .fault c v, _, _) => (s, .bits (fun _ _ => 0) (some (c, v)))
    | (s, .ok _, none, _) => (s, .bits (fun _ _ => 0) (some (0x21#8, 0)))
    | (s, .ok _, some r, _) =>
      if r.fs ≠ b.bfs then (s, .bits (fun _ _ => 0) (some (0x21#8, 0)))
      else
        let (s, d) := s.fetchSegs core g.ctx e.id g.pts (operandSegs r n 0 64 0 b.k) e.rx
        if !d.waits.isEmpty then (s, .wait s)
        else if !d.far.isEmpty && e.rx.all (fun p => decide (2 ^ 64 ≤ p.off)) then
          let (s, l) := s.askReads g.ctx 0 d.far
          (s, .wait (s.updEq core e.id fun e => { e with rx := e.rx ++ l }))
        else if e.rx.any fun p => !p.done then (s, .wait s)
        else (s, .bits (fun k j => memElem d.data n (k * 64 * n + j * n)) d.fault)

/-- An operation performed (R354 to R357). -/
def State.performOp (s : State) (core : Nat) (g : Group) (e : EqEntry) (b : Binding) : State :=
  if e.toRead then
    let fb := s.slotAt g b.bfs
    let (s, e) := s.readSide core e g fb e.q b.k b.orow b.ocol 64
    s.updEq core e.id fun _ => e
  else if !e.done || !s.bReady e then s
  else match s.fetchB core g e b with
    | (_, .wait s) => s
    | (s, .bits f fault) =>
      let fa := s.slotAt g b.afs
      let fb := s.slotAt g b.bfs
      let s := s.meetFault e.res fault
      let s := s.updBank e.team b.acc fun x =>
        { x with data := macBank fa fb e.q b.k (latchElem b.rows fa.bytes) f e.list x.data }
      s.opDone core e b

/-- Where the columns of B begin among the bytes fetched for a cluster's operation. -/
def shareCols : Nat := 2 ^ 40

/-- The segments of the operands of a cluster's operation (R359): each row of blocks of A and each column of blocks of B once, for the teams
that take part. -/
def clusterSegs (x y : TensorRec) (ea eb k : Nat) (ranks : List (Nat × Nat)) : List (Nat × Nat × Nat) :=
  let at_ := fun (base : Nat) (l : List (Nat × Nat × Nat)) => l.map fun (o, n, va) => (base + o, n, va)
  ((distinct (ranks.map Prod.snd)).map fun j => at_ (128 * k * ea * j) (operandSegs x ea 0 k (128 * j) 128)).flatten ++
    ((distinct (ranks.map Prod.fst)).map fun i => at_ (shareCols + 128 * k * eb * i) (operandSegs y eb (128 * i) 128 0 k)).flatten

/-- The operands of a cluster's operation fetched for all its shares at once (R359): the same bytes, and the same fault, for each. -/
def State.fetchOp (s : State) (core : Nat) (g : Group) (e : EqEntry) (o : ShareOp) (x y : TensorRec) (k : Nat) : State :=
  let (core, e) := s.opReader core e o.op
  let (s, d) := s.fetchSegs core g.ctx e.id g.pts (clusterSegs x y (s.slotAt g x.fs).bytes (s.slotAt g y.fs).bytes k o.ranks) e.rx
  if !d.waits.isEmpty then s
  else if !d.far.isEmpty && e.rx.all (fun p => decide (2 ^ 64 ≤ p.off)) then s.askFor core g.ctx e d.far
  else if e.rx.any fun p => !p.done then s
  else (s.meetShares o.op d.fault).updShares o.op fun e => { e with share := e.share.map fun z => { z with got := some (d.data, d.fault) } }

/-- A share whose operands are there (R359): the four sub-blocks of the team's output block. -/
def State.shareBanks (s : State) (g : Group) (e : EqEntry) (data : Mem) (x y : TensorRec) (acc k i j : Nat) : State :=
  let fa := s.slotAt g x.fs
  let fb := s.slotAt g y.fs
  (List.range 4).foldl (fun s n =>
    let ai := 128 * j + n / 2 * 64
    let bj := n % 2 * 64
    s.updBank e.team (acc + n) fun z =>
      { z with
        data := macBank fa fb e.q k (fun r c => memElem data fa.bytes (((ai + r) * k + c) * fa.bytes))
          (fun r c => memElem data fb.bytes (shareCols + (128 * k * i + r * 128 + bj + c) * fb.bytes))
          ((e.list.filter fun (_, c, _) => bj ≤ c && c < bj + 64).map fun (r, c, v) => (r, c - bj, v)) z.data }) s

/-- A share of the cluster's operation (R359): performed once the operation's records, list and operands have been read. -/
def State.performShare (s : State) (core : Nat) (g : Group) (e : EqEntry) (acc k i j : Nat) : State :=
  let finish := fun (s : State) => (s.dropEq core e.id).returnToken e.res 0
  match e.share with
  | none => s
  | some o =>
    if e.toRead then s.readOp core g e
    else if !e.done then s
    else match o.recs with
      | none => s
      | some (none, fault) => finish (s.meetFault e.res fault)
      | some (some (x, y), _) =>
        let s := if o.got.isNone then s.fetchOp core g e o x y k else s
        match ((s.opShares o.op).find? fun z => z.2.id == e.id).bind fun z => z.2.share.bind ShareOp.got with
        | none => s
        | some (data, _) => finish (s.shareBanks g e data x y acc k i j)

/-- `ACCLD`'s entry (R363): each thread's registers are written, and its token may return. -/
def State.performAccld (s : State) (core : Nat) (e : EqEntry) (acc : Nat) (ts : List (Nat × Nat)) (reg h c : Nat) : State :=
  let data := (((s.team? e.team).bind fun t => t.bank? acc).map fun b => b.data).getD []
  let s := ts.foldl (fun s (t, r) =>
    (s.updGroup e.grp fun g => wrN g t (.v (BitVec.ofNat 6 reg)) (mgets data (64 * (32 * h + t) + 16 * c) 16)).updPending r fun p =>
      { p with ready := true }) s
  s.dropEq core e.id

/-- `ACCST`'s entry (R363). -/
def State.performAccst (s : State) (core : Nat) (e : EqEntry) (acc h c : Nat) (data : List (Nat × List Word)) : State :=
  (s.updBank e.team acc fun b =>
    { b with data := data.foldl (fun m (t, ws) => msets m (64 * (32 * h + t) + 16 * c) ws) b.data }).dropEq core e.id

/-- The entry that a core's engine is at takes effect, where it can (R347, R357). One whose team has retired, of which nothing is left to
be seen, leaves the queue (R137 item 3, R344). -/
def State.completeEntry (s : State) (core : Nat) : State :=
  match s.current core with
  | none => s
  | some e =>
    match s.group? e.grp with
    | none => s.dropEq core e.id
    | some g =>
      match e.kind with
      | .op b => s.performOp core g e b
      | .share acc _ _ k i j => s.performShare core g e acc k i j
      | .mzero acc => (s.updBank e.team acc fun b => { b with data := [], mode := .unset }).dropEq core e.id
      | .accld acc ts reg h c => s.performAccld core e acc ts reg h c
      | .accst acc h c data => s.performAccst core e acc h c data
      | .drain .. => s

/-- Event MATRIX_OPERATION_COMPLETE (R347, R357). -/
def execMatrixOperationComplete (core : Nat) (s : State) : Host.Outcome State Fault Refusal := .next (s.completeEntry core)

/-! ## Time (R5, R258, R357) -/

/-- What the engines do in a clk that begins: the step's decision, and the units performed (R258, R357). -/
def State.engineClk (s : State) : State := s.levelStep.engineWork

/-! ## Drains (R362) -/

/-- What a drain of a target has gathered: the bytes to write, the slot flags to set, the largest timestamp taken, and the addresses
whose pages it waits for, with the KIND of their requests. -/
structure DrainAcc where
  s : State
  cells : List Host.Cell
  flags : Nat
  ts : Nat
  waits : List (Nat × Nat)

/-- The scale of an element (R81), loaded at a program timestamp. -/
def State.scaleOf (s : State) (core ctx eng pts : Nat) (f : FmtSlot) (row col : Nat) : State × EngRes × Ex :=
  if f.scale ≤ 1 then (s, .ok .nil, f.tensorScale)
  else
    match s.engReadAt (some core) ctx eng (f.scaleref * 64 + 4 * (if f.scale = 2 then row else col)) 4 .table pts with
    | (s, r, b, _) => (s, r, Fmt.decode fp32 (natOfBytes b))

/-- One element of a drain converted (R362): `x` its value, (row, column) in the list's numbering, (r, c) in the target. One that finds its
list full under OVF 2 is written as 0x00 (R84 case 3) or not written (R362 item 4), which two rules disagree on: a free value (log 41). -/
def drainElem (core : Nat) (g : Group) (e : EqEntry) (f : FmtSlot) (d : DrainTo) (a : DrainAcc) (x : Ex) (row col r c : Nat) : DrainAcc :=
  let n := f.bytes
  let bad := fun (s : State) (code : BitVec 8) (va : Nat) => { a with s := s.updPending e.res fun p => p.meet code va }
  let place : State × EngRes × Nat := match d with
    | .memory base pitch _ _ =>
      let va := (base + r * pitch + c * n) % 2 ^ 64
      match a.s.engAccess (some core) g.ctx e.id va .unitWrite with
      | (s, .ok en) => (s, .ok en, en.pa va)
      | (s, x) => (s, x, 0)
    | .handle h _ => (a.s, .ok .nil, ((a.s.handleOf e.team h).map fun z => r * z.pitch + c * n).getD 0)
  match place with
  | (s, .wait p, _) => { a with s := s, waits := a.waits ++ [(p, Access.unitWrite.kind true)] }
  | (s, .fault k va, _) => bad s k va
  | (s, .ok _, off) =>
    match s.scaleOf core g.ctx e.id g.pts f row col with
    | (s, .wait p, _) => { a with s := s, waits := a.waits ++ [(p, Access.table.kind true)] }
    | (s, .fault k va, _) => bad s k va
    | (s, .ok _, sc) =>
      let y := (exMul x sc).1
      let o := f.encode y
      let put := fun (s : State) (b flags t : Nat) =>
        { a with s := s, cells := a.cells ++ cellsAt off (bytesOfNat b n), flags := a.flags ||| flags,
                 ts := max a.ts t }
      match o.out with
      | none => put s o.elem o.flags 0
      | some neg =>
        match s.appendOutlier core g.ctx e.id f row col (roundF32 0#2 y) g.pts with
        | (s, .done t) => put s 0 0 t
        | (s, .full) =>
          if f.ovf = 1 then put s (0x7F + if neg then 128 else 0) (slotFULL + slotSAT) 0
          else
            let a := if Config.fullDrainWritten e.id then put s 0 0 0 else a
            { a with s := s.updPending e.res fun p => p.meet 0x51#8 0, flags := a.flags ||| slotFULL }
        | (s, .fault k va) => bad s k va
        | (s, .wait p) => { a with s := s, waits := a.waits ++ [(p, Access.list.kind true)] }

/-- One target of a drain, in ascending row, then column, of the target (R362); `tr`: the transposed one. -/
def drainTarget (core : Nat) (g : Group) (e : EqEntry) (bank : Bank) (f : FmtSlot) (d : DrainTo) (tr : Bool) (a : DrainAcc) : DrainAcc :=
  let (ro, co) := match d with
    | .memory _ _ ro co => (ro, co)
    | .handle _ _ => (0, 0)
  let a := (List.range 4096).foldl (fun a x =>
    let r := x / 64
    let c := x % 64
    let w := mget bank.data (if tr then 64 * c + r else x)
    let v := if bank.mode = .integer then exOfInt w.toInt 0 false else val32 w
    drainElem core g e f d a v (ro + r) (co + c) r c) { a with flags := 0 }
  let (s, t) := match d with
    | .memory .. => a.s.storeLines g.pts a.cells
    | .handle h _ => a.s.tileStoreLines g.pts e.team h a.cells
  let a := { a with cells := [], ts := max a.ts t }
  match s.orSlotFlags core g.ctx e.id f a.flags g.pts with
  | (s, .wait p, _) => { a with s := s, waits := a.waits ++ [(p, Access.list.kind true)] }
  | (s, .fault k va, _) => { a with s := s.updPending e.res fun p => p.meet k va }
  | (s, .ok _, t) => { a with s := s, ts := max a.ts t }

/-- Event DRAIN_COMPLETE (R362): a drain that may proceed writes its targets; where a page is awaited, it has no effect but
its requests (R278). -/
def execDrainComplete (core entry : Nat) (s : State) : Host.Outcome State Fault Refusal :=
  .next <|
    match (s.core core).eq.find? fun e => e.id == entry with
    | none => s
    | some e =>
      match e.kind, s.group? e.grp, s.team? e.team with
      | .drain acc d fs o, some g, some tm =>
        if s.current core ≠ some e then s
        else match tm.bank? acc with
          | none => s
          | some bank =>
            let a := drainTarget core g e bank (s.slotAt g fs) d false ⟨s, [], 0, 0, []⟩
            let a := match o with
              | some (d2, fs2) => drainTarget core g e bank (s.slotAt g fs2) d2 true a
              | none => a
            if !a.waits.isEmpty then a.waits.foldl (fun s (va, k) => s.requestPage g.ctx (va / 4096) k (some e.id)) s
            else
              let arrive := fun (s : State) (d : DrainTo) (n : Nat) => match d with
                | .handle h _ => match s.handleOf e.team h with
                  | some x => (rowLines x 0 64 (64 * (s.slotAt g n).bytes)).foldl (fun s l => s.linePresent e.team h l) s
                  | none => s
                | .memory .. => s
              let s := arrive a.s d fs
              let s := match o with
                | some (d2, n) => arrive s d2 n
                | none => s
              (s.dropEq core e.id).returnToken e.res a.ts
      | _, _, _ => s

end Sys2Proof.Machine
end

