-- ==== Sys2Proof/Machine/System.lean ====
section
/-! DEFINITION. `MFS`, `MTS`, `CLK` and the registers they reach (R104, R132, R181, R182, R188), and the DEV words (R31). -/

namespace Sys2Proof.Machine

/-- Enabled cores (R31). -/
def Fuses.cores (f : Fuses) : Nat := ((List.range 192).filter fun n => f.coremask.getLsbD n).length

/-- The word of the DEV block at offset 4 n (R31). -/
def Fuses.devWord (f : Fuses) (n : Nat) : Word :=
  if n = 0 then BitVec.ofNat 32 (0x1920 + f.step % 256 * 2 ^ 16)
  else if n = 1 then BitVec.ofNat 32 (f.reeds % 256 + f.hbm.toNat * 2 ^ 8 + f.ports.toNat * 2 ^ 16 + f.cores % 256 * 2 ^ 24)
  else if n = 2 then BitVec.ofNat 32 (64 + 32 * 2 ^ 8 + 64 * 2 ^ 16)
  else if n = 3 then 48#32
  else if 4 ≤ n && n < 10 then f.coremask.extractLsb' (32 * (n - 4)) 32
  else if 12 ≤ n && n < 18 then f.l2mask.extractLsb' (32 * (n - 12)) 32
  else 0#32

/-- The special registers of a context (R104). -/
def State.ctxReg (s : State) (ctx n : Nat) : Word :=
  match s.ctx? ctx with
  | none => 0#32
  | some c =>
    if n = 0x20 then BitVec.ofNat 32 (ctx % 4096)
    else if n = 0x21 then BitVec.ofNat 32 (s.gen ctx % 2 ^ 20)
    else if n = 0x22 then BitVec.ofNat 32 (c.e.prio % 16)
    else if n = 0x23 then BitVec.ofNat 32 (c.e.domain % 4096)
    else BitVec.ofNat 32 (c.e.asn % 65536)

/-- A group launched by the Sheng (R132, R372). -/
def GridSrc.isBin : GridSrc → Bool
  | .bin _ _ => true
  | .packet _ _ _ => false

/-- The launch special registers (R132); `low` is the thread read for HOMETHR. -/
def State.launchReg (s : State) (g : Group) (low n : Nat) : Word :=
  match s.grid? g.grid, s.team? g.team with
  | some gr, some tm =>
    let bin := gr.src.isBin
    let c := (s.cluster? tm.cluster).getD ⟨0, 0, 0, 0, 0, 0, .placed, 0, 0, [], []⟩
    let r := BitVec.ofNat 32
    if n = 0x30 then r gr.lr.codebase
    else if n = 0x31 then r (gr.lr.codebase / 2 ^ 32)
    else if n = 0x32 then r gr.args
    else if n = 0x33 then r (gr.args / 2 ^ 32)
    else if n = 0x34 then (if bin then 0#32 else r c.cx)
    else if n = 0x35 then (if bin then 0#32 else r c.cy)
    else if n = 0x36 then (if bin then 0#32 else r c.cz)
    else if n = 0x37 then (if bin then 0#32 else r tm.ri)
    else if n = 0x38 then (if bin then 0#32 else r tm.rj)
    else if n = 0x39 then (if bin then 0#32 else r g.slot)
    else if n = 0x3A then (if bin then 1#32 else r gr.lr.teamGroups)
    else if n = 0x3B then r g.core
    else if n = 0x3C then r low
    else if n = 0x3D then (if bin then 1#32 else r gr.lr.gx)
    else if n = 0x3E then (if bin then 1#32 else r gr.lr.gy)
    else (if bin then 1#32 else r gr.lr.gz)
  | _, _ => 0#32

/-- The value of a special register for a thread; `none` for a number that no table lists (R182). -/
def State.sysReg (s : State) (g : Group) (low : Nat) (th : Thread) (n : Nat) : Option Word :=
  let x := fun (w : Word) => if th.inTrap then w else 0#32
  if n = 0x10 then some (th.fpflags.zeroExtend 32)
  else if n = 0x11 then some (th.fptraps.zeroExtend 32)
  else if 0x20 ≤ n && n ≤ 0x24 then some (s.ctxReg g.ctx n)
  else if 0x30 ≤ n && n ≤ 0x3F then some (s.launchReg g low n)
  else if n = 0x40 then some (x th.xpc)
  else if n = 0x41 then some (x th.xcode)
  else if n = 0x42 then some (x th.xunit)
  else if n = 0x43 then some (th.xva.extractLsb' 0 32)
  else if n = 0x44 then some (th.xva.extractLsb' 32 32)
  else if n = 0x50 then some (if th.helper then 1#32 else 0#32)
  else if 0x60 ≤ n && n ≤ 0x71 then some (s.fuse.devWord (n - 0x60))
  else none

/-- `MFS` (R181): uniform with a g destination, where HOMETHR is the lowest home thread of the stream (R132), and another
per-thread register is the first streamed thread's: DEDUCED (log 13). -/
def execMfs (d : Opnd) (num : BitVec 10) (s : State) : Host.Outcome State Fault Refusal :=
  let one := fun (g : Group) (t : Nat) (th : Thread) => match s.sysReg g t th num.toNat with
    | some w => GRes.ok (wr g t d w)
    | none => .fault 0x01#8
  if d.isG then s.regsUniform fun _ g t th => one g t th else s.regsUnit fun _ g t th => one g t th

/-- `MTS` (R181, R182): FPFLAGS, FPTRAPS, and XPC inside the handler; a number not marked RW is an illegal instruction. -/
def execMts (num : BitVec 10) (a : Opnd) (s : State) : Host.Outcome State Fault Refusal :=
  s.regsUnit fun _ g t th =>
    let w := rd g th a
    if num = 0x10#10 then .ok (g.updThread t fun x => { x with fpflags := w.extractLsb' 0 6 })
    else if num = 0x11#10 then .ok (g.updThread t fun x => { x with fptraps := w.extractLsb' 0 2 })
    else if num = 0x40#10 then .ok (g.updThread t fun x => if x.inTrap then { x with xpc := w } else x)
    else .fault 0x01#8

/-- The place of a thread among those that execute a unit: the clk at which it is streamed after the first (R144). -/
def placeIn (st : Stream) (g : Group) (t : Nat) : Nat :=
  ((st.threads.filter fun u => (g.thread? u).any (predOn st)).takeWhile (· ≠ t)).length

/-- `CLK` (R181): the clk since reset as the thread is streamed; uniform with a g pair. -/
def execClk (d : Opnd) (s : State) : Host.Outcome State Fault Refusal :=
  if d.isG then s.regsUniform fun _ g t _ => .ok (wrN g t d (words64 (BitVec.ofNat 64 s.dev.clk)))
  else s.regsUnit fun st g t _ => .ok (wrN g t d (words64 (BitVec.ofNat 64 (s.dev.clk + placeIn st g t))))

end Sys2Proof.Machine
end

