-- ==== Sys2Proof/Machine/Launch.lean ====
section
/-! DEFINITION. Launch records (R122 to R125), placement (R126 to R131), the argument window (R169), saving and resuming
teams (R133 to R136, R158, R159, R236, R292, R316, R339, R345). -/

namespace Sys2Proof.Machine

/-! ## Launch records -/

/-- A little-endian field of bytes. -/
def fld (b : List Byte) (off n : Nat) : Nat := natOfBytes ((b.drop off).take n)

/-- All the bytes of a range are zero. -/
def zeros (b : List Byte) (off n : Nat) : Bool := ((b.drop off).take n).all (· == 0#8)

/-- A launch record from its 256 bytes (R122), its declarations still unread. -/
def launchOf (b : List Byte) : LaunchRec :=
  { codebase := fld b 0x00 8, ovtable := fld b 0x08 8, ovcount := fld b 0x10 4, entry := BitVec.ofNat 32 (fld b 0x14 4),
    entryov := fld b 0x18 2, prio := fld b 0x1A 1, flags := fld b 0x1B 1, regs := fld b 0x1C 1, teamGroups := fld b 0x1D 1,
    clw := fld b 0x1E 1, clh := fld b 0x1F 1, gx := fld b 0x20 4, gy := fld b 0x24 4, gz := fld b 0x28 4,
    handles := fld b 0x2C 2, tdcount := fld b 0x2E 1, tlines := fld b 0x30 4, roles := BitVec.ofNat 64 (fld b 0x38 8),
    args := fld b 0x40 8, tdtable := fld b 0x48 8, trapimg := fld b 0x50 8, trapov := fld b 0x58 2,
    trapentry := BitVec.ofNat 32 (fld b 0x5C 4),
    resvZero := zeros b 0x2F 1 && zeros b 0x34 4 && zeros b 0x5A 2 && zeros b 0x60 32,
    fs := (List.range 8).map fun n => fmtSlotOf ((b.drop (0x80 + 16 * n)).take 16), decls := [] }

/-- A handle declaration from its 8 bytes (R124). -/
def declOf (b : List Byte) : Decl :=
  let x := fld b 0 8
  { h := field x 7 0, level := field x 9 8, resv := field x 15 10, rowb := field x 31 16, rows := field x 63 32 }

/-- The role of a group slot (R122). -/
def LaunchRec.role (r : LaunchRec) (s : Nat) : Nat := (r.roles.extractLsb' (2 * s) 2).toNat

/-- RESTART and COOP of FLAGS (R122). -/
def LaunchRec.restart (r : LaunchRec) : Bool := r.flags % 2 == 1
def LaunchRec.coop (r : LaunchRec) : Bool := r.flags / 2 % 2 == 1

/-- Clusters of a grid (R127). -/
def LaunchRec.clusters (r : LaunchRec) : Nat := r.gx * r.gy * r.gz

/-- R125 items 1 and 2. -/
def LaunchRec.inRange (r : LaunchRec) : Bool :=
  r.resvZero && r.codebase % 4096 == 0 && r.ovtable % 64 == 0 && decide (1 ≤ r.ovcount ∧ r.ovcount ≤ 4096) &&
  r.entry.toNat % 4 == 0 && decide (r.entryov ≤ 4095) && decide (r.prio ≤ 15) && decide (r.flags ≤ 3) &&
  decide (8 ≤ r.regs ∧ r.regs ≤ 64) && r.regs % 8 == 0 && decide (1 ≤ r.teamGroups ∧ r.teamGroups ≤ 32) &&
  decide (1 ≤ r.clw ∧ r.clw ≤ 4) && decide (1 ≤ r.clh ∧ r.clh ≤ 4) &&
  [r.gx, r.gy, r.gz].all (fun n => decide (1 ≤ n ∧ n ≤ 65535)) && decide (r.handles ≤ 256) && decide (r.tdcount ≤ 16) &&
  decide (r.tlines ≤ 8192) && r.tdtable % 8 == 0 && (r.tdcount != 0 || r.tdtable == 0) && decide (r.trapov ≤ 4095) &&
  r.trapentry.toNat % 4 == 0

/-- R125 item 4. -/
def LaunchRec.rolesOk (r : LaunchRec) : Bool :=
  (List.range 32).all fun s => if s < r.teamGroups then r.role s != 3 else r.role s == 0

/-- R125 item 6, and the ranges of R124, outside which the record is refused: DESIGN CHOICE (log 42). -/
def LaunchRec.declsOk (r : LaunchRec) : Bool :=
  r.decls.all (fun d => d.resv == 0 && d.level != 3 && decide (1 ≤ d.rowb ∧ d.rowb ≤ 4096) && decide (1 ≤ d.rows)) &&
  decide ((distinct (r.decls.map fun d => d.h)).length = r.decls.length) && decide (r.decls.length ≤ r.handles) &&
  decide ((((r.decls.filter fun d => d.level == 0).map fun d => linesOfShape d.rows d.rowb).sum) ≤ r.tlines)

/-! ## What a core holds, and whether it accepts a team (R128) -/

/-- What placement has reserved on a core: teams, groups (reed, resident index, register words), tile lines, entries. -/
structure Occ where
  teams : Nat
  seats : List (Nat × Nat × Nat)
  lines : Nat
  entries : Nat
deriving DecidableEq, Repr

def Occ.empty : Occ := ⟨0, [], 0, 0⟩

/-- Register words of a group (R128). -/
def LaunchRec.words (r : LaunchRec) : Nat := 32 * r.regs

/-- What a core holds. -/
def State.occ (s : State) (core : Nat) : Occ :=
  let ts := s.teamsOn core
  let lr := fun (t : Team) => (s.grid? t.grid).map fun g => g.lr
  { teams := ts.length
    seats := (ts.map fun t => (s.groupsOf t.id).map fun g => (g.reed, g.rslot, ((lr t).map LaunchRec.words).getD 0)).flatten
    lines := (ts.map fun t => ((lr t).map fun r => r.tlines).getD 0).sum
    entries := (ts.map fun t => ((lr t).map fun r => r.handles).getD 0).sum }

/-- The lowest reed with room for a group of `w` words, and the lowest resident index free there (R128 rule 2). -/
def seatOne (reeds w : Nat) (l : List (Nat × Nat × Nat)) : Option (Nat × Nat) :=
  (List.range reeds).findSome? fun r =>
    let here := l.filter fun x => x.1 == r
    if here.length < 4 && (here.map fun x => x.2.2).sum + w ≤ 2048 then
      ((List.range 4).find? fun i => !(here.any fun x => x.2.1 == i)).map fun i => (r, i)
    else none

/-- Seats for `n` groups, slot by slot. -/
def seatAll (reeds w : Nat) : Nat → List (Nat × Nat × Nat) → Option (List (Nat × Nat) × List (Nat × Nat × Nat))
  | 0, l => some ([], l)
  | n + 1, l =>
    match seatOne reeds w l with
    | none => none
    | some (r, i) => (seatAll reeds w n (l ++ [(r, i, w)])).map fun (p, l) => ((r, i) :: p, l)

/-- A core with these reservations accepts one more team (R128 rules 1 to 4): its groups' seats and the new reservations. -/
def Occ.accept (o : Occ) (reeds : Nat) (r : LaunchRec) : Option (List (Nat × Nat) × Occ) :=
  if o.teams < 32 && o.lines + r.tlines ≤ 8192 && o.entries + r.handles ≤ 1024 then
    (seatAll reeds r.words r.teamGroups o.seats).map fun (p, l) => (p, ⟨o.teams + 1, l, o.lines + r.tlines, o.entries + r.handles⟩)
  else none

/-! ## Rectangles (R127, R131) -/

/-- The cores of a rectangle in ascending rank. -/
def rectCores (o w h : Nat) : List Nat := ((List.range h).map fun j => (List.range w).map fun i => o + 16 * j + i).flatten

/-- The rectangle is acceptable (R127). -/
def State.rectOk (s : State) (o w h : Nat) : Bool :=
  decide (coreX o + w ≤ 16) && decide (coreY o + h ≤ 12) && coreX o / 8 == (coreX o + w - 1) / 8 &&
  (rectCores o w h).all s.coreOn

/-- A core's zone, Sheng and rasteriser may be used (R433). -/
def State.coreReady (s : State) (c : Nat) : Bool :=
  s.zoneReady (zoneOf c) && s.shengReady c && s.dev.die.rastRdy.getLsbD c && s.notFresh 5 c

/-- A cluster's place: its origin and, in rank order, each core with its groups' seats. -/
structure Spot where
  origin : Nat
  cores : List (Nat × List (Nat × Nat))
deriving DecidableEq, Repr

/-- Every core of a rectangle accepts its team, if it has one to take, by rank (R128, R135): `ok` of the core and the rank. -/
def State.spotAt (s : State) (r : LaunchRec) (occ : Nat → Occ) (ok : Nat → Nat → Bool) (o : Nat) (has : Nat → Bool := fun _ => true) :
    Option (Spot × List (Nat × Occ)) :=
  if !s.rectOk o r.clw r.clh then none
  else
    let cs := rectCores o r.clw r.clh
    let l := (cs.zip (List.range cs.length)).filterMap fun (c, k) =>
      if !has k then some (c, [], occ c)
      else if ok c k then ((occ c).accept s.fuse.reeds r).map fun (p, n) => (c, p, n) else none
    if l.length = cs.length then some (⟨o, l.map fun (c, p, _) => (c, p)⟩, l.map fun (c, _, n) => (c, n)) else none

/-- The first acceptable rectangle from the pointer on (R131 items 2 and 3). -/
def State.findSpot (s : State) (r : LaunchRec) (occ : Nat → Occ) (ok : Nat → Nat → Bool) (ptr : Nat) (has : Nat → Bool := fun _ => true) :
    Option (Spot × List (Nat × Occ)) :=
  (List.range 192).findSome? fun k => s.spotAt r occ ok ((ptr + k) % 192) has

/-- The pointer after a placement (R131 item 3). -/
def nextPtr (o clw : Nat) : Nat := (o + clw) % 192

/-- `n` clusters placed one after another over reservations `base` (R131): their places and the pointer after. -/
def State.findSpots (s : State) (r : LaunchRec) (base : Nat → Occ) (ok : Nat → Nat → Bool) :
    Nat → Nat → List (Nat × Occ) → Option (List Spot × Nat)
  | 0, ptr, _ => some ([], ptr)
  | n + 1, ptr, m =>
    match s.findSpot r (fun c => (assoc m c).getD (base c)) ok ptr with
    | none => none
    | some (sp, l) =>
      (s.findSpots r base ok n (nextPtr sp.origin r.clw) (l.foldl (fun m (c, o) => assocSet m c o) m)).map fun (sps, p) => (sp :: sps, p)

/-! ## Save reservations and quotas (R97, R130) -/

/-- Bytes of the save area that a team reserves (R130). -/
def LaunchRec.saveBytes (r : LaunchRec) (qacc : Nat) : Nat :=
  4096 + r.teamGroups * (1024 + 128 * r.regs) + (if r.restart then 0 else 128 * r.tlines) +
  (if (List.range r.teamGroups).any fun k => r.role k == 1 then 16384 * (if qacc = 0 then 32 else qacc) else 0)

/-- Bytes of its save area that a context's unretired teams reserve. -/
def State.saveUsed (s : State) (ctx : Nat) : Nat :=
  ((s.dev.teams.filter fun t => t.ctx == ctx && t.st != .retired).map fun t =>
    ((s.grid? t.grid).map fun g => g.lr.saveBytes (s.qacc ctx)).getD 0).sum

/-- Resident teams of a context (R92, R97). -/
def State.teamCount (s : State) (ctx : Nat) : Nat :=
  (s.dev.teams.filter fun t => t.ctx == ctx && (t.st == .resident || t.st == .saving)).length

/-- TEAMS of a context's entry (R92). -/
def State.writeTeams (s : State) (ctx : Nat) : State := s.writeCount ctx 0x58 (s.teamCount ctx)

/-- The quota of teams admits `n` more, and the save area `save` more bytes (R97 item 1, R128 rule 5). -/
def State.quotaOk (s : State) (ctx n save : Nat) : Bool :=
  match s.ctx? ctx with
  | none => false
  | some c => (c.e.qteams = 0 || decide (s.teamCount ctx + n ≤ c.e.qteams)) && decide (s.saveUsed ctx + save ≤ c.e.savesize)

/-- R125, apart from item 11: the record is not refused. -/
def State.recordOk (s : State) (ctx : Nat) (r : LaunchRec) : Bool :=
  match s.ctx? ctx with
  | none => false
  | some c =>
    let save := r.saveBytes c.e.qacc
    let per := r.clw * r.clh
    r.inRange && decide (r.clusters ≤ 2 ^ 24) && r.rolesOk && r.fs.all FmtSlot.valid && r.declsOk &&
    (Occ.empty.accept s.fuse.reeds r).isSome && (List.range 192).any (fun o => s.rectOk o r.clw r.clh) &&
    (!r.coop || (decide (r.clusters ≤ 6144) && (s.findSpots r (fun _ => .empty) (fun _ _ => true) r.clusters 0 []).isSome &&
      (c.e.qteams = 0 || decide (r.clusters * per ≤ c.e.qteams)) && decide (r.clusters * per * save ≤ c.e.savesize))) &&
    decide (save ≤ c.e.savesize)

/-- The declarations of a record read by C-type loads (R125 item 11), for engine operation `eng`. -/
def State.readDecls (s : State) (ctx eng : Nat) (r : LaunchRec) : State × EngRes × LaunchRec :=
  match s.engRead none ctx eng r.tdtable (8 * r.tdcount) .load with
  | (s, x, b) => (s, x, { r with decls := (List.range r.tdcount).map fun i => declOf ((b.drop (8 * i)).take 8) })

/-! ## A team's initial state (R126) -/

/-- A thread at its group's placement. -/
def Thread.fresh (entry : Word) (clk : Nat) : Thread :=
  { vpc := entry, copy := 0, start := 0, ov := (0, 0), v := [], p := 0#7, ended := false, helper := false, wait := none, park := none, parkKey := 0,
    due := none, kept := none, bad := none, froze := none, async := [], inTrap := false, trapPending := false, xpc := 0#32, xcode := 0#32, xunit := 0#32, xva := 0#64,
    fpflags := 0#6, fptraps := 0#2, noBreak := false, lastStreamed := clk, pixel := none }

/-- The role of a number (R122). -/
def roleOf (n : Nat) : Role := if n = 1 then .matrix else if n = 2 then .copy else .vector

/-- A group at its placement. -/
def freshGroup (id : Nat) (gr : Grid) (team slot core reed rslot pts clk : Nat) : Group :=
  { id := id, ctx := gr.ctx, grid := gr.id, team := team, slot := slot, role := roleOf (gr.lr.role slot), core := core,
    reed := reed, rslot := rslot, prio := gr.prio, threads := List.replicate 32 (Thread.fresh gr.lr.entry clk), g := [],
    sb := List.replicate 8 0, tokTs := List.replicate 8 0, sq := [], left := 0, pts := pts, rb := List.replicate 16 none, subs := [],
    rstack := [], pauseEnd := 0, park := .none, hold := none, remote := 0, eligibleAt := clk, lastIssue := clk,
    fromBin := none, ended := false }

/-- A team at its placement. -/
def freshTeam (id : Nat) (gr : Grid) (cluster ri rj core : Nat) : Team :=
  { id := id, ctx := gr.ctx, grid := gr.id, cluster := cluster, ri := ri, rj := rj, core := core, st := .resident,
    handles := [], window := none, ot := List.replicate 16 .free, tb := List.replicate 8 ⟨none, false, 0⟩,
    rings := List.replicate 16 ⟨none, 0#8, []⟩, cv := List.replicate 16 .free, banks := [], reown := none, keys := [], save := [] }

/-- The declared handles allocated as `TALLOC` would (R124); one that cannot be raises tile handle (0x20) at home thread 0
of slot 0 at its first unit (R319). -/
def State.allocDecls (s : State) (gr : Grid) (team first : Nat) : State :=
  gr.lr.decls.foldl (fun s d =>
    match s.allocHandle team d.h d.rows d.rowb d.level with
    | some s => s
    | none => s.updThread first 0 fun t => { t with due := some ⟨0x20#8, 0#10, 0#32, 0#64⟩ }) s

/-- A team placed on a core, its groups on their seats (R126, R128). -/
def State.placeTeam (s : State) (gr : Grid) (cluster ri rj core : Nat) (seats : List (Nat × Nat)) : State :=
  let (tid, s) := s.fresh
  let first := s.dev.nextId
  let gs := (seats.zip (List.range seats.length)).map fun ((reed, rslot), k) =>
    freshGroup (first + k) gr tid k core reed rslot s.topTs s.dev.clk
  let s := s.onDev fun d => { d with nextId := d.nextId + seats.length, teams := d.teams ++ [freshTeam tid gr cluster ri rj core],
                                     groups := d.groups ++ gs }
  s.allocDecls gr tid first

/-- A cluster placed (R127, R131, R138); its declared handles are allocated team by team in ascending rank: DESIGN CHOICE (log 43). -/
def State.placeCluster (s : State) (gid : Nat) (sp : Spot) : State :=
  match s.grid? gid with
  | none => s
  | some gr =>
    let (cid, s) := s.fresh
    let n := gr.nextCl
    let cl : Cluster :=
      { id := cid, grid := gid, cx := n % gr.lr.gx, cy := n / gr.lr.gx % gr.lr.gy, cz := n / (gr.lr.gx * gr.lr.gy), idx := n,
        st := .placed, origin := sp.origin, placedAt := s.dev.clk, cb := List.replicate 4 ⟨none, false, 0⟩, mmac := [] }
    let s := s.onDev fun d => { d with clusters := d.clusters ++ [cl], nextOrder := if gr.order.isNone then d.nextOrder + 1 else d.nextOrder,
                                       placePtr := nextPtr sp.origin gr.lr.clw }
    let s := s.updGrid gid fun g => { g with nextCl := n + 1, st := if g.st = .launched then .running else g.st,
                                             order := match g.order with
                                               | some o => some o
                                               | none => some (s.dev.nextOrder - 1) }
    (sp.cores.zip (List.range sp.cores.length)).foldl (fun s ((core, seats), k) =>
      s.placeTeam gr cid (k % gr.lr.clw) (k / gr.lr.clw) core seats) s

/-- The grid's teams may be placed or restored: its context is ACTIVE and its queue is not PREEMPTED (R98, R120). No row of R120
restores the saved teams of a PREEMPTED queue that then freezes: they are restored while it is FROZEN: DESIGN CHOICE (log 40). -/
def State.mayRun (s : State) (gr : Grid) : Bool :=
  match s.ctx? gr.ctx with
  | none => false
  | some c => c.st == .active && match gr.src with
    | .packet _ q _ => ((c.queue? q).map fun q => q.st != .preempted).getD false
    | .bin _ _ => true

/-- The clusters that a grid places together next: all of a cooperative grid, else one (R127). -/
def Grid.batch (gr : Grid) : Nat := if gr.lr.coop then gr.lr.clusters - gr.nextCl else 1

/-- The places of a grid's next clusters, where every core accepts its team now. -/
def State.planGrid (s : State) (gr : Grid) : Option (List Spot) :=
  let n := gr.batch
  if !s.mayRun gr || decide (gr.nextCl ≥ gr.lr.clusters) || gr.src.isBin
      || !s.quotaOk gr.ctx (n * gr.lr.clw * gr.lr.clh) (n * gr.lr.clw * gr.lr.clh * gr.lr.saveBytes (s.qacc gr.ctx)) then none
  else (s.findSpots gr.lr s.occ (fun c _ => s.coreReady c) n s.dev.placePtr []).map fun (l, _) => l

/-- Event TEAM_PLACE (R131): the next pending cluster of a grid is placed, or all of a cooperative grid (R127). -/
def execTeamPlace (grid : Nat) (s : State) : Host.Outcome State Fault Refusal :=
  .next <|
    match s.grid? grid with
    | none => s
    | some gr =>
      match s.planGrid gr with
      | none => s
      | some sps => (sps.foldl (fun s sp => s.placeCluster grid sp) s).writeTeams gr.ctx

/-! ## The argument window (R169) -/

/-- A word of the window from the pages read: each page's first address and its bytes or code. -/
def windowWord (ps : List (Nat × Nat × Except (BitVec 8) (List Byte))) (a : Nat) : WinWord :=
  let byte : Nat → Except (BitVec 8) Byte := fun x => match ps.find? fun (v, n, _) => decide (v ≤ x ∧ x < v + n) with
    | some (v, _, .ok b) => .ok (b.getD (x - v) 0#8)
    | some (_, _, .error c) => .error c
    | none => .error 0x11#8
  let all : Except (BitVec 8) (List Byte) := (List.range 4).foldl (fun acc i => match acc, byte (a + i) with
    | .ok l, .ok b => .ok (l ++ [b])
    | .ok _, .error c => .error c
    | e, _ => e) (.ok [])
  match all with
  | .ok l => .ok (BitVec.ofNat 32 (natOfBytes l))
  | .error c => .bad c

/-- Event ARGUMENT_WINDOW_LOAD (R169 items 1, 2 and 4): the 1024 bytes at the team's argument pointer, page by page; the
team does not issue while a page's answer is awaited. -/
def execArgumentWindowLoad (team : Nat) (s : State) : Host.Outcome State Fault Refusal :=
  .next <|
    match s.team? team with
    | none => s
    | some t =>
      match s.grid? t.grid with
      | none => s
      | some gr =>
        if t.window.isSome || !s.residentTeam team then s
        else
          let pts := (s.groupsOf team).foldl (fun p g => max p g.pts) 0
          let (s, ps, wait) := (pagesOf gr.args 1024).foldl (fun (acc : State × List (Nat × Nat × Except (BitVec 8) (List Byte)) × Bool) v =>
            let (s, l, w) := acc
            let n := min (gr.args + 1024) ((v / 4096 + 1) * 4096) - v
            match s.engRange (some t.core) t.ctx team v n .load with
            | (s, .ok _, ps) =>
              let (s, b) := ps.foldl (fun (acc : State × List Byte) (pa, len, e) =>
                let (s, b, _) := acc.1.homeLoad pts pa len
                (s, acc.2 ++ overlay pa b (if e.typ = 1 then s.gathered t.core pa len else []))) (s, [])
              (s, l ++ [(v, n, .ok b)], w)
            | (s, .fault c _, _) => (s, l ++ [(v, n, .error c)], w)
            | (s, .wait _, _) => (s, l, true)) (s, [], false)
          if wait then s
          else (s.endEng team).updTeam team fun t =>
            { t with window := some ((List.range 256).map fun i => windowWord ps (gr.args + 4 * i)) }

/-! ## Commands that end when teams are saved (R101, R119) -/

/-- A command register's block after its command has ended. -/
def CmdRegs.finish (r : CmdRegs) (result : Nat) : CmdRegs := { r with busy := false, result := result, refusedBusy := false, run := none }

/-- Every team of a context, or of the packets of one of its queues, has been saved or has retired. -/
def State.allSaved (s : State) (ctx : Nat) (queue : Option Nat) : Bool :=
  s.dev.teams.all fun t => t.ctx != ctx || (t.st != .resident && t.st != .saving) || match queue with
    | none => false
    | some q => match (s.grid? t.grid).map Grid.src with
      | some (.packet _ x _) => x != q
      | _ => true

/-- `SUSPEND` (3) of the CTX block and `PREEMPT` (2) of the QUEUE block end when their teams are saved. -/
def State.finishCmds (s : State) : State :=
  let s := match s.dev.ctxRegs.run with
    | some (3, c, _) => if s.allSaved c none then s.onDev fun d => { d with ctxRegs := d.ctxRegs.finish 0 } else s
    | _ => s
  match s.dev.queueRegs.run with
  | some (2, c, q) => if s.allSaved c (some q) then s.onDev fun d => { d with queueRegs := d.queueRegs.finish 0 } else s
  | _ => s

/-! ## Saving a team (R133, R134, R292, R316, R339, R345) -/

/-- A stream of one of a team's groups is on a reed. -/
def State.issuing (s : State) (team : Nat) : Bool :=
  s.dev.streams.any fun x => ((s.group? x.grp).map fun g => g.team == team).getD false

/-- Results of a team's groups. -/
def State.teamResults (s : State) (team : Nat) : List Pending :=
  s.dev.results.filter fun r => ((s.group? r.grp).map fun g => g.team == team).getD false

/-- The link results addressed to a team's core: those that no forwarding entry of an earlier core holds (R134). -/
def State.linkResults (s : State) (team : Nat) : List Nat :=
  (((s.teamResults team).filter fun r => r.kind.isRemote).map fun r => r.id).filter fun i => !(s.dev.fwds.any fun f => f.res.contains i)

/-- Copy lines or link results addressed to a team are in flight to a core (R134). -/
def State.inFlight (s : State) (core team : Nat) : Bool :=
  (s.core core).cmds.any (fun k => k.team == team) || !(s.linkResults team).isEmpty

/-- A link result has come: of those that a forwarding entry holds, the last to come is the last of the list (R134 item 5). -/
def State.arrived (s : State) (id : Nat) : State :=
  s.onDev fun d => { d with fwds := updIf (fun f => f.res.contains id) (fun f => { f with res := f.res.filter (· ≠ id) ++ [id] }) d.fwds }

/-- The combining-buffer lines of a team's groups enter their store queues, while these have room (R316), for no thread: no `WCFLUSH`
gave them (R315). -/
def State.flushTeam (s : State) (t : Team) : State :=
  (s.groupsOf t.id).foldl (fun s g => s.enterLines t.core g.id 32 (s.linesHeld t.core g.id (List.range 32))) s

/-- The save can complete (R133, R292, R316, R345). -/
def State.saveDone (s : State) (t : Team) : Bool :=
  !s.issuing t.id && (s.teamResults t.id).all (fun r => !r.kind.saveWaits) &&
  (s.groupsOf t.id).all (fun g => g.left == 0 && (s.linesHeld t.core g.id (List.range 32)).isEmpty) &&
  !((s.core t.core).eq ++ (s.core t.core).due).any (fun e => e.team == t.id) &&
  (!s.inFlight t.core t.id || decide ((s.dev.fwds.filter fun f => f.core == t.core).length < 32))

/-- What a save records of a copy used through a binding (R236); of one of the context's, where that is gone. -/
def Copy.key (k : Copy) (ctx : Nat) (b : Option Bind) : CopyKey :=
  match b <|> k.binds.find? fun b => b.ctx == ctx with
  | some b => ⟨b.id, b.gen, b.start, k.slots, b.image, k.digest, b.share, b.stale⟩
  | none => ⟨k.ident, k.gen, k.start, k.slots, 0, k.digest, k.share, true⟩

/-- What a save records of a reference of a team (R236): of a copy on its core, through a binding; or what is recorded of it already;
or the overlay of a fetch under way. -/
def State.keyOf (s : State) (t : Team) (copy : Nat) (b : Option Bind) : Option CopyKey :=
  match (s.core t.core).copy? copy with
  | some k => some (k.key t.ctx b)
  | none => match assoc t.keys copy with
    | some k => some k
    | none => ((s.core t.core).fetches.find? fun f => f.id == copy).map fun f => f.key.getD ⟨f.ident, 0, 0, 0, f.image, [], false, false⟩

/-- The binding that a return entry records (R164). -/
def State.retBind (s : State) (t : Team) (e : RetEntry) : Option Bind :=
  ((s.core t.core).copy? e.copy).bind fun k =>
    k.binds.find? fun b => b.ctx == t.ctx && b.id == e.ident && b.gen == e.gen && b.start == e.start

/-- The binding of a residency token (R221). -/
def State.tokBind (s : State) (t : Team) (id copy gen start : Nat) : Option Bind :=
  ((s.core t.core).copy? copy).bind fun k => k.binds.find? fun b => b.ctx == t.ctx && b.id == id && b.gen == gen && b.start == start

/-- What a save records of each kind of reference. -/
def State.threadKey (s : State) (t : Team) (g : Group) (th : Thread) : Option CopyKey :=
  if th.ended || th.copy = 0 then none else s.keyOf t th.copy (s.bindOf g th)
def State.retKey (s : State) (t : Team) (e : RetEntry) : Option CopyKey := s.keyOf t e.copy (s.retBind t e)
def State.tokKey (s : State) (t : Team) (o : OtTok) : Option CopyKey :=
  match o with
  | .loading _ c _ => s.keyOf t c none
  | .held i c g a _ => s.keyOf t c (s.tokBind t i c g a)
  | _ => none
def State.parkRef (s : State) (t : Team) (o : ParkObj) : Option CopyKey :=
  match o with
  | .copy c => s.keyOf t c none
  | _ => none

/-- The overlay references of a team at its save, without repeats, each with a fresh identity (R236). -/
def State.saveKeys (s : State) (t : Team) : List (Nat × CopyKey) :=
  let gs := s.groupsOf t.id
  let l := distinct ((gs.map fun g => g.threads.filterMap (s.threadKey t g)).flatten ++ (gs.map fun g => g.rstack.filterMap (s.retKey t)).flatten ++
    t.ot.filterMap (s.tokKey t) ++ (gs.map fun g => g.subs.filterMap (s.parkRef t)).flatten)
  l.zipIdx.map fun (k, i) => (s.dev.nextId + i, k)

/-- The identity that a key is recorded under. -/
def keyId (m : List (Nat × CopyKey)) (k : Option CopyKey) : Nat := (k.bind fun k => (m.find? fun x => x.2 == k).map Prod.fst).getD 0

/-- A token's copy renamed at its team's save. -/
def OtTok.atSave (o : OtTok) (n : Nat) : OtTok :=
  match o with
  | .loading i _ w => .loading i n w
  | .held i _ g a w => .held i n g a w
  | o => o

/-- A token at its team's resumption: HELD where its copy, `n`, is on the core, through binding `b`, else LOADING (R236 item 3). -/
def OtTok.atResume (o : OtTok) (n : Nat) (b : Option (Nat × Nat)) : OtTok :=
  let put := fun (i : Nat) (w : OtFrom) => match b with
    | some (g, a) => OtTok.held i n g a w
    | none => .loading i n w
  match o with
  | .loading i _ w => put i w
  | .held i _ _ _ w => put i w
  | o => o

/-- What a thread is parked on, its copy renamed. -/
def ParkObj.renamed (o : ParkObj) (n : Nat) : ParkObj :=
  match o with
  | .copy _ => .copy n
  | o => o

/-- A binding at its team's save: its rows stay, and its buffer is the core's no more (R352, R353). -/
def Cv.atSave : Cv → Cv
  | .bound b => .bound { b with buf := none }
  | c => c

/-- A group at its save (R158): a pause keeps its clk remaining; a group parked as a whole is READY or BLOCKED when its team is
resumed (R157), and one that waited for banks or ownership executes its unit again. `name`: what its references are recorded under. -/
def Group.atSave (g : Group) (clk : Nat) (thr : Thread → Nat) (ret : RetEntry → Nat) (obj : ParkObj → Nat) : Group :=
  { g with pauseEnd := g.pauseEnd - clk, park := .none
           threads := g.threads.map fun th => { th with copy := thr th, park := th.park.map fun o => o.renamed (obj o) }
           subs := g.subs.map fun o => o.renamed (obj o)
           rstack := g.rstack.map fun e => { e with copy := ret e } }

/-- A handle at the save of a restartable team: its lines are not saved (R133, R135). -/
def Handle.unsaved (h : Handle) : Handle := { h with absent := List.range h.lineCount, data := [] }

/-- A team leaves its core's engine (R345, R352): its buffers are the core's again, and what was HELD for it goes with it. -/
def State.leaveEngine (s : State) (t : Team) : State :=
  let mine := (s.groupsOf t.id).map fun g => g.id
  let bufs := t.cv.filterMap fun c => match c with
    | .bound b => if b.kind.any fun k => k.source then b.buf else none
    | _ => none
  let owner := (s.core t.core).owner.filter mine.contains
  let held := (s.core t.core).held?.map Prod.snd <|> (s.rowsDue t.core).map Prod.snd
  let s := s.updCore t.core fun c => { c with ownq := c.ownq.filter fun g => !mine.contains g
                                              accq := c.accq.filter fun r => r.team != t.id
                                              recs := c.recs.filter fun p => !mine.contains p.line }
  match owner with
  | none => s
  | some o => ((bufs.foldl (fun s i => s.setBuf t.core i ⟨.free, []⟩) s).passOwner t.core).updTeam t.id fun t => { t with reown := some (o, held) }

/-- The bytes of a region that none of some ranges holds, as ranges in ascending address. -/
def freeRanges (lo hi : Nat) (l : List (Nat × Nat)) : List (Nat × Nat) :=
  let (r, p) := (sortBy (fun x => x.1) l).foldl (fun (acc : List (Nat × Nat) × Nat) x =>
    (if acc.2 < x.1 then acc.1 ++ [(acc.2, x.1 - acc.2)] else acc.1, max acc.2 (x.1 + x.2))) ([], lo)
  if p < hi then r ++ [(p, hi - p)] else r

/-- The first `n` bytes of ranges. -/
def takeRanges (n : Nat) : List (Nat × Nat) → List (Nat × Nat)
  | [] => []
  | (a, k) :: r => if n = 0 then [] else if n ≤ k then [(a, n)] else (a, k) :: takeRanges (n - k) r

/-- Ranges without their first `n` bytes. -/
def dropRanges (n : Nat) : List (Nat × Nat) → List (Nat × Nat)
  | [] => []
  | (a, k) :: r => if n < k then (a + n, k - n) :: r else dropRanges (n - k) r

/-- Bytes of ranges. -/
def rangeBytes (l : List (Nat × Nat)) : Nat := (l.map fun x => x.2).sum

/-- The address of a byte of ranges. -/
def byteIn : List (Nat × Nat) → Nat → Nat
  | [], _ => 0
  | (a, k) :: r, i => if i < k then a + i else byteIn r (i - k)

/-- Bytes of a team's reservation (R130). -/
def State.saveSize (s : State) (t : Team) : Nat := ((s.grid? t.grid).map fun g => g.lr.saveBytes (s.qacc t.ctx)).getD 0

/-- Where a team's reservation lies in its context's save area (R130): among the bytes that no other team of the context that has not
retired has been given, as far as those reach; which of them is the device's own (R158; log 27). -/
def State.reserve (s : State) (t : Team) : List (Nat × Nat) :=
  match t.save, s.ctx? t.ctx with
  | [], some c =>
    let others := (s.dev.teams.filter fun x => x.ctx == t.ctx && x.id != t.id && x.st != .retired).map fun x => x.save
    let free := freeRanges c.e.savebase (c.e.savebase + c.e.savesize) others.flatten
    let k := Config.savePlace t.id % rangeBytes free
    takeRanges (s.saveSize t) (dropRanges k free ++ takeRanges k free)
  | l, _ => l

/-- A bank's contents, element by element. -/
def Bank.bytes (b : Bank) : List Byte := bytesOf (mgets b.data 0 4096)

/-- MODE of a bank as a number. -/
def BankMode.code : BankMode → Nat
  | .unset => 0
  | .float => 1
  | .integer => 2

/-- The contents and MODE of the banks that a team holds, written to its save area (R339): the contents in the M bytes reserved for
them, one bank after another, and each MODE, for which these have no room, in the bytes before them (log 27). -/
def State.writeBanks (s : State) (t : Team) : State :=
  if t.banks.isEmpty then s
  else
    let place := s.reserve t
    let m := 16384 * (if s.qacc t.ctx = 0 then 32 else s.qacc t.ctx)
    let pts := (s.groupsOf t.id).foldl (fun p g => max p g.pts) 0
    let cells := t.banks.zipIdx.foldl (fun l (b, k) => l ++ cellsAt (s.saveSize t - m + 16384 * k) b.bytes ++ [(k, BitVec.ofNat 8 b.mode.code)]) []
    ((s.updTeam t.id fun x => { x with save := place }).storeLines pts
      ((cells.map fun c => (byteIn place c.1, c.2)).filter fun c => s.inMem c.1 1)).1

/-- The state of a cluster whose teams are saved, or retired, some of them saved (R138). -/
def State.clusterSaved (s : State) (cl : Nat) : State :=
  let ts := s.dev.teams.filter fun x => x.cluster == cl
  if ts.all (fun x => x.st == .saved || x.st == .retired) && ts.any (fun x => x.st == .saved) then
    s.updCluster cl fun c => { c with st := .saved }
  else s

/-- A team saved (R133, R134, R138). -/
def State.saveTeam (s : State) (t : Team) : State :=
  let keys := s.saveKeys t
  let remote := s.linkResults t.id
  let fwd := s.inFlight t.core t.id
  let restart := ((s.grid? t.grid).map fun g => g.lr.restart).getD false
  let thr := fun (g : Group) (th : Thread) => keyId keys (s.threadKey t g th)
  let ret := fun (e : RetEntry) => keyId keys (s.retKey t e)
  let obj := fun (o : ParkObj) => keyId keys (s.parkRef t o)
  let tok := fun (o : OtTok) => o.atSave (keyId keys (s.tokKey t o))
  let s := ((s.writeBanks t).leaveEngine t).onDev fun d => { d with nextId := d.nextId + keys.length }
  let s := s.updTeam t.id fun x => { x with st := .saved, keys := keys, cv := x.cv.map Cv.atSave, ot := x.ot.map tok,
                                            handles := if restart then x.handles.map Handle.unsaved else x.handles }
  let s := (s.groupsOf t.id).foldl (fun s g => s.updGroup g.id fun g => g.atSave s.dev.clk (thr g) ret obj) s
  let s := if !fwd then s
    else
      let (n, s) := s.fresh
      s.onDev fun d => { d with fwds := d.fwds ++ [⟨n, t.core, t.id, t.core, remote⟩] }
  ((s.clusterSaved t.cluster).writeTeams t.ctx).finishCmds

/-- Event TEAM_SAVE_COMPLETE (R133, R136 case 1, R138): nothing while a stream, a result or an engine entry of the team is
outstanding, or a flush has no room. -/
def execTeamSaveComplete (team : Nat) (s : State) : Host.Outcome State Fault Refusal :=
  .next <|
    match s.team? team with
    | none => s
    | some t =>
      if t.st != .saving || s.issuing team then s
      else
        let s := s.flushTeam t
        if s.saveDone t then s.saveTeam t else s

/-! ## Resuming a cluster (R135, R159, R236) -/

/-- A thread at its team's resumption (R159): its aging restarts, and one that froze its context executes again (R99); an asynchronous fault
that did is not delivered again: DESIGN CHOICE (log 43). -/
def Thread.atResume (m : List (Nat × Nat)) (clk : Nat) (t : Thread) : Thread :=
  { t with copy := (assoc m t.copy).getD t.copy, lastStreamed := clk, froze := none
           park := t.park.map fun o => match o with
             | .copy c => .copy ((assoc m c).getD c)
             | o => o }

/-- A group at its team's resumption on a core and seat. -/
def Group.atResume (m : List (Nat × Nat)) (clk core : Nat) (seat : Nat × Nat) (g : Group) : Group :=
  { g with core := core, reed := seat.1, rslot := seat.2, pauseEnd := if g.pauseEnd = 0 then 0 else clk + g.pauseEnd,
           eligibleAt := clk, threads := g.threads.map (Thread.atResume m clk)
           subs := g.subs.map fun o => match o with
             | .copy c => .copy ((assoc m c).getD c)
             | o => o
           rstack := g.rstack.map fun e => { e with copy := (assoc m e.copy).getD e.copy } }

/-- A group that is parked on overlays asks its new core for those that are not there; what is there has resolved its cause (R159). -/
def State.parkAgain (s : State) (g : Group) : State :=
  g.subs.foldl (fun s o =>
    let again := fun (s : State) (n : Nat) => s.updGroup g.id fun g => { g with threads := updIf (fun th => th.park == some o) (fun th => { th with parkKey := n }) g.threads }
    let done := fun (s : State) => s.unpark (fun x => x.id == g.id) o id
    match o with
    | .overlay ctx image id =>
      if ((s.core g.core).bound? ctx image id).isSome then done s
      else let (n, s) := s.askFetch g.core ctx image id none; again s n
    | .copy c => if ((s.core g.core).copy? c).isSome then done s else again s c
    | _ => s) s

/-- A team resumed on a core (R135, R236); of a restartable team every line is absent. -/
def State.resumeTeam (s : State) (t : Team) (core : Nat) (seats : List (Nat × Nat)) : State :=
  let (s, m) := t.keys.foldl (fun (acc : State × List (Nat × Nat)) (id, k) =>
    let (s, n) := acc.1.resolve core t.ctx k
    (s, acc.2 ++ [(id, n)])) (s, [])
  let tok := fun (o : OtTok) =>
    let go := fun (i c : Nat) =>
      let n := (assoc m c).getD c
      let k := (assoc t.keys c).filter fun k => !k.digest.isEmpty
      o.atResume n (((s.core core).copy? n).map fun x => match k with
        | some k => (k.gen, k.start)
        | none => ((x.binds.find? fun b => b.ctx == t.ctx && b.id == i && !b.stale).map fun b => (b.gen, b.start)).getD (0, 0))
    match o with
    | .loading i c _ => go i c
    | .held i c _ _ _ => go i c
    | o => o
  let restart := ((s.grid? t.grid).map fun g => g.lr.restart).getD false
  let s := s.updTeam t.id fun x => { x with st := .resident, core := core, ot := x.ot.map tok
                                            keys := x.keys.map fun (id, k) => ((assoc m id).getD id, k)
                                            handles := if restart then x.handles.map Handle.unsaved else x.handles }
  let s := (s.groupsOf t.id).foldl (fun s g =>
    s.updGroup g.id (Group.atResume m s.dev.clk core (seats.getD g.slot (0, 0)))) s
  let s := (s.groupsOf t.id).foldl State.parkAgain s
  let s := s.onDev fun d => { d with fwds := (d.fwds.filter fun f => !(f.team == t.id && f.core == core && f.res.isEmpty)).map fun f =>
    if f.team == t.id then { f with toCore := core } else f }
  match t.reown with
  | some (g, _) => s.joinOwner core g
  | none => s

/-- Saved teams that are resumed together: of one cluster, or of a whole cooperative grid (R136 case 4), by cluster. -/
def State.resumeSet (s : State) (cl : Nat) : List Cluster :=
  match s.cluster? cl with
  | none => []
  | some c =>
    if ((s.grid? c.grid).map fun g => g.lr.coop).getD false then
      sortBy (fun x => x.idx) (s.dev.clusters.filter fun x => x.grid == c.grid && x.st == .saved)
    else [c]

/-- Teams of a cluster that are saved, by rank. -/
def State.savedTeams (s : State) (cl : Nat) : List Team :=
  sortBy (fun t => s.rankOf t) (s.dev.teams.filter fun t => t.cluster == cl && t.st == .saved)

/-- A saved cluster placed anew (R135): each core accepts its team and has as many free banks as it held. Teams of the
cluster that have retired take nothing. Level-2 lines in use are no bar: DESIGN CHOICE (log 43). -/
def State.resumeSpot (s : State) (gr : Grid) (cl : Nat) : Option Spot :=
  let ts := s.savedTeams cl
  let need := fun (k : Nat) => (ts.find? fun t => s.rankOf t == k).map fun t => t.banks.length
  (s.findSpot gr.lr s.occ (fun c k => s.coreReady c && decide ((need k).getD 0 ≤ s.freeBanks c)) s.dev.placePtr
    fun k => (need k).isSome).map fun x => x.1

/-- A cluster resumed at a place. -/
def State.resumeCluster (s : State) (gr : Grid) (cl : Nat) (sp : Spot) : State :=
  let s := (s.savedTeams cl).foldl (fun s t =>
    match sp.cores[s.rankOf t]? with
    | some (core, seats) => s.resumeTeam t core seats
    | none => s) s
  (s.updCluster cl fun c => { c with st := .placed, origin := sp.origin, placedAt := s.dev.clk }).onDev
    fun d => { d with placePtr := nextPtr sp.origin gr.lr.clw }

/-- The clusters of a set resumed one after another; `none` where one finds no place. -/
def State.resumeAll (s : State) (gr : Grid) : List Cluster → Option State
  | [] => some s
  | c :: r =>
    match s.resumeSpot gr c.id with
    | none => none
    | some sp => (s.resumeCluster gr c.id sp).resumeAll gr r

/-- Event TEAM_RESUME (R135, R136, R138): the saved teams of a cluster, and of a whole cooperative grid, are accepted on
cores and restored; nothing where one finds no place or a quota is met. -/
def execTeamResume (cluster : Nat) (s : State) : Host.Outcome State Fault Refusal :=
  .next <|
    match s.cluster? cluster with
    | none => s
    | some c =>
      match s.grid? c.grid with
      | none => s
      | some gr =>
        let set := s.resumeSet cluster
        let n := (set.map fun c => (s.savedTeams c.id).length).sum
        if !s.mayRun gr || set.any (fun c => c.st != .saved) || n = 0 || !s.quotaOk gr.ctx n 0
            || (gr.lr.coop && s.dev.teams.any fun t => t.grid == gr.id && t.st == .saving) then s
        else match s.resumeAll gr set with
          | none => s
          | some s => s.writeTeams gr.ctx

end Sys2Proof.Machine
end

