-- ==== Sys2Proof/Machine/End.lean ====
section
/-! DEFINITION. The end of threads, groups, teams and grids (R137, R138, R166, R297, R345, R400), and of the teams of a
dying context (R98). -/

namespace Sys2Proof.Machine

/-! ## Threads -/

/-- A thread ends (R166): its bit leaves the return stack, and what its group's members wait for is looked at again. -/
def State.endThread (s : State) (gid t : Nat) : State :=
  let s := s.updGroup gid fun g =>
    { g.updThread t (fun th => { th with ended := true, wait := none, park := none }) with
      rstack := dropMask (fun e => bitAt e.mask t) t g.rstack }
  s.memberEnded gid

/-- What a group's barriers wait for, looked at again. -/
def State.recheck (s : State) (gid : Nat) : State :=
  match s.group? gid with
  | some g => s.checkBars g
  | none => s

/-- `EXIT` (R162, R166). -/
def execExit (s : State) : Host.Outcome State Fault Refusal :=
  s.onStream fun st _ =>
    let (s', kept) := runEach st (fun s t _ => .leave (s.endThread st.grp t)) st.threads s
    (s'.advance st kept).recheck st.grp

/-- The place of a pixel in its visibility tile (R394). -/
def pixelIn (px py : Nat) : Nat := 8 * (py % 8) + px % 8

def State.updTile (s : State) (frame tile : Nat) (f : Tile → Tile) : State :=
  s.updFrame frame fun x => { x with tiles := updIf (fun t => t.idx == tile) f x.tiles }

/-- `KILL` (R162, R166, R400). -/
def execKill (s : State) : Host.Outcome State Fault Refusal :=
  s.onStream fun st _ =>
    let (s', kept) := runEach st (fun s t th =>
      let s := match th.pixel with
        | some p =>
          if p.helper then s
          else s.updTile p.frame p.tile fun x =>
            { x with discard := if x.discard.contains (pixelIn p.px p.py) then x.discard else x.discard ++ [pixelIn p.px p.py] }
        | none => s
      .leave (s.endThread st.grp t)) st.threads s
    (s'.advance st kept).recheck st.grp

/-! ## Visibility tiles whose shading is done (R395, R400) -/

/-- A CLASSIFIED tile that no record or group holds a pixel of becomes SHADED: discarded pixels become clear (R400). -/
def Tile.shade (t : Tile) : Tile :=
  if t.st = .classified ∧ t.live = 0 then
    { t with st := .shaded, ids := (t.ids.zip (List.range 64)).map fun (x, i) => if t.discard.contains i then BitVec.allOnes 64 else x }
  else t

/-- One record of a tile is done with (R395). -/
def State.pixelDone (s : State) (p : Pixel) : State :=
  s.updTile p.frame p.tile fun t => { t with live := t.live - 1 }.shade

/-! ## Groups and teams (R137) -/

/-- Combining-buffer lines that hold bytes of a group, flushed in order (R297). -/
def State.flushGroup (s : State) (g : Group) : State :=
  (s.linesHeld g.core g.id (List.range 32)).foldl (fun s x =>
    (s.flushLine g.id x).updCore g.core fun c => { c with comb := c.comb.filter fun y => y.slot != x.slot }) s

/-- A team's engine ownership passes on (R137 item 3, R345), and what it asked for is withdrawn. -/
def State.leaveCore (s : State) (t : Team) : State :=
  let mine := (s.groupsOf t.id).map fun g => g.id
  let own := ((s.core t.core).owner.map fun o => mine.contains o).getD false
  let s := s.updCore t.core fun c => { c with ownq := c.ownq.filter fun g => !mine.contains g
                                              accq := c.accq.filter fun r => r.team != t.id
                                              recs := c.recs.filter fun p => !mine.contains p.line }
  if own then s.passOwner t.core else s

/-- The grid's state after a team of it retired (R138). -/
def State.checkGrid (s : State) (gid : Nat) : State :=
  match s.grid? gid with
  | none => s
  | some gr =>
    if !gr.src.isBin && gr.nextCl ≥ gr.lr.clusters && (s.dev.teams.all fun t => t.grid != gid || t.st == .retired) then
      s.updGrid gid fun g => { g with st := if g.st = .retired then .retired else .draining }
    else s

/-- The groups of a dying context's team end (R98): what they have gathered is flushed, and every thread ends, so that a binding is
complete before the engine is given up (R297, R352 item 5, R353). -/
def State.endGroups (s : State) (gs : List Group) : State :=
  gs.foldl (fun s g => ((s.flushGroup g).updGroup g.id fun g =>
    { g with threads := g.threads.map fun th => { th with ended := true, wait := none, park := none } }).memberEnded g.id) s

/-- A team retires (R137, R138). A dying context's teams keep what its engines and the link still use until it has drained (R98); one
that was saved holds no bank and no line of a slice any more (R133, R339). -/
def State.retireTeam (s : State) (t : Team) (dying : Bool) : State :=
  let gs := s.groupsOf t.id
  let keeps := dying && t.st != .saved
  let s := if keeps then s.endGroups gs else s
  let s := if t.st == .saved then s else s.leaveCore t
  let s := s.onDev fun d => { d with groups := updIf (fun g => g.team == t.id) (fun g => { g with ended := true }) d.groups }
  let s := s.updTeam t.id fun x => { x with
    st := .retired, handles := if keeps then x.handles else if dying then x.handles.map fun h => { h with level := 0 } else [], banks := if keeps then x.banks else [],
    ot := x.ot.map fun _ => .free, keys := [], reown := none }
  let s := (gs.map fun g => g.threads.filterMap fun th => th.pixel).flatten.foldl (fun s p => s.pixelDone p) s
  let s := if dying then s else s.onDev fun d => { d with fwds := d.fwds.filter fun f => f.team != t.id }
  let s := if (s.dev.teams.filter fun x => x.cluster == t.cluster).all (fun x => x.st == .retired) then
      s.updCluster t.cluster fun c => { c with st := .retired }
    else s.clusterSaved t.cluster
  let s := match gs with
    | g :: _ => s.checkBars g
    | [] => s
  ((s.writeTeams t.ctx).checkGrid t.grid).finishCmds

/-- A retired team of a bin grid leaves no record, once its remote accesses have been acknowledged (R98): its grid belongs to no packet
(R368). -/
def State.dropBin (s : State) (t : Team) : State :=
  if ((s.grid? t.grid).map fun g => g.src.isBin).getD false && (s.groupsOf t.id).all fun g => g.remote == 0 then
    s.onDev fun d => { d with teams := d.teams.filter fun x => x.id != t.id, clusters := d.clusters.filter fun c => c.id != t.cluster,
                              groups := d.groups.filter fun g => g.team != t.id }
  else s

/-- The group's work is done (R137): its threads have ended, its counts are 0 and its store queue is empty. -/
def Group.finished (g : Group) : Bool := g.threads.all (fun t => t.ended) && g.sb.all (· == 0) && g.sq.isEmpty

/-- Event GROUP_END (R137): the combining buffer is flushed; a team whose last group has ended retires. A retired
team of a bin grid is dropped when its last remote access has been acknowledged. A team of a dying context with no clause issuing ends
without a save (R98, R138). -/
def execGroupEnd (gid : Nat) (s : State) : Host.Outcome State Fault Refusal :=
  .next <|
    match s.group? gid with
    | none => s
    | some g =>
      if s.ctxState g.ctx == .dying then
        match s.team? g.team with
        | some t => if t.st == .retired || s.issuing t.id then s else s.retireTeam t true
        | none => s
      else if g.ended then
        match s.team? g.team with
        | some t => if t.st == .retired then s.dropBin t else s
        | none => s
      else if !g.finished || !s.residentTeam g.team || (s.dev.streams.any fun x => x.grp == gid) then s
      else
        let s := s.flushGroup g
        let s := s.updGroup gid fun g => { g with ended := true }
        let s := if (s.core g.core).owner == some gid then s.passOwner g.core
          else s.updCore g.core fun c => { c with ownq := c.ownq.filter (· ≠ gid) }
        let s := s.checkBars g
        match s.team? g.team with
        | some t => if (s.groupsOf t.id).all (fun g => g.ended) then (s.retireTeam t false).dropBin t else s
        | none => s

/-- Event GRID_RETIRE (R138): a draining grid retires when every write of it is admitted. A dying context's grids last until it has
drained (R98). -/
def execGridRetire (grid : Nat) (s : State) : Host.Outcome State Fault Refusal :=
  .next <|
    match s.grid? grid with
    | none => s
    | some gr =>
      if gr.st != .draining || s.ctxState gr.ctx == .dying || (s.dev.groups.any fun g => g.grid == grid && (g.remote != 0 || !g.sq.isEmpty)) then s
      else (s.updGrid grid fun g => { g with st := .retired }).onDev fun d =>
        { d with teams := d.teams.filter fun t => t.grid != grid, clusters := d.clusters.filter fun c => c.grid != grid,
                 groups := d.groups.filter fun g => g.grid != grid }

end Sys2Proof.Machine
end

