-- ==== Sys2Proof/Machine/Queue.lean ====
section
/-! DEFINITION. Queues: descriptors, doorbells, packets, the launch window, tokens, the QUEUE commands (R105 to R121). -/

namespace Sys2Proof.Machine

/-! ## The device-written fields (R106, R112) -/

/-- QSTATUS.STATE (R106). -/
def QState.code : QState → Nat
  | .off => 0 | .ready => 1 | .preempted => 2 | .frozen => 3

/-- RIDX, WIDX, QSTATUS and FAULTIDX as they stand. -/
def Queue.written (q : Queue) : List Nat := [q.ridx.toNat, q.widx.toNat, q.st.code + 16 * q.cause, q.faultidx.toNat]

/-- The address of a queue's descriptor (R106). -/
def State.queueDesc (s : State) (ctx q : Nat) : Nat := ((s.ctx? ctx).map fun c => c.e.qdesc).getD 0 + 64 * q

def State.queue? (s : State) (ctx q : Nat) : Option Queue := (s.ctx? ctx).bind fun c => c.queue? q

/-- A queue changed; of the device-written fields, those that change are written to its descriptor (R106). -/
def State.setQueue (s : State) (ctx q : Nat) (f : Queue → Queue) : State :=
  match s.queue? ctx q with
  | none => s
  | some a =>
    ((a.written.zip (f a).written).zip (List.range 4)).foldl (fun s ((x, y), i) =>
      if x = y then s else s.put (s.queueDesc ctx q + 0x18 + 4 * i) (bytesOfNat y 4)) (s.updQueue ctx q f)

/-- A token's count raised by one, and its mirror (R112), written above every write admitted so far, so that it follows those of the
work it tells of (R115, R294, R296). -/
def State.countToken (s : State) (ctx q n : Nat) : State :=
  match s.queue? ctx q with
  | none => s
  | some a =>
    let x := mget a.toks n + 1#32
    (s.updQueue ctx q fun a => { a with toks := mset a.toks n x }).put (a.tokbase + 4 * n) (bytesOfNat x.toNat 4) (s.topTs + 1)

/-- The queue freezes at a packet (R111, R120). -/
def State.freezeQueue (s : State) (ctx q cause : Nat) (idx : Word) : State :=
  s.setQueue ctx q fun a => { a with st := .frozen, cause := cause, faultidx := idx }

/-! ## The window (R107, R116) -/

/-- How far an index lies from RIDX. -/
def Queue.dist (q : Queue) (idx : Word) : Nat := (idx - q.ridx).toNat

/-- A packet put into the window, by index. -/
def Queue.putPacket (q : Queue) (p : Packet) : Queue := { q with win := insertBy (fun x => q.dist x.idx) p q.win }

/-- RIDX past the retired packets that lead the window (R117). -/
def leadRetired : Word → List Packet → Word × List Packet
  | i, [] => (i, [])
  | i, p :: r => if p.idx = i && p.retired then leadRetired (i + 1#32) r else (i, p :: r)

def Queue.advanceRead (q : Queue) : Queue :=
  let (i, w) := leadRetired q.ridx q.win
  { q with ridx := i, win := w }

/-- The lowest index of the window that has not been parsed (R116). -/
def Queue.nextParse (q : Queue) : Option Word :=
  ((List.range (min (q.widx - q.ridx).toNat 32)).map fun i => q.ridx + BitVec.ofNat 32 i).find? fun i => !(q.win.any fun p => p.idx == i)

/-! ## Doorbells (R108) -/

/-- An overrun freezes the queue (R108, R120). It comes before a `PREEMPT` of the same clk, which is then refused BADSTATE: what that asked for is
taken back, but for the saves that the context asks for too (R121 case 4). -/
def State.overrun (s : State) (ctx q : Nat) (a : Queue) : State :=
  let s := match a.asked with
    | some (clk, cl) =>
      if clk ≠ s.dev.clk ∨ a.st ≠ QState.preempted then s
      else
        let s := s.onDev fun d => { d with
          queueRegs := d.queueRegs.finish 1
          teams := updIf (fun t => t.st == TeamState.saving && cl.contains t.cluster) (fun t => { t with st := .resident }) d.teams
          clusters := updIf (fun c => c.st == ClState.saving && cl.contains c.id) (fun c => { c with st := .placed }) d.clusters }
        if s.ctxState ctx = CtxState.active then s else s.requestSave fun t => t.ctx == ctx
    | none => s
  s.freezeQueue ctx q 3 a.ridx

/-- A doorbell handled: the context and generation it names, the queue, the new write index. -/
def State.doorbell (s : State) (ctxgen : Word) (q : Nat) (w : Word) : State :=
  let c := ctxgen.toNat % 4096
  let st := s.ctxState c
  if s.gen c ≠ ctxgen.toNat / 4096 || st == .free || st == .dying then s
  else match s.queue? c q with
    | none => s
    | some a =>
      let d := (w - a.widx).toNat
      if d = 0 || d ≥ 2 ^ 31 then s
      else if (w - a.ridx).toNat > 2 ^ a.log2n then
        (if a.st == .ready || a.st == .preempted then s.overrun c q a else s)
      else s.setQueue c q fun a => { a with widx := w }

/-! ## Packets (R110, R111) -/

/-- The packet that 64 bytes hold; `none` where they are malformed (R110, R111). -/
def State.packetOf (s : State) (qcount : Nat) (idx : Word) (b : List Byte) : Option Packet :=
  let ctrl := fld b 0x00 4
  let xsrc := fld b 0x04 4
  let typ := field ctrl 3 0
  let xwait := field ctrl 6 6 == 1
  let lrec := fld b 0x20 8
  let args := fld b 0x28 8
  let bad := decide (typ > 2) || decide (ctrl ≥ 2 ^ 7) || decide (xsrc ≥ 2 ^ 20) || !zeros b 0x0C 4 || !zeros b 0x38 8 ||
    (typ == 0 && (decide (ctrl ≥ 16) || !zeros b 0x10 16)) || (typ != 1 && (lrec != 0 || args != 0)) ||
    (typ == 1 && (lrec % 256 != 0 || !s.inMem lrec 256)) || (!xwait && !zeros b 0x04 8) ||
    (xwait && decide (field xsrc 13 0 ≥ qcount))
  if bad then none
  else some
    { idx := idx, typ := typ, ordered := field ctrl 4 4 == 1, notify := field ctrl 5 5 == 1, xwait := xwait,
      xq := field xsrc 13 0, xtok := field xsrc 19 14, xcount := BitVec.ofNat 32 (fld b 0x08 4),
      waitmask := BitVec.ofNat 64 (fld b 0x10 8), setmask := BitVec.ofNat 64 (fld b 0x18 8), args := args,
      tag := BitVec.ofNat 64 (fld b 0x30 8), lrec := none, declsDue := false, launched := false, retired := false, grid := 0 }

/-- The declarations of a packet's record read (R125 item 11), and the record refused or taken. -/
def State.parseDecls (s : State) (ctx q : Nat) (p : Packet) (r : LaunchRec) : State :=
  let drop := fun (s : State) => s.updQueue ctx q fun a => { a with win := a.win.filter fun x => x.idx != p.idx }
  let keep := fun (s : State) (p : Packet) => (drop s).updQueue ctx q fun a => a.putPacket p
  let refuse := fun (s : State) => ((drop s).freezeQueue ctx q 2 p.idx).endEng p.grid
  if !r.inRange then refuse s
  else match (if r.tdcount = 0 then (s, EngRes.ok .nil, r) else s.readDecls ctx p.grid r) with
    | (s, .wait _, _) => keep s { p with lrec := some r, declsDue := true }
    | (s, .fault _ _, _) => refuse s
    | (s, .ok _, r) => if s.recordOk ctx r then keep (s.endEng p.grid) { p with lrec := some r, declsDue := false } else refuse s

/-- A packet of the window whose declarations are due and whose pages have been answered. -/
def State.declsReady (s : State) (q : Queue) : Option Packet :=
  q.win.find? fun p => p.declsDue && !(s.dev.preqs.any fun r => r.engs.contains p.grid)

/-- Event PACKET_PARSE (R107, R110, R111, R116, R122): the next packet of the window is read and checked, or the
declarations of one that awaited a page. -/
def execPacketParse (ctx queue : Nat) (s : State) : Host.Outcome State Fault Refusal :=
  .next <|
    match s.queue? ctx queue, s.ctx? ctx with
    | some a, some c =>
      if c.st != .active || a.st != .ready then s
      else match s.declsReady a with
        | some p =>
          match p.lrec with
          | some r => s.parseDecls ctx queue p r
          | none => s
        | none =>
          match a.nextParse with
          | none => s
          | some idx =>
            let b := s.bytesAt (a.ringbase + 64 * (idx.toNat % 2 ^ a.log2n)) 64
            match s.packetOf c.e.qcount idx b with
            | none => s.freezeQueue ctx queue 1 idx
            | some p =>
              if p.typ = 0 then
                s.setQueue ctx queue fun a => (a.putPacket { p with launched := true, retired := true }).advanceRead
              else if p.typ = 2 then s.updQueue ctx queue fun a => a.putPacket p
              else
                let (n, s) := s.fresh
                s.parseDecls ctx queue { p with grid := n } (launchOf (s.bytesAt (fld b 0x20 8) 256))
    | _, _ => s

/-! ## Launch and retirement (R112 to R118) -/

/-- A packet of the window is ready (R113, R114, R116). -/
def Ctx.ready (c : Ctx) (a : Queue) (p : Packet) : Bool :=
  let o := a.dist p.idx
  c.st == .active && a.st == .ready && !p.launched && !p.declsDue && (!p.ordered || o == 0) &&
  (a.win.all fun x => x.retired || decide (a.dist x.idx ≥ o) || x.setmask &&& p.waitmask == 0#64) &&
  (!p.xwait || match c.queue? p.xq with
    | some x => decide ((mget x.toks p.xtok - p.xcount).toNat < 2 ^ 31)
    | none => false)

/-- The oldest ready packet of a queue (R118). -/
def Ctx.oldestReady (c : Ctx) (a : Queue) : Option Packet := a.win.find? fun p => c.ready a p

/-- At most 4096 completion messages are held; the oldest beyond that are dropped (R414). -/
def holdCompl (l : List Msg) : List Msg := l.drop (l.length - 4096)

/-- A completion message to the host peer, held while it is not live (R115 item 2, R414). -/
def State.sendCompletion (s : State) (m : Msg) : State :=
  if s.hostLive then s.send s.dev.link.hostpeer m else s.updLink fun l => { l with heldCompl := holdCompl (l.heldCompl ++ [m]) }

/-- A packet retires (R115, R117): the counts and their mirrors, then the completion message, then RIDX. -/
def State.retirePacket (s : State) (ctx q : Nat) (p : Packet) : State :=
  let s := (List.range 64).foldl (fun s n => if p.setmask.getLsbD n then s.countToken ctx q n else s) s
  let s := if p.notify then s.sendCompletion (.completion (s.ctxgen ctx) q p.idx p.tag) else s
  (s.setQueue ctx q fun a => (a.updPacket p.idx.toNat fun x => { x with launched := true, retired := true }).advanceRead).onDev
    fun d => { d with grids := d.grids.filter fun g => p.typ ≠ 1 || g.id != p.grid }

/-- The effective priority of a packet's grid (R118). -/
def effPrio (c : Ctx) (a : Queue) (r : LaunchRec) : Nat := min c.e.prio (min a.prio r.prio)

/-- The effective priority of a packet (R118). A SIGNAL packet has no launch record: its effective priority is the least of its context's and
its queue's (log 40). -/
def packetPrio (c : Ctx) (a : Queue) (p : Packet) : Nat :=
  match p.lrec with
  | some r => effPrio c a r
  | none => min c.e.prio a.prio

/-- A queue has had its turn at a priority (R118). -/
def State.tookTurn (s : State) (prio ctx q : Nat) : State := s.onDev fun d => { d with turn := assocSet d.turn prio (ctx, q) }

/-- A grid handed to placement (R117, R123, R126). -/
def newGrid (id ctx : Nat) (src : GridSrc) (r : LaunchRec) (args prio : Nat) : Grid :=
  { id := id, ctx := ctx, src := src, lr := r, args := args, prio := prio, st := .launched, order := none, trap := .unread,
    gb := List.replicate 2 ⟨none, false, 0⟩, nextCl := 0 }

/-- Event PACKET_LAUNCH (R116, R117, R118): a ready packet launches, the oldest of its queue; a SIGNAL packet retires at
once (R110). -/
def execPacketLaunch (ctx queue idx : Nat) (s : State) : Host.Outcome State Fault Refusal :=
  .next <|
    match s.ctx? ctx, s.queue? ctx queue with
    | some c, some a =>
      match c.oldestReady a with
      | none => s
      | some p =>
        if p.idx.toNat ≠ idx then s
        else if p.typ = 2 then (s.retirePacket ctx queue p).tookTurn (packetPrio c a p) ctx queue
        else match p.lrec with
          | none => s
          | some r =>
            ((s.tookTurn (packetPrio c a p) ctx queue).updQueue ctx queue fun a => a.updPacket idx fun x => { x with launched := true }).onDev fun d =>
              { d with grids := d.grids ++ [newGrid p.grid ctx (.packet ctx queue p.idx) r (if p.args = 0 then r.args else p.args)
                                              (effPrio c a r)] }
    | _, _ => s

/-- Event PACKET_RETIRE (R115, R117): the packet of a retired grid. -/
def execPacketRetire (ctx queue idx : Nat) (s : State) : Host.Outcome State Fault Refusal :=
  .next <|
    match (s.queue? ctx queue).bind fun a => a.packet? idx with
    | none => s
    | some p =>
      if p.typ = 1 && p.launched && !p.retired && ((s.grid? p.grid).map fun g => g.st == .retired).getD false && s.ctxState ctx != .dying then
        s.retirePacket ctx queue p
      else s

/-! ## The QUEUE commands (R119, R120) -/

/-- A command of the QUEUE block: its checks, then the queue's row of R120, if it has one. -/
def State.queueCmd (s : State) (ctx q : Nat) (row : Queue → Option (State → State)) : State :=
  let r := s.dev.queueRegs
  let res := fun (n : Nat) => s.onDev fun d => { d with queueRegs := { d.queueRegs with result := n, refusedBusy := false } }
  if r.busy then s.onDev fun d => { d with queueRegs := { d.queueRegs with refusedBusy := true } }
  else if r.gen ≠ s.gen ctx then res 2
  else if s.ctxState ctx == .free then res 3
  else match s.queue? ctx q with
    | none => res 3
    | some a =>
      match row a with
      | none => res 1
      | some f => f (res 0)

/-- Event QUEUE_ENABLE. -/
def execQueueEnable (ctx queue : Nat) (s : State) : Host.Outcome State Fault Refusal :=
  .next <| s.queueCmd ctx queue fun a =>
    if a.st = .off then some fun s => s.setQueue ctx queue fun a => { a with st := .ready } else none

/-- Event QUEUE_PREEMPT (R119, R120): it ends when every team of the queue's launched packets is saved. -/
def execQueuePreempt (ctx queue : Nat) (s : State) : Host.Outcome State Fault Refusal :=
  .next <| s.queueCmd ctx queue fun a =>
    if a.st = .ready then some fun s =>
      let s := s.setQueue ctx queue fun a => { a with st := .preempted }
      let placed := s.dev.clusters.filter fun c => c.st == .placed
      let s := s.requestSave fun t => t.ctx == ctx && match (s.grid? t.grid).map Grid.src with
        | some (.packet _ q _) => q == queue
        | _ => false
      let asked := (placed.filter fun c => (s.cluster? c.id).any fun x => x.st == .saving).map fun c => c.id
      let s := s.updQueue ctx queue fun a => { a with asked := some (s.dev.clk, asked) }
      (s.onDev fun d => { d with queueRegs := { d.queueRegs with busy := true, run := some (2, ctx, queue) } }).finishCmds
    else none

/-- Event QUEUE_RESUME: the saved teams are placed again (TEAM_RESUME). -/
def execQueueResume (ctx queue : Nat) (s : State) : Host.Outcome State Fault Refusal :=
  .next <| s.queueCmd ctx queue fun a =>
    if a.st = .preempted then some fun s => s.setQueue ctx queue fun a => { a with st := .ready } else none

/-- A packet's index lies before FAULTIDX, which RIDX may have passed. -/
def Queue.beforeFault (a : Queue) (p : Packet) : Bool := decide (2 ^ 31 ≤ (p.idx - a.faultidx).toNat)

/-- Event QUEUE_THAW: packets not launched from FAULTIDX on are parsed again. -/
def execQueueThaw (ctx queue : Nat) (s : State) : Host.Outcome State Fault Refusal :=
  .next <| s.queueCmd ctx queue fun a =>
    if a.st = .frozen then some fun s => s.setQueue ctx queue fun a =>
      { a with st := .ready, cause := 0, win := a.win.filter fun p => p.launched || a.beforeFault p }
    else none

/-- Every submitted packet that has not launched, retired without effect (R120). -/
def Queue.voidAll (a : Queue) : Queue :=
  let void : Word → Packet := fun i =>
    { idx := i, typ := 0, ordered := false, notify := false, xwait := false, xq := 0, xtok := 0, xcount := 0#32,
      waitmask := 0#64, setmask := 0#64, args := 0, tag := 0#64, lrec := none, declsDue := false, launched := true,
      retired := true, grid := 0 }
  let kept := a.win.filter fun p => p.launched
  ((List.range (a.widx - a.ridx).toNat).foldl (fun (q : Queue) n =>
    let i := a.ridx + BitVec.ofNat 32 n
    if kept.any fun p => p.idx == i then q else q.putPacket (void i)) { a with win := kept }).advanceRead

/-- Event QUEUE_RESET. -/
def execQueueReset (ctx queue : Nat) (s : State) : Host.Outcome State Fault Refusal :=
  .next <| s.queueCmd ctx queue fun a =>
    if a.st = .frozen || a.st = .preempted then some fun s =>
      s.setQueue ctx queue fun a => { a.voidAll with st := .ready, cause := 0 }
    else none

/-- Queue slots assigned (R105). -/
def State.slotsAssigned (s : State) : Nat := (s.dev.ctxs.map fun c => c.queues.length).sum

end Sys2Proof.Machine
end

