-- ==== Sys2Proof/Machine/Context.lean ====
section
/-! DEFINITION. Contexts: the table entry, `BIND` and the other CTX commands, dying and its drain (R91 to R103). -/

namespace Sys2Proof.Machine

/-! ## The table entry (R92, R93) -/

/-- A context's entry as `BIND` copies it (R92). -/
def ctxEntryOf (b : List Byte) : CtxEntry :=
  { root := fld b 0x18 8, asn := fld b 0x20 2, domain := fld b 0x22 2, prio := fld b 0x24 1, trapimg := fld b 0x28 8,
    trapov := fld b 0x30 2, trapentry := BitVec.ofNat 32 (fld b 0x34 4), qdesc := fld b 0x38 8, qcount := fld b 0x40 2,
    qteams := fld b 0x42 2, qislots := fld b 0x44 1, qacc := fld b 0x45 1, qpreq := fld b 0x46 2, savebase := fld b 0x48 8,
    savesize := fld b 0x50 4 }

/-- The entry is valid, its queue descriptors apart (R93, R105). -/
def State.entryOk (s : State) (ctx : Nat) (b : List Byte) : Bool :=
  let e := ctxEntryOf b
  zeros b 0x25 3 && zeros b 0x32 2 && zeros b 0x54 4 && zeros b 0x60 160 && field e.root 11 0 == 0 && field e.root 63 52 == 0 &&
  decide (e.domain ≤ 4095) && decide (e.prio ≤ 15) && decide (e.trapov ≤ 4095) && e.qdesc % 64 == 0 && decide (e.qcount ≤ 16384) &&
  e.savebase % 4096 == 0 && s.inMem e.root 4096 && s.inMem e.qdesc (max 1 (64 * e.qcount)) && decide (e.qislots ≤ 64) &&
  decide (e.qacc ≤ 32) && (e.trapimg == 0 || e.trapentry.toNat % 4 == 0) &&
  (s.dev.ctxs.all fun c => c.id == ctx || c.e.asn != e.asn || c.e.root == e.root) &&
  decide (s.slotsAssigned + e.qcount ≤ 16384)

/-- A queue from its descriptor's 64 bytes; `none` where it is not valid (R106). FLAGS above 1 are not valid: DESIGN CHOICE (log 42). -/
def State.queueOf (s : State) (q : Nat) (b : List Byte) : Option Queue :=
  let ring := fld b 0x00 8
  let l := fld b 0x08 1
  let flags := fld b 0x0A 2
  let tok := fld b 0x10 8
  if !zeros b 0x0C 4 || !zeros b 0x28 24 || decide (flags > 1) || decide (l < 4) || decide (l > 16) || decide (fld b 0x09 1 > 15)
      || ring % 4096 != 0 || tok % 256 != 0 || !s.inMem ring (64 * 2 ^ l) || !s.inMem tok 256 then none
  else some { q := q, ringbase := ring, log2n := l, prio := fld b 0x09 1, enable := flags == 1, tokbase := tok, ridx := 0#32,
              widx := 0#32, st := .off, cause := 0, faultidx := 0#32, toks := [], win := [], asked := none }

/-- The queue descriptors of a context (R106): every one valid, or none. -/
def State.queuesOf (s : State) (qdesc : Nat) : Nat → Option (List Queue)
  | 0 => some []
  | n + 1 =>
    match s.queuesOf qdesc n, s.queueOf n (s.bytesAt (qdesc + 64 * n) 64) with
    | some l, some q => some (l ++ [q])
    | _, _ => none

/-! ## The commands (R98, R101) -/

/-- A command of the CTX block: BUSY, STALE, then the state's row of R98, if it has one; a row gives the result or, for a
command that goes on, nothing. -/
def State.ctxCmd (s : State) (ctx : Nat) (row : CtxState → Option (State → State)) : State :=
  let r := s.dev.ctxRegs
  let res := fun (n : Nat) => s.onDev fun d => { d with ctxRegs := { d.ctxRegs with result := n, refusedBusy := false } }
  if r.busy then s.onDev fun d => { d with ctxRegs := { d.ctxRegs with refusedBusy := true } }
  else if r.gen ≠ s.gen ctx then res 2
  else match row (s.ctxState ctx) with
    | none => res 1
    | some f => f (res 0)

/-- A context that `BIND` makes (R92). -/
def newCtx (id : Nat) (e : CtxEntry) (qs : List Queue) : Ctx :=
  { id := id, st := .built, e := e, queues := qs, reqid := 0#32, fault := ⟨0#32, 0#32, 0, 0#64⟩, froze := none }

/-- Event CTX_BIND (R92, R93, R98, R105, R106): the queues' device-written fields and token mirrors, and FAULT to FAULTVA,
TEAMS and PREQS, start at 0. -/
def execCtxBind (ctx : Nat) (s : State) : Host.Outcome State Fault Refusal :=
  .next <| s.ctxCmd ctx fun st =>
    if st ≠ .free then none
    else some fun s =>
      let a := s.dev.ctxRegs.base + 256 * ctx
      let bad := s.onDev fun d => { d with ctxRegs := { d.ctxRegs with result := 3 } }
      if !s.inMem a 256 || ctx ≥ 4096 then bad
      else
        let b := s.bytesAt a 256
        if !s.entryOk ctx b then bad
        else
          let e := ctxEntryOf b
          match s.queuesOf e.qdesc e.qcount with
          | none => bad
          | some qs =>
            let s := s.onDev fun d => { d with ctxs := d.ctxs ++ [newCtx ctx e qs] }
            let s := qs.foldl (fun s q =>
              (s.put (e.qdesc + 64 * q.q + 0x18) (List.replicate 16 0#8)).put q.tokbase (List.replicate 256 0#8)) s
            (((s.writeFault ctx).put (a + 0x58) (List.replicate 8 0#8))).writeStatus ctx

/-- Event CTX_START (R98, R106): queues with ENABLE become READY. -/
def execCtxStart (ctx : Nat) (s : State) : Host.Outcome State Fault Refusal :=
  .next <| s.ctxCmd ctx fun st =>
    if st ≠ .built then none
    else some fun s =>
      let qs := ((s.ctx? ctx).map fun c => c.queues).getD []
      (qs.filter fun q => q.enable && q.st == .off).foldl (fun s q => s.setQueue ctx q.q fun a => { a with st := .ready })
        (s.setCtxState ctx .active)

/-- Event CTX_SUSPEND (R98, R101): it ends when every team of the context has been saved. -/
def execCtxSuspend (ctx : Nat) (s : State) : Host.Outcome State Fault Refusal :=
  .next <| s.ctxCmd ctx fun st =>
    if st ≠ .active then none
    else some fun s =>
      let s := (s.setCtxState ctx .suspended).requestSave fun t => t.ctx == ctx
      (s.onDev fun d => { d with ctxRegs := { d.ctxRegs with busy := true, run := some (3, ctx, 0) } }).finishCmds

/-- Event CTX_RESUME (R98): the saved teams are placed again (TEAM_RESUME). -/
def execCtxResume (ctx : Nat) (s : State) : Host.Outcome State Fault Refusal :=
  .next <| s.ctxCmd ctx fun st => if st ≠ .suspended then none else some fun s => s.setCtxState ctx .active

/-- Event CTX_THAW (R98): FREEZE.CAUSE is cleared. -/
def execCtxThaw (ctx : Nat) (s : State) : Host.Outcome State Fault Refusal :=
  .next <| s.ctxCmd ctx fun st =>
    if st ≠ .frozen then none
    else some fun s =>
      ((s.updCtx ctx fun c => { c with fault := { c.fault with cause := 0 } }).put (s.dev.ctxRegs.base + 256 * ctx + 12) (bytesOfNat 0 4)).setCtxState ctx .suspended

/-! ## Dying (R98, R383, R395, R408) -/

/-- A bin back in its OFF state, its records gone; what its registers hold stays, but a continuation bin whose records are discarded is
unbound (R377). -/
def Bin.off (b : Bin) : Bin :=
  { b with lr := none, q := [], ringRecs := [], head := 0, tail := 0, st := .off, flush := false
           key := if b.kind = .continuation ∧ !(b.q.isEmpty && b.ringRecs.isEmpty) then 0#32 else b.key }

/-- The context's page requests, bins, pushes, frames and quads are given up. -/
def State.dropWork (s : State) (ctx : Nat) : State :=
  let fr := (s.dev.frames.filter fun f => f.ctx == ctx).map fun f => f.id
  let g := s.gen ctx
  let s := s.onDev fun d => { d with
    preqs := d.preqs.filter fun r => r.ctx != ctx
    ctxs := updIf (fun c => c.id == ctx) (fun c => { c with queues := c.queues.map fun q => { q with win := q.win.filter fun p => p.launched } }) d.ctxs
    cores := d.cores.map fun (n, c) => (n, { c with bins := updIf (fun b => b.ctx == ctx && b.gen == g) (fun b => { b.off with en := false }) c.bins })
    pushes := d.pushes.filter fun p => p.ctx != ctx
    frames := d.frames.filter fun f => f.ctx != ctx
    quads := d.quads.filter fun q => !fr.contains q.frame }
  s.writeCount ctx 0x5C 0

/-- FAULT to FAULTVA as they were before the clk, where a freezing fault of this clk is discarded (R100 case 3). -/
def State.unfreeze (s : State) (ctx : Nat) : State :=
  match (s.ctx? ctx).bind fun c => c.froze with
  | some (clk, r) => if clk = s.dev.clk then s.setFault ctx r else s
  | none => s

/-- Event CTX_KILL (R98, R100 case 3, R101): it ends when the context is FREE. Its teams end as GROUP_END has it. -/
def execCtxKill (ctx : Nat) (s : State) : Host.Outcome State Fault Refusal :=
  .next <| s.ctxCmd ctx fun st =>
    if st = .free ∨ st = .dying then none
    else some fun s =>
      let s := s.onDev fun d => { d with ctxRegs := { d.ctxRegs with busy := true, run := some (6, ctx, 0) } }
      ((s.unfreeze ctx).setCtxState ctx .dying).dropWork ctx

/-- Everything already issued for a dying context is done (R98). -/
def State.drained (s : State) (ctx : Nat) : Bool :=
  let mine := fun (g : Nat) => ((s.group? g).map fun g => g.ctx == ctx).getD false
  (s.dev.teams.all fun t => t.ctx != ctx || t.st == .retired) &&
  (s.dev.groups.all fun g => g.ctx != ctx || (g.sq.isEmpty && g.remote == 0)) &&
  (s.dev.cores.all fun (_, c) => (c.eq ++ c.due).all (fun e => !mine e.grp) && c.cmds.all fun k => !mine k.grp) &&
  (s.dev.results.all fun r => !(mine r.grp) || r.ready || !r.kind.isRemote) &&
  s.dev.link.colls.all fun c => c.ctx != ctx

/-- A core's instruction store without a context's bindings and fetches (R98); a copy that none binds leaves. -/
def Core.without (c : Core) (ctx : Nat) : Core :=
  { c with walks := c.walks.filter fun x => x.1 != ctx
           copies := (c.copies.map fun k => { k with binds := k.binds.filter fun b => b.ctx != ctx }).filter fun k => !k.binds.isEmpty
           fetches := c.fetches.filter fun f => f.ctx != ctx }

/-- Event CONTEXT_DRAIN_COMPLETE (R91, R93, R98): everything the context held is released; its generation rises. -/
def execContextDrainComplete (ctx : Nat) (s : State) : Host.Outcome State Fault Refusal :=
  .next <|
    match s.ctx? ctx with
    | none => s
    | some c =>
      if c.st != .dying || !s.drained ctx then s
      else
        let gs := (s.dev.groups.filter fun g => g.ctx == ctx).map fun g => g.id
        let ts := (s.dev.teams.filter fun t => t.ctx == ctx).map fun t => t.id
        let last := s.dev.ctxs.all fun x => x.id == ctx || x.e.asn != c.e.asn
        let s := s.writeCount ctx 0x58 0
        let s := s.onDev fun d => { d with
          ctxs := d.ctxs.filter fun x => x.id != ctx
          gens := assocSet d.gens ctx ((s.gen ctx + 1) % 2 ^ 20)
          teams := d.teams.filter fun t => t.ctx != ctx
          groups := d.groups.filter fun g => g.ctx != ctx
          clusters := d.clusters.filter fun k => !(d.grids.any fun g => g.ctx == ctx && g.id == k.grid)
          grids := d.grids.filter fun g => g.ctx != ctx
          results := d.results.filter fun r => !gs.contains r.grp
          fwds := d.fwds.filter fun f => !ts.contains f.team
          refills := d.refills.filter fun (_, x, _) => x != ctx
          cores := d.cores.map fun (n, k) => (n, k.without ctx)
          l2tlb := if last then d.l2tlb.filter fun e => e.2.asn != c.e.asn else d.l2tlb }
        let s := s.writeStatus ctx
        match s.dev.ctxRegs.run with
        | some (6, x, _) => if x = ctx then s.onDev fun d => { d with ctxRegs := d.ctxRegs.finish 0 } else s
        | _ => s

end Sys2Proof.Machine
end

