-- ==== Sys2Proof/Machine/Bin.lean ====
section
/-! DEFINITION. The Sheng's bins: records, pushes, refills, launches, and the instructions (R366 to R384). -/

namespace Sys2Proof.Machine

/-! ## Bins -/

def State.bin (s : State) (core n : Nat) : Bin := ((s.core core).bins.find? fun b => b.n == n).getD (Bin.reset n)

/-- A bin changed; the bins of a core are listed by number. -/
def State.updBin (s : State) (core n : Nat) (f : Bin → Bin) : State :=
  s.updCore core fun c =>
    { c with bins := insertBy (fun b => b.n) (f ((c.bins.find? fun b => b.n == n).getD (Bin.reset n))) (c.bins.filter fun b => b.n != n) }

/-- Records held (R366). -/
def Bin.count (b : Bin) : Nat := b.q.length + b.ringRecs.length
/-- Records that the ring can hold (R366, R367). -/
def Bin.ringSize (b : Bin) : Nat := if b.rlog2 = 0 then 0 else 2 ^ b.rlog2
/-- Records that the bin can still take (R369). -/
def Bin.room (b : Bin) : Nat := (if b.ringRecs.isEmpty then 32 - b.q.length else 0) + (b.ringSize - b.ringRecs.length)
/-- The threshold (R367): 0 acts as 1, above 32 as 32. -/
def Bin.threshold (b : Bin) : Nat := if b.thresh = 0 then 1 else min b.thresh 32

/-- A bin of a core that is not OFF and belongs to a context (R375). -/
def State.ctxBins (s : State) (core ctx : Nat) : List Bin :=
  (s.core core).bins.filter fun b => b.st != .off && b.ctx == ctx && b.gen == s.gen ctx

/-- The local bin with a key (R375). -/
def State.keyBin (s : State) (core ctx : Nat) (key : Word) : Option Bin := (s.ctxBins core ctx).find? fun b => b.key == key

/-- The quad that classify has begun to push on a core: its frame, its bin, and the records still to come (R399). -/
def State.quadOn (s : State) (core : Nat) : Option (Nat × Nat × Nat) := (s.core core).quad.filter fun q => (s.frame? q.1).isSome

/-- Records on their way to a bin that have found it open and with room for them: local pushes (R370, R376), and the rest of a quad
(R399). -/
def State.onWay (s : State) (core n : Nat) : Nat :=
  (s.dev.pushes.filter fun p => p.core == core && p.bin == some n).length +
  match s.quadOn core with
  | some (_, b, k) => if b = n then k else 0
  | none => 0

/-- A core's Sheng has accepted a record in this clk (R369). -/
def State.accepted (s : State) (core : Nat) : Bool :=
  (s.core core).bins.any fun b => (b.q ++ b.ringRecs).any fun r => r.at_ == s.dev.clk

/-- The engine operation of a bin's own ring accesses and record reads. -/
def binEng (core n : Nat) : Nat := 2 ^ 60 + 64 * core + n

/-- A push leaves, its token's result done, with a fault, at an address, where it met one. -/
def State.endPush (s : State) (p : Push) (f : Option (BitVec 8 × Nat)) (ts : Nat) : State :=
  let s := (s.onDev fun d => { d with pushes := d.pushes.filter fun x => x.id != p.id }).endEng p.id
  match p.res with
  | none => s
  | some r =>
    let s := match f with
      | some (c, va) => s.updPending r fun x => x.meet c va
      | none => s
    s.resultReady r ts

/-- A result of `BPOP` that waits for a refill of a bin. -/
def Pending.waitsPop (r : Pending) (core n : Nat) : Bool :=
  match r.kind with
  | .pop c b _ _ => c == core && b == n && !r.ready
  | _ => false

/-- A bin goes OFF (R383). Local records still on their way to it, and `BPOP`s that wait for its records, end with bin (0x50) (log 29); of a
`CONT`, which has no token, that is recorded in FAULT, as R374 has it. -/
def State.binOff (s : State) (core n : Nat) : State :=
  let ps := s.dev.pushes.filter fun p => p.core == core && p.bin == some n
  let s := s.updBin core n fun b => { b.off with fault := if ps.any fun p => p.res.isNone then 0x50#8 else b.fault }
  let s := ps.foldl (fun s p => s.endPush p (some (0x50#8, 0)) 0) s
  (s.dev.results.filter fun r => r.waitsPop core n).foldl (fun s r => (s.updPending r.id fun x => x.meet 0x50#8 0).resultReady r.id 0) s

/-- A CLOSING bin that holds no record is OFF (R383). -/
def State.closeBin (s : State) (core n : Nat) : State :=
  let b := s.bin core n
  if b.st == .closing && b.count == 0 then s.binOff core n else s

/-- A bin after records have left it (R370, R377, R379, R383): empty, it is IDLE or OFF, and a continuation bin unbound; threads parked on
it run again. -/
def State.afterLeave (s : State) (core n : Nat) : State :=
  let s := s.updBin core n fun b =>
    if b.count ≠ 0 then b
    else { b with st := if b.st = .faulted ∨ b.st = .closing then b.st else .idle, key := if b.kind = .continuation then 0#32 else b.key }
  (s.closeBin core n).unpark (fun _ => true) (.bin core n) id

/-! ## Acceptance (R369, R370, R373, R374) -/

/-- How the acceptance of a record comes out: with the timestamp of its ring write, or the fault of that and its address. -/
inductive AcceptRes where
  | done (ts : Nat)
  | full
  | fault (code : BitVec 8) (va : Nat)
  | wait
deriving DecidableEq, Repr

/-- A record accepted by a bin (R369): into the queue, or written to the ring as engine operation `eng`. -/
def State.acceptRec (s : State) (core n eng : Nat) (r : BinRec) : State × AcceptRes :=
  let b := s.bin core n
  let held := fun (b : Bin) => { b with st := if b.st = .idle then .holding else b.st }
  if b.ringRecs.isEmpty && b.q.length < 32 then
    (s.updBin core n fun b => held { b with q := b.q ++ [{ r with at_ := s.dev.clk }] }, .done 0)
  else if b.ringRecs.length < b.ringSize then
    match s.engWrite (some core) b.ctx eng (b.ring + 32 * (b.tail % b.ringSize)) (bytesOf r.words) .unitWrite r.pts with
    | (s, .ok _, t) =>
      (s.updBin core n fun b => held { b with ringRecs := b.ringRecs ++ [{ r with words := [], at_ := s.dev.clk, pts := max r.pts t }]
                                              tail := b.tail + 1 }, .done t)
    | (s, .fault c va, _) => (s.updBin core n fun b => { b with fault := c }, .fault c va)
    | (s, .wait _, _) => (s, .wait)
  else (s, .full)

/-- A store that a group sent before a push has no timestamp yet (R373). -/
def State.storesBefore (s : State) (p : Push) : Bool :=
  match s.group? p.grp with
  | none => false
  | some g => g.sq.any fun e => decide (e.id < p.id)

/-- A record of the same stream, or an earlier one of the same thread, has to be accepted by the Sheng before this one (R369, R378). -/
def Push.follows (p x : Push) : Bool :=
  decide (x.id < p.id) && x.core == p.core && x.grp == p.grp && (x.thread == p.thread || x.at_ == p.at_)

/-- The bin that a push has reached: the local one that it found; else its core's node bin with its key (R378). -/
def State.pushBin (s : State) (p : Push) : Option Bin :=
  match p.bin with
  | some n => some (s.bin p.core n)
  | none => if s.coreOn p.core then (s.ctxBins p.core p.ctx).find? fun b => b.kind == .node && b.key == p.key else none

/-- A continuation bin is bound to the PC of the record that it accepts (R377), where it became empty since the record's `CONT`. -/
def State.rebind (s : State) (core n : Nat) (p : Push) : State :=
  s.updBin core n fun b => { b with key := if b.kind = .continuation ∧ b.key = 0#32 then p.key else b.key }

/-- Event RECORD_ACCEPT (R369, R370, R374, R378): a push reaches its Sheng, after the stores that its group sent before it have their
timestamps (R373); one record per clk, and none within a quad (R369, R399). A local push has found its bin open and with room; a remote one
meets the bin as it is now, less the room of the local pushes on their way. -/
def execRecordAccept (core push : Nat) (s : State) : Host.Outcome State Fault Refusal :=
  .next <|
    match s.dev.pushes.find? fun p => p.id == push && p.core == core with
    | none => s
    | some p =>
      if s.dev.pushes.any p.follows || s.storesBefore p || s.accepted core || (s.quadOn core).isSome then s
      else
        match s.pushBin p with
        | none => s.endPush p (some (0x50#8, 0)) 0
        | some b =>
          let remote := p.bin.isNone
          if b.st == .off || b.st == .faulted || (remote && b.st == .closing) then s.endPush p (some (0x50#8, 0)) 0
          else if remote && decide (b.room ≤ s.onWay core b.n) then
            if b.full then s.endPush p (some (0x50#8, 0)) 0 else s
          else
            let pts := max p.pts (((s.group? p.grp).map fun g => g.pts).getD 0)
            match s.acceptRec core b.n p.id { words := p.words, at_ := 0, pixel := none, pts := pts } with
            | (s, .done t) => (s.rebind core b.n p).endPush p none t
            | (s, .fault c va) => s.endPush p (some (c, va)) 0
            | (s, .wait) => s
            | (s, .full) => s

/-! ## Taking records (R369, R379) -/

/-- The oldest record of a bin's queue taken by a `BPOP` (R379): its tile counts it as retired (R399). -/
def State.takePop (s : State) (core n rid : Nat) : State :=
  match (s.bin core n).q with
  | [] => s
  | r :: rest =>
    let s := s.updBin core n fun b => { b with q := rest }
    let s := match r.pixel with
      | some p => s.pixelDone p
      | none => s
    (s.updPending rid fun x => { x with ready := true, val := bytesOf r.words, ts := max x.ts r.pts }).afterLeave core n

/-- A `BPOP` that waits takes the first record of a bin's queue (R379). -/
def State.servePop (s : State) (core n : Nat) : State :=
  match s.dev.results.find? fun x => x.waitsPop core n with
  | some x => s.takePop core n x.id
  | none => s

/-- Event RING_REFILL (R369, R373, R374): the record at the ring's head moves to the queue, read after it was written; none once the bin has
launched in this clk (R384). -/
def execRingRefill (core bin : Nat) (s : State) : Host.Outcome State Fault Refusal :=
  .next <|
    let b := s.bin core bin
    match b.ringRecs with
    | [] => s
    | r :: rest =>
      if b.q.length ≥ 32 || b.st == .faulted || b.st == .off || b.decided == some s.dev.clk then s
      else match s.engReadAt (some core) b.ctx (binEng core bin) (b.ring + 32 * (b.head % b.ringSize)) 32 .unitRead r.pts with
        | (s, .wait _, _) => s
        | (s, .fault c _, _) => (s.updBin core bin fun b => { b with st := .faulted, fault := c }).endEng (binEng core bin)
        | (s, .ok _, d, _) =>
          let s := (s.updBin core bin fun b => { b with q := b.q ++ [{ r with words := wordsOf d }], ringRecs := rest, head := b.head + 1 }).endEng
            (binEng core bin)
          s.unpark (fun _ => true) (.bin core bin) id

/-! ## Enabling (R368, R383) -/

/-- The launch record of a bin is not refused (R368), its declarations apart. -/
def State.binRecordOk (s : State) (b : Bin) (r : LaunchRec) : Bool :=
  s.recordOk b.ctx r && r.teamGroups == 1 && r.clw == 1 && r.clh == 1 && !r.coop && r.role 0 == 0

/-- What a write of EN = 1 to an OFF bin refuses before it reads the launch record, or without it (R368). -/
def State.binRefused (s : State) (core : Nat) (b : Bin) : Bool :=
  let st := s.ctxState b.ctx
  !s.inMem b.lrec 256 || b.kind == .off || (1 ≤ b.rlog2 && b.rlog2 ≤ 3) || b.rlog2 > 20 || s.gen b.ctx != b.gen || st == .free || st == .dying ||
    (s.core core).bins.any fun x => x.n != b.n && x.st != .off && b.key != 0#32 && x.key == b.key

/-- The bin's record, with its declarations, is accepted or refused; while a page of them is awaited, the record read is kept. A refusal clears
EN and leaves the other fields as written: DESIGN CHOICE (log 42). -/
def State.enableBin (s : State) (core bin : Nat) (b : Bin) (r : LaunchRec) : State :=
  let refuse := fun (s : State) => (s.updBin core bin fun b => { b with en := false, lr := none, fault := 0x50#8 }).endEng (binEng core bin)
  if !r.inRange then refuse s
  else match (if r.tdcount = 0 then (s, EngRes.ok .nil, r) else s.readDecls b.ctx (binEng core bin) r) with
    | (s, .wait _, _) => s.updBin core bin fun b => { b with lr := some r }
    | (s, .fault _ _, _) => refuse s
    | (s, .ok _, r) =>
      if s.binRecordOk b r then
        (s.updBin core bin fun b => { b with lr := some r, st := .idle, q := [], ringRecs := [], head := 0, tail := 0,
                                             flush := false }).endEng (binEng core bin)
      else refuse s

/-- Event BIN_ENABLE (R368): EN is 1 and the bin OFF: the launch record is read, once. -/
def execBinEnable (core bin : Nat) (s : State) : Host.Outcome State Fault Refusal :=
  .next <|
    let b := s.bin core bin
    if b.st != .off || !b.en then s
    else match b.lr with
      | some r => s.enableBin core bin b r
      | none =>
        if s.binRefused core b then (s.updBin core bin fun b => { b with en := false, fault := 0x50#8 }).endEng (binEng core bin)
        else s.enableBin core bin b { launchOf (s.bytesAt b.lrec 256) with gx := 1, gy := 1, gz := 1 }

/-- Event BIN_DISABLE (R383): a write of EN = 0. Records that a FAULTED bin discards hold no pixel any longer (R395), and have left it
(R370). -/
def execBinDisable (core bin : Nat) (s : State) : Host.Outcome State Fault Refusal :=
  .next <|
    let b := s.bin core bin
    let s := s.updBin core bin fun b => { b with en := false }
    match b.st with
    | .off => (s.updBin core bin fun b => { b with lr := none }).endEng (binEng core bin)
    | .closing => s
    | .faulted => (((b.q ++ b.ringRecs).filterMap fun r => r.pixel).foldl (fun s p => s.pixelDone p) (s.binOff core bin)).unpark
        (fun _ => true) (.bin core bin) id
    | _ => (s.updBin core bin fun b => { b with st := .closing }).closeBin core bin

/-! ## Launches (R371, R372) -/

/-- A thread can issue. -/
def Group.hasRunnable (g : Group) : Bool := !g.parked && g.threads.any fun t => !t.ended && t.wait.isNone && t.park.isNone

/-- The bin grid of a bin (R368): it has launched, and no group of it has a runnable thread (R371 condition 3). A thread of a unit that
is being streamed is. -/
def State.binIdle (s : State) (b : Bin) : Bool :=
  let gs := (s.dev.grids.filter fun g => g.src == .bin b.ctx b.lrec).map fun g => g.id
  !gs.isEmpty && !(s.dev.groups.any fun g => gs.contains g.grid && s.residentTeam g.team &&
    (g.hasRunnable || s.dev.streams.any fun x => x.grp == g.id))

/-- BTIMEOUT clk have passed since the oldest record held was accepted (R371 condition 2). -/
def Bin.timedOut (b : Bin) (clk : Nat) : Bool :=
  b.btimeout != 0 && match b.q ++ b.ringRecs with
    | r :: _ => decide (r.at_ + b.btimeout ≤ clk)
    | [] => false

/-- The bin is to launch a group (R371); it decides on a launch once a clk (R384). -/
def State.binDue (s : State) (core : Nat) (b : Bin) : Bool :=
  (b.st == .holding || b.st == .launching || b.st == .closing) && b.count != 0 && b.decided != some s.dev.clk &&
  (b.st == .launching || decide (b.count ≥ b.threshold) || b.timedOut s.dev.clk || b.flush || s.binIdle b) &&
  (!b.order || !(s.dev.groups.any fun g => g.fromBin == some (core, b.n) && s.residentTeam g.team))

/-- A delayed launch (R383). -/
def State.delayBin (s : State) (core n : Nat) : State :=
  s.updBin core n fun b => { b with st := if b.st = .holding then .launching else b.st }

/-- The seats of a bin's group on its core, where it is placed at once (R128, R372). -/
def State.binSeats (s : State) (core : Nat) (b : Bin) (r : LaunchRec) : Option (List (Nat × Nat)) :=
  if s.ctxState b.ctx == .active && decide (b.q.length ≥ min 32 b.count) && s.coreReady core && s.quotaOk b.ctx 1 (r.saveBytes (s.qacc b.ctx)) then
    ((s.occ core).accept s.fuse.reeds r).map fun x => x.1
  else none

/-- The threads of a launched group (R372, R400): one record each, the rest ended. -/
def binThreads (b : Bin) (r : LaunchRec) (clk : Nat) (recs : List BinRec) : List Thread :=
  let t := Thread.fresh (if b.kind = .continuation then b.key else r.entry) clk
  (List.range 32).map fun i => match recs[i]? with
    | some x => { t with v := msets [] 0 x.words, helper := b.kind == .material && (x.words.getD 7 0#32).getLsbD 0, pixel := x.pixel }
    | none => { t with ended := true }

/-- The grid of a bin's launches: its bin grid's, or a new one (R368). -/
def State.binGrid (s : State) (b : Bin) (r : LaunchRec) (prio : Nat) : Nat × State :=
  match s.dev.grids.find? fun g => g.src == .bin b.ctx b.lrec && g.lr == r with
  | some g => (g.id, s)
  | none =>
    let (n, s) := s.fresh
    (n, s.onDev fun d => { d with nextOrder := d.nextOrder + 1,
                                  grids := d.grids ++ [{ newGrid n b.ctx (.bin b.ctx b.lrec) r r.args prio with st := .running, order := some d.nextOrder }] })

/-- A launch (R372, R373). -/
def State.binLaunch (s : State) (core : Nat) (b : Bin) (r : LaunchRec) (seats : List (Nat × Nat)) : State :=
  let recs := b.q.take 32
  let prio := min (((s.ctx? b.ctx).map fun c => c.e.prio).getD 0) r.prio
  let (gid, s) := s.binGrid b r prio
  match s.grid? gid with
  | none => s
  | some gr =>
    let (cid, s) := s.fresh
    let cl : Cluster := { id := cid, grid := gid, cx := 0, cy := 0, cz := 0, idx := gr.nextCl, st := .placed, origin := core,
                          placedAt := s.dev.clk, cb := List.replicate 4 ⟨none, false, 0⟩, mmac := [] }
    let s := (s.onDev fun d => { d with clusters := d.clusters ++ [cl] }).updGrid gid fun g => { g with nextCl := g.nextCl + 1 }
    let first := s.dev.nextId + 1
    let s := s.placeTeam gr cid 0 0 core seats
    let s := s.updGroup first fun g => { g with
      threads := (binThreads b r s.dev.clk recs).zipWith (fun t o => { t with due := o.due }) g.threads
      prio := prio, fromBin := some (core, b.n), pts := max g.pts (recs.foldl (fun m x => max m (x.pts + 1)) 0) }
    let s := s.updCore core fun c => { c with launches := c.launches + 1#32 }
    let s := s.updBin core b.n fun b => { b with q := b.q.drop 32, flush := false, decided := some s.dev.clk, st := if b.st = .launching then .holding else b.st }
    (s.afterLeave core b.n).writeTeams b.ctx

/-- Event BIN_LAUNCH (R371, R372, R383). -/
def execBinLaunch (core bin : Nat) (s : State) : Host.Outcome State Fault Refusal :=
  .next <|
    let b := s.bin core bin
    if !s.binDue core b then s
    else match b.lr with
      | none => s
      | some r =>
        match s.binSeats core b r with
        | none => s.delayBin core bin
        | some seats => s.binLaunch core b r seats

/-- Event BTIMEOUT (R371 condition 2): a launch is due. -/
def execBtimeout (core bin : Nat) (s : State) : Host.Outcome State Fault Refusal :=
  .next <|
    let b := s.bin core bin
    if b.timedOut s.dev.clk && s.binDue core b then s.delayBin core bin else s

/-! ## The instructions (R375 to R382) -/

/-- A record on its way to a Sheng. -/
def State.addPush (s : State) (st : Stream) (g : Group) (t : Nat) (core : Nat) (bin : Option Nat) (key : Word) (ws : List Word) (sb : Option (BitVec 3)) :
    State :=
  let (res, s) := match sb with
    | some n => let (i, s) := s.addResult st.grp t (some n.toNat) st.unit .token false; (some i, s)
    | none => (none, s)
  let (id, s) := s.fresh
  s.onDev fun d => { d with pushes := d.pushes ++
    [{ id := id, origin := g.core, core := core, bin := bin, key := key, words := ws, grp := st.grp, thread := t, ctx := g.ctx, res := res, pts := g.pts,
       at_ := s.dev.clk }] }

/-- A local push (R370, R376): the bin's state, its room, then `go`. -/
def State.localPush (s : State) (st : Stream) (g : Group) (t : Nat) (b : Bin) (go : State → SRes) : SRes :=
  if b.st == .closing || b.st == .faulted then .plain s 0x50#8
  else if s.onWay g.core b.n < b.room then go s
  else if b.full then .plain s 0x50#8
  else s.stopOr (s.park st.grp t (.bin g.core b.n))

/-- A push waits for room in its group's list of results, where it has a token (R36, R376). -/
def State.pushUnit (s : State) (sb : Option (BitVec 3)) (f : Stream → State → Group → Nat → Thread → SRes) :
    Host.Outcome State Fault Refusal :=
  s.perThread fun st s t th =>
    match s.group? st.grp with
    | none => .ok s
    | some g => match sb with
      | some n => if s.hasRoom st.grp n.toNat then f st s g t th else .stop s
      | none => f st s g t th

/-- The record of a push: 8 registers (R376). -/
def recordOf (th : Thread) (a : BitVec 6) : List Word := mgets th.v a.toNat 8

/-- `BPUSH` (R376, R382). -/
def execBpush (a : VReg) (b : Opnd) (sb : BitVec 3) (s : State) : Host.Outcome State Fault Refusal :=
  s.pushUnit (some sb) fun st s g t th =>
    if th.helper then .ok s
    else match (s.ctxBins g.core g.ctx).find? fun x => x.kind != .continuation && x.key == rd g th b with
      | none => .plain s 0x50#8
      | some x => s.localPush st g t x fun s => .ok (s.addPush st g t g.core (some x.n) (rd g th b) (recordOf th a) (some sb))

/-- `WGPUSH` (R378, R382). -/
def execWgpush (a : VReg) (b : Opnd) (sb : BitVec 3) (s : State) : Host.Outcome State Fault Refusal :=
  s.pushUnit (some sb) fun st s g t th =>
    let w := rd g th b
    let node := (w.extractLsb' 0 24).setWidth 32
    if th.helper then .ok s
    else match (s.ctxBins g.core g.ctx).find? fun x => x.kind == .node && x.key == node with
      | some x => s.localPush st g t x fun s => .ok (s.addPush st g t g.core (some x.n) node (recordOf th a) (some sb))
      | none => .ok (s.addPush st g t (w.extractLsb' 24 8).toNat none node (recordOf th a) (some sb))

/-- A record of a PC is on its way to a continuation bin that has become empty since. -/
def State.contOnWay (s : State) (core n : Nat) (pc : Word) : Bool :=
  s.dev.pushes.any fun p => p.core == core && p.bin == some n && p.key == pc

/-- The bin of a `CONT` (R377), bound to the PC where it was not; `none` for bin (0x50). A bin that records of the PC are on their way to goes
before those of item 2: DESIGN CHOICE (log 44). -/
def State.contBin (s : State) (g : Group) (pc : Word) : Option (Bin × State) :=
  let take := fun (b : Bin) => (b, s.updBin g.core b.n fun b => { b with key := pc })
  match s.keyBin g.core g.ctx pc with
  | some b => if b.kind == .continuation then some (b, s) else none
  | none =>
    let base := ((s.grid? g.grid).map fun x => x.lr.codebase).getD 0
    let open_ := (s.ctxBins g.core g.ctx).filter fun b => b.kind == .continuation && b.key == 0#32
    match open_.find? fun b => s.contOnWay g.core b.n pc with
    | some b => some (take b)
    | none => (open_.find? fun b => s.onWay g.core b.n == 0 && (b.lr.map fun r => r.codebase == base).getD false).map take

/-- `CONT` (R376, R377, R382): the thread then ends as under `EXIT`. -/
def execCont (a : VReg) (b : Opnd) (s : State) : Host.Outcome State Fault Refusal :=
  s.onStream fun st _ =>
    let (s', kept) := runEach st (fun s t th =>
      match s.group? st.grp with
      | none => .ok s
      | some g =>
        if th.helper then .leave (s.endThread st.grp t)
        else
          let pc := rd g th b
          if pc.toNat % 4 ≠ 0 || pc = 0#32 then .plain s 0x04#8
          else match s.contBin g pc with
            | none => .plain s 0x50#8
            | some (x, s) => s.localPush st g t x fun s =>
                .leave ((s.addPush st g t g.core (some x.n) pc (recordOf th a) none).endThread st.grp t)) st.threads s
    (s'.advance st kept).recheck st.grp

/-- `BPOP` (R379). -/
def execBpop (d : VReg) (a b : Opnd) (sb : BitVec 3) (s : State) : Host.Outcome State Fault Refusal :=
  s.perThread fun st s t th =>
    match s.group? st.grp with
    | none => .ok s
    | some g =>
      if !s.hasRoom st.grp sb.toNat then .stop s
      else
        let bin := s.keyBin g.core g.ctx (rd g th b)
        let n := (bin.map fun x => x.n).getD 64
        let (id, s) := s.addResult st.grp t (some sb.toNat) st.unit (.pop g.core n a (.v d)) false
        match bin with
        | none => .ok (s.resultReady id 0)
        | some x =>
          let waiting := (s.dev.results.filter fun r => r.waitsPop g.core n).length - 1
          if x.count = 0 then .ok (s.resultReady id 0)
          else if x.q.isEmpty || waiting ≠ 0 then .ok s
          else .ok (s.takePop g.core n id)

/-- `BFLUSH` (R380). -/
def execBflush (b : Opnd) (s : State) : Host.Outcome State Fault Refusal :=
  s.perThread fun st s _ th =>
    match s.group? st.grp with
    | none => .ok s
    | some g =>
      match s.keyBin g.core g.ctx (rd g th b) with
      | none => .ok s
      | some x => .ok (if x.count = 0 then s else s.updBin g.core x.n fun y => { y with flush := true })

/-- The number of a bin's state (R367). -/
def BinState.code : BinState → Nat
  | .off => 0 | .idle => 1 | .holding => 2 | .launching => 3 | .closing => 4 | .faulted => 5

/-- `BQUERY` (R381). -/
def execBquery (d b : Opnd) (sb : BitVec 3) (s : State) : Host.Outcome State Fault Refusal :=
  s.perThread fun st s t th =>
    match s.group? st.grp with
    | none => .ok s
    | some g =>
      if !s.hasRoom st.grp sb.toNat then .stop s
      else
        let w := match s.keyBin g.core g.ctx (rd g th b) with
          | none => 0#32
          | some x => BitVec.ofNat 32 (x.count + x.st.code * 2 ^ 21 + 2 ^ 24)
        let (id, s) := s.addResult st.grp t (some sb.toNat) st.unit (.words d [w] 0#6) false
        .ok (s.resultReady id 0)

end Sys2Proof.Machine
end

