-- ==== Sys2Proof/Machine/Float.lean ====
section
/-! DEFINITION. Float vector and four-operand instructions (R190 to R197). -/

namespace Sys2Proof.Machine

/-- The fault of an element's exceptions, where enabled (R190): IV before DZ (R16). -/
def fpFault (th : Thread) (f : FFlags) : Option (BitVec 8) :=
  if f &&& flagIV ≠ 0#6 && th.fptraps.getLsbD 0 then some 0x30#8
  else if f &&& flagDZ ≠ 0#6 && th.fptraps.getLsbD 1 then some 0x31#8
  else none

/-- A floating-point unit (R190, R194): the destination and the flags, or the enabled fault with neither. -/
def State.fpUnit (s : State) (d : Opnd) (f : Stream → Group → Thread → Word × FFlags) : Host.Outcome State Fault Refusal :=
  s.regsUnit fun st g t th =>
    let (x, fl) := f st g th
    match fpFault th fl with
    | some c => .fault c
    | none => .ok ((wr g t d x).updThread t fun y => { y with fpflags := y.fpflags ||| fl })

/-- An element of an operation: format, rounding mode, saturation, and the bits of its operands. -/
abbrev Elem := Fmt → BitVec 2 → Bool → Nat → Nat → Nat → Nat × FFlags

/-- An exact value's result, with the exceptions of the operation (R187, R189). -/
def Fmt.finish (f : Fmt) (mode : BitVec 2) (sat : Bool) (x : Ex × FFlags) : Nat × FFlags :=
  let (b, fl) := f.result mode sat x.1
  (b, x.2 ||| fl)

/-- The FP32 form of an element, or the two elements of a packed pair (R70, R195). -/
def scalar32 (e : Elem) (mode : BitVec 2) (sat : Bool) (a b c : Word) : Word × FFlags :=
  let (x, fl) := e fp32 mode sat a.toNat b.toNat c.toNat
  (BitVec.ofNat 32 x, fl)
def packed (f : Fmt) (e : Elem) (mode : BitVec 2) (sat : Bool) (a b c : Word) : Word × FFlags :=
  let (x, fx) := e f mode sat (a.toNat % 65536) (b.toNat % 65536) (c.toNat % 65536)
  let (y, fy) := e f mode sat (a.toNat / 65536) (b.toNat / 65536) (c.toNat / 65536)
  (BitVec.ofNat 32 (x + 65536 * y), fx ||| fy)

/-- The elements of R193 and R197. -/
def elAdd : Elem := fun f m sat a b _ => f.finish m sat (exAdd m (f.decode a) (f.decode b))
def elSub : Elem := fun f m sat a b _ => f.finish m sat (exAdd m (f.decode a) (exNeg (f.decode b)))
def elMul : Elem := fun f m sat a b _ => f.finish m sat (exMul (f.decode a) (f.decode b))
def elMin : Elem := fun f _ sat a b _ => f.finish 0#2 sat (f.decode (f.minNum a b), 0#6)
def elMax : Elem := fun f _ sat a b _ => f.finish 0#2 sat (f.decode (f.maxNum a b), 0#6)
def elAbs : Elem := fun f _ _ a _ _ => (f.abs a, 0#6)
def elNeg : Elem := fun f _ _ a _ _ => (f.neg a, 0#6)
def elDiv : Elem := fun f m sat a b _ => f.finish m sat (exDiv (f.decode a) (f.decode b))
def elSqrt : Elem := fun f m sat a _ _ => f.finish m sat (exSqrt (f.decode a))
def elRnd : Elem := fun f m sat a _ _ => f.finish m sat (exRnd m (f.decode a), 0#6)
def elFract : Elem := fun f _ sat a _ _ => f.finish 1#2 sat (exFract (f.decode a))
def elFma : Elem := fun f m sat a b c => f.finish m sat (exFma m (f.decode a) (f.decode b) (f.decode c))
def elFms : Elem := fun f m sat a b c => f.finish m sat (exFma m (f.decode a) (f.decode b) (exNeg (f.decode c)))
def elFnma : Elem := fun f m sat a b c => f.finish m sat (exFma m (exNeg (f.decode a)) (f.decode b) (f.decode c))
def elClamp : Elem := fun f _ sat a b c => f.finish 0#2 sat (f.decode (f.minNum (f.maxNum a b) c), 0#6)

/-- A float instruction of one or two operands, and one of three v operands (R193, R197). -/
def State.fp2 (s : State) (d a b : Opnd) (e : BitVec 2 → Bool → Word → Word → Word → Word × FFlags) :
    Host.Outcome State Fault Refusal :=
  s.fpUnit d fun st g th => e st.rnd st.sat (rd g th a) (rd g th b) 0#32
def State.fp1 (s : State) (d a : Opnd) (e : BitVec 2 → Bool → Word → Word → Word → Word × FFlags) :
    Host.Outcome State Fault Refusal :=
  s.fpUnit d fun st g th => e st.rnd st.sat (rd g th a) 0#32 0#32
def State.fp3 (s : State) (d a b c : VReg) (e : BitVec 2 → Bool → Word → Word → Word → Word × FFlags) :
    Host.Outcome State Fault Refusal :=
  s.fpUnit (.v d) fun st g th => e st.rnd st.sat (rd g th (.v a)) (rd g th (.v b)) (rd g th (.v c))

/-- `FADD_F32` (R194). -/
def execFaddF32 (d a b : Opnd) (s : State) : Host.Outcome State Fault Refusal := s.fp2 d a b (scalar32 elAdd)

/-- `FADD_F16X2` (R195). -/
def execFaddF16x2 (d a b : Opnd) (s : State) : Host.Outcome State Fault Refusal := s.fp2 d a b (packed fp16 elAdd)

/-- `FADD_BF16X2` (R195). -/
def execFaddBf16x2 (d a b : Opnd) (s : State) : Host.Outcome State Fault Refusal := s.fp2 d a b (packed bf16 elAdd)

/-- `FSUB_F32` (R194). -/
def execFsubF32 (d a b : Opnd) (s : State) : Host.Outcome State Fault Refusal := s.fp2 d a b (scalar32 elSub)

/-- `FSUB_F16X2` (R195). -/
def execFsubF16x2 (d a b : Opnd) (s : State) : Host.Outcome State Fault Refusal := s.fp2 d a b (packed fp16 elSub)

/-- `FSUB_BF16X2` (R195). -/
def execFsubBf16x2 (d a b : Opnd) (s : State) : Host.Outcome State Fault Refusal := s.fp2 d a b (packed bf16 elSub)

/-- `FMUL_F32` (R194). -/
def execFmulF32 (d a b : Opnd) (s : State) : Host.Outcome State Fault Refusal := s.fp2 d a b (scalar32 elMul)

/-- `FMUL_F16X2` (R195). -/
def execFmulF16x2 (d a b : Opnd) (s : State) : Host.Outcome State Fault Refusal := s.fp2 d a b (packed fp16 elMul)

/-- `FMUL_BF16X2` (R195). -/
def execFmulBf16x2 (d a b : Opnd) (s : State) : Host.Outcome State Fault Refusal := s.fp2 d a b (packed bf16 elMul)

/-- `FMIN_F32` (R194). -/
def execFminF32 (d a b : Opnd) (s : State) : Host.Outcome State Fault Refusal := s.fp2 d a b (scalar32 elMin)

/-- `FMIN_F16X2` (R194). -/
def execFminF16x2 (d a b : Opnd) (s : State) : Host.Outcome State Fault Refusal := s.fp2 d a b (packed fp16 elMin)

/-- `FMIN_BF16X2` (R194). -/
def execFminBf16x2 (d a b : Opnd) (s : State) : Host.Outcome State Fault Refusal := s.fp2 d a b (packed bf16 elMin)

/-- `FMAX_F32` (R194). -/
def execFmaxF32 (d a b : Opnd) (s : State) : Host.Outcome State Fault Refusal := s.fp2 d a b (scalar32 elMax)

/-- `FMAX_F16X2` (R194). -/
def execFmaxF16x2 (d a b : Opnd) (s : State) : Host.Outcome State Fault Refusal := s.fp2 d a b (packed fp16 elMax)

/-- `FMAX_BF16X2` (R194). -/
def execFmaxBf16x2 (d a b : Opnd) (s : State) : Host.Outcome State Fault Refusal := s.fp2 d a b (packed bf16 elMax)

/-- `FABS_F32` (R194). -/
def execFabsF32 (d a : Opnd) (s : State) : Host.Outcome State Fault Refusal := s.fp1 d a (scalar32 elAbs)

/-- `FABS_F16X2` (R194). -/
def execFabsF16x2 (d a : Opnd) (s : State) : Host.Outcome State Fault Refusal := s.fp1 d a (packed fp16 elAbs)

/-- `FABS_BF16X2` (R194). -/
def execFabsBf16x2 (d a : Opnd) (s : State) : Host.Outcome State Fault Refusal := s.fp1 d a (packed bf16 elAbs)

/-- `FNEG_F32` (R194). -/
def execFnegF32 (d a : Opnd) (s : State) : Host.Outcome State Fault Refusal := s.fp1 d a (scalar32 elNeg)

/-- `FNEG_F16X2` (R194). -/
def execFnegF16x2 (d a : Opnd) (s : State) : Host.Outcome State Fault Refusal := s.fp1 d a (packed fp16 elNeg)

/-- `FNEG_BF16X2` (R194). -/
def execFnegBf16x2 (d a : Opnd) (s : State) : Host.Outcome State Fault Refusal := s.fp1 d a (packed bf16 elNeg)

/-- `FDIV_F32` (R194). -/
def execFdivF32 (d a b : Opnd) (s : State) : Host.Outcome State Fault Refusal := s.fp2 d a b (scalar32 elDiv)

/-- `FSQRT_F32` (R194). -/
def execFsqrtF32 (d a : Opnd) (s : State) : Host.Outcome State Fault Refusal := s.fp1 d a (scalar32 elSqrt)

/-- `FRND_F32` (R196). -/
def execFrndF32 (d a : Opnd) (s : State) : Host.Outcome State Fault Refusal := s.fp1 d a (scalar32 elRnd)

/-- `FFRACT_F32` (R196). -/
def execFfractF32 (d a : Opnd) (s : State) : Host.Outcome State Fault Refusal := s.fp1 d a (scalar32 elFract)

/-- `FMA_F32` (R197). -/
def execFmaF32 (d a b c : VReg) (s : State) : Host.Outcome State Fault Refusal := s.fp3 d a b c (scalar32 elFma)

/-- `FMS_F32` (R197). -/
def execFmsF32 (d a b c : VReg) (s : State) : Host.Outcome State Fault Refusal := s.fp3 d a b c (scalar32 elFms)

/-- `FNMA_F32` (R197). -/
def execFnmaF32 (d a b c : VReg) (s : State) : Host.Outcome State Fault Refusal := s.fp3 d a b c (scalar32 elFnma)

/-- `FCLAMP_F32` (R197). -/
def execFclampF32 (d a b c : VReg) (s : State) : Host.Outcome State Fault Refusal := s.fp3 d a b c (scalar32 elClamp)

/-- `FMA_F16X2` (R197). -/
def execFmaF16x2 (d a b c : VReg) (s : State) : Host.Outcome State Fault Refusal := s.fp3 d a b c (packed fp16 elFma)

/-- `FMA_BF16X2` (R197). -/
def execFmaBf16x2 (d a b c : VReg) (s : State) : Host.Outcome State Fault Refusal := s.fp3 d a b c (packed bf16 elFma)

/-- `FMS_F16X2` (R197). -/
def execFmsF16x2 (d a b c : VReg) (s : State) : Host.Outcome State Fault Refusal := s.fp3 d a b c (packed fp16 elFms)

/-- `FMS_BF16X2` (R197). -/
def execFmsBf16x2 (d a b c : VReg) (s : State) : Host.Outcome State Fault Refusal := s.fp3 d a b c (packed bf16 elFms)

end Sys2Proof.Machine
end

