-- ==== Sys2Proof/Machine/Raster.lean ====
section
/-! DEFINITION. Frame records (R385) and rasterisation: clipping, snapping, coverage, depth, owners (R389 to R392). -/

namespace Sys2Proof.Machine

/-! ## Frame records (R385) -/

/-- A frame record from its 64 bytes. -/
def frameOf (b : List Byte) : FrameRec :=
  let w := fun (o : Nat) => BitVec.ofNat 32 (fld b o 4)
  { surf := fld b 0x00 8, width := fld b 0x08 2, height := fld b 0x0A 2, ctrl := w 0x0C, sx := w 0x10, sy := w 0x14,
    ox := w 0x18, oy := w 0x1C, cleard := w 0x20, sigq := w 0x24, mtab := fld b 0x28 8, sealword := fld b 0x30 8,
    cltab := fld b 0x38 8 }

def FrameRec.dcmp (r : FrameRec) : Nat := field r.ctrl.toNat 2 0
def FrameRec.cull (r : FrameRec) : Nat := field r.ctrl.toNat 4 3
def FrameRec.torg (r : FrameRec) : Nat := field r.ctrl.toNat 15 8

/-- An FP32 word is finite. -/
def finite32 (w : Word) : Bool := decide (w.toNat % 2 ^ 31 < 0x7F800000)

/-- A frame record is not malformed, for a context with `qcount` queues (R385). -/
def FrameRec.ok (r : FrameRec) (qcount : Nat) : Bool :=
  field r.ctrl.toNat 7 5 == 0 && field r.ctrl.toNat 31 16 == 0 && r.cull != 3 && decide (r.torg ≤ 191) &&
  field r.sigq.toNat 31 21 == 0 && r.surf % 4096 == 0 && r.mtab % 16 == 0 && r.sealword % 4 == 0 && r.cltab % 32 == 0 &&
  [r.width, r.height].all (fun n => decide (8 ≤ n ∧ n ≤ 16384) && n % 8 == 0) &&
  [r.sx, r.sy, r.ox, r.oy, r.cleard].all finite32 &&
  (!r.sigq.getLsbD 20 || decide (field r.sigq.toNat 13 0 < qcount))

/-- Visibility tiles of a frame (R394). -/
def FrameRec.tiles (r : FrameRec) : Nat := r.width / 8 * (r.height / 8)

/-- The owner of the screen tile that holds a pixel (R392). -/
def State.ownerOf (s : State) (r : FrameRec) (px py : Nat) : Nat :=
  let l := (List.range 192).filter s.coreOn
  l.getD ((r.torg + px / 64 + 3 * (py / 64)) % l.length) 0

/-- The owner of a visibility tile. -/
def State.tileOwner (s : State) (r : FrameRec) (i : Nat) : Nat :=
  s.ownerOf r (8 * (i % (r.width / 8))) (8 * (i / (r.width / 8)))

/-! ## Vertices -/

/-- RoundF32(x, 0), as a value. -/
def r32 (x : Ex) : Ex := val32 (roundF32 0#2 x)
def addR (a b : Ex) : Ex := r32 (exAdd 0#2 a b).1
def mulR (a b : Ex) : Ex := r32 (exMul a b).1
def divR (a b : Ex) : Ex := r32 (exDiv a b).1
def fmaR (a b c : Ex) : Ex := r32 (exFma 0#2 a b c).1
def exSub (a b : Ex) : Ex := (exAdd 0#2 a (exNeg b)).1
def exProd (a b : Ex) : Ex := (exMul a b).1
/-- An integer as a value. -/
def exInt (x : Int) : Ex := exOfInt x 0 false

/-- A clip-space vertex (R387). -/
structure Vtx where
  x : Ex
  y : Ex
  z : Ex
  w : Ex
deriving DecidableEq, Repr

/-- The order of two values, −1, 0 or 1; `none` where either is a NaN. -/
def exCmp (a b : Ex) : Option Int :=
  let k := fun (x : Ex) => match x with
    | .nan => (0 : Int)
    | .inf n => if n then -1 else 1
    | .num _ _ _ => 0
  if a = .nan ∨ b = .nan then none
  else if k a ≠ k b then some (if k a < k b then -1 else 1)
  else match exSub a b with
    | .num n m _ => some (if m = 0 then 0 else if n then -1 else 1)
    | _ => some 0

def exLt (a b : Ex) : Bool := exCmp a b == some (-1)
def exLe (a b : Ex) : Bool := exCmp a b == some (-1) || exCmp a b == some 0

/-- The vertex lies outside one of the six planes of R390 item 1. -/
def Vtx.outside (v : Vtx) : List Bool :=
  [exLt v.z (exInt 0), exLt v.w v.z, exLt v.x (exNeg v.w), exLt v.w v.x, exLt v.y (exNeg v.w), exLt v.w v.y]

/-- A screen coordinate (R389): the quotient rounded, then product and sum rounded once. -/
def screen (x w sc off : Ex) : Ex := fmaR (divR x w) sc off

def FrameRec.screenX (r : FrameRec) (v : Vtx) : Ex := screen v.x v.w (val32 r.sx) (val32 r.ox)
def FrameRec.screenY (r : FrameRec) (v : Vtx) : Ex := screen v.y v.w (val32 r.sy) (val32 r.oy)

/-- Within the guard band in one axis (R390 item 2). -/
def inBand (x : Ex) : Bool := exLe (exInt (-16384)) x && exLt x (exInt 32768)

/-- The vertex needs no clipping (R390 item 2): not w ≤ 0, z < 0 or z > w, which a NaN meets none of, and in the guard band. -/
def FrameRec.whole (r : FrameRec) (v : Vtx) : Bool :=
  !exLe v.w (exInt 0) && !exLt v.z (exInt 0) && !exLt v.w v.z && inBand (r.screenX v) && inBand (r.screenY v)

/-! ## Clipping (R390) -/

/-- The planes in their order, as signed distances: near, far, then the four guard-band planes. -/
def FrameRec.planes (r : FrameRec) : List (Vtx → Ex) :=
  let lo := fun (x w : Vtx → Ex) (sc off : Word) (v : Vtx) =>
    (exAdd 0#2 (exProd (x v) (val32 sc)) (exProd ((exAdd 0#2 (val32 off) (exInt 16384)).1) (w v))).1
  let hi := fun (x w : Vtx → Ex) (sc off : Word) (v : Vtx) =>
    exSub (exProd (exSub (exInt 32768) (val32 off)) (w v)) (exProd (x v) (val32 sc))
  [fun v => v.z, fun v => exSub v.w v.z, lo Vtx.x Vtx.w r.sx r.ox, hi Vtx.x Vtx.w r.sx r.ox,
   lo Vtx.y Vtx.w r.sy r.oy, hi Vtx.y Vtx.w r.sy r.oy]

/-- The new vertex between a and b (R390 item 3). -/
def newVtx (d : Vtx → Ex) (a b : Vtx) : Vtx :=
  let t := divR (d a) (exSub (d a) (d b))
  let m := fun (f : Vtx → Ex) => fmaR t (exSub (f b) (f a)) (f a)
  ⟨m Vtx.x, m Vtx.y, m Vtx.z, m Vtx.w⟩

/-- The polygon's part on the inner side of one plane, each vertex followed by the new vertex of the edge that leaves it;
`first` is the vertex after the last listed. -/
def clipFrom (d : Vtx → Ex) (first : Vtx) : List Vtx → List Vtx
  | [] => []
  | v :: r =>
    let inside := fun (x : Vtx) => exLe (exInt 0) (d x)
    let n := r.headD first
    (if inside v then [v] else []) ++ (if inside v != inside n then [newVtx d v n] else []) ++ clipFrom d first r

def clipPlane (l : List Vtx) (d : Vtx → Ex) : List Vtx :=
  match l with
  | [] => []
  | v :: _ => clipFrom d v l

/-- A triangle after R390: the fan's triangles. -/
def FrameRec.clip (r : FrameRec) (t : List Vtx) : List (List Vtx) :=
  if (List.range 6).any fun i => t.all fun v => v.outside.getD i false then []
  else if t.all r.whole then [t]
  else match r.planes.foldl clipPlane t with
    | a :: rest => (rest.zip (rest.drop 1)).map fun (b, c) => [a, b, c]
    | [] => []

/-! ## Coverage (R389, R391) -/

/-- A snapped vertex: 16.8 fixed point, and its depth. -/
structure SVtx where
  x : Int
  y : Int
  d : Ex
deriving DecidableEq, Repr

/-- A screen coordinate in 16.8 fixed point, ties to even (R389). A NaN or an infinity has no such integer: the spec
states no result, and a free value stands for it (log 8). -/
def State.snap (s : State) (x : Ex) : State × Int :=
  match x with
  | .num n m e => (s, sgnInt n (integral 0#2 n m (e + 8)).1)
  | _ => let (w, s) := s.freeWord; (s, w.toInt)

/-- A vertex snapped. -/
def State.snapVtx (s : State) (r : FrameRec) (v : Vtx) : State × SVtx :=
  let (s, x) := s.snap (r.screenX v)
  let (s, y) := s.snap (r.screenY v)
  (s, ⟨x, y, divR v.z v.w⟩)

/-- The edge function of the edge from j to k at a sample point (R389). -/
def edgeFn (j k : SVtx) (sx sy : Int) : Int := (k.x - j.x) * (sy - j.y) - (k.y - j.y) * (sx - j.x)

/-- The pairs (j, k) of the three edges (R389). -/
def edgesOf (t : List SVtx) : List (SVtx × SVtx) :=
  match t with
  | [a, b, c] => [(b, c), (c, a), (a, b)]
  | _ => []

/-- A pixel of a triangle whose area has sign `g` (R391): its depth where it is covered. -/
def coverPixel (t : List SVtx) (area g : Int) (px py : Nat) : Option Ex :=
  let sx : Int := 256 * px + 128
  let sy : Int := 256 * py + 128
  let es := (edgesOf t).map fun (j, k) => (g * edgeFn j k sx sy, g * (j.y - k.y), g * (k.x - j.x))
  if es.all fun (e, dx, dy) => decide (e > 0) || (e == 0 && (decide (dx > 0) || (dx == 0 && decide (dy > 0)))) then
    let num := (es.zip t).foldl (fun a ((e, _, _), v) => (exAdd 0#2 a (exProd (exInt e) v.d)).1) (exInt 0)
    some (r32 (exDiv num (exInt (g * area))).1)
  else none

/-- The FP32 word of a value already rounded. -/
def word32 (x : Ex) : Word := roundF32 0#2 x

/-- The pixels of a bounding interval in 16.8 units whose centres can be covered, within 0 .. n − 1. -/
def pixelSpan (lo hi : Int) (n : Nat) : Nat × Nat :=
  (((lo - 128) / 256).toNat, min n ((hi / 256 + 1).toNat))

/-- The quads of one triangle (R391), row by row. -/
def quadsOf (r : FrameRec) (t : List SVtx) : List (Nat × Nat × BitVec 4 × List Word) :=
  let area := ((edgesOf t).map fun (j, k) => edgeFn j k 0 0).sum
  if area = 0 || (r.cull = 1 && area < 0) || (r.cull = 2 && area > 0) then []
  else
    let g : Int := if area < 0 then -1 else 1
    let (x0, x1) := pixelSpan ((t.map SVtx.x).foldl min ((t.map SVtx.x).headD 0)) ((t.map SVtx.x).foldl max ((t.map SVtx.x).headD 0)) r.width
    let (y0, y1) := pixelSpan ((t.map SVtx.y).foldl min ((t.map SVtx.y).headD 0)) ((t.map SVtx.y).foldl max ((t.map SVtx.y).headD 0)) r.height
    ((List.range ((y1 + 1) / 2 - y0 / 2)).map fun j => ((List.range ((x1 + 1) / 2 - x0 / 2)).filterMap fun i =>
      let qx := x0 / 2 + i
      let qy := y0 / 2 + j
      let ds := (List.range 4).map fun e =>
        let px := 2 * qx + e % 2
        let py := 2 * qy + e / 2
        if px < r.width && py < r.height then coverPixel t area g px py else none
      if ds.all Option.isNone then none
      else some (qx, qy, BitVec.ofNat 4 (((ds.zip [1, 2, 4, 8]).map fun (d, b) => if d.isSome then b else 0).sum),
        ds.map fun d => word32 (d.getD (exInt 0))))).flatten

/-- A vertex of a meshlet's bytes (R387). -/
def vtxOf (b : List Byte) : Vtx :=
  let w := fun (o : Nat) => val32 (BitVec.ofNat 32 (fld b o 4))
  ⟨w 0, w 4, w 8, w 12⟩

/-- The identifier of a triangle's pixels (R394). -/
def identOf (inst : BitVec 24) (cluster : Word) (tri : Nat) : BitVec 64 := inst ++ cluster ++ BitVec.ofNat 8 tri

/-- A triangle rasterised into quads (R389 to R392). -/
def State.rasterTri (s : State) (f : Frame) (res : Nat) (ident : BitVec 64) (t : List Vtx) : State :=
  (f.fr.clip t).foldl (fun s t =>
    let (s, sv) := t.foldl (fun (acc : State × List SVtx) v => let (s, x) := acc.1.snapVtx f.fr v; (s, acc.2 ++ [x])) (s, [])
    s.onDev fun d => { d with quads := d.quads ++ (quadsOf f.fr sv).map fun (qx, qy, m, ds) =>
      { owner := s.ownerOf f.fr (2 * qx) (2 * qy), frame := f.id, qx := qx, qy := qy, mask := m, ident := ident, depth := ds, res := res } }) s

end Sys2Proof.Machine
end

