-- ==== Sys2Proof/Machine/Frame.lean ====
section
/-! DEFINITION. Frames: `MESH`, `FSEAL`, `FWAIT`, the tests at the owners, visibility tiles, classify and the seal (R386 to
R400, R408). -/

namespace Sys2Proof.Machine

/-! ## Frames and their records (R386, R388) -/

/-- The open frame of a key. -/
def State.openFrame (s : State) (ctx va : Nat) : Option Frame :=
  s.dev.frames.find? fun f => f.ctx == ctx && f.va == va && f.st == .open_

/-- A frame at its opening. -/
def newFrame (id ctx va : Nat) (fr : FrameRec) (st : FrameState) (res : Nat) : Frame :=
  { id := id, ctx := ctx, va := va, fr := fr, st := st, meshes := [], tiles := [], nextTile := 0, bins := [], res := res, fault := none }

/-- QCOUNT of a context. -/
def State.qcount (s : State) (ctx : Nat) : Nat := ((s.ctx? ctx).map fun c => c.e.qcount).getD 0

/-- How the opening of a frame by a thread comes out: the frame, or the thread's outcome. -/
inductive OpenRes where
  | ok (s : State) (f : Frame)
  | out (r : SRes)

/-- The open frame of a `MESH`, opened by it where there is none (R386 items 1 and 2, R388). -/
def State.meshFrame (s : State) (g : Group) (t va : Nat) : OpenRes :=
  match s.openFrame g.ctx va with
  | some f => .ok s f
  | none =>
    if (s.dev.frames.filter fun f => f.st == .open_).length ≥ 4096 then .out (.stop s)
    else if va % 64 ≠ 0 then .out (.at_ s 0x11#8 va)
    else match s.unitAccess g t va 64 .table with
      | .out r => .out r
      | .ok s _ pa =>
        let (s, b, p) := s.homeLoad g.pts pa 64
        let s := s.raisePts g.id p
        let fr := frameOf b
        if fr.ok (s.qcount g.ctx) then
          let (id, s) := s.fresh
          let f := newFrame id g.ctx va fr .open_ 0
          .ok (s.onDev fun d => { d with frames := d.frames ++ [f] }) f
        else .out (.at_ s 0x11#8 va)

/-! ## `MESH` (R387, R388) -/

/-- The vertex indices of a triangle's 4 bytes, where none is bad (R388). -/
def triOf (nv : Nat) (b : List Byte) : Option (List Nat) :=
  let i := (b.take 3).map BitVec.toNat
  if fld b 3 1 = 0 && i.all (fun x => decide (x < nv)) then some i else none

/-- A meshlet rasterised (R388 to R393): the result returns once every quad of it has been tested. -/
def State.rasterMesh (s : State) (f : Frame) (res : Nat) (inst : BitVec 24) (cluster : Word) (nv nt : Nat) (b : List Byte) : State :=
  let vs := (List.range nv).map fun i => vtxOf ((b.drop (16 * i)).take 16)
  let s := (List.range nt).foldl (fun s j =>
    match triOf nv ((b.drop (1024 + 4 * j)).take 4) with
    | none => s.updPending res fun p => p.meet 0x20#8 0
    | some is => s.rasterTri f res (identOf inst cluster j) (is.filterMap fun i => vs[i]?)) s
  if s.dev.quads.any fun q => q.res == res then s.updFrame f.id fun x => { x with meshes := x.meshes ++ [res] }
  else s.resultReady res 0

/-- `MESH` (R387, R388). -/
def execMesh (d a b : Opnd) (sb : BitVec 3) (s : State) : Host.Outcome State Fault Refusal :=
  s.perThread fun st s t th =>
    match s.group? st.grp with
    | none => .ok s
    | some g =>
      if th.helper then .ok s
      else if !g.sq.isEmpty || !s.hasRoom st.grp sb.toNat then .stop s
      else
        let w := (rd g th a).toNat
        let nv := field w 13 8 + 1
        let nt := field w 20 14 + 1
        let h := field w 7 0
        match s.meshFrame g t (rd64 g th d).toNat with
        | .out r => r
        | .ok s f =>
          match s.handleOf g.team h with
          | none => .plain s 0x20#8
          | some x =>
            if x.size < 1024 + 4 * nt || field w 31 21 ≠ 0 then .plain s 0x20#8
            else match x.absent.find? fun l => decide (l * 128 < 1024 + 4 * nt) with
              | some l => s.stopOr (s.park st.grp t (.line g.team h l) 0)
              | none =>
                let (s, by_, p) := s.tileLoad g.pts g.team h 0 (1024 + 4 * nt)
                let (res, s) := (s.raisePts st.grp p).addResult st.grp t (some sb.toNat) st.unit .token true
                .ok (s.rasterMesh f res ((rd g th b).extractLsb' 0 24) (rd g th (nextOpnd b)) nv nt by_)

/-! ## Visibility tiles (R393 to R396) -/

/-- A tile of a frame all of whose pixels are clear (R394, R395). -/
def clearTile (r : FrameRec) (i : Nat) : Tile :=
  { idx := i, st := .open_, inL2 := true, ids := List.replicate 64 (BitVec.allOnes 64), depth := List.replicate 64 r.cleard,
    live := 0, mats := [], todo := [], discard := [] }

def Frame.tile? (f : Frame) (i : Nat) : Option Tile := f.tiles.find? fun t => t.idx == i

/-- A tile put into its frame, in the place of the one it was. -/
def State.putTile (s : State) (frame : Nat) (t : Tile) : State :=
  s.updFrame frame fun f => { f with tiles := (f.tiles.filter fun x => x.idx != t.idx) ++ [t] }

/-- The tile of a quad (R394). -/
def Quad.tile (q : Quad) (r : FrameRec) : Nat := q.qy / 4 * (r.width / 8) + q.qx / 4

/-- A quad of a later frame waits until the tile is FREE (R408 case 2). -/
def State.quadHeld (s : State) (q : Quad) : Bool :=
  match s.frame? q.frame with
  | none => false
  | some f =>
    let i := q.tile f.fr
    s.dev.frames.any fun e => e.ctx == f.ctx && e.va == f.va && decide (e.id < f.id) && (decide (e.nextTile ≤ i) || (e.tile? i).isSome)

/-- The depth compare (R385, R177). -/
def depthPass (dcmp : Nat) (new old : Word) : Bool :=
  if isNaN32 new || isNaN32 old then dcmp == 5 || dcmp == 7
  else
    let a := order32 new
    let b := order32 old
    if dcmp = 0 then false else if dcmp = 1 then decide (a < b) else if dcmp = 2 then a == b else if dcmp = 3 then decide (a ≤ b)
    else if dcmp = 4 then decide (a > b) else if dcmp = 5 then a != b else if dcmp = 6 then decide (a ≥ b) else true

/-- A quad tested at its owner (R393): each covered pixel, test and write in one step. -/
def Tile.test (t : Tile) (dcmp : Nat) (q : Quad) : Tile :=
  (List.range 4).foldl (fun t e =>
    let p := pixelIn (2 * q.qx + e % 2) (2 * q.qy + e / 2)
    let d := q.depth.getD e 0#32
    if q.mask.getLsbD e && depthPass dcmp d (t.depth.getD p 0#32) then { t with ids := t.ids.set p q.ident, depth := t.depth.set p d }
    else t) { t with inL2 := true }

/-- A `MESH` whose quads have all been tested has its result ready (R388). -/
def State.meshDone (s : State) (res : Nat) : State :=
  if s.dev.quads.any fun q => q.res == res then s
  else (s.onDev fun d => { d with frames := d.frames.map fun f => { f with meshes := f.meshes.filter (· ≠ res) } }).resultReady res 0

/-- Event QUAD_TEST (R393, R395): the owner's next quad, which opens its tile where that is FREE. -/
def execQuadTest (owner : Nat) (s : State) : Host.Outcome State Fault Refusal :=
  .next <|
    match s.dev.quads.find? fun q => q.owner == owner && !s.quadHeld q with
    | none => s
    | some q =>
      let s := s.onDev fun d => { d with quads := d.quads.erase q }
      match s.frame? q.frame with
      | none => s.meshDone q.res
      | some f =>
        let t := (f.tile? (q.tile f.fr)).getD (clearTile f.fr (q.tile f.fr))
        (s.putTile f.id (t.test f.fr.dcmp q)).meshDone q.res

/-- The 768 bytes of a tile (R394). -/
def Tile.bytes (t : Tile) : List Byte :=
  (t.ids.map fun x => bytesOfNat x.toNat 8).flatten ++ (t.depth.map fun w => bytesOfNat w.toNat 4).flatten

/-- The backing of a tile (R394). -/
def FrameRec.backing (r : FrameRec) (i : Nat) : Nat := r.surf + 768 * i

/-- Event TILE_WRITE_OUT (R396): an OPEN or SEALED tile written to its backing and dropped from the L2. -/
def execTileWriteOut (frame tile : Nat) (s : State) : Host.Outcome State Fault Refusal :=
  .next <|
    match s.frame? frame with
    | none => s
    | some f =>
      match f.tile? tile with
      | none => s
      | some t =>
        if !t.inL2 || (t.st != .open_ && t.st != .sealed) then s
        else match s.engWrite none f.ctx 0 (f.fr.backing tile) t.bytes .unitWrite 0 with
          | (s, .ok _, _) => s.putTile frame { t with inL2 := false }
          | (s, _, _) => s

/-! ## `FSEAL` (R386 item 3, R397) -/

/-- A fault of a seal, the lowest code at the first place that met it (R398, R154 item 4). -/
def Frame.meet (f : Frame) (code : BitVec 8) (va : Nat) : Frame :=
  match f.fault with
  | some r => if code.toNat < r.code.toNat then { f with fault := some ⟨code, 0#10, 0#32, BitVec.ofNat 64 va⟩ } else f
  | none => { f with fault := some ⟨code, 0#10, 0#32, BitVec.ofNat 64 va⟩ }

/-- A frame leaves: the result of its `FSEAL` is ready with the fault gathered, and the next seal of its key begins where it waited. -/
def State.dropFrame (s : State) (f : Frame) : State :=
  let s := match f.fault with
    | some r => s.updPending f.res fun p => p.meet r.code r.va.toNat
    | none => s
  let s := (s.resultReady f.res s.topTs).endEng f.id
  let s := s.onDev fun d => { d with frames := d.frames.filter fun x => x.id != f.id }
  match s.dev.frames.find? fun x => x.ctx == f.ctx && x.va == f.va && x.st != .open_ with
  | some n => if n.st = .waiting then s.updFrame n.id fun x => { x with st := .sealing } else s
  | none => s

/-- Stores that the group of an `FSEAL` sent before it have no timestamp yet (R290). -/
def State.storesBeforeSeal (s : State) (f : Frame) : Bool :=
  match (s.pending? f.res).bind fun r => s.group? r.grp with
  | none => false
  | some g => g.sq.any fun e => decide (e.id < f.res)

/-- The record of an empty seal read, after the stores of its group: DESIGN CHOICE (log 44; R397): the frame goes on, or nothing is sealed and the fault is
delivered. -/
def State.readFrame (s : State) (f : Frame) : State :=
  if s.storesBeforeSeal f then s
  else if f.va % 64 ≠ 0 then s.dropFrame (f.meet 0x11#8 f.va)
  else
    match s.engReadAt none f.ctx f.id f.va 64 .table (s.resultPts f.res) with
    | (s, .wait _, _) => s
    | (s, .fault c _, _) => s.dropFrame (f.meet c f.va)
    | (s, .ok _, b, _) =>
      let fr := frameOf b
      if fr.ok (s.qcount f.ctx) then
        let busy := s.dev.frames.any fun e => e.ctx == f.ctx && e.va == f.va && decide (e.id < f.id) && e.st != .open_
        s.updFrame f.id fun x => { x with fr := fr, st := if busy then .waiting else .sealing }
      else s.dropFrame (f.meet 0x11#8 f.va)

/-- `FSEAL` (R397): the open frame of the key, or an empty one, is sealed once the earlier seals of the key are. -/
def execFseal (d : Opnd) (sb : BitVec 3) (s : State) : Host.Outcome State Fault Refusal :=
  s.perGroup fun st s g t =>
    match g.thread? t with
    | none => .ok s
    | some th =>
      if !s.hasRoom st.grp sb.toNat then .stop s
      else
        let va := (rd64 g th d).toNat
        let (res, s) := s.addResult st.grp t (some sb.toNat) st.unit .token true
        match s.openFrame g.ctx va with
        | some f =>
          let busy := s.dev.frames.any fun e => e.ctx == g.ctx && e.va == va && e.st != .open_
          .ok (s.updFrame f.id fun x => { x with st := if busy then .waiting else .sealing, res := res })
        | none =>
          let (id, s) := s.fresh
          let f := newFrame id g.ctx va (frameOf []) .unread res
          .ok ((s.onDev fun d => { d with frames := d.frames ++ [f] }).readFrame f)

/-! ## Classify (R398 item 3, R399) -/

/-- How a lookup comes out: a word read, a page that is waited for, or a code. -/
inductive LookRes where
  | ok (w : Word)
  | wait
  | fault (code : BitVec 8) (va : Nat)
deriving DecidableEq, Repr

/-- The material of an identifier (R399). -/
def State.material (s : State) (f : Frame) (id : BitVec 64) : State × LookRes :=
  let a := f.fr.mtab + 16 * (id.extractLsb' 40 24).toNat
  match s.engRead none f.ctx f.id a 16 .unitRead with
  | (s, .wait _, _) => (s, .wait)
  | (s, .fault c _, _) => (s, .fault c a)
  | (s, .ok _, b) =>
    let cl := (id.extractLsb' 8 32).toNat
    if cl < fld b 8 4 then
      let a := fld b 0 8 + 4 * cl
      match s.engRead none f.ctx f.id a 4 .unitRead with
      | (s, .wait _, _) => (s, .wait)
      | (s, .fault c _, _) => (s, .fault c a)
      | (s, .ok _, w) => (s, .ok (BitVec.ofNat 32 (natOfBytes w)))
    else (s, .ok (BitVec.ofNat 32 (fld b 12 4)))

/-- The materials of a tile's pixels (R399), `none` for one that is not shaded; `none` where a page is waited for. -/
def State.materials (s : State) (f : Frame) : List (BitVec 64) → State × Option (List (Option Word))
  | [] => (s, some [])
  | id :: r =>
    let rest := fun (s : State) (m : Option Word) => match s.materials f r with
      | (s, some l) => (s, some (m :: l))
      | x => x
    if id = BitVec.allOnes 64 then rest s none
    else match s.material f id with
      | (s, .wait) => (s, none)
      | (s, .fault c va) => rest (s.updFrame f.id fun x => x.meet c va) none
      | (s, .ok w) => rest s (if w = 0xFFFFFFFF#32 then none else some w)

/-- The pixels of a tile's quad, e = 0 to 3 (R399). -/
def quadPixels (q : Nat) : List Nat := (List.range 4).map fun e => pixelIn (2 * (q % 4) + e % 2) (2 * (q / 4) + e / 2)

/-- The records to push, in order: the quad, the material, the pixel (R399). -/
def pushesOf (mats : List (Option Word)) : List (Nat × Word × Nat) :=
  ((List.range 16).map fun q => ((distinct ((quadPixels q).filterMap fun p => mats.getD p none)).map fun m =>
    (List.range 4).map fun e => (q, m, e)).flatten).flatten

/-- The record of pixel e of a quad, for a material (R399). -/
def classifyRec (f : Frame) (t : Tile) (q : Nat) (m : Word) (e : Nat) : BinRec :=
  let ps := quadPixels q
  let p := ps.getD e 0
  let first := (ps.find? fun p => t.mats.getD p none == some m).getD 0
  let vw := f.fr.width / 8
  let helper := t.mats.getD p none != some m
  let src := if helper then first else p
  let px := 8 * (t.idx % vw) + 2 * (q % 4) + e % 2
  let py := 8 * (t.idx / vw) + 2 * (q / 4) + e / 2
  let id := t.ids.getD src 0#64
  { words := [BitVec.ofNat 32 (px + 65536 * py), id.extractLsb' 0 32, id.extractLsb' 32 32, t.depth.getD src 0#32,
              BitVec.ofNat 32 f.va, BitVec.ofNat 32 (f.va / 2 ^ 32), m, BitVec.ofNat 32 ((if helper then 1 else 0) + 2 * t.idx)],
    at_ := 0, pixel := some ⟨f.id, t.idx, px, py, helper⟩, pts := 0 }

/-- How the push of a record of a quad comes out. -/
inductive PushRes where
  | done (bin : Nat)
  | wait
  | fault (code : BitVec 8) (va : Nat)
deriving DecidableEq, Repr

/-- The bin that a quad's four records go to (R399): the owner's material bin of their key, with room for all of them and its ring
pages writable. -/
def State.quadBin (s : State) (f : Frame) (core : Nat) (m : Word) : State × PushRes :=
  match (s.ctxBins core f.ctx).find? fun b => b.kind == .material && b.key == m with
  | none => (s, .fault 0x50#8 0)
  | some b =>
    if b.st == .closing || b.st == .faulted then (s, .fault 0x50#8 0)
    else if s.onWay core b.n + 4 > b.room then (s, if b.full then .fault 0x50#8 0 else .wait)
    else
      let ring := 4 - (if b.ringRecs.isEmpty then min 4 (32 - b.q.length) else 0)
      (List.range ring).foldl (fun (acc : State × PushRes) i => match acc with
        | (s, .done n) =>
          let a := b.ring + 32 * ((b.tail + i) % b.ringSize)
          (match s.engRange (some core) b.ctx f.id a 32 .unitWrite with
            | (s, .ok _, _) => (s, .done n)
            | (s, .fault c va, _) => (s.updBin core b.n fun b => { b with fault := c }, .fault c va)
            | (s, .wait _, _) => (s, .wait))
        | acc => acc) (s, .done b.n)

/-- One record of a quad pushed (R369, R374, R399): the first once the bin has room for all four, the others each in the next clk, with none
between. -/
def State.classifyPush (s : State) (f : Frame) (core : Nat) (m : Word) (e : Nat) (x : BinRec) : State × PushRes :=
  if s.accepted core then (s, .wait)
  else
    let (s, r) := match s.quadOn core with
      | none => if e = 0 then s.quadBin f core m else (s, .fault 0x50#8 0)
      | some (fr, n, _) =>
        if fr ≠ f.id || e = 0 then (s, .wait)
        else if (s.bin core n).st == BinState.off || (s.bin core n).st == BinState.faulted then (s, .fault 0x50#8 0)
        else (s, .done n)
    match r with
    | .done n =>
      match s.acceptRec core n f.id x with
      | (s, .done _) => (s.updCore core fun c => { c with quad := if e = 3 then none else some (f.id, n, 3 - e) }, .done n)
      | (s, .fault c va) => (s, .fault c va)
      | (s, _) => (s, .wait)
    | r => (s, r)

/-- The next record that a tile still has to push, where it can be (R399); a quad whose push fails is passed over. -/
def State.classifyTile (s : State) (f : Frame) (core : Nat) (t : Tile) : State :=
  match t.todo with
  | [] => s
  | (q, m, e) :: rest =>
    match s.classifyPush f core m e (classifyRec f t q m e) with
    | (s, .wait) => s
    | (s, .fault c va) =>
      let s := if e = 0 then s else s.updCore core fun k => { k with quad := none }
      (s.updFrame f.id fun x => x.meet c va).updTile f.id t.idx fun t => { t with todo := rest.drop (3 - e) }
    | (s, .done n) =>
      (s.updTile f.id t.idx fun t => { t with todo := rest, live := t.live + 1 }).updFrame f.id fun x =>
        { x with bins := if x.bins.contains (core, n) then x.bins else x.bins ++ [(core, n)] }

/-- The tile has been classified. -/
def Frame.done (f : Frame) (i : Nat) : Bool :=
  decide (i < f.nextTile) || ((f.tile? i).map fun t => t.st == .classified || t.st == .shaded).getD false

/-- How far the tiles are classified without a gap. -/
def Frame.advanceTile (f : Frame) : Nat → Nat
  | 0 => f.nextTile
  | n + 1 => let i := f.advanceTile n; if i < f.fr.tiles && f.done i then i + 1 else i

/-- After an owner's last tile, R371 condition 4 for the bins that it pushed to (R398 item 3). -/
def State.flushBins (s : State) (f : Frame) (core : Nat) : State :=
  (f.bins.filter fun b => b.1 == core).foldl (fun s (_, n) => if (s.bin core n).count = 0 then s else s.updBin core n fun b => { b with flush := true }) s

/-- Event CLASSIFY (R398 items 1 to 3, R399): the next tile of its owner, in ascending tile index, has its next record pushed. -/
def execClassify (frame tile : Nat) (s : State) : Host.Outcome State Fault Refusal :=
  .next <|
    match s.frame? frame with
    | none => s
    | some f =>
      if f.st = .unread then s.readFrame f
      else
        let core := s.tileOwner f.fr tile
        let mine := fun (i : Nat) => s.tileOwner f.fr i == core
        if f.st != .sealing || !f.meshes.isEmpty || decide (tile ≥ f.fr.tiles) || f.done tile
            || (List.range tile).any (fun i => decide (f.nextTile ≤ i) && mine i && !f.done i) then s
        else
          let t := (f.tile? tile).getD (clearTile f.fr tile)
          let s := s.putTile frame { t with st := .sealed, inL2 := true }
          let (s, ready) := if t.mats.isEmpty then
              match s.materials f t.ids with
              | (s, none) => (s, false)
              | (s, some l) => (s.updTile frame tile fun t => { t with mats := l, todo := pushesOf l }, true)
            else (s, true)
          if !ready then s
          else
            let s := match s.frame? frame with
              | some f => match f.tile? tile with
                | some t => s.classifyTile f core t
                | none => s
              | none => s
            match (s.frame? frame).bind fun f => f.tile? tile with
            | none => s
            | some t =>
              if !t.todo.isEmpty then s
              else
                let s := s.updTile frame tile fun t => { t with st := .classified }.shade
                let s := s.updFrame frame fun f => { f with nextTile := f.advanceTile (f.fr.tiles - f.nextTile) }
                match s.frame? frame with
                | none => s
                | some f => if (List.range f.fr.tiles).any (fun i => decide (tile < i) && mine i) then s else s.flushBins f core

/-! ## The seal's end (R398 items 4 to 7) -/

/-- The tiles written back in ascending index; one whose write faults is skipped. `false` where a page is waited for. -/
def State.writeBack (s : State) (f : Frame) (pts : Nat) : List Tile → State × Bool
  | [] => (s, true)
  | t :: r =>
    let free := fun (s : State) => s.updFrame f.id fun x => { x with tiles := x.tiles.filter fun y => y.idx != t.idx }
    match s.engWrite none f.ctx f.id (f.fr.backing t.idx) t.bytes .unitWrite pts with
    | (s, .wait _, _) => (s, false)
    | (s, .fault c _, _) => ((free s).updFrame f.id fun x => x.meet c (f.fr.backing t.idx)).writeBack f pts r
    | (s, .ok _, _) => (free s).writeBack f pts r

/-- Event SEAL_COMPLETE (R398 items 4 to 7, R295): write-back, the seal word, the frame signal, the token. -/
def execSealComplete (frame : Nat) (s : State) : Host.Outcome State Fault Refusal :=
  .next <|
    match s.frame? frame with
    | none => s
    | some f =>
      if f.st != .sealing || !f.meshes.isEmpty || f.nextTile != f.fr.tiles || f.tiles.any (fun t => t.st != .shaded) then s
      else match s.writeBack f s.topTs (sortBy (fun t => t.idx) f.tiles) with
        | (s, false) => s
        | (s, true) =>
          match s.engRange none f.ctx f.id f.fr.sealword 4 .list with
          | (s, .wait _, _) => s
          | (s, r, ps) =>
            let s := match r, ps with
              | .ok _, (pa, _, _) :: _ => (s.homeAtomic s.topTs pa .addS32 1#64 0#64).1
              | .fault c _, _ => s.updFrame frame fun x => x.meet c f.fr.sealword
              | _, _ => s
            let s := if f.fr.sigq.getLsbD 20 then s.countToken f.ctx (field f.fr.sigq.toNat 13 0) (field f.fr.sigq.toNat 19 14) else s
            match s.frame? frame with
            | some f => s.dropFrame f
            | none => s

/-! ## `FWAIT` (R397) -/

/-- The seal word at an address has reached a count (R397). -/
def sealReached (v count : Word) : Bool := decide ((v - count).toNat < 2 ^ 31)

/-- A group held at an `FWAIT` may be streamed again (R314 item 3, R397): its accesses have taken their places, and the seal word that the
record names has reached the count, or a page of them is to be met again. -/
def State.sealMet (s : State) (g : Group) (va : Nat) (count : Word) : Bool :=
  s.memSettled g &&
  match s.translate g.core g.ctx (va + 0x30) with
  | .hit r =>
    let w := s.natAt (r.pa (va + 0x30)) 8
    match s.translate g.core g.ctx w with
    | .hit e => sealReached (BitVec.ofNat 32 (s.natAt (e.pa w) 4)) count
    | _ => true
  | _ => true

/-- `FWAIT`: the seal word loaded at its home until it has reached the count; an acquire (R296). -/
def execFwait (d a : Opnd) (s : State) : Host.Outcome State Fault Refusal :=
  s.perGroup fun st s g t =>
    match g.thread? t with
    | none => .ok s
    | some th =>
      let va := (rd64 g th d).toNat
      let count := rd g th a
      if !s.memSettled g then s.holdOn st.grp (.seal va count)
      else if va % 64 ≠ 0 then .at_ s 0x11#8 va
      else match s.unitAccess g t (va + 0x30) 8 .table with
        | .out r => r
        | .ok s _ pa =>
          let (s1, r, p) := s.homeLoad g.pts pa 8
          match s1.unitAccess g t (natOfBytes r) 4 .table with
          | .out r => r
          | .ok s2 _ pw =>
            let (s3, b, p') := s2.homeLoad (max g.pts p) pw 4
            if sealReached (BitVec.ofNat 32 (natOfBytes b)) count then .ok (s3.raisePts st.grp p') else s3.holdOn st.grp (.seal va count)

end Sys2Proof.Machine
end

