-- ==== Sys2Proof/Machine/Peers.lean ====
section
/-! DEFINITION. Peers and ports of the link: their states, what fails with them, retransmission (R409, R412, R414, R417,
R420, R425). -/

namespace Sys2Proof.Machine

/-! ## Peers and sequence numbers -/

/-- A peer at reset (R416, R459). -/
def Peer.reset (n : Nat) : Peer :=
  { n := n, addr := [0#32, 0#32, 0#32, 0#32], ports := 0#8, host := false, st := .down, cause := 0, fwa := 0, txSeq := 0, rxSeq := 0,
    unacked := [], asked := [], heldMsgs := [], ts := 0 }

/-- A peer of the table. -/
def State.peerAt (s : State) (n : Nat) : Peer := (s.peer? n).getD (Peer.reset n)

/-- A peer of the table changed; the peers are listed by number. -/
def State.setPeer (s : State) (n : Nat) (f : Peer → Peer) : State :=
  s.updLink fun l => { l with peers := insertBy (fun p => p.n) (f (s.peerAt n)) (l.peers.filter fun p => p.n != n) }

/-- How far SEQ `a` lies beyond SEQ `b`, modulo 2^32. -/
def seqDist (a b : Nat) : Nat := (a + (2 ^ 32 - b % 2 ^ 32)) % 2 ^ 32

/-- An acknowledgement of every SEQ before `ack` covers SEQ `q`. -/
def ackCovers (ack q : Nat) : Bool := decide (seqDist ack (q + 1) < 2 ^ 31)

/-! ## Pieces that engines move through the link (R268) -/

/-- Every piece of the engines of every core, changed. -/
def State.mapRx (s : State) (f : RxPiece → RxPiece) : State :=
  let e := fun (x : EqEntry) => { x with rx := x.rx.map f }
  s.onDev fun d => { d with cores := d.cores.map fun (n, c) =>
    (n, { c with eq := c.eq.map e, due := c.due.map e, recs := c.recs.map f, cmds := c.cmds.map fun k => { k with rx := k.rx.map f } }) }

/-- A piece of a peer with a tag (or SEQ) that has not come, settled: with its bytes, or failed. -/
def RxPiece.settle (peer tag : Nat) (failed : Bool) (data : List Byte) (p : RxPiece) : RxPiece :=
  if p.peer = peer && p.tag = tag && !p.done then { p with done := true, failed := failed, data := data } else p

/-! ## Failing (R420) -/

/-- The count of a group's unacknowledged `RST` and `RATOM` falls by one (R419). -/
def State.remoteDown (s : State) (gid : Nat) : State := s.updGroup gid fun g => { g with remote := g.remote - 1 }

/-- A remote result fails with link (0x60). -/
def State.failResult (s : State) (r : Pending) : State :=
  match r.kind with
  | .remote _ _ _ _ atomic =>
    let s := (s.updPending r.id fun p => { (p.meet 0x60#8 0) with ready := true }).arrived r.id
    if atomic then s.remoteDown r.grp else s
  | _ => s

/-- An outbound WRITE fails: an `RST` at its thread, or a copy's piece. -/
def State.failAck (s : State) (a : AwaitAck) : State :=
  let s := s.updLink fun l => { l with acks := l.acks.filter fun x => x.id != a.id }
  match a.what with
  | .rst g t unit => (s.addAsync g t ⟨0x60#8, 0#10, unit, 0#64⟩).remoteDown g
  | .copy => s.mapRx (RxPiece.settle a.peer a.seq true [])

/-- A remote result waits for an answer of a peer. -/
def Pending.awaits (r : Pending) (n : Nat) : Bool :=
  match r.kind with
  | .remote p _ _ _ _ => p == n && !r.ready
  | _ => false

/-- A peer is another participant of a collective; the own entry of PEERS is ignored (R422). -/
def Coll.has (c : Coll) (n : Nat) : Bool :=
  (List.range c.peers.length).any fun r => r != fld c.desc 4 2 && c.peers.getD r 256 == n

/-- Every outstanding operation on a peer fails (R420, R423). -/
def State.failPeer (s : State) (n : Nat) : State :=
  let s := (s.dev.results.filter fun r => r.awaits n).foldl State.failResult s
  let s := (s.dev.link.acks.filter fun a => a.peer == n).foldl State.failAck s
  let s := s.mapRx fun p => p.settle n p.tag true []
  s.updLink fun l => { l with colls := updIf (fun c => c.has n && c.fail.isNone) (fun c => { c with fail := some (0x60#8, 0) }) l.colls }

/-- A message that answers a request. -/
def Msg.isReply : Msg → Bool
  | .readResp .. => true
  | .atomicResp .. => true
  | .mgmt _ _ _ r _ => r
  | .nak .. => true
  | _ => false

/-- A refusal. -/
def Msg.isNak : Msg → Bool
  | .nak .. => true
  | _ => false

/-- What a peer has not acknowledged counts as not sent: completion messages are held and page requests sent again (R414, log
21); replies stay for retransmission where `keep` (R412, R425 case 2). -/
def State.unsend (s : State) (n : Nat) (keep : Bool) : State :=
  let p := s.peerAt n
  let compl := p.unacked.filterMap fun x => match x.msg with
    | .completion .. => some x.msg
    | _ => none
  let asked := p.unacked.filterMap fun x => match x.msg with
    | .preq cg id _ _ => some (cg, id)
    | _ => none
  let s := s.setPeer n fun p => { p with unacked := if keep then p.unacked.filter fun x => x.msg.isReply else [], asked := [], heldMsgs := [] }
  let s := s.updLink fun l => { l with heldCompl := holdCompl (compl ++ l.heldCompl) }
  let mine := fun (r : PageReq) => asked.contains (BitVec.ofNat 32 (r.ctx + 4096 * r.gen), r.reqid)
  s.onDev fun d => { d with preqs := updIf mine (fun r => { r with sent := false }) d.preqs }

/-- A peer goes DOWN (R417). -/
def State.downPeer (s : State) (n : Nat) (cause : Option Nat) : State :=
  let s := s.unsend n false
  (s.setPeer n fun p => { p with st := .down, cause := cause.getD p.cause }).failPeer n

/-- A violation (R415): a NAK, which names the message refused, not acknowledged by it (log 21), and carries its context and tag (R411), and
the peer FROZEN. -/
def State.freezePeer (s : State) (n : Nat) (d : Datagram) (cause fwa : Nat) : State :=
  let s := s.setPeer n fun p => { p with rxSeq := d.seq.toNat }
  let s := (s.send n (.nak d.ctxgen d.tag d.seq.toNat cause)).unsend n true
  (s.setPeer n fun p => { p with st := .frozen, cause := cause, fwa := fwa % 2 ^ 44 }).failPeer n

/-! ## Training (R417) -/

/-- Ports that are up. -/
def State.portsUp (s : State) : BitVec 8 :=
  (List.range 8).foldl (fun m p => if s.dev.link.pstate.getD p 0 = 2 then m ||| (1#8 <<< p) else m) 0#8

/-- The host peer is live: what was held for it is sent, completion messages in order, then page requests (R414). -/
def State.flushHost (s : State) : State :=
  if s.hostLive then
    let l := s.dev.link.heldCompl
    (l.foldl (fun s m => s.send s.dev.link.hostpeer m) (s.updLink fun l => { l with heldCompl := [] })).sendPreqs
  else s

/-- A live peer's state after its ports changed (R417). -/
def State.portsChanged (s : State) : State :=
  let up := s.portsUp
  (s.dev.link.peers.foldl (fun s p =>
    if !p.live then s
    else if p.ports &&& up = 0#8 then s.downPeer p.n none
    else s.setPeer p.n fun q => { q with st := if q.ports &&& up = q.ports then .up else .degraded }) s).flushHost

/-- `OPEN` (R417): only of a peer that is DOWN; the handshake resets SEQ both ways. -/
def State.openPeer (s : State) (n : Nat) : State :=
  if (s.peerAt n).st = .down then
    s.setPeer n fun p => { p with st := .training, txSeq := 0, rxSeq := 0, unacked := [], heldMsgs := [] }
  else s

/-- `CLOSE` (R417). -/
def State.closePeer (s : State) (n : Nat) : State := s.downPeer n none

/-- `THAW` (R417): only of a peer that is FROZEN. -/
def State.thawPeer (s : State) (n : Nat) : State :=
  if (s.peerAt n).st = .frozen then s.setPeer n fun p => { p with st := .training, cause := 0, txSeq := 0, rxSeq := 0, heldMsgs := [] }
  else s

/-- The messages kept for retransmission sent under the new SEQ (R425 case 2); a refusal names a SEQ of the old (log 21). -/
def State.resend (s : State) (n : Nat) : State :=
  let l := (s.peerAt n).unacked.filterMap fun x => match x.msg with
    | .nak .. => none
    | m => some m
  l.foldl (fun s m => s.send n m) (s.setPeer n fun p => { p with unacked := [] })

/-- Event PEER_OPEN (R417). -/
def execPeerOpen (peer : Nat) (s : State) : Host.Outcome State Fault Refusal := .next (if peer < 256 then s.openPeer peer else s)

/-- Event PEER_CLOSE (R417). -/
def execPeerClose (peer : Nat) (s : State) : Host.Outcome State Fault Refusal := .next (if peer < 256 then s.closePeer peer else s)

/-- Event PEER_THAW (R417, R425 case 2). -/
def execPeerThaw (peer : Nat) (s : State) : Host.Outcome State Fault Refusal := .next (if peer < 256 then s.thawPeer peer else s)

/-- Event HANDSHAKE_DONE (R417): a training peer with some of its ports up. -/
def execHandshakeDone (peer : Nat) (s : State) : Host.Outcome State Fault Refusal :=
  .next <|
    let p := s.peerAt peer
    let up := p.ports &&& s.portsUp
    if p.st ≠ .training || up = 0#8 then s
    else ((s.setPeer peer fun p => { p with st := if up = p.ports then .up else .degraded }).resend peer).flushHost

def State.setPort (s : State) (port st : Nat) : State := s.updLink fun l => { l with pstate := l.pstate.set port st }

/-- A port trains: it is enabled, ready and given a rate (R409, R433). -/
def State.portOn (s : State) (port : Nat) : Bool :=
  decide (port < 8) && s.fuse.ports.getLsbD port && s.dev.die.portsRdy.getLsbD port && s.dev.link.rate.getD port 0 != 0

/-- A port may come up: not in the clk in which it came ready (R433). -/
def State.portUsable (s : State) (port : Nat) : Bool := s.portOn port && s.notFresh 2 port

/-- Event PORT_UP (R417). -/
def execPortUp (port : Nat) (s : State) : Host.Outcome State Fault Refusal :=
  .next (if s.portUsable port then (s.setPort port 2).portsChanged else s)

/-- A port goes down (R409, R417, R425 case 3): it trains again while it has a rate. -/
def State.portDown (s : State) (port : Nat) : State :=
  (s.setPort port (if s.portOn port then 1 else 0)).portsChanged

/-- Event PORT_DOWN (R417). -/
def execPortDown (port : Nat) (s : State) : Host.Outcome State Fault Refusal := .next (s.portDown port)

/-- A port's RATE written (R409, R416): a change takes the port down, to train at the new rate. -/
def State.setRate (s : State) (port rate : Nat) : State :=
  if s.dev.link.rate.getD port 0 = rate then s
  else (s.updLink fun l => { l with rate := l.rate.set port rate }).portDown port

/-! ## Retransmission (R412) -/

/-- LINK.RTO in clk: a clk is 1/1.2 ns (R26), rounded up. -/
def State.rtoClk (s : State) : Nat := (s.dev.link.rto.toNat * 6 + 4) / 5

/-- A message has had no acknowledgement for LINK.RTO. -/
def Sent.late (x : Sent) (s : State) : Bool := decide (x.at_ + s.rtoClk ≤ s.dev.clk)

/-- A peer has a message whose acknowledgement is late. -/
def State.peerLate (s : State) (p : Peer) : Bool := p.unacked.any fun x => x.late s && !x.msg.isAck

/-- Event RETRANSMIT_TIMEOUT (R412): the messages whose acknowledgement is late are sent again; once one has been LINK.RETRY times, a live
peer goes DOWN. What a FROZEN peer has been refused is sent as often, and no more (log 21). -/
def execRetransmitTimeout (peer : Nat) (s : State) : Host.Outcome State Fault Refusal :=
  .next <|
    let p := s.peerAt peer
    let spent := fun (x : Sent) => x.late s && !x.msg.isAck && decide (x.tries ≥ s.dev.link.retry)
    if !(p.live || p.st == .frozen) || !s.peerLate p then s
    else if p.live && p.unacked.any spent then s.downPeer peer (some 5)
    else
      let again := fun (x : Sent) => x.late s && !spent x
      (s.setPeer peer fun p => { p with unacked := updIf again (fun x => { x with tries := x.tries + 1, at_ := s.dev.clk }) p.unacked }).updLink
        fun l => { l with out := l.out ++ (p.unacked.filter again).map fun x => (peer, x.seq, p.rxSeq, x.msg) }

end Sys2Proof.Machine
end

