-- ==== Sys2Proof/Machine/Sm3.lean ====
section
/-! DEFINITION. The SM3 digest (GB/T 32905) that R65, R225, R432 and R434 name, over bytes. The spec gives the name only; the
algorithm is the public standard's (log 10). -/

namespace Sys2Proof.Machine

/-- The initial value. -/
def sm3Iv : List Word :=
  [0x7380166f#32, 0x4914b2b9#32, 0x172442d7#32, 0xda8a0600#32, 0xa96f30bc#32, 0x163138aa#32, 0xe38dee4d#32, 0xb0fb0e4e#32]

/-- A big-endian number of bytes. -/
def natOfBE : List Byte → Nat := fun l => l.foldl (fun n b => 256 * n + b.toNat) 0

/-- The low `c` bytes of a number, most significant first. -/
def bytesBE (x c : Nat) : List Byte := (bytesOfNat x c).reverse

/-- The padding of a message of `n` bytes. -/
def sm3Pad (n : Nat) : List Byte := 0x80#8 :: (List.replicate ((119 - n % 64) % 64) 0#8 ++ bytesBE (8 * n) 8)

/-- The message words W_16 to W_67, added at the head of the words so far, latest first. -/
def sm3Expand : Nat → List Word → List Word
  | 0, w => w
  | n + 1, w =>
    let g := fun (i : Nat) => w.getD (i - 1) 0#32
    let x := g 16 ^^^ g 9 ^^^ (g 3).rotateLeft 15
    let p1 := x ^^^ x.rotateLeft 15 ^^^ x.rotateLeft 23
    sm3Expand n ((p1 ^^^ (g 13).rotateLeft 7 ^^^ g 6) :: w)

/-- One round j, with W_j and W_{j+4}. -/
def sm3Round (v : List Word) (x : Nat × Word × Word) : List Word :=
  match v with
  | [a, b, c, d, e, f, g, h] =>
    let (j, w, w4) := x
    let t : Word := if j < 16 then 0x79cc4519#32 else 0x7a879d8a#32
    let ss1 := (a.rotateLeft 12 + e + t.rotateLeft (j % 32)).rotateLeft 7
    let ss2 := ss1 ^^^ a.rotateLeft 12
    let ff := if j < 16 then a ^^^ b ^^^ c else (a &&& b) ||| (a &&& c) ||| (b &&& c)
    let gg := if j < 16 then e ^^^ f ^^^ g else (e &&& f) ||| (~~~e &&& g)
    let tt1 := ff + d + ss2 + (w ^^^ w4)
    let tt2 := gg + h + ss1 + w
    [tt1, a, b.rotateLeft 9, c, tt2 ^^^ tt2.rotateLeft 9 ^^^ tt2.rotateLeft 17, e, f.rotateLeft 19, g]
  | _ => v

/-- One block of 64 bytes. -/
def sm3Block (v : List Word) (b : List Byte) : List Word :=
  let w0 := (List.range 16).map fun i => BitVec.ofNat 32 (natOfBE ((b.drop (4 * i)).take 4))
  let w := (sm3Expand 52 w0.reverse).reverse
  let r := ((List.range 64).zip (w.zip (w.drop 4))).foldl sm3Round v
  (r.zip v).map fun (x, y) => x ^^^ y

/-- The blocks of a message, `n` of them. -/
def sm3Blocks : Nat → List Byte → List Word → List Word
  | 0, _, v => v
  | n + 1, l, v => sm3Blocks n (l.drop 64) (sm3Block v (l.take 64))

/-- The 32-byte digest of bytes. -/
def sm3 (m : List Byte) : List Byte :=
  let l := m ++ sm3Pad m.length
  ((sm3Blocks (l.length / 64) l sm3Iv).map fun w => bytesBE w.toNat 4).flatten

end Sys2Proof.Machine
end

