-- ==== Sys2Proof/Machine/Sm2.lean ====
section
/-! DEFINITION. SM2 signatures (GB/T 32918.2): verified, as R432 has the boot ROM do it (log 10), and made, as R434 has the device do it
(log 11). -/

namespace Sys2Proof.Machine

/-! ## The curve -/

/-- The field prime, curve coefficients, order and base point of the recommended curve. -/
def sm2P : Nat := 0xFFFFFFFEFFFFFFFFFFFFFFFFFFFFFFFFFFFFFFFF00000000FFFFFFFFFFFFFFFF
def sm2A : Nat := 0xFFFFFFFEFFFFFFFFFFFFFFFFFFFFFFFFFFFFFFFF00000000FFFFFFFFFFFFFFFC
def sm2B : Nat := 0x28E9FA9E9D9F5E344D5A9E4BCF6509A7F39789F515AB8F92DDBCBD414D940E93
def sm2N : Nat := 0xFFFFFFFEFFFFFFFFFFFFFFFFFFFFFFFF7203DF6B21C6052B53BBF40939D54123
def sm2Gx : Nat := 0x32C4AE2C1F1981195F9904466A39C9948FE30BBFF2660BE1715A4589334C74C7
def sm2Gy : Nat := 0xBC3736A2F4F6779C59BDCEE36B692153D0A9877CC62A474002DF32E52139F0A0

/-- Powers modulo `m`, by the bits of the exponent from the highest. -/
def powMod (m a e : Nat) : Nat → Nat
  | 0 => 1
  | k + 1 =>
    let r := powMod m a (e / 2) k
    let q := r * r % m
    if e % 2 = 1 then q * a % m else q

/-- The inverse modulo the prime. -/
def invMod (a : Nat) : Nat := powMod sm2P (a % sm2P) (sm2P - 2) 256

/-- A difference modulo the prime. -/
def subMod (a b : Nat) : Nat := (a + sm2P - b % sm2P) % sm2P

/-- A point: none is the point at infinity. -/
abbrev Sm2Pt := Option (Nat × Nat)

/-- The sum of two points. -/
def sm2Add (p q : Sm2Pt) : Sm2Pt :=
  match p, q with
  | none, q => q
  | p, none => p
  | some (x1, y1), some (x2, y2) =>
    if x1 = x2 ∧ (y1 + y2) % sm2P = 0 then none
    else
      let l := if x1 = x2 then (3 * x1 * x1 + sm2A) * invMod (2 * y1) % sm2P else subMod y2 y1 * invMod (subMod x2 x1) % sm2P
      let x := subMod (subMod (l * l) x1) x2
      some (x, subMod (l * subMod x1 x) y1)

/-- A point (x, y) as (x z², y z³, z); z is 0 at infinity. Sums in this form need no inverse. -/
structure Sm2Jac where
  x : Nat
  y : Nat
  z : Nat
deriving DecidableEq, Repr

/-- Twice a point. -/
def Sm2Jac.dbl (p : Sm2Jac) : Sm2Jac :=
  let w := p.y * p.y % sm2P
  let d := 4 * p.x * w % sm2P
  let zz := p.z * p.z % sm2P
  let m := (3 * p.x * p.x + sm2A * (zz * zz % sm2P)) % sm2P
  let x := subMod (m * m) (2 * d)
  ⟨x, subMod (m * subMod d x) (8 * w * w), 2 * p.y * p.z % sm2P⟩

/-- The sum with a point (x, y). -/
def Sm2Jac.add (p : Sm2Jac) (x y : Nat) : Sm2Jac :=
  if p.z = 0 then ⟨x, y, 1⟩
  else
    let zz := p.z * p.z % sm2P
    let h := subMod (x * zz) p.x
    let r := subMod (y * (zz * p.z % sm2P)) p.y
    if h = 0 then (if r = 0 then p.dbl else ⟨1, 1, 0⟩)
    else
      let hh := h * h % sm2P
      let v := p.x * hh % sm2P
      let hhh := hh * h % sm2P
      let a := subMod (r * r) (hhh + 2 * v)
      ⟨a, subMod (r * subMod v a) (p.y * hhh), h * p.z % sm2P⟩

/-- The point as (x, y). -/
def Sm2Jac.point (p : Sm2Jac) : Sm2Pt :=
  if p.z = 0 then none
  else
    let i := invMod p.z
    let ii := i * i % sm2P
    some (p.x * ii % sm2P, p.y * (ii * i % sm2P) % sm2P)

/-- `k` times the point (x, y), by the bits of `k` from the highest. -/
def sm2Times (x y k : Nat) : Nat → Sm2Jac
  | 0 => ⟨1, 1, 0⟩
  | n + 1 =>
    let d := (sm2Times x y (k / 2) n).dbl
    if k % 2 = 1 then d.add x y else d

/-- A multiple of a point, of a number below 2^256. -/
def sm2Mul (x y k : Nat) : Sm2Pt := (sm2Times x y k 256).point

/-! ## Verification -/

/-- The digest that a signature signs: of the signer's identity, with the default identifier of GM/T 0009, and the
message. -/
def sm2Digest (key msg : List Byte) : Nat :=
  let id : List Byte := [0x31#8, 0x32#8, 0x33#8, 0x34#8, 0x35#8, 0x36#8, 0x37#8, 0x38#8]
  let z := sm3 ([0x00#8, 0x80#8] ++ id ++ id ++ bytesBE sm2A 32 ++ bytesBE sm2B 32 ++ bytesBE sm2Gx 32 ++ bytesBE sm2Gy 32 ++ key)
  natOfBE (sm3 (z ++ msg))

/-- A signature r ‖ s verifies under a public key x ‖ y. -/
def sm2Verify (key msg sig : List Byte) : Bool :=
  let r := natOfBE (sig.take 32)
  let s := natOfBE (sig.drop 32)
  let t := (r + s) % sm2N
  if r = 0 || r ≥ sm2N || s = 0 || s ≥ sm2N || t = 0 then false
  else
    match sm2Add (sm2Mul sm2Gx sm2Gy s) (sm2Mul (natOfBE (key.take 32)) (natOfBE (key.drop 32)) t) with
    | none => false
    | some (x, _) => (sm2Digest key msg + x) % sm2N == r

/-! ## Signing -/

/-- The public key x ‖ y of a secret key. -/
def sm2Public (d : Nat) : List Byte :=
  match sm2Mul sm2Gx sm2Gy d with
  | some (x, y) => bytesBE x 32 ++ bytesBE y 32
  | none => List.replicate 64 0#8

/-- The signature r ‖ s of a digest number by a secret key, with the number `k` from 1 to n − 1; `none` where GB/T 32918.2 has another `k`
drawn. -/
def sm2SignWith (d e k : Nat) : Option (List Byte) :=
  match sm2Mul sm2Gx sm2Gy k with
  | none => none
  | some (x, _) =>
    let r := (e + x) % sm2N
    let s := powMod sm2N ((1 + d) % sm2N) (sm2N - 2) 256 * (k + (sm2N - r * d % sm2N)) % sm2N
    if r = 0 || r + k = sm2N || s = 0 then none else some (bytesBE r 32 ++ bytesBE s 32)

/-- The signature of a message by a secret key, with the first number that serves of those that `draw` gives from `n` on; `tries` of them
are looked at. -/
def sm2Sign (d : Nat) (msg : List Byte) (draw : Nat → Nat) : Nat → Nat → List Byte
  | _, 0 => List.replicate 64 0#8
  | n, tries + 1 => (sm2SignWith d (sm2Digest (sm2Public d) msg) (1 + draw n % (sm2N - 1))).getD (sm2Sign d msg draw (n + 1) tries)

end Sys2Proof.Machine
end

