-- ==== Sys2Proof/Machine/Die.lean ====
section
/-! DEFINITION. Bring-up, the thermal trip, bias and temperature, energy accumulators, attestation (R426 to R434). -/

namespace Sys2Proof.Machine

/-! ## The firmware image (R432) -/

/-- The header's fields are valid, and the bytes hold the whole body. -/
def imageOk (b : List Byte) : Bool :=
  let len := fld b 0x08 4
  decide (b.length ≥ 256 + len) && fld b 0x00 4 == 0x46574B50 && fld b 0x04 2 == 1 && zeros b 0x06 2 && zeros b 0x14 12 &&
  zeros b 0xA0 96 && decide (4 ≤ len ∧ len ≤ 262144) && len % 4 == 0 && fld b 0x0C 4 % 2 == 0 && decide (fld b 0x0C 4 < len)

/-- An image's header and body. -/
def imageBytes (b : List Byte) : List Byte := b.take (256 + fld b 0x08 4)

/-- Why an image is not accepted, as BOOT.FAIL numbers it (R432, R433): the lowest number that applies; 0 where it is
accepted. The signature is of the digest of bytes 0x00 to 0x5F and the body (log 10). -/
def State.imageFail (s : State) (b : List Byte) : Nat :=
  let key := (b.drop 0x20).take 64
  if !imageOk b then 2
  else if sm3 key ≠ s.fuse.keyHash then 3
  else if !sm2Verify key (sm3 (b.take 0x60 ++ (imageBytes b).drop 256)) ((b.drop 0x60).take 64) then 4
  else if fld b 0x10 4 < s.dev.die.svn.toNat then 5
  else 0

/-- The image runs (R431 step 4): its body is copied to tightly coupled memory at 0, and the firmware begins at ENTRY; `src` 0 is flash, 1 the
network. -/
def State.runImage (s : State) (src : Nat) (b : List Byte) : State :=
  s.updDie fun d => { d with stage := 3, src := src, image := imageBytes b, tcm := (imageBytes b).drop 256, pc := fld b 0x0C 4, fwDigest := sm3 (imageBytes b) }

/-- The port that serves network boot: the lowest enabled one (R25, R431). -/
def State.bootPort (s : State) : Option Nat := (List.range 8).find? fun p => s.fuse.ports.getLsbD p

/-- An attempt of network boot begins: it brings its port up at 200 Gb/s (R431 step 5). -/
def State.netBoot (s : State) : State :=
  let s := s.updDie fun d => { d with tried := false }
  match s.bootPort with
  | none => s
  | some p => s.setRate p 1

/-- Network boot ends as the firmware begins: its port is off again (R459). -/
def State.netEnd (s : State) : State :=
  match s.bootPort with
  | none => s
  | some p => s.setRate p 0

/-- The port of network boot is up. -/
def State.netUp (s : State) : Bool := s.bootPort.any fun p => s.dev.link.pstate.getD p 0 == 2

/-! ## Power (R429 to R431) -/

/-- The device after a loss of its own supplies: of its registers PWR.TRIP remains, and what flash, fuses and the board hold. -/
def State.lost (s : State) (powered tripn : Bool) (trip : BitVec 4) : State :=
  let d := s.dev.die
  { s with mem := [], dev := { Dev.reset with
      freeCtr := s.dev.freeCtr, nextId := s.dev.nextId,
      die := { Die.reset with standby := d.standby, powered := powered, tripn := tripn, trip := trip, svn := d.svn, flash := d.flash } } }

/-- Event POWER_ON_RESET (R431): the boot ROM verifies the flash image and runs it, or goes on to network boot. A package that
holds TRIPN low has no supply (R429); without a standby rail TRIP reads 0 (R430). -/
def execPowerOnReset (s : State) : Host.Outcome State Fault Refusal :=
  .next <|
    if s.dev.die.tripn then s
    else
      let s := s.lost true false (if s.dev.die.standby then s.dev.die.trip else 0#4)
      match s.dev.die.flash with
      | none => (s.updDie fun d => { d with stage := 2, fail := 1 }).netBoot
      | some b =>
        let f := s.imageFail b
        if f = 0 then s.runImage 0 b else (s.updDie fun d => { d with stage := 2, fail := f }).netBoot

/-- Event NETWORK_BOOT_RETRY (R431 step 6): step 5 again, once per second. -/
def execNetworkBootRetry (s : State) : Host.Outcome State Fault Refusal :=
  .next <|
    let d := s.dev.die
    if d.powered && d.stage = 2 && s.dev.clk ≥ 1200000000 * (d.netRetries + 1) then (s.updDie fun d => { d with netRetries := d.netRetries + 1 }).netBoot
    else s

/-- Event NETWORK_IMAGE_FETCH (R431 step 5, R432): the image that came through the port of network boot in this attempt runs, or is rejected,
and the attempt has failed. -/
def execNetworkImageFetch (image : List (BitVec 8)) (s : State) : Host.Outcome State Fault Refusal :=
  .next <|
    if s.dev.die.powered && s.dev.die.stage = 2 && !s.dev.die.tried && s.netUp then
      (if s.imageFail image = 0 then s.netEnd.runImage 1 image else s.updDie fun d => { d with tried := true })
    else s

/-- Event THERMAL_TRIP (R429, R430): `dies` are those whose comparators fire. -/
def execThermalTrip (dies : BitVec 4) (s : State) : Host.Outcome State Fault Refusal :=
  .next <| if dies = 0#4 || !s.dev.die.powered then s else s.lost false true (s.dev.die.trip ||| dies)

/-- Event BOARD_POWER_REMOVAL (R429, R430). -/
def execBoardPowerRemoval (s : State) : Host.Outcome State Fault Refusal := .next (s.lost false false s.dev.die.trip)

/-- Event STANDBY_RAIL_LOSS (R430). -/
def execStandbyRailLoss (s : State) : Host.Outcome State Fault Refusal := .next (s.updDie fun d => { d with trip := 0#4 })

/-- Event FUSED_COUNTER_RAISE (R432): the running firmware raises SEC.SVN. -/
def execFusedCounterRaise (value : BitVec 8) (s : State) : Host.Outcome State Fault Refusal :=
  .next <| if s.dev.die.stage = 3 && value.toNat > s.dev.die.svn.toNat then s.updDie fun d => { d with svn := value } else s

/-! ## Ready bits (R433) -/

/-- Doorbells held until FRONT is ready take effect, in order. -/
def State.ringHeld (s : State) : State :=
  (s.dev.die.heldBells.foldl (fun s (_, m) => match m with
    | .doorbell cg q w => s.doorbell cg q w
    | _ => s) s).updDie fun d => { d with heldBells := [] }

/-- A block's bit set, where it is not: it may be used from the next clk (R433). -/
def State.comeReady (s : State) (block n : Nat) (f : Die → Die) : State :=
  if f s.dev.die = s.dev.die then s
  else s.updDie fun d => { f d with fresh := (if d.freshAt = s.dev.clk then d.fresh else []) ++ [(block, n)], freshAt := s.dev.clk }

/-- Doorbells that came in the clk in which FRONT became ready take effect in the next (R433). -/
def State.frontBells (s : State) : State := if s.frontReady && !s.dev.die.heldBells.isEmpty then s.ringHeld else s

/-- Event BLOCK_READY (R433): block 0 a zone, 1 an HBM stack, 2 a port, which trains where it has a rate (R409), 3 FRONT, 4 a Sheng, 5 a rasteriser; `n` its number. A
disabled unit never sets its bit. -/
def execBlockReady (block n : Nat) (s : State) : Host.Outcome State Fault Refusal :=
  .next <|
    if !s.dev.die.powered || s.dev.die.stage = 0 then s
    else if block = 0 then
      (if n < 12 && (List.range 192).any (fun c => zoneOf c == n && s.coreOn c) then
        s.comeReady 0 n fun d => { d with zonesRdy := d.zonesRdy ||| (1#12 <<< n) } else s)
    else if block = 1 then (if n < 8 && s.fuse.hbm.getLsbD n then s.comeReady 1 n fun d => { d with hbmRdy := d.hbmRdy ||| (1#8 <<< n) } else s)
    else if block = 2 then
      (if n < 8 && s.fuse.ports.getLsbD n then
        let s := s.comeReady 2 n fun d => { d with portsRdy := d.portsRdy ||| (1#8 <<< n) }
        if s.portOn n && s.dev.link.pstate.getD n 0 = 0 then s.setPort n 1 else s
      else s)
    else if block = 3 then (s.comeReady 3 0 fun d => { d with front := true }).ringHeld
    else if block = 4 then (if s.coreOn n then s.comeReady 4 n fun d => { d with shengRdy := d.shengRdy ||| (1#192 <<< n) } else s)
    else if block = 5 then (if s.coreOn n then s.comeReady 5 n fun d => { d with rastRdy := d.rastRdy ||| (1#192 <<< n) } else s)
    else s

/-! ## Bias, temperature, energy (R426 to R428) -/

/-- Event BIAS_STEP (R426): one step of a signed code, at most one in a microsecond, unless it is held; no step beyond its range. -/
def execBiasStep (zone : Nat) (up : Bool) (s : State) : Host.Outcome State Fault Refusal :=
  .next <|
    let z := s.zone zone
    if zone ≥ 12 || z.hold || decide (s.dev.clk < z.biasFrom) || z.code == (if up then 15#5 else 16#5) then s
    else s.updZone zone fun z => { z with code := if up then z.code + 1#5 else z.code - 1#5, biasFrom := s.dev.clk + 1200 }

/-- Event TEMP_UPDATE (R426): every 10 microseconds. -/
def execTempUpdate (zone : Nat) (temp : BitVec 8) (s : State) : Host.Outcome State Fault Refusal :=
  .next <| if zone ≥ 12 || decide (s.dev.clk < (s.zone zone).tempFrom) then s
    else s.updZone zone fun z => { z with temp := temp, tempFrom := s.dev.clk + 12000 }

def State.updEnergy (s : State) (b : Nat) (f : Energy → Energy) : State := s.updDie fun d => { d with energy := d.energy.modify b f }

/-- What a read in a clk finds: the value and WRAP before the increments of that clk (R428). -/
def Energy.seen (e : Energy) (clk : Nat) : Nat × Bool := if e.incAt = clk then (e.was, e.wasWrap) else (e.acc, e.wrap)

/-- An increment in a clk (R427). -/
def Energy.add (e : Energy) (clk amount : Nat) : Energy :=
  let wraps := decide (e.acc + amount ≥ 2 ^ 48)
  { e with acc := (e.acc + amount) % 2 ^ 48, wrap := e.wrap || wraps, incAt := clk, was := (e.seen clk).1, wasWrap := (e.seen clk).2,
           wrapAt := if wraps then some clk else e.wrapAt }

/-- WRAP cleared in a clk; a wrap of that clk stays (R428). -/
def Energy.clearWrap (e : Energy) (clk : Nat) : Energy := { e with wrap := e.wrapAt == some clk, wasWrap := false }

/-- Event ACCUMULATOR_INCREMENT (R427). -/
def execAccumulatorIncrement (b amount : Nat) (s : State) : Host.Outcome State Fault Refusal :=
  .next <| s.updEnergy b fun e => e.add s.dev.clk amount

/-- A read of ELO latches EHI and WRAP (R428). -/
def State.readEnergy (s : State) (b : Nat) : State :=
  s.updEnergy b fun e => { e with ehi := (e.seen s.dev.clk).1 / 2 ^ 32, latWrap := (e.seen s.dev.clk).2 }

/-- Event ENERGY_READ (R428). -/
def execEnergyRead (b : Nat) (s : State) : Host.Outcome State Fault Refusal := .next (s.readEnergy b)

/-! ## Attestation (R434) -/

/-- The report, before its signature. -/
def State.report (s : State) : List Byte :=
  let d := s.dev.die
  let w := fun (n : Nat) => bytesOfNat (s.fuse.devWord n).toNat 4
  bytesOfNat 0x41544B50 4 ++ w 0 ++ w 1 ++ bytesOfNat d.svn.toNat 4 ++ (d.fwDigest ++ List.replicate 32 0#8).take 32 ++
  ((bytesOf d.nonce) ++ List.replicate 32 0#8).take 32 ++ bytesOfNat s.fuse.coremask.toNat 24 ++ bytesOfNat s.fuse.l2mask.toNat 24 ++
  bytesOfNat d.src 4 ++ List.replicate 60 0#8

/-- The device's signature of bytes, under its secret key, over their digest; the number that each signature draws is free (log 11). -/
def State.signed (s : State) (b : List Byte) : List Byte × State :=
  (sm2Sign s.fuse.idkey (sm3 b) Config.signDraw s.dev.freeCtr 4, s.onDev fun d => { d with freeCtr := d.freeCtr + 4 })

/-- SEC.OP = 1 given (R434). -/
def State.attest (s : State) : State :=
  let d := s.dev.die
  let a := d.rptlo.toNat + 2 ^ 32 * d.rpthi.toNat
  if d.secBusy then s.updDie fun d => { d with secResult := 2 }
  else if !s.inMem a 256 then s.updDie fun d => { d with secResult := 1 }
  else
    let b := s.report
    let (sig, s) := s.signed b
    s.updDie fun d => { d with secBusy := true, secReport := b ++ sig, secAddr := a }

/-- Event ATTESTATION_REPORT (R434). -/
def execAttestationReport (s : State) : Host.Outcome State Fault Refusal := .next s.attest

/-- Event REPORT_WRITTEN (R434): the report is admitted before BUSY falls. -/
def execReportWritten (s : State) : Host.Outcome State Fault Refusal :=
  .next <|
    let d := s.dev.die
    if d.secBusy then (s.put d.secAddr d.secReport).updDie fun d => { d with secBusy := false, secResult := 0, secReport := [] }
    else s

end Sys2Proof.Machine
end

