-- ==== Sys2Proof/Machine/OverlayOps.lean ====
section
/-! DEFINITION. Overlay fetches and evictions (R223 to R228, R236), the overlay instructions (R229 to R235), breakpoints (R238,
R239). -/

namespace Sys2Proof.Machine

/-! ## Slots (R223, R224) -/

/-- Evictable copies of a core, oldest entry first, ties by lowest slot (R222, R223). -/
def State.evictable (s : State) (core : Nat) : List Copy :=
  sortBy (fun k => k.entered) (sortBy (fun k => k.slotNos.foldl min 64) ((s.core core).copies.filter fun k => s.pins core k.id = 0))

/-- Slots that a context holds on a core (R224). -/
def State.heldSlots (s : State) (core ctx : Nat) : Nat :=
  (((s.core core).copies.filter fun k => k.binds.any (fun b => b.ctx == ctx) &&
      (k.binds.all (fun b => b.ctx == ctx) || s.pinsOf core k.id (· == ctx) ≠ 0)).map fun k => k.slots).sum +
  (((s.core core).fetches.filter fun f => f.ctx == ctx).map fun f => f.slotNos.length).sum

/-- The shortest run of copies that frees at least `n` slots; `none` where all of them do not. -/
def evictFor : Nat → List Copy → Option (List Copy)
  | 0, _ => some []
  | _ + 1, [] => none
  | n + 1, k :: r => (evictFor (n + 1 - k.slots) r).map fun l => k :: l

/-- A copy evicted: its slots, bindings and clause buffers go (R241). -/
def State.evict (s : State) (core : Nat) (l : List Copy) : State :=
  let ids := l.map fun k => k.id
  s.updCore core fun c => { c with copies := c.copies.filter fun k => !ids.contains k.id, bufs := c.bufs.map fun (r, l) => (r, l.filter fun b => !ids.contains b.copy) }

/-- `n` slots taken for a context (R223, R224): the context's own copies that the quota asks for go first, whether the slots can then
be supplied or not. -/
def State.takeSlots (s : State) (core ctx n : Nat) : Option (List Nat) × State :=
  let q := ((s.ctx? ctx).map fun c => c.e.qislots).getD 0
  let h := s.heldSlots core ctx
  let excess := if q = 0 then 0 else h + n - q
  match evictFor excess ((s.evictable core).filter fun k => k.binds.all fun b => b.ctx == ctx) with
  | none => (none, s)
  | some a =>
    if q ≠ 0 && n > q then (none, s)
    else
      let s := s.evict core a
      let free := (s.core core).freeSlots
      match evictFor (n - free.length) (s.evictable core) with
      | none => (none, s)
      | some b => (some ((free ++ (b.map fun k => k.slotNos).flatten).take n), s.evict core b)

/-! ## Fetches (R225 to R228, R236) -/

def State.updFetch (s : State) (core id : Nat) (f : Fetch → Fetch) : State :=
  s.updCore core fun c => { c with fetches := updIf (fun x => x.id == id) f c.fetches }

def State.dropFetch (s : State) (core id : Nat) : State :=
  (s.updCore core fun c => { c with fetches := c.fetches.filter fun x => x.id != id }).endEng id

/-- The overlay table of an image that a context executes. Of two grids of the context with one CODEBASE and unlike tables, the first
listed serves it: DESIGN CHOICE (log 40). -/
def State.tableFor (s : State) (ctx image : Nat) : Option Image :=
  s.dev.grids.findSome? fun gr =>
    if gr.ctx ≠ ctx then none
    else if gr.lr.codebase = image then some ⟨image, gr.lr.ovtable, gr.lr.ovcount⟩
    else match s.handler gr, gr.trap with
      | some (img, _, _), .ok t n => if img = image then some ⟨img, img + t, n⟩ else none
      | _, _ => none

/-- A token that waits for a fetch, changed. -/
def OtTok.onLoading (id : Nat) (f : Nat → OtFrom → OtTok) (o : OtTok) : OtTok :=
  match o with
  | .loading i c w => if c = id then f i w else o
  | o => o

/-- Tokens of a core that wait for a fetch, changed (R228, R231). -/
def State.mapLoading (s : State) (core id : Nat) (f : Nat → OtFrom → OtTok) : State :=
  s.onDev fun d => { d with teams := updIf (fun t => t.core == core && t.st != .saved) (fun t => { t with ot := t.ot.map (OtTok.onLoading id f) }) d.teams }

/-- The threads that wait for a fetch run again (R237, R228): those that parked for this one, not for one asked for since. -/
def State.wakeFetch (s : State) (core : Nat) (f : Fetch) (g : Thread → Thread) : State :=
  s.unparkIf (fun x => x.core == core && s.residentTeam x.team) (fun th => th.parkKey == f.id && match th.park with
    | some (.copy _) => true
    | some (.overlay ..) => true
    | _ => false) g

/-- A fetch fails (R228): `tok` is the code that the tokens take. -/
def State.fetchFail (s : State) (core : Nat) (f : Fetch) (code tok : BitVec 8) (va : Nat) : State :=
  let ws := (s.dev.teams.filter fun t => t.core == core && t.st != .saved).map fun t => t.ot.filterMap fun o => match o with
    | .loading _ c w => if c = f.id then some w else none
    | _ => none
  let s := ws.flatten.foldl (fun s w => s.addAsync w.grp w.thread ⟨tok, 0#10, w.unit, BitVec.ofNat 64 va⟩) s
  let s := s.mapLoading core f.id fun i _ => .failed i
  (s.dropFetch core f.id).wakeFetch core f fun t => { t with due := some ⟨code, 0#10, 0#32, BitVec.ofNat 64 va⟩ }

/-- A residency token of a core's teams waits for a fetch. -/
def State.tokenWaits (s : State) (core id : Nat) : Bool :=
  s.dev.teams.any fun t => t.core == core && t.st != .saved && t.ot.any fun o => match o with
    | .loading _ c _ => c == id
    | _ => false

/-- A fetch is served by a copy (R226, or its own), with the GEN and START of the binding: tokens are HELD, threads run again. The copy is
entered where an `OVLOAD` has bound it (R223). -/
def State.fetchServed (s : State) (core : Nat) (f : Fetch) (copy gen start : Nat) : State :=
  let s := if s.tokenWaits core f.id then s.enterCopy core copy else s
  let s := s.mapLoading core f.id fun i w => .held i copy gen start w
  (s.dropFetch core f.id).wakeFetch core f id

/-- Words by index, without the zeros. -/
def wordMapOf (l : List Word) : WordMap := ((List.range l.length).zip l).filter fun x => x.2 ≠ 0#32

/-- The code read and checked (R225): the copy becomes resident, and its binding current, unless an `OVINV` came after the fetch took its
slots or after the save that recorded the key (R235, R241), or the overlay has a current one (log 40). Until something enters it, the
clk of its entry is that in which it became resident: DESIGN CHOICE (log 40). -/
def State.readCode (s : State) (core : Nat) (f : Fetch) (e : CopyKey) : State :=
  let va := f.image + e.start
  match s.engRead (some core) f.ctx f.id va (e.slots * 4096) .code with
  | (s, .wait _, _) => s
  | (s, .fault c v, _) => s.fetchFail core f c c v
  | (s, .ok _, b) =>
    if sm3 b ≠ e.digest then s.fetchFail core f 0x06#8 0x06#8 0
    else
      let stale := f.stale || e.stale || ((s.core core).bound? f.ctx f.image f.ident).isSome
      let k : Copy :=
        { id := f.id, ctx := f.ctx, domain := ((s.ctx? f.ctx).map fun c => c.e.domain).getD 0, ident := e.ident, gen := e.gen,
          start := e.start, slots := e.slots, slotNos := f.slotNos, digest := e.digest, share := e.share, words := wordMapOf (wordsOf b),
          binds := [⟨f.ctx, f.image, f.ident, e.gen, e.start, e.share, stale⟩], entered := s.dev.clk }
      (s.updCore core fun c => { c with copies := c.copies ++ [k] }).fetchServed core f f.id e.gen e.start

/-- Slots taken for a fetch, waiting where they cannot be (R223, R227). -/
def State.fetchSlots (s : State) (core : Nat) (f : Fetch) (e : CopyKey) : State :=
  match s.takeSlots core f.ctx e.slots with
  | (none, s) => s.updFetch core f.id fun f => { f with waitFrom := match f.waitFrom with
      | some c => some c
      | none => some s.dev.clk }
  | (some l, s) =>
    let f' := { f with entry := some e, slotNos := l, waitFrom := none }
    (s.updFetch core f.id fun _ => f').readCode core f' e

/-- A fetch goes on as far as it can (R225, R226, R236). One of a shareable overlay whose DIGEST has stayed the same binds to the shared
copy that is resident, after an `OVINV` too: DESIGN CHOICE (log 40). -/
def State.fetchStep (s : State) (core : Nat) (f : Fetch) : State :=
  match f.entry, f.key with
  | some e, _ => s.readCode core f e
  | none, some k => s.fetchSlots core f k
  | none, none =>
    match s.tableFor f.ctx f.image with
    | none => s.fetchFail core f 0x06#8 0x06#8 0
    | some img =>
      match s.searchTable core f.ctx f.id (fun e => e.id == f.ident) img.count img.table with
      | (s, .none) => s.fetchFail core f 0x06#8 0x06#8 0
      | (s, .fault c va) => s.fetchFail core f c c va
      | (s, .wait _) => s
      | (s, .found e) =>
        let dom := ((s.ctx? f.ctx).map fun c => c.e.domain).getD 0
        let same := fun (k : Copy) => e.share && dom != 0 && k.share && k.domain == dom && k.slots == e.slots && k.digest == e.digest
        match (s.core core).copies.find? same with
        | some k =>
          let bind := fun (y : Copy) => { y with binds := y.binds ++ [⟨f.ctx, f.image, f.ident, e.gen, e.start, e.share, false⟩] }
          (s.updCore core fun c => { c with copies := updIf (fun y => y.id == k.id) bind c.copies }).fetchServed core f k.id e.gen e.start
        | none => s.fetchSlots core f ⟨e.id, e.gen, e.start, e.slots, f.image, e.digest, e.share, false⟩

def State.fetch? (s : State) (core id : Nat) : Option Fetch := (s.core core).fetches.find? fun f => f.id == id

/-- Event OVERLAY_FETCH_COMPLETE (R225, R226, R236, R241). -/
def execOverlayFetchComplete (core fetch : Nat) (s : State) : Host.Outcome State Fault Refusal :=
  .next <|
    match s.fetch? core fetch with
    | none => s
    | some f => s.fetchStep core f

/-- Event OVWAIT_TIMEOUT (R227): nothing fails where the slots can be taken in this clk. -/
def execOvwaitTimeout (core fetch : Nat) (s : State) : Host.Outcome State Fault Refusal :=
  .next <|
    match s.fetch? core fetch with
    | none => s
    | some f =>
      match f.waitFrom with
      | none => s
      | some c =>
        let lim := (s.core core).ovwait.toNat
        if lim = 0 || s.dev.clk < c + lim then s
        else
          let s := s.fetchStep core f
          match s.fetch? core fetch with
          | some f => if f.waitFrom.isSome then s.fetchFail core f 0x06#8 0x42#8 0 else s
          | none => s

/-! ## The instructions (R229 to R235) -/

def State.setOt (s : State) (team n : Nat) (o : OtTok) : State := s.updTeam team fun t => { t with ot := t.ot.set n o }

/-- `OVLOAD` (R231). -/
def execOvload (ot : BitVec 4) (id : BitVec 12) (s : State) : Host.Outcome State Fault Refusal :=
  s.perGroup fun st s g t =>
    match g.thread? t, s.grid? g.grid with
    | some th, some gr =>
      let img := s.imageBase gr th.inTrap
      let w : OtFrom := ⟨g.id, t, st.unit⟩
      let s := s.setOt g.team ot.toNat .free
      match (s.core g.core).bound? g.ctx img id.toNat with
      | some (k, b) => .ok ((s.setOt g.team ot.toNat (.held id.toNat k.id b.gen b.start w)).enterCopy g.core k.id)
      | none =>
        let (n, s) := s.askFetch g.core g.ctx img id.toNat none
        .ok (s.setOt g.team ot.toNat (.loading id.toNat n w))
    | _, _ => .ok s

/-- `OVDROP` (R232). -/
def execOvdrop (ot : BitVec 4) (s : State) : Host.Outcome State Fault Refusal :=
  s.perGroup fun _ s g _ => .ok (s.setOt g.team ot.toNat .free)

/-- `OVINV` (R234, R235): every core has applied the mark before the thread's next unit. It follows the thread's earlier
accesses. -/
def execOvinv (id : BitVec 12) (s : State) : Host.Outcome State Fault Refusal :=
  s.perGroup fun _ s g t =>
    match g.thread? t, s.grid? g.grid with
    | some th, some gr =>
      let img := s.imageBase gr th.inTrap
      let mark := fun (k : Copy) =>
        { k with binds := updIf (fun b => b.ctx == g.ctx && b.image == img && b.id == id.toNat) (fun b => { b with stale := true }) k.binds }
      let fetched := fun (f : Fetch) => f.ctx == g.ctx && f.image == img && f.ident == id.toNat
      let old := fun (f : Fetch) => { f with stale := f.stale || f.entry.isSome, key := f.key.map fun k => { k with stale := true } }
      let key := fun (k : CopyKey) => if k.image = img ∧ k.ident = id.toNat then { k with stale := true } else k
      if !s.memSettled g then .stop s
      else
        let core := fun (c : Core) => { c with copies := c.copies.map mark, fetches := updIf fetched old c.fetches }
        .ok (s.onDev fun d => { d with
          cores := d.cores.map fun x => (x.1, core x.2)
          teams := updIf (fun t => t.ctx == g.ctx) (fun t => { t with keys := t.keys.map fun x => (x.1, key x.2) }) d.teams })
    | _, _ => .ok s

/-- The word of a residency token (R233). -/
def OtTok.word : OtTok → Word
  | .free => 0#32
  | .loading i _ _ => BitVec.ofNat 32 (1 + 16 * i)
  | .held i _ _ _ _ => BitVec.ofNat 32 (2 + 16 * i)
  | .failed i => BitVec.ofNat 32 (3 + 16 * i)

/-- `OVQ` (R233). -/
def execOvq (d : Opnd) (ot : BitVec 4) (s : State) : Host.Outcome State Fault Refusal :=
  let one := fun (st : Stream) (s : State) (t : Nat) =>
    match (s.group? st.grp).bind fun g => s.team? g.team with
    | none => SRes.ok s
    | some tm => .ok (s.updGroup st.grp fun g => wr g t d (tm.ot.getD ot.toNat .free).word)
  if d.isG then s.perGroup fun st s _ t => one st s t else s.perThread fun st s t _ => one st s t

/-! ## Breakpoints (R238, R239) -/

/-- A breakpoint register set of a core. -/
def Core.bp (c : Core) (n : Nat) : Bp := c.bps.getD n ⟨0#32, 0#32, false, false, 0⟩

end Sys2Proof.Machine
end

