-- ==== Sys2Proof/Machine/Registers.lean ====
section
/-! DEFINITION. The register space (R416): reading and writing every register of every block, with its access kind (R7 to R9),
and the events of the MMU block (R273). -/

namespace Sys2Proof.Machine

/-! ## Words of fields -/

/-- Bits [hi:lo] of a word, as a number. -/
def wf (w : Word) (hi lo : Nat) : Nat := field w.toNat hi lo

/-- A number as a word. -/
def nw (n : Nat) : Word := BitVec.ofNat 32 n

/-- A Bool as a bit. -/
def bn (b : Bool) : Nat := if b then 1 else 0

/-- Bits [31:0] of a number replaced. -/
def setLo (x : Nat) (w : Word) : Nat := x / 2 ^ 32 * 2 ^ 32 + w.toNat

/-- Bits [63:32] of a number replaced. -/
def setHi (x h : Nat) : Nat := x % 2 ^ 32 + 2 ^ 32 * h

/-- The state that a command's event leaves. -/
def State.run (s : State) (f : State → Host.Outcome State Fault Refusal) : State :=
  match f s with
  | .next t => t
  | _ => s

/-! ## Invalidation (R273) -/

/-- A gathered byte came through a named page. -/
def MmuRun.namesByte (r : MmuRun) (b : CombByte) : Bool := r.namesPage b.asn b.vbase b.size

/-- The named entries leave every TLB. -/
def State.dropTlb (s : State) (r : MmuRun) : State :=
  let f := fun (l : List TlbEntry) => l.filter fun e => !r.names e
  s.onDev fun d => { d with l2tlb := d.l2tlb.filter fun x => !r.names x.2, cores := d.cores.map fun (n, c) => (n, { c with tlb := f c.tlb, walkTlb := f c.walkTlb }) }

/-- An invalidation command given; while one runs it is ignored. -/
def State.startMmu (s : State) (all : Bool) : State :=
  let m := s.dev.mmu
  if m.run.isSome then s
  else
    let r : MmuRun := ⟨all, m.asn, m.valo * 4096 + m.vahi * 2 ^ 32, m.count.toNat, s.dev.nextId⟩
    (s.dropTlb r).onDev fun d => { d with mmu := { d.mmu with run := some r } }

/-- Event INVALIDATE_ASN_RANGE (R273). -/
def execInvalidateAsnRange (s : State) : Host.Outcome State Fault Refusal := .next (s.startMmu false)

/-- Event INVALIDATE_ALL (R273). -/
def execInvalidateAll (s : State) : Host.Outcome State Fault Refusal := .next (s.startMmu true)

/-- A piece asked of a peer before an identity was given. -/
def RxPiece.before (p : RxPiece) (bound : Nat) : Bool := !p.done && decide (p.tag < bound)

/-- A store-queue entry may have used a named entry: a store of before the command, or gathered bytes that came through a named page. -/
def SqEntry.used (e : SqEntry) (r : MmuRun) : Bool :=
  decide (e.id < r.bound) || match e.op with
    | .line x => x.bytes.any r.namesByte
    | _ => false

/-- Every access that may have used a named entry has taken its place (R273). -/
def State.mmuSettled (s : State) (r : MmuRun) : Bool :=
  (s.dev.groups.all fun g => g.sq.all fun e => !e.used r) &&
  (s.dev.results.all fun x => x.ready || decide (r.bound ≤ x.id) || !(x.kind.isMem || x.kind.isRemote)) &&
  (s.dev.link.acks.all fun a => decide (r.bound ≤ a.id)) &&
  s.dev.cores.all fun (_, c) =>
    (c.comb.all fun l => l.bytes.all fun b => !r.namesByte b) && (c.recs.all fun p => !p.before r.bound) &&
    (c.cmds.all fun k => k.rx.all fun p => !p.before r.bound) && (c.eq ++ c.due).all fun e => e.rx.all fun p => !p.before r.bound

/-- Event INVALIDATION_COMPLETE (R273): BUSY falls. -/
def execInvalidationComplete (s : State) : Host.Outcome State Fault Refusal :=
  .next <|
    match s.dev.mmu.run with
    | none => s
    | some r => if s.mmuSettled r then s.onDev fun d => { d with mmu := { d.mmu with run := none } } else s

/-! ## Which blocks answer (R433) -/

/-- The core of an address of the cores' blocks, and the offset within it. -/
def coreOf (a : Nat) : Option (Nat × Nat) :=
  if 0x01000000 ≤ a && a < 0x01000000 + 0x10000 * 192 then some ((a - 0x01000000) / 0x10000, a % 0x10000) else none

/-- The zone of an address of the zones' blocks, and the offset within it. -/
def zoneAt (a : Nat) : Option (Nat × Nat) :=
  if 0x00100000 ≤ a && a < 0x00100000 + 0x1000 * 12 then some ((a - 0x00100000) / 0x1000, a % 0x1000) else none

/-- The block at an address may be used, on a device that has its supplies. A core's blocks are ready with its zone, its SHENG
block with its Sheng. -/
def State.answers (s : State) (a : Nat) : Bool :=
  s.dev.die.powered &&
  if 0x00010000 ≤ a && a < 0x00050000 then s.frontReady
  else match zoneAt a, coreOf a with
    | some (z, _), _ => s.zoneReady z
    | _, some (c, o) => s.coreOn c && (if o < 0x4000 then s.zoneReady (zoneOf c) else s.shengReady c)
    | _, _ => true

/-! ## Reads -/

/-- RESULT and BUSY of a command block (R101, R119). -/
def CmdRegs.status (r : CmdRegs) : Word := nw (bn r.busy + 2 * if r.refusedBusy then 4 else r.result)

/-- CTX registers (R101). -/
def State.readCtx (s : State) (o : Nat) : Word :=
  let r := s.dev.ctxRegs
  if o = 0x0 then nw (r.base % 2 ^ 32)
  else if o = 0x4 then nw (r.base / 2 ^ 32)
  else if o = 0xC then nw r.gen
  else if o = 0x10 then r.status
  else if o = 0x14 then nw s.dev.ctxs.length
  else 0#32

/-- QUEUE registers (R119). -/
def State.readQueue (s : State) (o : Nat) : Word :=
  let r := s.dev.queueRegs
  if o = 0x4 then nw r.gen
  else if o = 0x8 then r.status
  else if o = 0xC then nw s.slotsAssigned
  else 0#32

/-- ORD registers (R289); the floor rises as the device has it (log 5). -/
def State.readOrd (s : State) (o : Nat) : Word :=
  let f : BitVec 48 := BitVec.ofNat 48 s.dev.floor
  if o = 0x0 then nw s.dev.mmu.lease
  else if o = 0x4 then nw s.dev.mmu.tick
  else if o = 0x8 then f.extractLsb' 0 32
  else if o = 0xC then (f.extractLsb' 32 16).zeroExtend 32
  else 0#32

/-- MMU registers (R273). -/
def State.readMmu (s : State) (o : Nat) : Word :=
  let m := s.dev.mmu
  if o = 0x0 then nw m.asn
  else if o = 0x4 then nw (m.valo * 4096)
  else if o = 0x8 then nw m.vahi
  else if o = 0xC then m.count
  else if o = 0x14 then nw (bn m.run.isSome)
  else if o = 0x18 then nw ((s.dev.preqs.filter fun r => r.counted).length % 2 ^ 16)
  else 0#32

/-- A peer's state's number (R416). -/
def PeerState.code : PeerState → Nat
  | .down => 0 | .training => 1 | .up => 2 | .degraded => 3 | .frozen => 4

/-- A window of the table; one that nothing has written is all zero. -/
def Link.window (l : Link) (n : Nat) : Window := (l.windows.find? fun w => w.w == n).getD ⟨n, 0, false, false, false, false, 0, false, 0, 0⟩

/-- LINK registers (R416). -/
def State.readLink (s : State) (o : Nat) : Word :=
  let l := s.dev.link
  if o < 0x20 then nw (l.rate.getD (o / 4) 0 + 4 * l.pstate.getD (o / 4) 0)
  else if o = 0x20 then nw (l.udpport + 2 ^ 16 * l.hostpeer)
  else if o = 0x24 then nw l.retry
  else if o = 0x28 then l.rto
  else if 0x1000 ≤ o && o < 0x3000 then
    let p := s.peerAt ((o - 0x1000) / 32)
    let k := o % 32
    if k < 0x10 then p.addr.getD (k / 4) 0#32
    else if k = 0x10 then nw (p.ports.toNat + 2 ^ 8 * p.st.code + 2 ^ 11 * p.cause + 2 ^ 14 * bn p.host)
    else if k = 0x18 then nw p.fwa
    else if k = 0x1C then nw (p.fwa / 2 ^ 32)
    else 0#32
  else if 0x3000 ≤ o && o < 0x3800 then
    let w := l.window ((o - 0x3000) / 32)
    let k := o % 32
    if k = 0x0 then nw w.wa0
    else if k = 0x4 then nw (w.wa0 / 2 ^ 32 + 2 ^ 12 * bn w.en + 2 ^ 13 * bn w.r + 2 ^ 14 * bn w.wr + 2 ^ 15 * bn w.a + 2 ^ 16 * w.peer
      + 2 ^ 24 * bn w.anypeer)
    else if k = 0x8 then nw w.pa0
    else if k = 0xC then nw (w.pa0 / 2 ^ 32)
    else if k = 0x10 then nw w.pages
    else 0#32
  else 0#32

/-- PWR registers (R428): a read of ELO latches. -/
def State.readPwr (s : State) (o : Nat) : State × Word :=
  let e := s.dev.die.energy.getD (o / 8) ⟨0, false, 0, false, 0, 0, false, none⟩
  if o = 0x100 then (s, s.dev.die.trip.zeroExtend 32)
  else if o ≥ 0xB0 then (s, 0#32)
  else if o % 8 = 0 then (s.readEnergy (o / 8), nw (e.seen s.dev.clk).1)
  else (s, nw (e.ehi + 2 ^ 16 * bn e.latWrap))

/-- BOOT registers (R433). -/
def State.readBoot (s : State) (o : Nat) : Word :=
  let d := s.dev.die
  if o = 0x0 then nw (d.stage + 2 ^ 3 * d.src + 2 ^ 4 * d.fail)
  else if o = 0x4 then nw (d.zonesRdy.toNat + 2 ^ 12 * d.hbmRdy.toNat + 2 ^ 20 * d.portsRdy.toNat + 2 ^ 28 * bn d.front)
  else if 0x10 ≤ o && o < 0x28 then d.shengRdy.extractLsb' (8 * (o - 0x10)) 32
  else if 0x30 ≤ o && o < 0x48 then d.rastRdy.extractLsb' (8 * (o - 0x30)) 32
  else 0#32

/-- SEC registers (R434). -/
def State.readSec (s : State) (o : Nat) : Word :=
  let d := s.dev.die
  if o < 0x40 then s.fuse.idpub.getD (o / 4) 0#32
  else if o < 0x60 then d.nonce.getD ((o - 0x40) / 4) 0#32
  else if o = 0x60 then d.rptlo
  else if o = 0x64 then d.rpthi
  else if o = 0x6C then nw (bn d.secBusy + 2 * d.secResult)
  else if o = 0x70 then d.svn.zeroExtend 32
  else 0#32

/-- The core at a position of a zone (R19, R260). -/
def coreAt (z c : Nat) : Nat := 16 * (4 * (z / 4) + c / 4) + 4 * (z % 4) + c % 4

/-- ZONE registers (R260, R426). -/
def State.readZone (s : State) (z o : Nat) : Word :=
  let x := s.zone z
  if o = 0x0 then nw x.limit
  else if o = 0x4 then nw x.rptr
  else if 0x8 ≤ o && o < 0x48 then nw (s.core (coreAt z ((o - 8) / 4))).level
  else if o = 0x48 then nw (x.code.toNat + 2 ^ 5 * bn x.hold)
  else if o = 0x4C then x.temp.zeroExtend 32
  else 0#32

/-- OVL registers of a core (R239). -/
def State.readOvl (s : State) (c o : Nat) : Word :=
  let k := s.core c
  let b := k.bp ((o - 0x10) / 16)
  if o = 0x0 then k.ovwait
  else if o = 0x4 then nw (k.freeSlots.length + 2 ^ 7 * ((s.evictable c).map fun x => x.slots).sum)
  else if 0x10 ≤ o && o < 0x90 then
    if o % 16 = 0x0 then b.addr
    else if o % 16 = 0x4 then b.mask
    else if o % 16 = 0x8 then nw (bn b.en + 2 * bn b.anyctx + 2 ^ 4 * b.ctx)
    else 0#32
  else 0#32

/-- TILE registers of a core (R336). -/
def State.readTile (s : State) (c o : Nat) : Word :=
  let k := s.occ c
  if o = 0x0 then nw (8192 - k.lines)
  else if o = 0x4 then nw (1024 - k.entries)
  else if o = 0x8 then nw (s.core c).l2lines
  else if o = 0xC then nw (s.l2Used c)
  else if o = 0x10 then nw (s.core c).cmds.length
  else 0#32

/-- ACC registers of a core (R343). -/
def State.readAcc (s : State) (c o : Nat) : Word :=
  let k := s.core c
  if o = 0x0 then k.accwait
  else if o = 0x4 then nw (s.freeBanks c + 2 ^ 8 * (k.accq.filter fun r => r.queued).length)
  else if o = 0x8 then nw k.eq.length
  else 0#32

/-- SHENG registers of a core (R367). -/
def State.readSheng (s : State) (c o : Nat) : Word :=
  let on := fun (n : Nat) => (s.bin c n).st != .off
  let mask := fun (i : Nat) => maskOf ((List.range 32).filter fun n => on (i + n))
  if o = 0x0 then mask 0
  else if o = 0x4 then mask 32
  else if o = 0x8 then (s.core c).launches
  else if 0x100 ≤ o && o < 0x900 then
    let b := s.bin c ((o - 0x100) / 32)
    let k := o % 32
    let kind := match b.kind with
      | .off => 0 | .material => 1 | .continuation => 2 | .node => 3
    if k = 0x0 then nw (kind + 2 ^ 2 * bn b.order + 2 ^ 3 * bn b.full + 2 ^ 4 * bn b.en + 2 ^ 8 * b.thresh + 2 ^ 16 * b.rlog2)
    else if k = 0x4 then b.key
    else if k = 0x8 then nw (b.ctx + 2 ^ 12 * b.gen)
    else if k = 0xC then nw b.btimeout
    else if k = 0x10 then nw b.lrec
    else if k = 0x14 then nw (b.lrec / 2 ^ 32)
    else if k = 0x18 then nw b.ring
    else nw (b.ring / 2 ^ 32)
  else if 0x900 ≤ o && o < 0xB00 then
    let b := s.bin c ((o - 0x900) / 8)
    if o % 8 = 0 then nw (b.count + 2 ^ 21 * b.st.code + 2 ^ 24 * b.fault.toNat) else nw b.q.length
  else 0#32

/-- A register read (R7, R9, R416, R433): an address that no map lists, and a block that is not ready, read 0. -/
def State.regRead (s : State) (a : Nat) : State × Word :=
  if !s.answers a || a % 4 ≠ 0 then (s, 0#32)
  else if a < 0x10000 then (s, if a < 0x48 then s.fuse.devWord (a / 4) else 0#32)
  else if a < 0x20000 then (s, s.readCtx (a - 0x10000))
  else if a < 0x30000 then (s, s.readQueue (a - 0x20000))
  else if a < 0x40000 then (s, s.readOrd (a - 0x30000))
  else if a < 0x50000 then (s, s.readMmu (a - 0x40000))
  else if a < 0x60000 then (s, s.readLink (a - 0x50000))
  else if a < 0x70000 then s.readPwr (a - 0x60000)
  else if a < 0x80000 then (s, s.readBoot (a - 0x70000))
  else if a < 0x90000 then (s, s.readSec (a - 0x80000))
  else match zoneAt a, coreOf a with
    | some (z, o), _ => (s, s.readZone z o)
    | _, some (c, o) =>
      (s, if o = 0x40 then nw (s.core c).age
        else if o < 0x1000 then 0#32
        else if o < 0x2000 then s.readOvl c (o - 0x1000)
        else if o < 0x3000 then s.readTile c (o - 0x2000)
        else if o < 0x4000 then s.readAcc c (o - 0x3000)
        else s.readSheng c (o - 0x4000))
    | _, _ => (s, 0#32)

/-! ## Writes -/

/-- CTX registers written (R101). -/
def State.writeCtx (s : State) (o : Nat) (w : Word) : State :=
  let upd := fun (f : CmdRegs → CmdRegs) => s.onDev fun d => { d with ctxRegs := f d.ctxRegs }
  let id := wf w 15 4
  if o = 0x0 then upd fun r => { r with base := setLo r.base (w &&& 0xFFF00000#32) }
  else if o = 0x4 then upd fun r => { r with base := setHi r.base (wf w 19 0) }
  else if o = 0x8 then
    match wf w 3 0 with
    | 1 => s.run (execCtxBind id)
    | 2 => s.run (execCtxStart id)
    | 3 => s.run (execCtxSuspend id)
    | 4 => s.run (execCtxResume id)
    | 5 => s.run (execCtxThaw id)
    | 6 => s.run (execCtxKill id)
    | _ => s
  else if o = 0xC then upd fun r => { r with gen := wf w 19 0 }
  else s

/-- QUEUE registers written (R119). -/
def State.writeQueue (s : State) (o : Nat) (w : Word) : State :=
  let q := wf w 17 4
  let c := wf w 29 18
  if o = 0x0 then
    match wf w 3 0 with
    | 1 => s.run (execQueueEnable c q)
    | 2 => s.run (execQueuePreempt c q)
    | 3 => s.run (execQueueResume c q)
    | 4 => s.run (execQueueThaw c q)
    | 5 => s.run (execQueueReset c q)
    | _ => s
  else if o = 0x4 then s.onDev fun d => { d with queueRegs := { d.queueRegs with gen := wf w 19 0 } }
  else s

/-- ORD and MMU registers written (R273, R289): the next tick is no further off than the period written (R288). -/
def State.writeOrd (s : State) (o : Nat) (w : Word) : State :=
  if o = 0x0 then s.onDev fun d => { d with mmu := { d.mmu with lease := wf w 15 0 } }
  else if o = 0x4 then s.onDev fun d => { d with mmu := { d.mmu with tick := wf w 15 0 }, nextTick := min d.nextTick (d.clk + max 16 (wf w 15 0)) }
  else s

def State.writeMmu (s : State) (o : Nat) (w : Word) : State :=
  let upd := fun (f : MmuRegs → MmuRegs) => s.onDev fun d => { d with mmu := f d.mmu }
  if o = 0x0 then upd fun m => { m with asn := wf w 15 0 }
  else if o = 0x4 then upd fun m => { m with valo := wf w 31 12 }
  else if o = 0x8 then upd fun m => { m with vahi := wf w 24 0 }
  else if o = 0xC then upd fun m => { m with count := w }
  else if o = 0x10 then (if wf w 1 0 = 1 then s.startMmu false else if wf w 1 0 = 2 then s.startMmu true else s)
  else s

def State.updWindow (s : State) (n : Nat) (f : Window → Window) : State :=
  s.updLink fun l => { l with windows := insertBy (fun w => w.w) (f (l.window n)) (l.windows.filter fun w => w.w != n) }

/-- LINK registers written (R414, R416): ADDR, PORTS and HOST only of a peer that is DOWN. -/
def State.writeLink (s : State) (o : Nat) (w : Word) : State :=
  if o < 0x20 then s.setRate (o / 4) (wf w 1 0)
  else if o = 0x20 then (s.updLink fun l => { l with udpport := wf w 15 0, hostpeer := wf w 23 16 }).flushHost
  else if o = 0x24 then s.updLink fun l => { l with retry := wf w 7 0 }
  else if o = 0x28 then s.updLink fun l => { l with rto := w }
  else if 0x1000 ≤ o && o < 0x3000 then
    let n := (o - 0x1000) / 32
    let k := o % 32
    let down := (s.peerAt n).st = .down
    if k < 0x10 then (if down then s.setPeer n fun p => { p with addr := p.addr.set (k / 4) w } else s)
    else if k = 0x10 then (if down then s.setPeer n fun p => { p with ports := w.extractLsb' 0 8, host := bitAt w 14 } else s)
    else if k = 0x14 then
      match wf w 1 0 with
      | 1 => s.openPeer n
      | 2 => s.closePeer n
      | 3 => s.thawPeer n
      | _ => s
    else s
  else if 0x3000 ≤ o && o < 0x3800 then
    let n := (o - 0x3000) / 32
    let k := o % 32
    if k = 0x0 then s.updWindow n fun x => { x with wa0 := setLo x.wa0 (w &&& 0xFFFFF000#32) }
    else if k = 0x4 then s.updWindow n fun x =>
      { x with wa0 := setHi x.wa0 (wf w 11 0), en := bitAt w 12, r := bitAt w 13, wr := bitAt w 14, a := bitAt w 15,
               peer := wf w 23 16, anypeer := bitAt w 24 }
    else if k = 0x8 then s.updWindow n fun x => { x with pa0 := setLo x.pa0 (w &&& 0xFFFFF000#32) }
    else if k = 0xC then s.updWindow n fun x => { x with pa0 := setHi x.pa0 (wf w 19 0) }
    else if k = 0x10 then s.updWindow n fun x => { x with pages := w.toNat }
    else s
  else s

/-- PWR registers written (R428, R430): the W1C bits. -/
def State.writePwr (s : State) (o : Nat) (w : Word) : State :=
  if o = 0x100 then s.updDie fun d => { d with trip := d.trip &&& ~~~(w.extractLsb' 0 4) }
  else if o < 0xB0 && o % 8 = 4 && bitAt w 16 then s.updEnergy (o / 8) fun e => e.clearWrap s.dev.clk
  else s

/-- SEC registers written (R434). -/
def State.writeSec (s : State) (o : Nat) (w : Word) : State :=
  if 0x40 ≤ o && o < 0x60 then s.updDie fun d => { d with nonce := ((d.nonce ++ List.replicate 8 0#32).take 8).set ((o - 0x40) / 4) w }
  else if o = 0x60 then s.updDie fun d => { d with rptlo := w &&& 0xFFFFFF00#32 }
  else if o = 0x64 then s.updDie fun d => { d with rpthi := w &&& 0xFFFFF#32 }
  else if o = 0x68 && bitAt w 0 then s.attest
  else s

/-- ZONE registers written (R260, R426). -/
def State.writeZone (s : State) (z o : Nat) (w : Word) : State :=
  if o = 0x0 then s.updZone z fun x => { x with limit := wf w 7 0 }
  else if o = 0x48 then s.updZone z fun x => { x with hold := bitAt w 5 }
  else s

/-- OVL registers of a core written (R239). -/
def State.writeOvl (s : State) (c o : Nat) (w : Word) : State :=
  let upd := fun (f : Bp → Bp) => s.updCore c fun k =>
    { k with bps := ((List.range 8).map k.bp).modify ((o - 0x10) / 16) f }
  if o = 0x0 then s.updCore c fun k => { k with ovwait := w }
  else if 0x10 ≤ o && o < 0x90 then
    if o % 16 = 0x0 then upd fun b => { b with addr := w &&& 0xFFFFFFFC#32 }
    else if o % 16 = 0x4 then upd fun b => { b with mask := w }
    else if o % 16 = 0x8 then upd fun b => { b with en := bitAt w 0, anyctx := bitAt w 1, ctx := wf w 15 4 }
    else s
  else s

/-- SHENG registers of a core written (R367, R368, R383): while the bin is not OFF, or is being enabled, only EN. Low bits of LRECLO that its
map has written 0 are dropped: DESIGN CHOICE (log 42). -/
def State.writeSheng (s : State) (c o : Nat) (w : Word) : State :=
  if 0x100 ≤ o && o < 0x900 then
    let n := (o - 0x100) / 32
    let k := o % 32
    let b := s.bin c n
    let off := b.st == .off && b.lr.isNone
    if k = 0x0 then
      if off then
        let kind : BinKind := match wf w 1 0 with
          | 0 => .off | 1 => .material | 2 => .continuation | _ => .node
        let s := s.updBin c n fun b =>
          { b with kind := kind, order := bitAt w 2, full := bitAt w 3, en := bitAt w 4, thresh := wf w 13 8, rlog2 := wf w 20 16 }
        s.run (execBinEnable c n)
      else if bitAt w 4 then s.updBin c n fun b => { b with en := true }
      else s.run (execBinDisable c n)
    else if !off then s
    else if k = 0x4 then s.updBin c n fun b => { b with key := w }
    else if k = 0x8 then s.updBin c n fun b => { b with ctx := wf w 11 0, gen := wf w 31 12 }
    else if k = 0xC then s.updBin c n fun b => { b with btimeout := w.toNat }
    else if k = 0x10 then s.updBin c n fun b => { b with lrec := setLo b.lrec (w &&& 0xFFFFFF00#32) }
    else if k = 0x14 then s.updBin c n fun b => { b with lrec := setHi b.lrec (wf w 19 0) }
    else if k = 0x18 then s.updBin c n fun b => { b with ring := setLo b.ring (w &&& 0xFFFFF000#32) }
    else s.updBin c n fun b => { b with ring := setHi b.ring (wf w 24 0) }
  else s

/-- A register written (R7 to R9, R416, R433): an address that no map lists, a read-only register and a block that is not
ready ignore it. -/
def State.regWrite (s : State) (a : Nat) (w : Word) : State :=
  if !s.answers a || a % 4 ≠ 0 then s
  else if a < 0x10000 then s
  else if a < 0x20000 then s.writeCtx (a - 0x10000) w
  else if a < 0x30000 then s.writeQueue (a - 0x20000) w
  else if a < 0x40000 then s.writeOrd (a - 0x30000) w
  else if a < 0x50000 then s.writeMmu (a - 0x40000) w
  else if a < 0x60000 then s.writeLink (a - 0x50000) w
  else if a < 0x70000 then s.writePwr (a - 0x60000) w
  else if a < 0x80000 then s
  else if a < 0x90000 then s.writeSec (a - 0x80000) w
  else match zoneAt a, coreOf a with
    | some (z, o), _ => s.writeZone z o w
    | _, some (c, o) =>
      if o = 0x40 then s.updCore c fun k => { k with age := wf w 15 0 }
      else if o < 0x1000 then s
      else if o < 0x2000 then s.writeOvl c (o - 0x1000) w
      else if o < 0x3000 then (if o = 0x2008 then s.updCore c fun k => { k with l2lines := wf w 15 0 } else s)
      else if o < 0x4000 then (if o = 0x3000 then s.updCore c fun k => { k with accwait := w } else s)
      else s.writeSheng c (o - 0x4000) w
    | _, _ => s

/-- Event REGISTER_WRITE (R7, R416, R459): a write of the register space, as the Fife makes it. -/
def execRegisterWrite (addr : Nat) (value : BitVec 32) (s : State) : Host.Outcome State Fault Refusal := .next (s.regWrite addr value)

end Sys2Proof.Machine
end

