-- ==== Sys2Proof/Machine/Link.lean ====
section
/-! DEFINITION. The Grieveane transport's inbound side (R410 to R415, R420), page answers (R276), `RLD`, `RST` and `RATOM` (R418,
R419). -/

namespace Sys2Proof.Machine

/-! ## Page answers (R102, R103, R276, R278) -/

/-- A page answer applied: the threads parked on the request run again, on FAIL with page request failed (0x13) recorded;
the engines that wait for it go on. -/
def State.pageAnswer (s : State) (ctxgen reqid result : Word) : State :=
  let c := ctxgen.toNat % 4096
  let st := s.ctxState c
  if s.gen c ≠ ctxgen.toNat / 4096 || !(st == .active || st == .suspended || st == .frozen) then s
  else match s.dev.preqs.find? fun r => r.ctx == c && r.sent && r.reqid == reqid with
    | none => s
    | some r =>
      let s := s.onDev fun d => { d with preqs := d.preqs.filter fun x => !(x.ctx == c && x.vpage == r.vpage) }
      let fail := fun (t : Thread) => if result = 0#32 then t else { t with due := some ⟨0x13#8, 0#10, 0#32, BitVec.ofNat 64 t.parkKey⟩ }
      let s := s.unpark (fun g => g.ctx == c) (.page c r.vpage) fail
      let s := if result = 0#32 then s else s.onDev fun d => { d with engFail := d.engFail ++ r.engs.map fun e => (e, r.vpage) }
      (s.writeCount c 0x5C (s.preqCount c)).sendPreqs

/-! ## Windows (R415) -/

/-- Where an inbound access goes, or its offence: 1 no window, 2 permission. -/
def State.window (s : State) (peer wa len : Nat) (perm : Window → Bool) : Except Nat Nat :=
  match s.dev.link.windows.find? fun w => w.en && (w.anypeer || w.peer == peer) && decide (w.wa0 ≤ wa) && decide (wa + len ≤ w.wa0 + 4096 * w.pages) with
  | none => .error 1
  | some w =>
    let pa := w.pa0 + (wa - w.wa0)
    if !perm w || !s.inMem pa len then .error 2 else .ok pa

/-- The latest timestamp of a peer's writes raised (R413). -/
def State.peerTs (s : State) (n t : Nat) : State := s.setPeer n fun p => { p with ts := max p.ts t }

/-- An atomic's operation, by its number in a message (R411). -/
def atomMsgOp (op : Nat) : AtomOp :=
  match op with
  | 0 => .addS32
  | 1 => .addS64
  | 2 => .exch64
  | _ => .cas64

/-! ## Answers of peers (R412, R418 to R420) -/

/-- A remote result with a tag that waits for a peer's answer. -/
def Pending.awaitsTag (r : Pending) (peer : Nat) (tag : Word) : Bool :=
  match r.kind with
  | .remote p t _ _ _ => p == peer && t == tag && !r.ready
  | _ => false

/-- A request has its answer: it can no longer be refused. -/
def State.answered (s : State) (peer : Nat) (tag : Word) : State :=
  let other := fun (m : Msg) => match m with
    | .read _ t _ _ => t != tag
    | .atomic _ t _ _ _ _ => t != tag
    | _ => true
  s.setPeer peer fun p => { p with asked := p.asked.filter fun x => other x.2 }

/-- A remote result's bytes have come: they are written when it returns. -/
def State.answerRemote (s : State) (peer : Nat) (tag : Word) (data : List Byte) : State :=
  match s.dev.results.find? fun r => r.awaitsTag peer tag with
  | none => s.mapRx (RxPiece.settle peer tag.toNat false data)
  | some r =>
    let s := (s.updPending r.id fun p => { p with ready := true, val := data }).arrived r.id
    match r.kind with
    | .remote _ _ _ _ true => s.remoteDown r.grp
    | _ => s

/-- The bytes that the request with a tag asked of a peer, where one waits. -/
def State.askedLen (s : State) (peer : Nat) (tag : Word) : Option Nat :=
  match s.dev.results.find? fun r => r.awaitsTag peer tag with
  | some r => match r.kind with
    | .remote _ _ ext _ _ => some ext.size
    | _ => none
  | none => (s.dev.cores.findSome? fun (_, c) =>
      ((c.cmds.map fun k => k.rx).flatten ++ ((c.eq ++ c.due).map fun e => e.rx).flatten ++ c.recs).find? fun p =>
        p.peer == peer && p.tag == tag.toNat && !p.done).map fun p => p.len

/-- A refusal fails the operation of the message it names (R420): found among the requests that are not answered. The message is not sent
again. -/
def State.failRefused (s : State) (peer refused : Nat) : State :=
  let s := s.setPeer peer fun p => { p with unacked := p.unacked.filter fun x => x.seq != refused }
  match s.dev.link.acks.find? fun a => a.peer == peer && a.seq == refused with
  | some a => s.failAck a
  | none =>
    let fail := fun (tag : Word) => match s.dev.results.find? fun r => r.awaitsTag peer tag with
      | some r => (s.failResult r).answered peer tag
      | none => (s.mapRx (RxPiece.settle peer tag.toNat true [])).answered peer tag
    match assoc (s.peerAt peer).asked refused with
    | some (.read _ tag _ _) => fail tag
    | some (.atomic _ tag _ _ _ _) => fail tag
    | some (.coll _ q _ _ _) =>
      let hit := fun (c : Coll) => c.has peer && fld c.desc 0x0C 4 == q.toNat && c.fail.isNone
      s.updLink fun l => { l with colls := updIf hit (fun c => { c with fail := some (0x60#8, 0) }) l.colls }
    | _ => s

/-- What an acknowledgement completes (R412, R419). -/
def State.ackDone (s : State) (a : AwaitAck) : State :=
  let s := s.updLink fun l => { l with acks := l.acks.filter fun x => x.id != a.id }
  match a.what with
  | .rst g _ _ => s.remoteDown g
  | .copy => s.mapRx (RxPiece.settle a.peer a.seq false [])

/-- Messages before a SEQ are acknowledged. -/
def State.acked (s : State) (n ack : Nat) : State :=
  ((s.dev.link.acks.filter fun a => a.peer == n && ackCovers ack a.seq).foldl State.ackDone s).setPeer n fun p =>
    { p with unacked := p.unacked.filter fun x => !ackCovers ack x.seq }

/-! ## Collective messages (R411, R422, R423) -/

/-- Bytes of an element of a collective. -/
def collSize (desc : List Byte) : Nat := if fld desc 1 1 = 1 then 2 else 4

/-- The collective under way that a message of a peer belongs to. -/
def Link.collOf (l : Link) (peer : Nat) (seq : Word) : Option Coll :=
  l.colls.find? fun c => c.joined && fld c.desc 0x0C 4 == seq.toNat && c.has peer

/-- A collective takes in a message; a sender under another participant's rank is a mismatch. -/
def Coll.take (c : Coll) (peer rank phase : Nat) (data : List Byte) : Coll :=
  if c.fail.isSome then c
  else if rank = fld c.desc 4 2 || c.peers.getD rank 256 ≠ peer then { c with fail := some (0x60#8, 0) }
  else if phase = 0 then { c with descs := assocSet c.descs rank data }
  else if phase = 1 then { c with elems := c.elems ++ [(rank, natOfBytes (data.take 8), data.drop 8)] }
  else { c with readDone := if c.readDone.contains rank then c.readDone else c.readDone ++ [rank] }

/-- A message of a collective: to the one it belongs to, or kept for one that has still to begin here. -/
def State.collMsg (s : State) (peer : Nat) (seq : Word) (rank phase : Nat) (data : List Byte) : State :=
  match s.dev.link.collOf peer seq with
  | some c => s.updLink fun l => { l with colls := updIf (fun x => x.id == c.id) (fun x => x.take peer rank phase data) l.colls }
  | none => s.updLink fun l => { l with early := l.early ++ [(peer, .coll 0#32 seq rank phase data)] }

/-! ## Applying messages (R410, R411, R413, R415) -/

end Sys2Proof.Machine

namespace Sys2Proof

open Machine

/-- The number of a message's TYPE (R410). -/
def Datagram.typ (d : Datagram) : Nat := field d.ctrl.toNat 11 4

/-- A datagram to the Grieveane port, with its UDP checksum right and VER 1; any other is dropped (R410). -/
def Datagram.heard (d : Datagram) (port : Nat) : Bool := d.sumOk && d.dport.toNat == port && field d.ctrl.toNat 3 0 == 1

/-- The TYPEs that a device is sent (R411); any other is malformed. -/
def inboundTypes : List Nat := [1, 2, 3, 4, 5, 6, 8, 10, 11, 12, 13]

/-- The message of a datagram (R410, R411). It is malformed where a reserved bit, or a bit of a field that its TYPE does not name, is set,
where LEN is not that of its payload and of its TYPE, or where a field is out of its range. -/
def Datagram.msg (d : Datagram) : Msg :=
  let n := d.payload.length
  let a := d.addr.toNat
  let p := fun (o k : Nat) => fld d.payload o k
  let form := field d.ctrl.toNat 15 12 == 0 && d.rsvd == 0#32 && d.len.toNat == n
  let host := d.typ == 6 || d.typ == 8 || d.typ == 11
  let wa := if 1 ≤ d.typ ∧ d.typ ≤ 5 then a else 0
  let take := fun (ok : Bool) (m : Msg) => if form && ok then m else .malformed host wa
  let wide := decide (a < 2 ^ 44)
  let long := decide (1 ≤ n ∧ n ≤ 4096)
  let op := atomMsgOp (p 0 1)
  let ph := field a 55 48
  let w := d.addr.getLsbD 32
  match d.typ with
  | 1 => take (wide && long) (.write d.ctxgen d.tag a d.payload)
  | 2 => take (wide && n == 4 && decide (1 ≤ p 0 4 ∧ p 0 4 ≤ 4096)) (.read d.ctxgen d.tag a (p 0 4))
  | 3 => take (wide && long) (.readResp d.ctxgen d.tag a d.payload)
  | 4 => take (wide && n == 24 && zeros d.payload 1 7 && decide (p 0 1 ≤ 3) && a % op.size == 0 && (p 0 1 == 3 || p 16 8 == 0) &&
      (p 0 1 != 0 || p 12 4 == 0)) (.atomic d.ctxgen d.tag a (p 0 1) (BitVec.ofNat 64 (p 8 8)) (BitVec.ofNat 64 (p 16 8)))
  | 5 => take (wide && n == 8) (.atomicResp d.ctxgen d.tag a (BitVec.ofNat 64 (p 0 8)))
  | 6 => take (n == 0 && field a 31 14 == 0) (.doorbell d.ctxgen (field a 13 0) (nw (field a 63 32)))
  | 8 => take (n == 16 && a == 0 && zeros d.payload 12 4) (.panswer (nw (p 0 4)) (nw (p 4 4)) (nw (p 8 4)))
  | 10 => take (field a 63 56 == 0 && ((ph == 0 && n == 64) || (ph == 1 && decide (8 ≤ n ∧ n ≤ 4096)) || (ph == 2 && n == 0)))
      (.coll d.ctxgen (nw (field a 31 0)) (field a 47 32) ph d.payload)
  | 11 => take (field a 63 33 == 0 && a % 4 == 0 && n == (if w then 4 else 0)) (.mgmt d.tag (field a 31 0) w false (nw (p 0 4)))
  | 12 => take (n == 0 && a == 0) .ack
  | 13 => take (n == 8 && a == 0 && decide (p 4 4 < 8)) (.nak d.ctxgen d.tag (p 0 4) (p 4 4))
  | _ => .malformed false 0

end Sys2Proof

namespace Sys2Proof.Machine

/-- The offence of a message (R411, R415), with the window address it names: 3 malformed, 4 not HOST. A response is malformed where its
length is not what was asked, and elements of a collective where they are not whole. -/
def State.offence (s : State) (n : Nat) (m : Msg) : Option (Nat × Nat) :=
  let host := (s.peerAt n).host
  let bad := fun (b : Bool) (wa : Nat) => if b then none else some (3, wa)
  match m with
  | .write .. => none
  | .read .. => none
  | .readResp _ tag wa d => bad (match s.askedLen n tag with
      | some k => k == d.length
      | none => true) wa
  | .atomic .. => none
  | .atomicResp _ tag wa old => bad (s.askedLen n tag != some 4 || decide (old.toNat < 2 ^ 32)) wa
  | .doorbell .. => if host then none else some (4, 0)
  | .panswer .. => if host then none else some (4, 0)
  | .mgmt .. => if host then none else some (4, 0)
  | .coll _ q _ p d =>
    let e := match s.dev.link.collOf n q with
      | some c => collSize c.desc
      | none => 2
    bad (p != 1 || (d.length - 8) % e == 0) 0
  | .ack => none
  | .nak .. => none
  | .malformed h wa => if h && !host then some (4, 0) else some (3, wa)
  | _ => some (3, 0)

/-- A response or a refusal carries a generation that its context no longer has: it has no effect (R91). -/
def State.staleReply (s : State) (m : Msg) : Bool :=
  let old := fun (cg : Word) => s.gen (cg.toNat % 4096) != cg.toNat / 4096
  match m with
  | .readResp cg _ _ _ => old cg
  | .atomicResp cg _ _ _ => old cg
  | .nak cg _ _ _ => old cg
  | _ => false

/-- A datagram's message applied in its turn; what a refusal acknowledges counts after the refusal (R420; log 21). -/
def State.applyMsg (s : State) (n : Nat) (d : Datagram) : State :=
  let s := s.setPeer n fun p => { p with rxSeq := (d.seq + 1#32).toNat }
  let pts := (s.peerAt n).ts + 1
  if s.staleReply d.msg then (if d.msg.isNak then s.acked n d.ack.toNat else s)
  else match s.offence n d.msg with
  | some (c, wa) => s.freezePeer n d c wa
  | none =>
    match d.msg with
    | .write _ _ wa b =>
      match s.window n wa b.length fun w => w.wr with
      | .error c => s.freezePeer n d c wa
      | .ok pa => let (s, t) := s.homeStore pts pa b; s.peerTs n t
    | .read cg tag wa len =>
      match s.window n wa len fun w => w.r with
      | .error c => s.freezePeer n d c wa
      | .ok pa => let (s, b, _) := s.homeLoad pts pa len; s.send n (.readResp cg tag wa b)
    | .atomic cg tag wa op x c =>
      match s.window n wa (atomMsgOp op).size fun w => w.r && w.wr && w.a with
      | .error e => s.freezePeer n d e wa
      | .ok pa =>
        let (s, old, t) := s.homeAtomic pts pa (atomMsgOp op) x c
        (s.peerTs n t).send n (.atomicResp cg tag wa old)
    | .readResp _ tag _ b => (s.answerRemote n tag b).answered n tag
    | .atomicResp _ tag _ old => (s.answerRemote n tag (bytesOfNat old.toNat ((s.askedLen n tag).getD 8))).answered n tag
    | .doorbell cg q w =>
      if s.frontReady then s.doorbell cg q w else s.updDie fun x => { x with heldBells := x.heldBells ++ [(n, d.msg)] }
    | .panswer cg id r => s.pageAnswer cg id r
    | .coll _ q r p b => s.collMsg n q r p b
    | .mgmt tag a w _ v =>
      if w then
        let s := s.regWrite a v
        s.send n (.mgmt tag a true true (s.regRead a).2)
      else
        let (s, v) := s.regRead a
        s.send n (.mgmt tag a false true v)
    | .nak _ _ q _ => (s.failRefused n q).acked n d.ack.toNat
    | _ => s

/-- Held messages applied as long as the next one is there. -/
def State.applyHeld (s : State) (n : Nat) : Nat → State
  | 0 => s
  | k + 1 =>
    let p := s.peerAt n
    if !p.live then s
    else match p.heldMsgs.find? fun x => x.seq.toNat == p.rxSeq with
      | none => s
      | some d => ((s.setPeer n fun p => { p with heldMsgs := p.heldMsgs.filter fun x => x.seq != d.seq }).applyMsg n d).applyHeld n k

/-- A bare acknowledgement, where nothing sent since carries one (R411). -/
def State.ackBack (s : State) (n txSeq : Nat) : State :=
  let p := s.peerAt n
  if p.live && p.txSeq = txSeq then s.send n .ack else s

/-- An inbound message (R412): applied in SEQ order, held ahead of a gap, acknowledged and dropped where it is a duplicate. A
peer that carries no traffic is not heard (R415, R417). -/
def State.inbound (s : State) (n : Nat) (d : Datagram) : State :=
  let p := s.peerAt n
  if !p.live then s
  else
    let ahead := (d.seq - nw p.rxSeq).toNat
    let s := if d.msg.isNak && decide (ahead < 2 ^ 31) then s else s.acked n d.ack.toNat
    if ahead = 0 then
      let s := (s.applyMsg n d).applyHeld n (p.heldMsgs.length)
      if d.msg.isAck then s else s.ackBack n p.txSeq
    else if ahead < 2 ^ 31 then
      (if p.heldMsgs.any fun x => x.seq == d.seq then s else s.setPeer n fun p => { p with heldMsgs := p.heldMsgs ++ [d] })
    else s.ackBack n p.txSeq

/-- A datagram of a peer arrives as a message of TYPE `t`, or of a TYPE that no message has; one of another message is that one's event. -/
def State.datagram (s : State) (t n : Nat) (d : Datagram) : State :=
  if d.heard s.dev.link.udpport && (d.typ == t || !inboundTypes.contains d.typ) then s.inbound n d else s

/-- Event WRITE (R415). -/
def execWrite (peer : Nat) (udp : UdpPart) (form : FormPart) (ref : RefPart) (seqs : SeqPart) (body : BodyPart) (s : State) :
    Host.Outcome State Fault Refusal := .next (s.datagram 1 peer ⟨⟨udp, ⟨form, ref⟩, seqs⟩, body⟩)

/-- Event READ (R415). -/
def execRead (peer : Nat) (udp : UdpPart) (form : FormPart) (ref : RefPart) (seqs : SeqPart) (body : BodyPart) (s : State) :
    Host.Outcome State Fault Refusal := .next (s.datagram 2 peer ⟨⟨udp, ⟨form, ref⟩, seqs⟩, body⟩)

/-- Event READRESP (R418). -/
def execReadresp (peer : Nat) (udp : UdpPart) (form : FormPart) (ref : RefPart) (seqs : SeqPart) (body : BodyPart) (s : State) :
    Host.Outcome State Fault Refusal := .next (s.datagram 3 peer ⟨⟨udp, ⟨form, ref⟩, seqs⟩, body⟩)

/-- Event ATOMIC (R415). -/
def execAtomic (peer : Nat) (udp : UdpPart) (form : FormPart) (ref : RefPart) (seq : BitVec 32) (ack : BitVec 32)
    (addr : BitVec 64) (payload : List (BitVec 8)) (s : State) :
    Host.Outcome State Fault Refusal := .next (s.datagram 4 peer ⟨⟨udp, ⟨form, ref⟩, ⟨seq, ack⟩⟩, ⟨addr, payload⟩⟩)

/-- Event ATOMICRESP (R419). -/
def execAtomicresp (peer : Nat) (udp : UdpPart) (form : FormPart) (ref : RefPart) (seqs : SeqPart) (body : BodyPart) (s : State) :
    Host.Outcome State Fault Refusal := .next (s.datagram 5 peer ⟨⟨udp, ⟨form, ref⟩, seqs⟩, body⟩)

/-- Event DOORBELL (R108, R413, R433). -/
def execDoorbell (peer : Nat) (udp : UdpPart) (form : FormPart) (ref : RefPart) (seqs : SeqPart) (body : BodyPart) (s : State) :
    Host.Outcome State Fault Refusal := .next (s.datagram 6 peer ⟨⟨udp, ⟨form, ref⟩, seqs⟩, body⟩)

/-- Event PANSWER (R276, R413). -/
def execPanswer (peer : Nat) (udp : UdpPart) (form : FormPart) (ref : RefPart) (seqs : SeqPart) (body : BodyPart) (s : State) :
    Host.Outcome State Fault Refusal := .next (s.datagram 8 peer ⟨⟨udp, ⟨form, ref⟩, seqs⟩, body⟩)

/-- Event COLL_MESSAGE (R411, R423). -/
def execCollMessage (peer : Nat) (udp : UdpPart) (form : FormPart) (ref : RefPart) (seqs : SeqPart) (addr : BitVec 64)
    (payload : List (BitVec 8)) (s : State) :
    Host.Outcome State Fault Refusal := .next (s.datagram 10 peer ⟨⟨udp, ⟨form, ref⟩, seqs⟩, ⟨addr, payload⟩⟩)

/-- Event MGMT (R411, R413). -/
def execMgmt (peer : Nat) (udp : UdpPart) (form : FormPart) (ref : RefPart) (seqs : SeqPart) (addr : BitVec 64) (payload : List
    (BitVec 8)) (s : State) :
    Host.Outcome State Fault Refusal := .next (s.datagram 11 peer ⟨⟨udp, ⟨form, ref⟩, seqs⟩, ⟨addr, payload⟩⟩)

/-- Event ACK (R412). -/
def execAck (peer : Nat) (cover : CoverPart) (body : BodyPart) (s : State) :
    Host.Outcome State Fault Refusal := .next (s.datagram 12 peer ⟨cover, body⟩)

/-- Event NAK (R420). -/
def execNak (peer : Nat) (udp : UdpPart) (head : HeadPart) (seqs : SeqPart) (body : BodyPart) (s : State) :
    Host.Outcome State Fault Refusal := .next (s.datagram 13 peer ⟨⟨udp, head, seqs⟩, body⟩)

/-! ## `RLD`, `RST`, `RATOM` (R418 to R420) -/

/-- A peer carries traffic. -/
def State.peerLive (s : State) (n : Nat) : Bool := (s.peerAt n).live

/-- A remote result of a thread, its request sent; to a peer that is not live it fails at once (R420). -/
def State.askRemote (s : State) (st : Stream) (t : Nat) (sb : BitVec 3) (peer : Nat) (ext : LoadExt) (dst : Nat) (atomic : Bool)
    (msg : Word → Word → Msg) : State :=
  let tag := nw s.dev.nextId
  let cg := s.ctxgen (((s.group? st.grp).map fun g => g.ctx).getD 0)
  let (id, s) := s.addResult st.grp t (some sb.toNat) st.unit (.remote peer tag ext dst atomic) false
  if s.peerLive peer then
    (s.send peer (msg cg tag)).updGroup st.grp fun g => if atomic then { g with remote := g.remote + 1 } else g
  else s.updPending id fun p => { (p.meet 0x60#8 0) with ready := true }

/-- `RLD` for one thread. -/
def State.rldThread (s : State) (st : Stream) (t : Nat) (th : Thread) (d : VReg) (base : Opnd) (x : BitVec 6) (sb : BitVec 3)
    (ext : LoadExt) : SRes :=
  match s.group? st.grp with
  | none => .ok s
  | some g =>
    match s.checkAccess g t (addrM g th base x st.imm ext.size) ext.size .rld with
    | .out r => r
    | .ok s e wa =>
      if !s.hasRoom st.grp sb.toNat then .stop s
      else .ok (s.askRemote st t sb e.peer ext d.toNat false fun cg tag => .read cg tag wa ext.size)

/-- `RST` for one thread; it enters no store queue (R419). -/
def State.rstThread (s : State) (st : Stream) (t : Nat) (th : Thread) (d base : Opnd) (x : BitVec 6) (size : Nat) : SRes :=
  if th.helper then .ok s
  else match s.group? st.grp with
    | none => .ok s
    | some g =>
      match s.checkAccess g t (addrM g th base x st.imm size) size .rst with
      | .out r => r
      | .ok s e wa =>
        if s.peerLive e.peer then
          .ok ((s.sendWrite e.peer (s.ctxgen g.ctx) wa (bytesOf (rdN g th d (size / 4))) (.rst st.grp t st.unit)).updGroup st.grp
            fun g => { g with remote := g.remote + 1 })
        else .ok (s.addAsync st.grp t ⟨0x60#8, 0#10, st.unit, 0#64⟩)

/-- `RATOM` for one thread: operation `op` of the message, its operand and compare value from d. -/
def State.ratomThread (s : State) (st : Stream) (t : Nat) (th : Thread) (d : VReg) (base : Opnd) (x : BitVec 6) (sb : BitVec 3)
    (op : Nat) : SRes :=
  if th.helper then .ok s
  else match s.group? st.grp with
    | none => .ok s
    | some g =>
      let size := (atomMsgOp op).size
      match s.checkAccess g t (addrM g th base x st.imm size) size .ratom with
      | .out r => r
      | .ok s e wa =>
        if !s.hasRoom st.grp sb.toNat then .stop s
        else
          let lo := rd64 g th (.v d)
          let hi := rd64 g th (.v (d + 2#6))
          let operand := if op = 0 then lo &&& 0xFFFFFFFF#64 else if op = 3 then hi else lo
          .ok (s.askRemote st t sb e.peer (if op = 0 then .b32 else .b64) d.toNat true
            fun cg tag => .atomic cg tag wa op operand (if op = 3 then lo else 0#64))

/-- `RLD_B32` (R418). -/
def execRldB32 (sb : BitVec 3) (d : VReg) (base : Opnd) (x : BitVec 6) (s : State) : Host.Outcome State Fault Refusal :=
  s.perThread fun st s t th => s.rldThread st t th d base x sb .b32

/-- `RLD_B64` (R418). -/
def execRldB64 (sb : BitVec 3) (d : VReg) (base : Opnd) (x : BitVec 6) (s : State) : Host.Outcome State Fault Refusal :=
  s.perThread fun st s t th => s.rldThread st t th d base x sb .b64

/-- `RLD_B128` (R418). -/
def execRldB128 (sb : BitVec 3) (d : VReg) (base : Opnd) (x : BitVec 6) (s : State) : Host.Outcome State Fault Refusal :=
  s.perThread fun st s t th => s.rldThread st t th d base x sb .b128

/-- `RST_B32` (R418, R419). -/
def execRstB32 (d : Opnd) (base : Opnd) (x : BitVec 6) (s : State) : Host.Outcome State Fault Refusal :=
  s.perThread fun st s t th => s.rstThread st t th d base x 4

/-- `RST_B64` (R418, R419). -/
def execRstB64 (d : Opnd) (base : Opnd) (x : BitVec 6) (s : State) : Host.Outcome State Fault Refusal :=
  s.perThread fun st s t th => s.rstThread st t th d base x 8

/-- `RST_B128` (R418, R419). -/
def execRstB128 (d : Opnd) (base : Opnd) (x : BitVec 6) (s : State) : Host.Outcome State Fault Refusal :=
  s.perThread fun st s t th => s.rstThread st t th d base x 16

/-- `RATOM_ADD_S32` (R418, R419). -/
def execRatomAddS32 (sb : BitVec 3) (d : VReg) (base : Opnd) (x : BitVec 6) (s : State) : Host.Outcome State Fault Refusal :=
  s.perThread fun st s t th => s.ratomThread st t th d base x sb 0

/-- `RATOM_ADD_S64` (R418, R419). -/
def execRatomAddS64 (sb : BitVec 3) (d : VReg) (base : Opnd) (x : BitVec 6) (s : State) : Host.Outcome State Fault Refusal :=
  s.perThread fun st s t th => s.ratomThread st t th d base x sb 1

/-- `RATOM_EXCH_B64` (R418, R419). -/
def execRatomExchB64 (sb : BitVec 3) (d : VReg) (base : Opnd) (x : BitVec 6) (s : State) : Host.Outcome State Fault Refusal :=
  s.perThread fun st s t th => s.ratomThread st t th d base x sb 2

/-- `RATOM_CAS_B64` (R418, R419). -/
def execRatomCasB64 (sb : BitVec 3) (d : VReg) (base : Opnd) (x : BitVec 6) (s : State) : Host.Outcome State Fault Refusal :=
  s.perThread fun st s t th => s.ratomThread st t th d base x sb 3

end Sys2Proof.Machine
end

