-- ==== Sys2Proof/Machine/Collective.lean ====
section
/-! DEFINITION. Collectives: `COLL`, `CWAIT`, and a collective's progress (R422 to R424). -/

namespace Sys2Proof.Machine

/-! ## The descriptor (R422) -/

/-- The fields of a descriptor are in range. -/
def collOk (b : List Byte) : Bool :=
  decide (fld b 0 1 ≤ 3) && decide (fld b 1 1 ≤ 2) && decide (2 ≤ fld b 2 2 ∧ fld b 2 2 ≤ 64) && decide (fld b 4 2 < fld b 2 2) &&
  decide (fld b 6 2 < fld b 2 2) && zeros b 0x30 16

def Coll.op (c : Coll) : Nat := fld c.desc 0 1
def Coll.npart (c : Coll) : Nat := fld c.desc 2 2
def Coll.rank (c : Coll) : Nat := fld c.desc 4 2
def Coll.root (c : Coll) : Nat := fld c.desc 6 2
def Coll.count (c : Coll) : Nat := fld c.desc 8 4
def Coll.seq (c : Coll) : Word := nw (fld c.desc 0x0C 4)
def Coll.size (c : Coll) : Nat := collSize c.desc

/-- The other participants' ranks. -/
def Coll.others (c : Coll) : List Nat := (List.range c.npart).filter (· != c.rank)

/-- Elements of SRC (R423). -/
def Coll.srcCount (c : Coll) : Nat := if c.op = 2 then c.npart * c.count else c.count
/-- Elements of DST (R423). -/
def Coll.dstCount (c : Coll) : Nat := if c.op = 1 then c.npart * c.count else c.count

/-- The descriptors agree, and each names its sender's rank (R423). -/
def Coll.agree (c : Coll) : Bool :=
  c.others.all fun r => match assoc c.descs r with
    | some d => [0, 1].all (fun o => fld d o 1 == fld c.desc o 1) && fld d 2 2 == c.npart && fld d 4 2 == r && fld d 8 4 == c.count &&
        fld d 0x0C 4 == fld c.desc 0x0C 4
    | none => false

/-! ## Elements (R423) -/

/-- Element `i` of a rank's SRC, where it has come. -/
def Coll.elem (c : Coll) (rank i : Nat) : Option Nat :=
  c.elems.findSome? fun (r, off, b) =>
    if r = rank && off ≤ i && (i - off + 1) * c.size ≤ b.length then some (natOfBytes ((b.drop ((i - off) * c.size)).take c.size)) else none

/-- One step of a sum, by TYPE (R90, R423). -/
def collAdd (typ a b : Nat) : Nat :=
  if typ = 0 then (roundF32 0#2 (exAdd 0#2 (fp32.decode a) (fp32.decode b)).1).toNat
  else if typ = 1 then (Fmt.result bf16 0#2 false (exAdd 0#2 (Fmt.decode bf16 a) (Fmt.decode bf16 b)).1).1
  else (a + b) % 2 ^ 32

/-- A running value's first, with the canonical NaN for a NaN (R90). -/
def collFirst (typ a : Nat) : Nat :=
  let canon := fun (f : Fmt) => match f.decode a with
    | .nan => f.nan
    | _ => a
  if typ = 0 then canon fp32 else if typ = 1 then canon bf16 else a

/-- Values combined in ascending rank; `none` where one is missing. -/
def collSum (typ : Nat) : List (Option Nat) → Option Nat
  | [] => none
  | x :: r => r.foldl (fun a b => match a, b with
      | some a, some b => some (collAdd typ a b)
      | _, _ => none) (x.map (collFirst typ))

/-- Element `i` of this device's DST, where what it needs has come (R423). -/
def Coll.dst (c : Coll) (i : Nat) : Option Nat :=
  let n := c.count
  let sum := fun (j : Nat) => collSum (fld c.desc 1 1) ((List.range c.npart).map fun r => c.elem r j)
  match c.op with
  | 0 => sum i
  | 1 => c.elem (i / n) (i % n)
  | 2 => sum (c.rank * n + i)
  | _ => c.elem c.root i

/-- Elements of this device's SRC that a rank needs: the first and the count. -/
def Coll.needs (c : Coll) (k : Nat) : Nat × Nat :=
  match c.op with
  | 2 => (k * c.count, c.count)
  | 3 => if c.rank = c.root then (0, c.count) else (0, 0)
  | _ => (0, c.count)

/-- Messages that carry `n` elements of `b` from element `off` on, in payloads of at most 4096 bytes. -/
def collPieces (size : Nat) (b : List Byte) : Nat → Nat → Nat → List (Nat × List Byte)
  | 0, _, _ => []
  | k + 1, off, n =>
    let m := min n (4088 / size)
    if m = 0 then [] else (off, (b.drop (off * size)).take (m * size)) :: collPieces size b k (off + m) (n - m)

/-! ## Progress -/

def State.updColl (s : State) (id : Nat) (f : Coll → Coll) : State :=
  s.updLink fun l => { l with colls := updIf (fun c => c.id == id) f l.colls }

/-- A message of a collective to a rank. -/
def State.collSend (s : State) (c : Coll) (rank phase : Nat) (data : List Byte) : State :=
  s.send (c.peers.getD rank 256) (.coll (s.ctxgen c.ctx) c.seq c.rank phase data)

/-- The collective begins (R423): the PEERS bytes read, the descriptor sent to every participant, what came early taken in. -/
def State.collJoin (s : State) (c : Coll) : State :=
  match s.engReadAt none c.ctx c.id (fld c.desc 0x20 8) c.npart .table (s.resultPts c.res) with
  | (s, .wait _, _) => s
  | (s, .fault e a, _) => s.updColl c.id fun c => { c with fail := some (e, a) }
  | (s, .ok _, b, _) =>
    let c := { c with peers := b.map BitVec.toNat, joined := true }
    if c.others.any fun r => !s.peerLive (c.peers.getD r 256) then s.updColl c.id fun _ => { c with fail := some (0x60#8, 0) }
    else
      let s := c.others.foldl (fun s r => s.collSend c r 0 c.desc) (s.updColl c.id fun _ => c)
      let mine := s.dev.link.early.filter fun x => match x.2 with
        | .coll _ q _ _ _ => (s.dev.link.collOf x.1 q).any fun y => y.id == c.id
        | _ => false
      mine.foldl (fun s (p, m) => match m with
        | .coll _ q r ph d => s.collMsg p q r ph d
        | _ => s) (s.updLink fun l => { l with early := l.early.filter fun x => !mine.contains x })

/-- This device's SRC read in full and sent on (R423). -/
def State.collRead (s : State) (c : Coll) : State :=
  let va := fld c.desc 0x10 8
  match (if c.op = 3 && c.rank ≠ c.root then (s, EngRes.ok .nil, [], 0)
    else s.engReadAt none c.ctx c.id va (c.srcCount * c.size) .unitRead (s.resultPts c.res)) with
  | (s, .wait _, _) => s
  | (s, .fault e a, _) => s.updColl c.id fun c => { c with fail := some (e, a) }
  | (s, .ok _, b, p) =>
    let s := s.resultTs c.res p
    let s := c.others.foldl (fun s r =>
      let (off, n) := c.needs r
      let s := (collPieces c.size b n off n).foldl (fun s (o, d) => s.collSend c r 1 (bytesOfNat o 8 ++ d)) s
      s.collSend c r 2 []) s
    s.updColl c.id fun c => { c with sent := true, elems := c.elems ++ [(c.rank, 0, b)] }

/-- Elements of DST written; of a failed collective those that have been, as the spec leaves open (log 12). -/
def State.collWrite (s : State) (c : Coll) : State × EngRes :=
  (List.range c.dstCount).foldl (fun acc i =>
    match acc with
    | (s, .ok e) =>
      match c.dst i with
      | none => (s, .ok e)
      | some x =>
        if c.fail.isSome && !Config.failedCollWritten c.id i then (s, .ok e)
        else
          let (s, r, t) := s.engWrite none c.ctx c.id (fld c.desc 0x18 8 + i * c.size) (bytesOfNat x c.size) .unitWrite (s.resultPts c.res)
          (s.resultTs c.res t, r)
    | acc => acc) (s, .ok .nil)

/-- A peer can no longer refuse the messages of a collective that is over. -/
def Peer.collOver (seq : Nat) (p : Peer) : Peer :=
  let other := fun (m : Msg) => match m with
    | .coll _ q _ _ _ => q.toNat != seq
    | _ => true
  { p with asked := p.asked.filter fun x => other x.2 }

/-- The collective ends (R423): the done word, after everything it has admitted (R301), then the token. -/
def State.collDone (s : State) (c : Coll) : State :=
  let va := fld c.desc 0x28 8
  let w := c.seq.toNat + 2 ^ 32 * bn c.fail.isSome
  let leave := fun (s : State) (f : Option (BitVec 8 × Nat)) =>
    let s := match f with
      | some (e, a) => s.updPending c.res fun p => p.meet e a
      | none => s
    let s := s.updLink fun l =>
      { l with colls := l.colls.filter fun x => x.id != c.id, peers := l.peers.map (Peer.collOver (fld c.desc 0x0C 4)) }
    (s.endEng c.id).resultReady c.res 0
  match s.engWrite none c.ctx c.id va (bytesOfNat w 8) .unitWrite (((s.pending? c.res).map fun p => p.ts).getD 0) with
  | (s, .wait _, _) => s
  | (s, .fault e a, _) => leave s (lowFault c.fail e a)
  | (s, .ok _, t) => leave (s.resultTs c.res t) c.fail

/-- A collective goes on as far as it can. -/
def State.collStep (s : State) (c : Coll) : State :=
  if c.fail.isSome then
    (if c.agree && !c.written then
      match s.collWrite c with
      | (s, .wait _) => s
      | (s, _) => s.collDone c
    else s.collDone c)
  else if !c.joined then s.collJoin c
  else if c.others.any fun r => (assoc c.descs r).isNone then s
  else if !c.agree then s.updColl c.id fun c => { c with fail := some (0x60#8, 0) }
  else if !c.sent then s.collRead c
  else if c.others.any fun r => !c.readDone.contains r then s
  else if !c.written then
    match s.collWrite c with
    | (s, .wait _) => s
    | (s, .fault e a) => s.updColl c.id fun c => { c with fail := some (e, a), written := true }
    | (s, .ok _) => s.updColl c.id fun c => { c with written := true }
  else s.collDone c

/-! ## The instructions (R422, R424) -/

/-- The value of a g pair. -/
def gPair (g : Group) (n : GReg) : BitVec 64 := mget g.g (n.toNat + 1) ++ mget g.g n.toNat

/-- `COLL` (R422, R423): a release of the group's accesses before it (R301). -/
def execColl (g : GReg) (sb : BitVec 3) (s : State) : Host.Outcome State Fault Refusal :=
  s.perGroup fun st s gr t =>
    if !s.memSettled gr || !s.hasRoom st.grp sb.toNat then .stop s
    else match s.unitAccess gr t (gPair gr g).toNat 64 .table with
      | .out r => r
      | .ok s _ pa =>
        let (s, b, p) := s.homeLoad gr.pts pa 64
        let s := s.raisePts st.grp p
        let (res, s) := s.addResult st.grp t (some sb.toNat) st.unit .token true
        let (id, s) := s.fresh
        .ok (s.updLink fun l => { l with colls := l.colls ++
          [⟨id, gr.ctx, gr.core, res, (gPair gr g).toNat, b, [], false, [], [], [], false, false, if collOk b then none else some (0x60#8, 0)⟩] })

/-- A group held at a `CWAIT` may be streamed again (R314 item 3, R424). -/
def State.wordMet (s : State) (g : Group) (va : Nat) (count : Word) : Bool :=
  s.memSettled g &&
  match s.translate g.core g.ctx va with
  | .hit e => sealReached (BitVec.ofNat 32 (s.natAt (e.pa va) 4)) count
  | _ => true

/-- `CWAIT` (R424): the done word's low word loaded until it has reached the count; an acquire (R301). -/
def execCwait (g : GReg) (d : Opnd) (s : State) : Host.Outcome State Fault Refusal :=
  s.perGroup fun st s gr t =>
    match gr.thread? t with
    | none => .ok s
    | some th =>
      let va := (gPair gr g).toNat
      let count := rd gr th d
      if !s.memSettled gr then s.holdOn st.grp (.word va count)
      else match s.unitAccess gr t va 4 .table with
        | .out r => r
        | .ok s1 _ pa =>
          let (s2, b, p) := s1.homeLoad gr.pts pa 4
          if sealReached (BitVec.ofNat 32 (natOfBytes b)) count then .ok (s2.raisePts st.grp p) else s2.holdOn st.grp (.word va count)

end Sys2Proof.Machine
end

