-- ==== Sys2Proof/Machine/Compare.lean ====
section
/-! DEFINITION. Compares, predicates and votes (R176 to R180). -/

namespace Sys2Proof.Machine

/-- An integer compare (R177). -/
def State.icmp (s : State) (pd : BitVec 3) (a b : Opnd) (f : Word → Word → Bool) : Host.Outcome State Fault Refusal :=
  s.predUnit pd fun _ g th => f (rd g th a) (rd g th b)

/-- A float compare: the relation where neither operand is a NaN, and the answer where one is (R177). -/
def State.fcmp (s : State) (pd : BitVec 3) (a b : Opnd) (nan : Bool) (f : Int → Int → Bool) : Host.Outcome State Fault Refusal :=
  s.predUnit pd fun _ g th =>
    let x := rd g th a
    let y := rd g th b
    if isNaN32 x || isNaN32 y then nan else f (order32 x) (order32 y)

/-- `ICMP_EQ` (R177). -/
def execIcmpEq (pd : BitVec 3) (a b : Opnd) (s : State) : Host.Outcome State Fault Refusal :=
  s.icmp pd a b fun A B => A == B

/-- `ICMP_NE` (R177). -/
def execIcmpNe (pd : BitVec 3) (a b : Opnd) (s : State) : Host.Outcome State Fault Refusal :=
  s.icmp pd a b fun A B => A != B

/-- `ICMP_LT_S32` (R177). -/
def execIcmpLtS32 (pd : BitVec 3) (a b : Opnd) (s : State) : Host.Outcome State Fault Refusal :=
  s.icmp pd a b fun A B => decide (A.toInt < B.toInt)

/-- `ICMP_LE_S32` (R177). -/
def execIcmpLeS32 (pd : BitVec 3) (a b : Opnd) (s : State) : Host.Outcome State Fault Refusal :=
  s.icmp pd a b fun A B => decide (A.toInt ≤ B.toInt)

/-- `ICMP_GT_S32` (R177). -/
def execIcmpGtS32 (pd : BitVec 3) (a b : Opnd) (s : State) : Host.Outcome State Fault Refusal :=
  s.icmp pd a b fun A B => decide (A.toInt > B.toInt)

/-- `ICMP_GE_S32` (R177). -/
def execIcmpGeS32 (pd : BitVec 3) (a b : Opnd) (s : State) : Host.Outcome State Fault Refusal :=
  s.icmp pd a b fun A B => decide (A.toInt ≥ B.toInt)

/-- `ICMP_LT_N32` (R177). -/
def execIcmpLtN32 (pd : BitVec 3) (a b : Opnd) (s : State) : Host.Outcome State Fault Refusal :=
  s.icmp pd a b fun A B => decide (A.toNat < B.toNat)

/-- `ICMP_LE_N32` (R177). -/
def execIcmpLeN32 (pd : BitVec 3) (a b : Opnd) (s : State) : Host.Outcome State Fault Refusal :=
  s.icmp pd a b fun A B => decide (A.toNat ≤ B.toNat)

/-- `ICMP_GT_N32` (R177). -/
def execIcmpGtN32 (pd : BitVec 3) (a b : Opnd) (s : State) : Host.Outcome State Fault Refusal :=
  s.icmp pd a b fun A B => decide (A.toNat > B.toNat)

/-- `ICMP_GE_N32` (R177). -/
def execIcmpGeN32 (pd : BitVec 3) (a b : Opnd) (s : State) : Host.Outcome State Fault Refusal :=
  s.icmp pd a b fun A B => decide (A.toNat ≥ B.toNat)

/-- `FCMP_EQ_F32` (R177). -/
def execFcmpEqF32 (pd : BitVec 3) (a b : Opnd) (s : State) : Host.Outcome State Fault Refusal :=
  s.fcmp pd a b false fun A B => A == B

/-- `FCMP_NE_F32` (R177). -/
def execFcmpNeF32 (pd : BitVec 3) (a b : Opnd) (s : State) : Host.Outcome State Fault Refusal :=
  s.fcmp pd a b true fun A B => A != B

/-- `FCMP_LT_F32` (R177). -/
def execFcmpLtF32 (pd : BitVec 3) (a b : Opnd) (s : State) : Host.Outcome State Fault Refusal :=
  s.fcmp pd a b false fun A B => decide (A < B)

/-- `FCMP_LE_F32` (R177). -/
def execFcmpLeF32 (pd : BitVec 3) (a b : Opnd) (s : State) : Host.Outcome State Fault Refusal :=
  s.fcmp pd a b false fun A B => decide (A ≤ B)

/-- `FCMP_GT_F32` (R177). -/
def execFcmpGtF32 (pd : BitVec 3) (a b : Opnd) (s : State) : Host.Outcome State Fault Refusal :=
  s.fcmp pd a b false fun A B => decide (A > B)

/-- `FCMP_GE_F32` (R177). -/
def execFcmpGeF32 (pd : BitVec 3) (a b : Opnd) (s : State) : Host.Outcome State Fault Refusal :=
  s.fcmp pd a b false fun A B => decide (A ≥ B)

/-- `FCMP_UN_F32` (R177). -/
def execFcmpUnF32 (pd : BitVec 3) (a b : Opnd) (s : State) : Host.Outcome State Fault Refusal :=
  s.fcmp pd a b true fun _ _ => false

/-- `FCMP_ORD_F32` (R177). -/
def execFcmpOrdF32 (pd : BitVec 3) (a b : Opnd) (s : State) : Host.Outcome State Fault Refusal :=
  s.fcmp pd a b false fun _ _ => true

/-- `PAND` (R178). -/
def execPand (pd : BitVec 3) (pa pb : PSrc) (s : State) : Host.Outcome State Fault Refusal :=
  s.predUnit pd fun _ _ th =>
    let x := rdPSrc th pa
    let y := rdPSrc th pb
    x && y

/-- `POR` (R178). -/
def execPor (pd : BitVec 3) (pa pb : PSrc) (s : State) : Host.Outcome State Fault Refusal :=
  s.predUnit pd fun _ _ th =>
    let x := rdPSrc th pa
    let y := rdPSrc th pb
    x || y

/-- `PXOR` (R178). -/
def execPxor (pd : BitVec 3) (pa pb : PSrc) (s : State) : Host.Outcome State Fault Refusal :=
  s.predUnit pd fun _ _ th =>
    let x := rdPSrc th pa
    let y := rdPSrc th pb
    xor x y

/-- `PNOT` (R178). -/
def execPnot (pd : BitVec 3) (pa : PSrc) (s : State) : Host.Outcome State Fault Refusal :=
  s.predUnit pd fun _ _ th => !rdPSrc th pa

/-- `PMOV.PV` (R179). -/
def execPmovPv (d : Opnd) (s : State) : Host.Outcome State Fault Refusal :=
  s.regsUnit fun _ g t th => .ok (wr g t d (th.p.zeroExtend 32))

/-- `PMOV.VP` (R179). -/
def execPmovVp (a : Opnd) (s : State) : Host.Outcome State Fault Refusal :=
  s.regsUnit fun _ g t th => .ok (g.updThread t fun x => { x with p := (rd g th a).extractLsb' 0 7 })

/-- The threads of the stream whose predicate source is true, as the unit begins (R180). -/
def voteSet (st : Stream) (g : Group) (pa : PSrc) : List Nat :=
  st.threads.filter fun t => match g.thread? t with
    | some th => rdPSrc th pa
    | none => false

/-- `VOTE.ANY` (R180). -/
def execVoteAny (pd : BitVec 3) (pa : PSrc) (s : State) : Host.Outcome State Fault Refusal :=
  s.onStream fun st g =>
    let b := !(voteSet st g pa).isEmpty
    s.settle st (runRegs st (fun g t _ => .ok (g.updThread t fun x => wrP x pd b)) st.threads g)

/-- `VOTE.ALL` (R180). -/
def execVoteAll (pd : BitVec 3) (pa : PSrc) (s : State) : Host.Outcome State Fault Refusal :=
  s.onStream fun st g =>
    let b := (voteSet st g pa).length == st.threads.length
    s.settle st (runRegs st (fun g t _ => .ok (g.updThread t fun x => wrP x pd b)) st.threads g)

/-- `VOTE.BALLOT` (R180). -/
def execVoteBallot (d : Opnd) (pa : PSrc) (s : State) : Host.Outcome State Fault Refusal :=
  s.onStream fun st g =>
    let m := maskOf (voteSet st g pa)
    s.settle st (runRegs st (fun g t _ => .ok (wr g t d m)) st.threads g)

end Sys2Proof.Machine
end

