-- ==== Sys2Proof/Machine/Convert.lean ====
section
/-! DEFINITION. Conversions, packing, and conversions through a format slot (R201 to R206). -/

namespace Sys2Proof.Machine

/-- A conversion to a format from an exact value (R201). -/
def State.cvtTo (s : State) (d : Opnd) (f : Fmt) (x : Group → Thread → Ex) : Host.Outcome State Fault Refusal :=
  s.fpUnit d fun st g th =>
    let (b, fl) := f.result st.rnd st.sat (x g th)
    (BitVec.ofNat 32 b, fl)

/-- A conversion to a 32-bit integer type (R202). -/
def State.cvtInt (s : State) (d a : Opnd) (lo hi dflt : Int) : Host.Outcome State Fault Refusal :=
  s.fpUnit d fun st g th =>
    let (n, fl) := toIntType st.rnd st.sat lo hi dflt (val32 (rd g th a))
    (BitVec.ofInt 32 n, fl)

/-- An exact widening of a 16-bit element (R201). -/
def State.cvtWiden (s : State) (d a : Opnd) (lane : BitVec 1) (f : Fmt) : Host.Outcome State Fault Refusal :=
  s.fpUnit d fun _ g th =>
    (BitVec.ofNat 32 (fp32.result 0#2 false (f.decode ((rd g th a).toNat / 2 ^ (16 * lane.toNat) % 65536))).1, 0#6)

/-- Two conversions into a packed pair (R201). -/
def State.cvtPair (s : State) (d a b : Opnd) (f : Fmt) : Host.Outcome State Fault Refusal :=
  s.fpUnit d fun st g th =>
    let (x, fx) := f.result st.rnd st.sat (val32 (rd g th a))
    let (y, fy) := f.result st.rnd st.sat (val32 (rd g th b))
    (BitVec.ofNat 32 (x + 65536 * y), fx ||| fy)

/-- `CVT_F32_S32` (R201). -/
def execCvtF32S32 (d a : Opnd) (s : State) : Host.Outcome State Fault Refusal := s.cvtTo d fp32 fun g th => exOfInt (rd g th a).toInt 0 false

/-- `CVT_F32_N32` (R201). -/
def execCvtF32N32 (d a : Opnd) (s : State) : Host.Outcome State Fault Refusal := s.cvtTo d fp32 fun g th => .num false (rd g th a).toNat 0

/-- `CVT_S32_F32` (R202). -/
def execCvtS32F32 (d a : Opnd) (s : State) : Host.Outcome State Fault Refusal := s.cvtInt d a (-2147483648) 2147483647 (-2147483648)

/-- `CVT_N32_F32` (R202). -/
def execCvtN32F32 (d a : Opnd) (s : State) : Host.Outcome State Fault Refusal := s.cvtInt d a 0 4294967295 4294967295

/-- `CVT_F16_F32` (R201). -/
def execCvtF16F32 (d a : Opnd) (s : State) : Host.Outcome State Fault Refusal := s.cvtTo d fp16 fun g th => val32 (rd g th a)

/-- `CVT_BF16_F32` (R201). -/
def execCvtBf16F32 (d a : Opnd) (s : State) : Host.Outcome State Fault Refusal := s.cvtTo d bf16 fun g th => val32 (rd g th a)

/-- `CVT_F32_S64` (R201). -/
def execCvtF32S64 (d a : Opnd) (s : State) : Host.Outcome State Fault Refusal := s.cvtTo d fp32 fun g th => exOfInt (rd64 g th a).toInt 0 false

/-- `CVT_F32_F16` (R201). -/
def execCvtF32F16 (d a : Opnd) (lane : BitVec 1) (s : State) : Host.Outcome State Fault Refusal := s.cvtWiden d a lane fp16

/-- `CVT_F32_BF16` (R201). -/
def execCvtF32Bf16 (d a : Opnd) (lane : BitVec 1) (s : State) : Host.Outcome State Fault Refusal := s.cvtWiden d a lane bf16

/-- `CVT_F16X2_F32` (R201). -/
def execCvtF16x2F32 (d a b : Opnd) (s : State) : Host.Outcome State Fault Refusal := s.cvtPair d a b fp16

/-- `CVT_BF16X2_F32` (R201). -/
def execCvtBf16x2F32 (d a b : Opnd) (s : State) : Host.Outcome State Fault Refusal := s.cvtPair d a b bf16

/-- `CVT_S64_F32` (R202): into a pair. -/
def execCvtS64F32 (d a : Opnd) (s : State) : Host.Outcome State Fault Refusal :=
  s.regsUnit fun st g t th =>
    let (n, fl) := toIntType st.rnd st.sat (-9223372036854775808) 9223372036854775807 (-9223372036854775808) (val32 (rd g th a))
    match fpFault th fl with
    | some c => .fault c
    | none => .ok ((wrN g t d (words64 (BitVec.ofInt 64 n))).updThread t fun y => { y with fpflags := y.fpflags ||| fl })

/-- S8(x) and S16(x) of R203: the low bits, or under SAT the nearest value of the type. -/
def packLow (n : Nat) (sat : Bool) (x : Word) : Nat :=
  if sat then
    let lo : Int := -2 ^ (n - 1)
    let hi : Int := 2 ^ (n - 1) - 1
    ((if x.toInt < lo then lo else if x.toInt > hi then hi else x.toInt) % 2 ^ n).toNat
  else x.toNat % 2 ^ n

/-- A pack or unpack of each thread (R203); no flag is raised. -/
def State.packUnit (s : State) (d : Opnd) (f : Stream → Group → Thread → Word) : Host.Outcome State Fault Refusal :=
  s.regsUnit fun st g t th => .ok (wr g t d (f st g th))

/-- `PACK_B8` (R203). -/
def execPackB8 (d a b : Opnd) (s : State) : Host.Outcome State Fault Refusal :=
  s.packUnit d fun st g th => BitVec.ofNat 32
    (packLow 8 st.sat (rd g th b) * 2 ^ 24 + packLow 8 st.sat (rd g th a) * 2 ^ 16 + (rd g th d).toNat / 2 ^ 16)

/-- `PACK_B16` (R203). -/
def execPackB16 (d a b : Opnd) (s : State) : Host.Outcome State Fault Refusal :=
  s.packUnit d fun st g th => BitVec.ofNat 32 (packLow 16 st.sat (rd g th b) * 2 ^ 16 + packLow 16 st.sat (rd g th a))

/-- A lane of `n` bits of a word. -/
def laneOf (n : Nat) (w : Word) (lane : Nat) : Nat := w.toNat / 2 ^ (n * lane) % 2 ^ n

/-- `UNPACK_S8` (R203). -/
def execUnpackS8 (d a : Opnd) (lane : BitVec 2) (s : State) : Host.Outcome State Fault Refusal := s.packUnit d fun _ g th => BitVec.ofInt 32 (signed 8 (laneOf 8 (rd g th a) lane.toNat))

/-- `UNPACK_N8` (R203). -/
def execUnpackN8 (d a : Opnd) (lane : BitVec 2) (s : State) : Host.Outcome State Fault Refusal := s.packUnit d fun _ g th => BitVec.ofNat 32 (laneOf 8 (rd g th a) lane.toNat)

/-- `UNPACK_S16` (R203). -/
def execUnpackS16 (d a : Opnd) (lane : BitVec 1) (s : State) : Host.Outcome State Fault Refusal := s.packUnit d fun _ g th => BitVec.ofInt 32 (signed 16 (laneOf 16 (rd g th a) lane.toNat))

/-- `UNPACK_N16` (R203). -/
def execUnpackN16 (d a : Opnd) (lane : BitVec 1) (s : State) : Host.Outcome State Fault Refusal := s.packUnit d fun _ g th => BitVec.ofNat 32 (laneOf 16 (rd g th a) lane.toNat)

/-! ## Through a format slot (R204 to R206) -/

/-- A format slot of the group's grid (R126). -/
def State.slotOf (s : State) (g : Group) (fs : Nat) : Option FmtSlot := (s.grid? g.grid).bind fun gr => gr.lr.fs[fs]?

/-- The slot suits the instruction (R204): MK8 or INT8 with the scales it allows. -/
def FmtSlot.suits (f : FmtSlot) (fmt scaleMax : Nat) : Bool := f.fmt == fmt && decide (f.scale ≤ scaleMax)

/-- A byte put in a lane, the other three unchanged (R205 item 1). -/
def putByte (w : Word) (lane b : Nat) : Word :=
  BitVec.ofNat 32 (w.toNat - laneOf 8 w lane * 2 ^ (8 * lane) + b * 2 ^ (8 * lane))

/-- The exact product of a value and a scale; no invalid is raised (R205 item 4). -/
def scaled (x sc : Ex) : Ex := (exMul x sc).1

/-- The group flags of an encoding (R205 item 4). -/
def slotFFlags (flags : Nat) (nx : Bool) : FFlags :=
  (if field flags 0 0 = 1 then flagST else 0#6) ||| (if field flags 3 3 = 1 then flagUF else 0#6) ||| (if nx then flagNX else 0#6)

/-- The element's destination and flags written; the slot's flags enter the store queue as a no-return atomic (R206). -/
def State.encodeDone (s : State) (st : Stream) (t : Nat) (f : FmtSlot) (d : Opnd) (lane elem flags : Nat) (nx : Bool)
    (bad : Bool) : SRes :=
  match s.group? st.grp with
  | none => .ok s
  | some g =>
    let finish := fun (s : State) =>
      if bad then SRes.plain s 0x51#8
      else .ok (s.updGroup st.grp fun g =>
        match g.thread? t with
        | none => g
        | some th => (wr g t d (putByte (rd g th d) lane elem)).updThread t fun y =>
            { y with fpflags := y.fpflags ||| slotFFlags flags nx })
    if flags = 0 || f.olbase = 0 then finish s
    else
      match s.engRange (some g.core) g.ctx 0 (f.listVa + 4) 4 .list with
      | (s, .ok _, ps) => finish (ps.foldl (fun s (pa, _, _) =>
          s.queueStore st.grp t (.mem pa) (.atom .or32 (BitVec.ofNat 64 flags) 0#64)) s)
      | (s, .fault c va, _) => .at_ s c va
      | (s, .wait va, _) => s.stopOr (s.parkPage st.grp t g.ctx va)

/-- The clk of an append's round trip, added to the unit's time (R206, log 16). -/
def State.roundTrip (s : State) (st : Stream) : State :=
  (s.onDev fun d => { d with freeCtr := d.freeCtr + 1 }).updStream st.core st.reed fun x => { x with extra := x.extra + Config.roundTrip s.dev.freeCtr }

/-- An encoding instruction for one thread (R205 item 1, R206): a full store queue stops the stream where the slot's flags
need an entry; the append takes place before the next thread, as a write of this one after its group's earlier accesses
(R282, R290). -/
def State.encodeThread (s : State) (st : Stream) (t : Nat) (f : FmtSlot) (d : Opnd) (lane row col : Nat) (x : Ex) : SRes :=
  match s.group? st.grp with
  | none => .ok s
  | some g =>
    let o := f.encode x
    match o.out with
    | none =>
      if o.flags ≠ 0 && f.olbase ≠ 0 && !s.sqRoom st.grp then .stop s
      else s.encodeDone st t f d lane o.elem o.flags o.nx false
    | some neg =>
      if !s.sqRoom st.grp then .stop s
      else
        let s := (s.settleGroup st.grp g.sq.length).roundTrip st
        let pts := ((s.group? st.grp).map fun g => g.pts).getD g.pts
        match s.appendOutlier g.core g.ctx 0 f row col (roundF32 0#2 x) pts with
        | (s, .done ts) => (s.raisePts st.grp ts).encodeDone st t f d lane 0 0 false false
        | (s, .full) =>
          if f.ovf = 1 then s.encodeDone st t f d lane (0x7F + if neg then 128 else 0) (slotFULL + slotSAT) true false
          else s.encodeDone st t f d lane 0 slotFULL false true
        | (s, .fault c va) => .at_ s c va
        | (s, .wait va) => s.stopOr (s.parkPage st.grp t g.ctx va)

/-- An encoding instruction (R205). -/
def State.encodeUnit (s : State) (d : Opnd) (fs : BitVec 3) (lane : BitVec 2) (fmt scaleMax : Nat)
    (row col : Group → Thread → Nat → Nat) (a : Opnd) : Host.Outcome State Fault Refusal :=
  s.perThread fun st s t th =>
    match s.group? st.grp with
    | none => .ok s
    | some g =>
      match s.slotOf g fs.toNat with
      | none => .plain s 0x01#8
      | some f =>
        if !f.suits fmt scaleMax then .plain s 0x01#8
        else s.encodeThread st t f d lane.toNat (row g th t) (col g th t) (scaled (val32 (rd g th a)) f.tensorScale)

/-- A decoding instruction (R205 items 2 and 4). -/
def State.decodeUnit (s : State) (d a : Opnd) (fs : BitVec 3) (lane : BitVec 2) (fmt scaleMax : Nat) (mode : FmtSlot → BitVec 2) :
    Host.Outcome State Fault Refusal :=
  s.perThread fun st s t th =>
    match s.group? st.grp with
    | none => .ok s
    | some g =>
      match s.slotOf g fs.toNat with
      | none => .plain s 0x01#8
      | some f =>
        if !f.suits fmt scaleMax then .plain s 0x01#8
        else
          let (b, fl) := fp32.result (mode f) false (scaled (f.decode (laneOf 8 (rd g th a) lane.toNat)) f.tensorScale)
          .ok (s.updGroup st.grp fun g => (wr g t d (BitVec.ofNat 32 b)).updThread t fun y => { y with fpflags := y.fpflags ||| fl })

/-- The coordinates of `QNT` (R205): row in bits [15:0] and column base in [31:16] of the odd register. -/
def qntRow (a : Opnd) (g : Group) (th : Thread) (_ : Nat) : Nat := (rd g th (nextOpnd a)).toNat % 65536
def qntCol (a : Opnd) (lane : BitVec 2) (g : Group) (th : Thread) (_ : Nat) : Nat :=
  (rd g th (nextOpnd a)).toNat / 65536 + lane.toNat

/-- `CVTK_K8_F32` (R205). -/
def execCvtkK8F32 (d a : Opnd) (fs : BitVec 3) (lane : BitVec 2) (s : State) : Host.Outcome State Fault Refusal :=
  s.encodeUnit d fs lane 3 0 (fun _ _ t => t) (fun _ _ _ => lane.toNat) a

/-- `CVTK_F32_K8` (R205). -/
def execCvtkF32K8 (d a : Opnd) (fs : BitVec 3) (lane : BitVec 2) (s : State) : Host.Outcome State Fault Refusal := s.decodeUnit d a fs lane 3 0 fun _ => 0#2

/-- `QNT_K8` (R205). -/
def execQntK8 (d a : Opnd) (fs : BitVec 3) (lane : BitVec 2) (s : State) : Host.Outcome State Fault Refusal := s.encodeUnit d fs lane 3 1 (qntRow a) (qntCol a lane) a

/-- `QNT_S8` (R205). -/
def execQntS8 (d a : Opnd) (fs : BitVec 3) (lane : BitVec 2) (s : State) : Host.Outcome State Fault Refusal := s.encodeUnit d fs lane 4 1 (qntRow a) (qntCol a lane) a

/-- `DQNT_K8` (R205). -/
def execDqntK8 (d a : Opnd) (fs : BitVec 3) (lane : BitVec 2) (s : State) : Host.Outcome State Fault Refusal := s.decodeUnit d a fs lane 3 1 fun _ => 0#2

/-- `DQNT_S8` (R205). -/
def execDqntS8 (d a : Opnd) (fs : BitVec 3) (lane : BitVec 2) (s : State) : Host.Outcome State Fault Refusal := s.decodeUnit d a fs lane 4 1 fun f => BitVec.ofNat 2 f.rnd

end Sys2Proof.Machine
end

