-- ==== Sys2Proof/Machine/Exchange.lean ====
section
/-! DEFINITION. Exchange through time and the tile registers (R208 to R219). -/

namespace Sys2Proof.Machine

/-- The participants with their source values, read before any destination is written (R208, R209). -/
def sources (st : Stream) (g : Group) (a : Opnd) : List (Nat × Word) :=
  st.threads.filterMap fun t => (g.thread? t).map fun th => (t, rd g th a)

/-- The value at a source position: a participant's, else the reader's own (R208). -/
def srcAt (l : List (Nat × Word)) (own : Word) (i : Int) : Word :=
  if i < 0 then own else (assoc l i.toNat).getD own

/-- An exchange unit: each participant's result from the sources, its own value and its b operand (R209, R210). -/
def State.exchange (s : State) (d a : Opnd) (b : Option Opnd) (f : List (Nat × Word) → Nat → Word → Word → Word × FFlags) :
    Host.Outcome State Fault Refusal :=
  s.onStream fun st g =>
    let src := sources st g a
    let res := st.threads.filterMap fun t => (g.thread? t).map fun th =>
      (t, f src t (rd g th a) ((b.map fun o => rd g th o).getD 0#32))
    s.settle st (runRegs st (fun g t _ =>
      match assoc res t with
      | some (w, fl) => .ok ((wr g t d w).updThread t fun y => { y with fpflags := y.fpflags ||| fl })
      | none => .ok g) st.threads g)

/-- A combining operation of a scan or reduction, with the flags of its step (R213, R214). -/
abbrev Combine := Word → Word → Word × FFlags

def cmbAddS : Combine := fun x y => (x + y, 0#6)
def cmbMinS : Combine := fun x y => (if x.toInt ≤ y.toInt then x else y, 0#6)
def cmbMaxS : Combine := fun x y => (if x.toInt ≤ y.toInt then y else x, 0#6)
def cmbAddF : Combine := fun x y =>
  let (b, fl) := fp32.finish 0#2 false (exAdd 0#2 (val32 x) (val32 y))
  (BitVec.ofNat 32 b, fl)
def cmbMinF : Combine := fun x y => (BitVec.ofNat 32 (fp32.minNum x.toNat y.toNat), 0#6)
def cmbMaxF : Combine := fun x y => (BitVec.ofNat 32 (fp32.maxNum x.toNat y.toNat), 0#6)

/-- A NaN running value is the canonical NaN in the .f32 forms (R90). -/
def canonIf (flt : Bool) (w : Word) : Word := if flt && isNaN32 w then 0x7FC00000#32 else w

/-- The values combined in ascending home-thread order (R90). -/
def combineAll (flt : Bool) (c : Combine) : List Word → Word × FFlags
  | [] => (0#32, 0#6)
  | x :: r => r.foldl (fun (acc : Word × FFlags) y =>
      let (z, fl) := c acc.1 y
      (canonIf flt z, acc.2 ||| fl)) (canonIf flt x, 0#6)

/-- The value exchanges that name positions (R212). -/
def execXget (d a b : Opnd) (s : State) : Host.Outcome State Fault Refusal :=
  s.exchange d a (some b) fun src _ own B => (srcAt src own (B.toNat % 32 : Nat), 0#6)

/-- `XSHIFT.UP` (R212). -/
def execXshiftUp (d a b : Opnd) (s : State) : Host.Outcome State Fault Refusal :=
  s.exchange d a (some b) fun src t own B => (srcAt src own ((t : Int) - B.toNat), 0#6)

/-- `XSHIFT.DN` (R212). -/
def execXshiftDn (d a b : Opnd) (s : State) : Host.Outcome State Fault Refusal :=
  s.exchange d a (some b) fun src t own B => (srcAt src own (t + B.toNat : Nat), 0#6)

/-- `XMATCH` (R212). -/
def execXmatch (d a : Opnd) (s : State) : Host.Outcome State Fault Refusal :=
  s.exchange d a none fun src _ own _ => (maskOf ((src.filter fun (_, w) => w == own).map fun (u, _) => u), 0#6)

/-- `XBCAST` (R212): the lowest home thread's value. -/
def execXbcast (d a : Opnd) (s : State) : Host.Outcome State Fault Refusal :=
  s.exchange d a none fun src _ own _ => ((src.head?.map fun x => x.2).getD own, 0#6)

/-- `XQUAD.H` (R212, R215). -/
def execXquadH (d a : Opnd) (s : State) : Host.Outcome State Fault Refusal :=
  s.exchange d a none fun src t own _ => (srcAt src own (t ^^^ 1 : Nat), 0#6)

/-- `XQUAD.V` (R212, R215). -/
def execXquadV (d a : Opnd) (s : State) : Host.Outcome State Fault Refusal :=
  s.exchange d a none fun src t own _ => (srcAt src own (t ^^^ 2 : Nat), 0#6)

/-- `XQUAD.D` (R212, R215). -/
def execXquadD (d a : Opnd) (s : State) : Host.Outcome State Fault Refusal :=
  s.exchange d a none fun src t own _ => (srcAt src own (t ^^^ 3 : Nat), 0#6)

/-- `XSCAN_ADD_S32` (R213): inclusive, up to the reading thread. -/
def execXscanAddS32 (d a : Opnd) (s : State) : Host.Outcome State Fault Refusal :=
  s.exchange d a none fun src t _ _ => combineAll false cmbAddS ((src.filter fun (u, _) => decide (u ≤ t)).map fun x => x.2)

/-- `XRED_ADD_S32` (R213): over every participant. -/
def execXredAddS32 (d a : Opnd) (s : State) : Host.Outcome State Fault Refusal :=
  s.exchange d a none fun src _ _ _ => combineAll false cmbAddS (src.map fun x => x.2)

/-- `XSCAN_ADD_F32` (R213): inclusive, up to the reading thread. -/
def execXscanAddF32 (d a : Opnd) (s : State) : Host.Outcome State Fault Refusal :=
  s.exchange d a none fun src t _ _ => combineAll true cmbAddF ((src.filter fun (u, _) => decide (u ≤ t)).map fun x => x.2)

/-- `XRED_ADD_F32` (R213): over every participant. -/
def execXredAddF32 (d a : Opnd) (s : State) : Host.Outcome State Fault Refusal :=
  s.exchange d a none fun src _ _ _ => combineAll true cmbAddF (src.map fun x => x.2)

/-- `XSCAN_MIN_S32` (R213): inclusive, up to the reading thread. -/
def execXscanMinS32 (d a : Opnd) (s : State) : Host.Outcome State Fault Refusal :=
  s.exchange d a none fun src t _ _ => combineAll false cmbMinS ((src.filter fun (u, _) => decide (u ≤ t)).map fun x => x.2)

/-- `XRED_MIN_S32` (R213): over every participant. -/
def execXredMinS32 (d a : Opnd) (s : State) : Host.Outcome State Fault Refusal :=
  s.exchange d a none fun src _ _ _ => combineAll false cmbMinS (src.map fun x => x.2)

/-- `XSCAN_MAX_S32` (R213): inclusive, up to the reading thread. -/
def execXscanMaxS32 (d a : Opnd) (s : State) : Host.Outcome State Fault Refusal :=
  s.exchange d a none fun src t _ _ => combineAll false cmbMaxS ((src.filter fun (u, _) => decide (u ≤ t)).map fun x => x.2)

/-- `XRED_MAX_S32` (R213): over every participant. -/
def execXredMaxS32 (d a : Opnd) (s : State) : Host.Outcome State Fault Refusal :=
  s.exchange d a none fun src _ _ _ => combineAll false cmbMaxS (src.map fun x => x.2)

/-- `XSCAN_MIN_F32` (R213): inclusive, up to the reading thread. -/
def execXscanMinF32 (d a : Opnd) (s : State) : Host.Outcome State Fault Refusal :=
  s.exchange d a none fun src t _ _ => combineAll true cmbMinF ((src.filter fun (u, _) => decide (u ≤ t)).map fun x => x.2)

/-- `XRED_MIN_F32` (R213): over every participant. -/
def execXredMinF32 (d a : Opnd) (s : State) : Host.Outcome State Fault Refusal :=
  s.exchange d a none fun src _ _ _ => combineAll true cmbMinF (src.map fun x => x.2)

/-- `XSCAN_MAX_F32` (R213): inclusive, up to the reading thread. -/
def execXscanMaxF32 (d a : Opnd) (s : State) : Host.Outcome State Fault Refusal :=
  s.exchange d a none fun src t _ _ => combineAll true cmbMaxF ((src.filter fun (u, _) => decide (u ≤ t)).map fun x => x.2)

/-- `XRED_MAX_F32` (R213): over every participant. -/
def execXredMaxF32 (d a : Opnd) (s : State) : Host.Outcome State Fault Refusal :=
  s.exchange d a none fun src _ _ _ => combineAll true cmbMaxF (src.map fun x => x.2)

/-! ## Tile registers (R216 to R219) -/

/-- The base register of t0 or t1 (R216). -/
def tileBase (t : BitVec 1) : Nat := if t = 1#1 then 32 else 0

/-- Register `n` of home thread `t`. -/
def vAt (g : Group) (t n : Nat) : Word := ((g.thread? t).map fun th => mget th.v n).getD 0#32

/-- `TMOV` from a slice (R217, R218): row x element t, or column x. -/
def execTmovToRegister (d : Opnd) (t rc ge : BitVec 1) (gidx : BitVec 6) (imm : BitVec 5) (s : State) : Host.Outcome State Fault Refusal :=
  s.onStream fun st g =>
    let x := sliceIndex g ge gidx imm
    let b := tileBase t
    s.settle st (runRegs st (fun g' u _ =>
      .ok (wr g' u d (if rc = 0#1 then vAt g x (b + u) else vAt g u (b + x)))) st.threads g)

/-- `TMOV` to a slice (R217, R218): the elements of the participants only. -/
def execTmovToSlice (d : Opnd) (t rc ge : BitVec 1) (gidx : BitVec 6) (imm : BitVec 5) (s : State) : Host.Outcome State Fault Refusal :=
  s.onStream fun st g =>
    let x := sliceIndex g ge gidx imm
    let b := tileBase t
    let src := sources st g d
    s.settle st (runRegs st (fun g' u _ =>
      match assoc src u with
      | none => .ok g'
      | some w =>
        if rc = 0#1 then .ok (g'.updThread x fun th => { th with v := mset th.v (b + u) w })
        else .ok (g'.updThread u fun th => { th with v := mset th.v (b + x) w })) st.threads g)

/-- `TTR` (R219): the block whose rows and columns are both participants, transposed. -/
def execTtr (t : BitVec 1) (s : State) : Host.Outcome State Fault Refusal :=
  s.onStream fun st g =>
    let b := tileBase t
    s.settle st (runRegs st (fun g' u _ =>
      .ok (g'.updThread u fun th =>
        { th with v := st.threads.foldl (fun m j => mset m (b + j) (vAt g j (b + u))) th.v })) st.threads g)

end Sys2Proof.Machine
end

