-- ==== Sys2Proof/Machine/Integer.lean ====
section
/-! DEFINITION. The integer, register-immediate and 64-bit instructions (R161, R170 to R175). -/

namespace Sys2Proof.Machine

/-- The nearest value of .s32 (R71, R172). -/
def sat32 (x : Int) : Word :=
  if x < -2147483648 then 0x80000000#32 else if x > 2147483647 then 0x7FFFFFFF#32 else BitVec.ofInt 32 x

/-- A signed result, saturated under SAT, else reduced modulo 2^32 (R170, R172). -/
def satIf (st : Stream) (x : Int) : Word := if st.sat then sat32 x else BitVec.ofInt 32 x

/-- An instruction of three named registers: the result from D, A and B (R161). -/
def State.int3 (s : State) (d a b : Opnd) (f : Stream → Word → Word → Word → Except (BitVec 8) Word) :
    Host.Outcome State Fault Refusal :=
  s.valueUnit (d.isG && a.isG && b.isG) d fun st g th => (f st (rd g th d) (rd g th a) (rd g th b)).map fun x => [x]

/-- The same where no fault is possible. -/
def State.int3v (s : State) (d a b : Opnd) (f : Stream → Word → Word → Word → Word) : Host.Outcome State Fault Refusal :=
  s.int3 d a b fun st x y z => .ok (f st x y z)

/-- An instruction of two named registers (R161 item 2). -/
def State.int2 (s : State) (d a : Opnd) (f : Stream → Word → Word) : Host.Outcome State Fault Refusal :=
  s.valueUnit (d.isG && a.isG) d fun st g th => .ok [f st (rd g th a)]

/-- A register-immediate instruction (R174). -/
def State.intImm (s : State) (d a : Opnd) (imm : BitVec 10) (f : Stream → Word → Word → Word) : Host.Outcome State Fault Refusal :=
  s.valueUnit (d.isG && a.isG) d fun st g th => .ok [f st (rd g th a) (immValue st.imm imm)]

/-- The low five bits of a shift count (R170). -/
def shiftOf (b : Word) : Nat := b.toNat % 32

/-- Position and length of a bit field (R173). -/
def bfPos (b : Word) : Nat := b.toNat % 32
def bfLen (b : Word) : Nat := min (field b.toNat 13 8) 32

/-- The field of A, a bit above 31 reading as the sign for .s32 and 0 for .n32 (R173). -/
def bfeVal (sgn : Bool) (a b : Word) : Word :=
  let len := bfLen b
  if len = 0 then 0#32
  else if sgn then (((a.sshiftRight (bfPos b)) <<< (32 - len)).sshiftRight (32 - len))
  else (a >>> bfPos b) &&& BitVec.ofNat 32 (2 ^ len - 1)

/-- The low bits of A inserted into D; bits beyond 31 are dropped (R173). -/
def bfiVal (d a b : Word) : Word :=
  let m := BitVec.ofNat 32 ((2 ^ bfLen b - 1) * 2 ^ bfPos b)
  (d &&& ~~~m) ||| ((a <<< bfPos b) &&& m)

/-- Bits set in a word; leading zero bits; bits reversed (R170). -/
def popcVal (a : Word) : Word := BitVec.ofNat 32 ((List.range 32).filter fun i => a.getLsbD i).length
def clzVal (a : Word) : Word := if a = 0#32 then 32#32 else BitVec.ofNat 32 (31 - Nat.log2 a.toNat)
def brevVal (a : Word) : Word := maskOf ((List.range 32).filter fun i => a.getLsbD (31 - i))

/-- `ADD` (R170). -/
def execAdd (d a b : Opnd) (s : State) : Host.Outcome State Fault Refusal :=
  s.int3v d a b fun st _ A B => satIf st (A.toInt + B.toInt)

/-- `SUB` (R170). -/
def execSub (d a b : Opnd) (s : State) : Host.Outcome State Fault Refusal :=
  s.int3v d a b fun st _ A B => satIf st (A.toInt - B.toInt)

/-- `MUL` (R170). -/
def execMul (d a b : Opnd) (s : State) : Host.Outcome State Fault Refusal :=
  s.int3v d a b fun st _ A B => satIf st (A.toInt * B.toInt)

/-- `MULH_S32` (R170). -/
def execMulhS32 (d a b : Opnd) (s : State) : Host.Outcome State Fault Refusal :=
  s.int3v d a b fun _ _ A B => BitVec.ofInt 32 (A.toInt * B.toInt / 2 ^ 32)

/-- `MULH_N32` (R170). -/
def execMulhN32 (d a b : Opnd) (s : State) : Host.Outcome State Fault Refusal :=
  s.int3v d a b fun _ _ A B => BitVec.ofNat 32 (A.toNat * B.toNat / 2 ^ 32)

/-- `MAD` (R170). -/
def execMad (d a b : Opnd) (s : State) : Host.Outcome State Fault Refusal :=
  s.int3v d a b fun st D A B => satIf st (D.toInt + A.toInt * B.toInt)

/-- `MIN_S32` (R170). -/
def execMinS32 (d a b : Opnd) (s : State) : Host.Outcome State Fault Refusal :=
  s.int3v d a b fun _ _ A B => if A.toInt ≤ B.toInt then A else B

/-- `MIN_N32` (R170). -/
def execMinN32 (d a b : Opnd) (s : State) : Host.Outcome State Fault Refusal :=
  s.int3v d a b fun _ _ A B => if A.toNat ≤ B.toNat then A else B

/-- `MAX_S32` (R170). -/
def execMaxS32 (d a b : Opnd) (s : State) : Host.Outcome State Fault Refusal :=
  s.int3v d a b fun _ _ A B => if A.toInt ≤ B.toInt then B else A

/-- `MAX_N32` (R170). -/
def execMaxN32 (d a b : Opnd) (s : State) : Host.Outcome State Fault Refusal :=
  s.int3v d a b fun _ _ A B => if A.toNat ≤ B.toNat then B else A

/-- `AND` (R170). -/
def execAnd (d a b : Opnd) (s : State) : Host.Outcome State Fault Refusal :=
  s.int3v d a b fun _ _ A B => A &&& B

/-- `OR` (R170). -/
def execOr (d a b : Opnd) (s : State) : Host.Outcome State Fault Refusal :=
  s.int3v d a b fun _ _ A B => A ||| B

/-- `XOR` (R170). -/
def execXor (d a b : Opnd) (s : State) : Host.Outcome State Fault Refusal :=
  s.int3v d a b fun _ _ A B => A ^^^ B

/-- `SHL` (R170). -/
def execShl (d a b : Opnd) (s : State) : Host.Outcome State Fault Refusal :=
  s.int3v d a b fun _ _ A B => A <<< shiftOf B

/-- `SHR` (R170). -/
def execShr (d a b : Opnd) (s : State) : Host.Outcome State Fault Refusal :=
  s.int3v d a b fun _ _ A B => A >>> shiftOf B

/-- `SHA` (R170). -/
def execSha (d a b : Opnd) (s : State) : Host.Outcome State Fault Refusal :=
  s.int3v d a b fun _ _ A B => A.sshiftRight (shiftOf B)

/-- `ROT` (R170). -/
def execRot (d a b : Opnd) (s : State) : Host.Outcome State Fault Refusal :=
  s.int3v d a b fun _ _ A B => A.rotateLeft (shiftOf B)

/-- `BFE_S32` (R173). -/
def execBfeS32 (d a b : Opnd) (s : State) : Host.Outcome State Fault Refusal :=
  s.int3v d a b fun _ _ A B => bfeVal true A B

/-- `BFE_N32` (R173). -/
def execBfeN32 (d a b : Opnd) (s : State) : Host.Outcome State Fault Refusal :=
  s.int3v d a b fun _ _ A B => bfeVal false A B

/-- `BFI` (R173). -/
def execBfi (d a b : Opnd) (s : State) : Host.Outcome State Fault Refusal :=
  s.int3v d a b fun _ D A B => bfiVal D A B

/-- `DIV_S32` (R171): integer divide by zero where B is 0. -/
def execDivS32 (d a b : Opnd) (s : State) : Host.Outcome State Fault Refusal :=
  s.int3 d a b fun _ _ A B => if B = 0#32 then .error 0x32#8 else .ok (BitVec.ofInt 32 (A.toInt.tdiv B.toInt))

/-- `DIV_N32` (R171): integer divide by zero where B is 0. -/
def execDivN32 (d a b : Opnd) (s : State) : Host.Outcome State Fault Refusal :=
  s.int3 d a b fun _ _ A B => if B = 0#32 then .error 0x32#8 else .ok (BitVec.ofNat 32 (A.toNat / B.toNat))

/-- `REM_S32` (R171): integer divide by zero where B is 0. -/
def execRemS32 (d a b : Opnd) (s : State) : Host.Outcome State Fault Refusal :=
  s.int3 d a b fun _ _ A B => if B = 0#32 then .error 0x32#8 else .ok (BitVec.ofInt 32 (A.toInt.tmod B.toInt))

/-- `REM_N32` (R171): integer divide by zero where B is 0. -/
def execRemN32 (d a b : Opnd) (s : State) : Host.Outcome State Fault Refusal :=
  s.int3 d a b fun _ _ A B => if B = 0#32 then .error 0x32#8 else .ok (BitVec.ofNat 32 (A.toNat % B.toNat))

/-- `ABS` (R172). -/
def execAbs (d a : Opnd) (s : State) : Host.Outcome State Fault Refusal :=
  s.int2 d a fun st A => satIf st (A.toInt.natAbs : Int)

/-- `NEG` (R172). -/
def execNeg (d a : Opnd) (s : State) : Host.Outcome State Fault Refusal :=
  s.int2 d a fun st A => satIf st (-A.toInt)

/-- `NOT` (R170). -/
def execNot (d a : Opnd) (s : State) : Host.Outcome State Fault Refusal :=
  s.int2 d a fun _ A => ~~~A

/-- `POPC` (R170). -/
def execPopc (d a : Opnd) (s : State) : Host.Outcome State Fault Refusal :=
  s.int2 d a fun _ A => popcVal A

/-- `CLZ` (R170). -/
def execClz (d a : Opnd) (s : State) : Host.Outcome State Fault Refusal :=
  s.int2 d a fun _ A => clzVal A

/-- `BREV` (R170). -/
def execBrev (d a : Opnd) (s : State) : Host.Outcome State Fault Refusal :=
  s.int2 d a fun _ A => brevVal A

/-- `MOV` (R170). -/
def execMov (d a : Opnd) (s : State) : Host.Outcome State Fault Refusal :=
  s.int2 d a fun _ A => A

/-- `SEL` (R170): a uniform form reads the predicate of the first streamed thread (log 13). -/
def execSel (n : BitVec 3) (d a b : Opnd) (s : State) : Host.Outcome State Fault Refusal :=
  s.valueUnit (d.isG && a.isG && b.isG) d fun _ g th => .ok [if rdP th n then rd g th a else rd g th b]

/-- `ADD_IMM` (R174). -/
def execAddImm (d a : Opnd) (imm : BitVec 10) (s : State) : Host.Outcome State Fault Refusal :=
  s.intImm d a imm fun st A B => satIf st (A.toInt + B.toInt)

/-- `MUL_IMM` (R174). -/
def execMulImm (d a : Opnd) (imm : BitVec 10) (s : State) : Host.Outcome State Fault Refusal :=
  s.intImm d a imm fun st A B => satIf st (A.toInt * B.toInt)

/-- `AND_IMM` (R174). -/
def execAndImm (d a : Opnd) (imm : BitVec 10) (s : State) : Host.Outcome State Fault Refusal :=
  s.intImm d a imm fun _ A B => A &&& B

/-- `OR_IMM` (R174). -/
def execOrImm (d a : Opnd) (imm : BitVec 10) (s : State) : Host.Outcome State Fault Refusal :=
  s.intImm d a imm fun _ A B => A ||| B

/-- `XOR_IMM` (R174). -/
def execXorImm (d a : Opnd) (imm : BitVec 10) (s : State) : Host.Outcome State Fault Refusal :=
  s.intImm d a imm fun _ A B => A ^^^ B

/-- `SHL_IMM` (R174). -/
def execShlImm (d a : Opnd) (imm : BitVec 10) (s : State) : Host.Outcome State Fault Refusal :=
  s.intImm d a imm fun _ A B => A <<< shiftOf B

/-- `SHR_IMM` (R174). -/
def execShrImm (d a : Opnd) (imm : BitVec 10) (s : State) : Host.Outcome State Fault Refusal :=
  s.intImm d a imm fun _ A B => A >>> shiftOf B

/-- `MOVI` (R174 item 4). -/
def execMovi (d : Opnd) (imm : BitVec 10) (s : State) : Host.Outcome State Fault Refusal :=
  s.valueUnit d.isG d fun st _ _ => .ok [immValue st.imm imm]

/-- `ADD64` (R175). -/
def execAdd64 (d a b : Opnd) (s : State) : Host.Outcome State Fault Refusal :=
  s.valueUnit (d.isG && a.isG && b.isG) d fun _ g th => .ok (words64 (rd64 g th a + rd64 g th b))

/-- `SUB64` (R175). -/
def execSub64 (d a b : Opnd) (s : State) : Host.Outcome State Fault Refusal :=
  s.valueUnit (d.isG && a.isG && b.isG) d fun _ g th => .ok (words64 (rd64 g th a - rd64 g th b))

/-- `MUL64` (R175). -/
def execMul64 (d a b : Opnd) (s : State) : Host.Outcome State Fault Refusal :=
  s.valueUnit (d.isG && a.isG && b.isG) d fun _ g th => .ok (words64 (rd64 g th a * rd64 g th b))

/-- `LEA` (R175): A64 + sB × 2^sh. -/
def execLea (sh : BitVec 2) (d a b : Opnd) (s : State) : Host.Outcome State Fault Refusal :=
  s.valueUnit (d.isG && a.isG && b.isG) d fun _ g th =>
    .ok (words64 (rd64 g th a + (rd g th b).signExtend 64 * BitVec.ofNat 64 (2 ^ sh.toNat)))

/-- `SEXT_S8` (R175). -/
def execSextS8 (d a : Opnd) (s : State) : Host.Outcome State Fault Refusal :=
  s.valueUnit (d.isG && a.isG) d fun _ g th => .ok (words64 (((rd g th a).extractLsb' 0 8).signExtend 64))

/-- `SEXT_S16` (R175). -/
def execSextS16 (d a : Opnd) (s : State) : Host.Outcome State Fault Refusal :=
  s.valueUnit (d.isG && a.isG) d fun _ g th => .ok (words64 (((rd g th a).extractLsb' 0 16).signExtend 64))

/-- `SEXT_S32` (R175). -/
def execSextS32 (d a : Opnd) (s : State) : Host.Outcome State Fault Refusal :=
  s.valueUnit (d.isG && a.isG) d fun _ g th => .ok (words64 ((rd g th a).signExtend 64))

/-- `ZEXT_N8` (R175). -/
def execZextN8 (d a : Opnd) (s : State) : Host.Outcome State Fault Refusal :=
  s.valueUnit (d.isG && a.isG) d fun _ g th => .ok (words64 (((rd g th a).extractLsb' 0 8).zeroExtend 64))

/-- `ZEXT_N16` (R175). -/
def execZextN16 (d a : Opnd) (s : State) : Host.Outcome State Fault Refusal :=
  s.valueUnit (d.isG && a.isG) d fun _ g th => .ok (words64 (((rd g th a).extractLsb' 0 16).zeroExtend 64))

/-- `ZEXT_N32` (R175). -/
def execZextN32 (d a : Opnd) (s : State) : Host.Outcome State Fault Refusal :=
  s.valueUnit (d.isG && a.isG) d fun _ g th => .ok (words64 ((rd g th a).zeroExtend 64))

end Sys2Proof.Machine
end

