-- ==== Sys2Proof/Machine/Clause.lean ====
section
/-! DEFINITION. The check of a clause as it is loaded (R42 to R45), the prefixes of an issue unit (R51 to R55). -/

namespace Sys2Proof

/-- One above the highest v register of an operand of `w` registers; 0 for a g operand. -/
def Opnd.topV (o : Opnd) (w : Nat) : Nat :=
  match o with
  | .v n => n.toNat + w
  | .g _ => 0

end Sys2Proof

namespace Sys2Proof.Machine

/-! ## What an instruction word names -/

/-- The index register that format M names under a g base (R50). -/
def idxTop (base : Opnd) (x : BitVec 6) : Nat := if base.isG then x.toNat + 1 else 0

/-- One above the highest v register that the word names, the far registers of pairs, quads and spans included (R44 item
2.5, R216, R351, R363, R375, R405); 0 where it names none. The spans of `ATTR` and `BARY` results are checked at issue
(R402), and that of `VMV` with its payload. -/
def topReg : Instr → Nat
  | .brx a => a.topV 1
  | .add d a b => max (d.topV 1) (max (a.topV 1) (b.topV 1))
  | .sub d a b => max (d.topV 1) (max (a.topV 1) (b.topV 1))
  | .mul d a b => max (d.topV 1) (max (a.topV 1) (b.topV 1))
  | .mulhS32 d a b => max (d.topV 1) (max (a.topV 1) (b.topV 1))
  | .mulhN32 d a b => max (d.topV 1) (max (a.topV 1) (b.topV 1))
  | .mad d a b => max (d.topV 1) (max (a.topV 1) (b.topV 1))
  | .divS32 d a b => max (d.topV 1) (max (a.topV 1) (b.topV 1))
  | .divN32 d a b => max (d.topV 1) (max (a.topV 1) (b.topV 1))
  | .remS32 d a b => max (d.topV 1) (max (a.topV 1) (b.topV 1))
  | .remN32 d a b => max (d.topV 1) (max (a.topV 1) (b.topV 1))
  | .minS32 d a b => max (d.topV 1) (max (a.topV 1) (b.topV 1))
  | .minN32 d a b => max (d.topV 1) (max (a.topV 1) (b.topV 1))
  | .maxS32 d a b => max (d.topV 1) (max (a.topV 1) (b.topV 1))
  | .maxN32 d a b => max (d.topV 1) (max (a.topV 1) (b.topV 1))
  | .abs d a => max (d.topV 1) (a.topV 1)
  | .neg d a => max (d.topV 1) (a.topV 1)
  | .and d a b => max (d.topV 1) (max (a.topV 1) (b.topV 1))
  | .or d a b => max (d.topV 1) (max (a.topV 1) (b.topV 1))
  | .xor d a b => max (d.topV 1) (max (a.topV 1) (b.topV 1))
  | .not d a => max (d.topV 1) (a.topV 1)
  | .shl d a b => max (d.topV 1) (max (a.topV 1) (b.topV 1))
  | .shr d a b => max (d.topV 1) (max (a.topV 1) (b.topV 1))
  | .sha d a b => max (d.topV 1) (max (a.topV 1) (b.topV 1))
  | .rot d a b => max (d.topV 1) (max (a.topV 1) (b.topV 1))
  | .bfeS32 d a b => max (d.topV 1) (max (a.topV 1) (b.topV 1))
  | .bfeN32 d a b => max (d.topV 1) (max (a.topV 1) (b.topV 1))
  | .bfi d a b => max (d.topV 1) (max (a.topV 1) (b.topV 1))
  | .popc d a => max (d.topV 1) (a.topV 1)
  | .clz d a => max (d.topV 1) (a.topV 1)
  | .brev d a => max (d.topV 1) (a.topV 1)
  | .mov d a => max (d.topV 1) (a.topV 1)
  | .sel _ d a b => max (d.topV 1) (max (a.topV 1) (b.topV 1))
  | .addImm d a _ => max (d.topV 1) (a.topV 1)
  | .mulImm d a _ => max (d.topV 1) (a.topV 1)
  | .andImm d a _ => max (d.topV 1) (a.topV 1)
  | .orImm d a _ => max (d.topV 1) (a.topV 1)
  | .xorImm d a _ => max (d.topV 1) (a.topV 1)
  | .shlImm d a _ => max (d.topV 1) (a.topV 1)
  | .shrImm d a _ => max (d.topV 1) (a.topV 1)
  | .movi d _ => d.topV 1
  | .add64 d a b => max (d.topV 2) (max (a.topV 2) (b.topV 2))
  | .sub64 d a b => max (d.topV 2) (max (a.topV 2) (b.topV 2))
  | .mul64 d a b => max (d.topV 2) (max (a.topV 2) (b.topV 2))
  | .lea _ d a b => max (d.topV 2) (max (a.topV 2) (b.topV 1))
  | .sextS8 d a => max (d.topV 2) (a.topV 1)
  | .sextS16 d a => max (d.topV 2) (a.topV 1)
  | .sextS32 d a => max (d.topV 2) (a.topV 1)
  | .zextN8 d a => max (d.topV 2) (a.topV 1)
  | .zextN16 d a => max (d.topV 2) (a.topV 1)
  | .zextN32 d a => max (d.topV 2) (a.topV 1)
  | .icmpEq _ a b => max (a.topV 1) (b.topV 1)
  | .icmpNe _ a b => max (a.topV 1) (b.topV 1)
  | .icmpLtS32 _ a b => max (a.topV 1) (b.topV 1)
  | .icmpLeS32 _ a b => max (a.topV 1) (b.topV 1)
  | .icmpGtS32 _ a b => max (a.topV 1) (b.topV 1)
  | .icmpGeS32 _ a b => max (a.topV 1) (b.topV 1)
  | .icmpLtN32 _ a b => max (a.topV 1) (b.topV 1)
  | .icmpLeN32 _ a b => max (a.topV 1) (b.topV 1)
  | .icmpGtN32 _ a b => max (a.topV 1) (b.topV 1)
  | .icmpGeN32 _ a b => max (a.topV 1) (b.topV 1)
  | .fcmpEqF32 _ a b => max (a.topV 1) (b.topV 1)
  | .fcmpNeF32 _ a b => max (a.topV 1) (b.topV 1)
  | .fcmpLtF32 _ a b => max (a.topV 1) (b.topV 1)
  | .fcmpLeF32 _ a b => max (a.topV 1) (b.topV 1)
  | .fcmpGtF32 _ a b => max (a.topV 1) (b.topV 1)
  | .fcmpGeF32 _ a b => max (a.topV 1) (b.topV 1)
  | .fcmpUnF32 _ a b => max (a.topV 1) (b.topV 1)
  | .fcmpOrdF32 _ a b => max (a.topV 1) (b.topV 1)
  | .pmovPv d => d.topV 1
  | .pmovVp a => a.topV 1
  | .voteBallot d _ => d.topV 1
  | .mfs d _ => d.topV 1
  | .mts _ a => a.topV 1
  | .clk d => d.topV 2
  | .faddF32 d a b => max (d.topV 1) (max (a.topV 1) (b.topV 1))
  | .faddF16x2 d a b => max (d.topV 1) (max (a.topV 1) (b.topV 1))
  | .faddBf16x2 d a b => max (d.topV 1) (max (a.topV 1) (b.topV 1))
  | .fsubF32 d a b => max (d.topV 1) (max (a.topV 1) (b.topV 1))
  | .fsubF16x2 d a b => max (d.topV 1) (max (a.topV 1) (b.topV 1))
  | .fsubBf16x2 d a b => max (d.topV 1) (max (a.topV 1) (b.topV 1))
  | .fmulF32 d a b => max (d.topV 1) (max (a.topV 1) (b.topV 1))
  | .fmulF16x2 d a b => max (d.topV 1) (max (a.topV 1) (b.topV 1))
  | .fmulBf16x2 d a b => max (d.topV 1) (max (a.topV 1) (b.topV 1))
  | .fminF32 d a b => max (d.topV 1) (max (a.topV 1) (b.topV 1))
  | .fminF16x2 d a b => max (d.topV 1) (max (a.topV 1) (b.topV 1))
  | .fminBf16x2 d a b => max (d.topV 1) (max (a.topV 1) (b.topV 1))
  | .fmaxF32 d a b => max (d.topV 1) (max (a.topV 1) (b.topV 1))
  | .fmaxF16x2 d a b => max (d.topV 1) (max (a.topV 1) (b.topV 1))
  | .fmaxBf16x2 d a b => max (d.topV 1) (max (a.topV 1) (b.topV 1))
  | .fabsF32 d a => max (d.topV 1) (a.topV 1)
  | .fabsF16x2 d a => max (d.topV 1) (a.topV 1)
  | .fabsBf16x2 d a => max (d.topV 1) (a.topV 1)
  | .fnegF32 d a => max (d.topV 1) (a.topV 1)
  | .fnegF16x2 d a => max (d.topV 1) (a.topV 1)
  | .fnegBf16x2 d a => max (d.topV 1) (a.topV 1)
  | .fdivF32 d a b => max (d.topV 1) (max (a.topV 1) (b.topV 1))
  | .fsqrtF32 d a => max (d.topV 1) (a.topV 1)
  | .frndF32 d a => max (d.topV 1) (a.topV 1)
  | .ffractF32 d a => max (d.topV 1) (a.topV 1)
  | .fmaF32 d a b c => max (d.toNat + 1) (max (a.toNat + 1) (max (b.toNat + 1) (c.toNat + 1)))
  | .fmsF32 d a b c => max (d.toNat + 1) (max (a.toNat + 1) (max (b.toNat + 1) (c.toNat + 1)))
  | .fnmaF32 d a b c => max (d.toNat + 1) (max (a.toNat + 1) (max (b.toNat + 1) (c.toNat + 1)))
  | .fclampF32 d a b c => max (d.toNat + 1) (max (a.toNat + 1) (max (b.toNat + 1) (c.toNat + 1)))
  | .fmaF16x2 d a b c => max (d.toNat + 1) (max (a.toNat + 1) (max (b.toNat + 1) (c.toNat + 1)))
  | .fmaBf16x2 d a b c => max (d.toNat + 1) (max (a.toNat + 1) (max (b.toNat + 1) (c.toNat + 1)))
  | .fmsF16x2 d a b c => max (d.toNat + 1) (max (a.toNat + 1) (max (b.toNat + 1) (c.toNat + 1)))
  | .fmsBf16x2 d a b c => max (d.toNat + 1) (max (a.toNat + 1) (max (b.toNat + 1) (c.toNat + 1)))
  | .frcpF32 d a _ => max (d.topV 1) (a.topV 1)
  | .frsqF32 d a _ => max (d.topV 1) (a.topV 1)
  | .fexp2F32 d a _ => max (d.topV 1) (a.topV 1)
  | .flog2F32 d a _ => max (d.topV 1) (a.topV 1)
  | .fsinF32 d a _ => max (d.topV 1) (a.topV 1)
  | .fcosF32 d a _ => max (d.topV 1) (a.topV 1)
  | .cvtF32S32 d a => max (d.topV 1) (a.topV 1)
  | .cvtF32N32 d a => max (d.topV 1) (a.topV 1)
  | .cvtS32F32 d a => max (d.topV 1) (a.topV 1)
  | .cvtN32F32 d a => max (d.topV 1) (a.topV 1)
  | .cvtF16F32 d a => max (d.topV 1) (a.topV 1)
  | .cvtF32F16 d a _ => max (d.topV 1) (a.topV 1)
  | .cvtBf16F32 d a => max (d.topV 1) (a.topV 1)
  | .cvtF32Bf16 d a _ => max (d.topV 1) (a.topV 1)
  | .cvtF16x2F32 d a b => max (d.topV 1) (max (a.topV 1) (b.topV 1))
  | .cvtBf16x2F32 d a b => max (d.topV 1) (max (a.topV 1) (b.topV 1))
  | .cvtF32S64 d a => max (d.topV 1) (a.topV 2)
  | .cvtS64F32 d a => max (d.topV 2) (a.topV 1)
  | .cvtkK8F32 d a _ _ => max (d.topV 1) (a.topV 1)
  | .cvtkF32K8 d a _ _ => max (d.topV 1) (a.topV 1)
  | .qntK8 d a _ _ => max (d.topV 1) (a.topV 2)
  | .qntS8 d a _ _ => max (d.topV 1) (a.topV 2)
  | .dqntK8 d a _ _ => max (d.topV 1) (a.topV 1)
  | .dqntS8 d a _ _ => max (d.topV 1) (a.topV 1)
  | .packB8 d a b => max (d.topV 1) (max (a.topV 1) (b.topV 1))
  | .packB16 d a b => max (d.topV 1) (max (a.topV 1) (b.topV 1))
  | .unpackS8 d a _ => max (d.topV 1) (a.topV 1)
  | .unpackN8 d a _ => max (d.topV 1) (a.topV 1)
  | .unpackS16 d a _ => max (d.topV 1) (a.topV 1)
  | .unpackN16 d a _ => max (d.topV 1) (a.topV 1)
  | .xget d a b => max (d.topV 1) (max (a.topV 1) (b.topV 1))
  | .xshiftUp d a b => max (d.topV 1) (max (a.topV 1) (b.topV 1))
  | .xshiftDn d a b => max (d.topV 1) (max (a.topV 1) (b.topV 1))
  | .xscanAddS32 d a => max (d.topV 1) (a.topV 1)
  | .xscanAddF32 d a => max (d.topV 1) (a.topV 1)
  | .xscanMinS32 d a => max (d.topV 1) (a.topV 1)
  | .xscanMaxS32 d a => max (d.topV 1) (a.topV 1)
  | .xscanMinF32 d a => max (d.topV 1) (a.topV 1)
  | .xscanMaxF32 d a => max (d.topV 1) (a.topV 1)
  | .xredAddS32 d a => max (d.topV 1) (a.topV 1)
  | .xredAddF32 d a => max (d.topV 1) (a.topV 1)
  | .xredMinS32 d a => max (d.topV 1) (a.topV 1)
  | .xredMaxS32 d a => max (d.topV 1) (a.topV 1)
  | .xredMinF32 d a => max (d.topV 1) (a.topV 1)
  | .xredMaxF32 d a => max (d.topV 1) (a.topV 1)
  | .xmatch d a => max (d.topV 1) (a.topV 1)
  | .xbcast d a => max (d.topV 1) (a.topV 1)
  | .xquadH d a => max (d.topV 1) (a.topV 1)
  | .xquadV d a => max (d.topV 1) (a.topV 1)
  | .xquadD d a => max (d.topV 1) (a.topV 1)
  | .tmovToRegister d t _ _ _ _ => max (d.topV 1) (32 * t.toNat + 32)
  | .tmovToSlice a t _ _ _ _ => max (a.topV 1) (32 * t.toNat + 32)
  | .ttr t => 32 * t.toNat + 32
  | .ldS8 _ d base x => max (d.toNat + 1) (max (base.topV 2) (idxTop base x))
  | .ldN8 _ d base x => max (d.toNat + 1) (max (base.topV 2) (idxTop base x))
  | .ldS16 _ d base x => max (d.toNat + 1) (max (base.topV 2) (idxTop base x))
  | .ldN16 _ d base x => max (d.toNat + 1) (max (base.topV 2) (idxTop base x))
  | .ldB32 _ d base x => max (d.toNat + 1) (max (base.topV 2) (idxTop base x))
  | .ldB64 _ d base x => max (d.toNat + 2) (max (base.topV 2) (idxTop base x))
  | .ldB128 _ d base x => max (d.toNat + 4) (max (base.topV 2) (idxTop base x))
  | .ldtB32 _ d base x => max (d.toNat + 1) (max (base.topV 1) (idxTop base x))
  | .ldtB64 _ d base x => max (d.toNat + 2) (max (base.topV 1) (idxTop base x))
  | .ldtB128 _ d base x => max (d.toNat + 4) (max (base.topV 1) (idxTop base x))
  | .vmvK8 _ d base x => max (d.toNat + 1) (max (base.topV 2) (idxTop base x))
  | .vmvBf16 _ d base x => max (d.toNat + 1) (max (base.topV 2) (idxTop base x))
  | .vmvF32 _ d base x => max (d.toNat + 1) (max (base.topV 2) (idxTop base x))
  | .stB8 d base x => max (d.topV 1) (max (base.topV 2) (idxTop base x))
  | .stB16 d base x => max (d.topV 1) (max (base.topV 2) (idxTop base x))
  | .stB32 d base x => max (d.topV 1) (max (base.topV 2) (idxTop base x))
  | .stB64 d base x => max (d.topV 2) (max (base.topV 2) (idxTop base x))
  | .stB128 d base x => max (d.topV 4) (max (base.topV 2) (idxTop base x))
  | .sttB32 d base x => max (d.topV 1) (max (base.topV 1) (idxTop base x))
  | .sttB64 d base x => max (d.topV 2) (max (base.topV 1) (idxTop base x))
  | .sttB128 d base x => max (d.topV 4) (max (base.topV 1) (idxTop base x))
  | .atomAddS32 _ d data base => max (d.toNat + 1) (max (data.toNat + 1) (base.topV 2))
  | .atomAddF32 _ d data base => max (d.toNat + 1) (max (data.toNat + 1) (base.topV 2))
  | .atomMinS32 _ d data base => max (d.toNat + 1) (max (data.toNat + 1) (base.topV 2))
  | .atomMinN32 _ d data base => max (d.toNat + 1) (max (data.toNat + 1) (base.topV 2))
  | .atomMaxS32 _ d data base => max (d.toNat + 1) (max (data.toNat + 1) (base.topV 2))
  | .atomMaxN32 _ d data base => max (d.toNat + 1) (max (data.toNat + 1) (base.topV 2))
  | .atomAndB32 _ d data base => max (d.toNat + 1) (max (data.toNat + 1) (base.topV 2))
  | .atomOrB32 _ d data base => max (d.toNat + 1) (max (data.toNat + 1) (base.topV 2))
  | .atomXorB32 _ d data base => max (d.toNat + 1) (max (data.toNat + 1) (base.topV 2))
  | .atomExchB32 _ d data base => max (d.toNat + 1) (max (data.toNat + 1) (base.topV 2))
  | .atomCasB32 _ d data base => max (d.toNat + 1) (max (data.toNat + 2) (base.topV 2))
  | .atomAddS64 _ d data base => max (d.toNat + 2) (max (data.toNat + 2) (base.topV 2))
  | .atomExchB64 _ d data base => max (d.toNat + 2) (max (data.toNat + 2) (base.topV 2))
  | .atomCasB64 _ d data base => max (d.toNat + 2) (max (data.toNat + 4) (base.topV 2))
  | .atomAddS32Noret data base => max (data.toNat + 1) (base.topV 2)
  | .atomAddF32Noret data base => max (data.toNat + 1) (base.topV 2)
  | .atomMinS32Noret data base => max (data.toNat + 1) (base.topV 2)
  | .atomMinN32Noret data base => max (data.toNat + 1) (base.topV 2)
  | .atomMaxS32Noret data base => max (data.toNat + 1) (base.topV 2)
  | .atomMaxN32Noret data base => max (data.toNat + 1) (base.topV 2)
  | .atomAndB32Noret data base => max (data.toNat + 1) (base.topV 2)
  | .atomOrB32Noret data base => max (data.toNat + 1) (base.topV 2)
  | .atomXorB32Noret data base => max (data.toNat + 1) (base.topV 2)
  | .atomAddS64Noret data base => max (data.toNat + 2) (base.topV 2)
  | .atomtAddS32 _ d data base => max (d.toNat + 1) (max (data.toNat + 1) (base.topV 1))
  | .atomtMinS32 _ d data base => max (d.toNat + 1) (max (data.toNat + 1) (base.topV 1))
  | .atomtMaxS32 _ d data base => max (d.toNat + 1) (max (data.toNat + 1) (base.topV 1))
  | .atomtExchB32 _ d data base => max (d.toNat + 1) (max (data.toNat + 1) (base.topV 1))
  | .atomtCasB32 _ d data base => max (d.toNat + 1) (max (data.toNat + 2) (base.topV 1))
  | .atomtAddF32 _ d data base => max (d.toNat + 1) (max (data.toNat + 1) (base.topV 1))
  | .rbset _ m => m.topV 1
  | .rbjoin _ m => m.topV 1
  | .tbar _ m => m.topV 1
  | .cbar _ m => m.topV 1
  | .gbar _ m => m.topV 1
  | .cvsign _ m _ => m.topV 1
  | .ringwait _ _ _ m => m.topV 1
  | .ringpass _ _ _ m => m.topV 1
  | .ovq d _ => d.topV 1
  | .talloc _ a _ => a.topV 1
  | .tpres d _ => d.topV 1
  | .cpy _ q _ _ => q.topV 4
  | .cpyg _ q _ => q.topV 4
  | .cpst _ q _ _ => q.topV 4
  | .cpfill _ a _ => a.topV 1
  | .msignReg _ v => v.toNat + 32
  | .msignSlice _ t _ _ _ => 32 * t.toNat + 32
  | .msignReReg _ v => v.toNat + 32
  | .msignReSlice _ t _ _ _ => 32 * t.toNat + 32
  | .accld v _ _ _ _ => v.toNat + 16
  | .accst v _ _ _ => v.toNat + 16
  | .bpush a b _ => max (a.toNat + 8) (b.topV 1)
  | .bpop d a b _ => max (d.toNat + 8) (max (a.topV 1) (b.topV 1))
  | .cont a b => max (a.toNat + 8) (b.topV 1)
  | .bflush b => b.topV 1
  | .bquery d b _ => max (d.topV 1) (b.topV 1)
  | .wgpush a b _ => max (a.toNat + 8) (b.topV 1)
  | .mesh d a b _ => max (d.topV 2) (max (a.topV 1) (b.topV 2))
  | .fseal d _ => d.topV 2
  | .fwait d a => max (d.topV 2) (a.topV 1)
  | .attr d a b _ => max (d.toNat + 1) (max (a.toNat + 8) (b.topV 1))
  | .attrD d a b _ => max (d.toNat + 1) (max (a.toNat + 8) (b.topV 1))
  | .bary d a _ => max (d.toNat + 1) (a.toNat + 8)
  | .smp d a b _ => max (d.toNat + 5) (max (a.toNat + 6) (b.topV 2))
  | .rldB32 _ d base x => max (d.toNat + 1) (max (base.topV 2) (idxTop base x))
  | .rldB64 _ d base x => max (d.toNat + 2) (max (base.topV 2) (idxTop base x))
  | .rldB128 _ d base x => max (d.toNat + 4) (max (base.topV 2) (idxTop base x))
  | .rstB32 d base x => max (d.topV 1) (max (base.topV 2) (idxTop base x))
  | .rstB64 d base x => max (d.topV 2) (max (base.topV 2) (idxTop base x))
  | .rstB128 d base x => max (d.topV 4) (max (base.topV 2) (idxTop base x))
  | .ratomAddS32 _ d base x => max (d.toNat + 1) (max (base.topV 2) (idxTop base x))
  | .ratomAddS64 _ d base x => max (d.toNat + 2) (max (base.topV 2) (idxTop base x))
  | .ratomExchB64 _ d base x => max (d.toNat + 2) (max (base.topV 2) (idxTop base x))
  | .ratomCasB64 _ d base x => max (d.toNat + 4) (max (base.topV 2) (idxTop base x))
  | .cwait _ d => d.topV 1
  | _ => 0

/-- A uniform instruction (R48, R145). -/
def uniformUnit : Instr → Bool
  | .add d a b => d.isG && a.isG && b.isG
  | .sub d a b => d.isG && a.isG && b.isG
  | .mul d a b => d.isG && a.isG && b.isG
  | .mulhS32 d a b => d.isG && a.isG && b.isG
  | .mulhN32 d a b => d.isG && a.isG && b.isG
  | .mad d a b => d.isG && a.isG && b.isG
  | .divS32 d a b => d.isG && a.isG && b.isG
  | .divN32 d a b => d.isG && a.isG && b.isG
  | .remS32 d a b => d.isG && a.isG && b.isG
  | .remN32 d a b => d.isG && a.isG && b.isG
  | .minS32 d a b => d.isG && a.isG && b.isG
  | .minN32 d a b => d.isG && a.isG && b.isG
  | .maxS32 d a b => d.isG && a.isG && b.isG
  | .maxN32 d a b => d.isG && a.isG && b.isG
  | .abs d a => d.isG && a.isG
  | .neg d a => d.isG && a.isG
  | .and d a b => d.isG && a.isG && b.isG
  | .or d a b => d.isG && a.isG && b.isG
  | .xor d a b => d.isG && a.isG && b.isG
  | .not d a => d.isG && a.isG
  | .shl d a b => d.isG && a.isG && b.isG
  | .shr d a b => d.isG && a.isG && b.isG
  | .sha d a b => d.isG && a.isG && b.isG
  | .rot d a b => d.isG && a.isG && b.isG
  | .bfeS32 d a b => d.isG && a.isG && b.isG
  | .bfeN32 d a b => d.isG && a.isG && b.isG
  | .bfi d a b => d.isG && a.isG && b.isG
  | .popc d a => d.isG && a.isG
  | .clz d a => d.isG && a.isG
  | .brev d a => d.isG && a.isG
  | .mov d a => d.isG && a.isG
  | .sel _ d a b => d.isG && a.isG && b.isG
  | .addImm d a _ => d.isG && a.isG
  | .mulImm d a _ => d.isG && a.isG
  | .andImm d a _ => d.isG && a.isG
  | .orImm d a _ => d.isG && a.isG
  | .xorImm d a _ => d.isG && a.isG
  | .shlImm d a _ => d.isG && a.isG
  | .shrImm d a _ => d.isG && a.isG
  | .movi d _ => d.isG
  | .add64 d a b => d.isG && a.isG && b.isG
  | .sub64 d a b => d.isG && a.isG && b.isG
  | .mul64 d a b => d.isG && a.isG && b.isG
  | .lea _ d a b => d.isG && a.isG && b.isG
  | .sextS8 d a => d.isG && a.isG
  | .sextS16 d a => d.isG && a.isG
  | .sextS32 d a => d.isG && a.isG
  | .zextN8 d a => d.isG && a.isG
  | .zextN16 d a => d.isG && a.isG
  | .zextN32 d a => d.isG && a.isG
  | .mfs d _ => d.isG
  | .clk d => d.isG
  | .gmov _ _ => true
  | .gadd _ _ _ => true
  | .gsub _ _ _ => true
  | .gmul _ _ _ => true
  | .gand _ _ _ => true
  | .gor _ _ _ => true
  | .gxor _ _ _ => true
  | .gshl _ _ _ => true
  | .gshr _ _ _ => true
  | .gsel _ _ _ => true
  | .gcmpS32 _ _ _ => true
  | .gcmpN32 _ _ _ => true
  | .gld _ _ _ => true
  | _ => false

/-! ## Prefixes (R51 to R55) -/

/-- The prefix column of the opcode map for a word: IMM, PRED, POL, RND, SAT, and whether IMM is required. -/
structure Accepts where
  imm : Bool
  pred : Bool
  pol : Bool
  rnd : Bool
  sat : Bool
  need : Bool
deriving DecidableEq, Repr

/-- The prefixes that an assigned instruction word accepts (R55). -/
def accepts (w : Word) : Accepts :=
  let no : Accepts := ⟨false, false, false, false, false, false⟩
  let p : Accepts := { no with pred := true }
  let op := fun (lo n : Nat) => (w.toNat >>> lo) % 2 ^ n
  match w.toNat / 2 ^ 27 with
  | 0 => let o := op 23 4
         { no with imm := o == 1 || o == 3 || o == 4, pred := (1 ≤ o && o ≤ 6) || o == 8 }
  | 1 => { no with imm := op 23 4 != 12 && w.getLsbD 10 }
  | 2 => let o := op 21 6
         { p with sat := o ≤ 2 || o == 5 || o == 14 || o == 15 }
  | 3 => { p with imm := true, sat := decide (op 24 3 ≤ 1) }
  | 4 => let o := op 21 6
         { p with rnd := o ≤ 8 || (21 ≤ o && o ≤ 23), sat := !(15 ≤ o && o ≤ 20) }
  | 5 => { p with rnd := op 24 3 != 3, sat := true }
  | 6 => let o := op 21 6
         { p with rnd := decide (o ≤ 11), sat := o ≤ 11 || o == 18 || o == 19 }
  | 8 => { no with pred := decide (op 21 6 ≤ 17) }
  | 10 => let o := op 23 4
          { p with imm := true, pol := decide (o ≤ 6), need := decide (10 ≤ o) }
  | 11 => { p with imm := true, pol := decide (op 23 4 ≤ 4) }
  | 12 => { p with imm := true }
  | 16 => let o := op 23 4
          { no with pol := 3 ≤ o && o ≤ 5 }
  | 17 => let o := op 23 4
          let b := o == 2 || o == 3 || o == 10
          { no with imm := b, need := b }
  | 18 => let o := op 23 4
          let b := o == 3 || o == 5
          { no with imm := b, need := b }
  | 20 => let o := op 24 3
          { no with pred := o == 0 || o == 2 || o == 5 }
  | 22 => p
  | 23 => let b := decide (op 23 4 ≤ 9)
          { no with imm := b, pred := b }
  | 25 => p
  | 26 => p
  | _ => no

/-- The instruction accepts some MOD field (R52). -/
def Accepts.anyMod (a : Accepts) : Bool := a.pred || a.pol || a.rnd || a.sat

/-- The MOD enables only fields that the instruction accepts (R52 items 2 and 4). -/
def Accepts.modOk (a : Accepts) (m : Mod) : Bool :=
  a.anyMod && (a.pred || (m.pred == 7#3 && !m.neg)) && (a.pol || !m.ce) && (a.rnd || !m.re) && (a.sat || !m.sat)

/-- The IMM bits lie in the range of the instruction's format (R52 item 5, R54): formats I and G, and B. -/
def immRange (w : Word) (x : BitVec 24) : Bool :=
  match w.toNat / 2 ^ 27 with
  | 0 => decide (x.toNat < 2 ^ 13)
  | 1 => decide (x.toNat < 2 ^ 22)
  | 3 => decide (x.toNat < 2 ^ 22)
  | _ => true

/-- The word is a prefix (R51). -/
def isPrefix (w : Word) : Bool := w.toNat / 2 ^ 27 == 28 || w.toNat / 2 ^ 27 == 29

/-! ## Classes (R42, R43) -/

/-- The major classes of the control set (R42). -/
def controlSet : List Nat := [0, 1, 2, 3, 26, 8, 9, 13, 14, 15, 24, 28, 29]

/-- The major classes that an ECLASS permits (R42). -/
def permits (eclass cls : Nat) : Bool :=
  controlSet.contains cls || match eclass with
    | 1 => [4, 5, 25, 6, 7, 10, 11, 12].contains cls
    | 2 => [17, 18].contains cls
    | 3 => [16, 23].contains cls
    | 4 => [4, 5, 25, 6, 7, 10, 11, 12, 20, 21, 22].contains cls
    | _ => false

/-- The ECLASS values that a role may issue (R43). -/
def Role.permits (r : Role) (eclass : Nat) : Bool :=
  match r with
  | .vector => eclass == 0 || eclass == 1 || eclass == 4
  | .matrix => eclass == 0 || eclass == 2
  | .copy => eclass == 0 || eclass == 3

/-- The transfer words (R39). -/
def isTransfer : Instr → Bool
  | .bra _ => true
  | .brx _ => true
  | .call _ => true
  | .callx _ => true
  | .ret => true
  | .exit => true
  | .kill => true
  | .rti => true
  | .cont _ _ => true
  | _ => false

/-! ## Operand values that need the prefix, the format slots or REGS (R44 items 2.2 and 2.5) -/

/-- A format slot suits an instruction (R204). -/
def slotSuits (fs : List FmtSlot) (n : BitVec 3) (fmt : Nat) (scaled : Bool) : Bool :=
  match fs[n.toNat]? with
  | some x => x.fmt == fmt && (x.scale == 0 || (scaled && x.scale == 1))
  | none => false

/-- Bits [hi:lo] of a payload. -/
def payload (x : Option (BitVec 24)) (hi lo : Nat) : Nat := field ((x.map fun y => y.toNat).getD 0) hi lo

/-- The `VMV` payload is in range (R310). -/
def vmvOk (d : VReg) (x : Option (BitVec 24)) : Bool :=
  payload x 23 14 == 0 && decide (payload x 5 0 + payload x 9 6 ≤ 63) && decide (d.toNat + payload x 13 10 ≤ 63)

/-- The operand values that depend on the unit's IMM or on the grid's format slots (R174, R204, R310, R348, R358, R361). -/
def operandsOk (fs : List FmtSlot) (x : Option (BitVec 24)) : Instr → Bool
  | .shlImm _ _ i => decide ((immValue x i).toNat < 32)
  | .shrImm _ _ i => decide ((immValue x i).toNat < 32)
  | .cvtkK8F32 _ _ n _ => slotSuits fs n 3 false
  | .cvtkF32K8 _ _ n _ => slotSuits fs n 3 false
  | .qntK8 _ _ n _ => slotSuits fs n 3 true
  | .dqntK8 _ _ n _ => slotSuits fs n 3 true
  | .qntS8 _ _ n _ => slotSuits fs n 4 true
  | .dqntS8 _ _ n _ => slotSuits fs n 4 true
  | .vmvK8 _ d _ _ => vmvOk d x
  | .vmvBf16 _ d _ _ => vmvOk d x
  | .vmvF32 _ d _ _ => vmvOk d x
  | .mbind _ _ _ _ _ => payload x 23 15 == 0 && payload x 14 9 % 2 == 0
  | .mbindR _ _ _ _ _ => payload x 23 15 == 0 && payload x 14 9 % 2 == 0
  | .mmac _ _ _ => payload x 23 12 == 0 && payload x 5 0 % 2 == 0
  | .mdrainTHandle _ _ _ _ => payload x 23 11 == 0
  | .mdrainTMemory _ _ _ _ => payload x 23 9 == 0 && payload x 8 3 % 4 == 0
  | _ => true

/-- One above the highest v register of the unit, a `VMV` payload's included (R44 item 2.5, R310). -/
def unitTop (x : Option (BitVec 24)) (i : Instr) : Nat :=
  let v := fun (d : VReg) => max (topReg i) (max (payload x 5 0 + payload x 9 6 + 1) (d.toNat + payload x 13 10 + 1))
  match i with
  | .vmvK8 _ d _ _ => v d
  | .vmvBf16 _ d _ _ => v d
  | .vmvF32 _ d _ _ => v d
  | _ => topReg i

/-! ## The check of a clause (R44) -/

/-- The prefixes seen before a word in its unit: the IMM and the MOD. -/
abbrev Seen := Option (BitVec 24) × Option Mod

/-- The word that follows a word's prefixes: the instruction of the unit that a prefix belongs to; `none` at the end. -/
def unitWord : List Word → Option Word
  | [] => none
  | w :: r => if isPrefix w then unitWord r else some w

/-- A prefix's defects (R51, R52): the lowest code. `rest` is what follows it in the clause. -/
noncomputable def prefixDefect (w : Word) (seen : Seen) (rest : List Word) : Option (BitVec 8) :=
  let after := (unitWord rest).filter fun x => (rawDecode x).isSome
  if bits w 27 5 = 28#5 then
    match immOfWord w with
    | none => some 0x01#8
    | some x =>
      if rest.isEmpty || seen.1.isSome || after.any (fun i => !(accepts i).imm || !immRange i x) then some 0x03#8 else none
  else
    match modOfWord w with
    | none => some 0x01#8
    | some m => if rest.isEmpty || seen.2.isSome || after.any (fun i => !(accepts i).modOk m) then some 0x03#8 else none

/-- An instruction word's defects: the lowest code (R44). `last` says that it is the instruction of the clause's last
issue unit (R39): at most prefixes follow it. -/
noncomputable def wordDefect (eclass regs : Nat) (fs : List FmtSlot) (w : Word) (seen : Seen) (last : Bool) : Option (BitVec 8) :=
  match decodeWord w with
  | .error .header => some 0x02#8
  | .error _ => some 0x01#8
  | .ok i =>
    if ((accepts w).need && seen.1.isNone) || !operandsOk fs seen.1 i then some 0x01#8
    else if !permits eclass (w.toNat / 2 ^ 27) || (isTransfer i && !last) then some 0x02#8
    else if unitTop seen.1 i > regs then some 0x05#8
    else none

/-- The first defect of the body words from an address on (R44 item 2): its code and address. -/
noncomputable def bodyDefect (eclass regs : Nat) (fs : List FmtSlot) : List Word → Seen → Word → Option (BitVec 8 × Word)
  | [], _, _ => none
  | w :: r, seen, a =>
    if isPrefix w then
      match prefixDefect w seen r with
      | some c => some (c, a)
      | none => bodyDefect eclass regs fs r
          (if bits w 27 5 = 28#5 then (immOfWord w, seen.2) else (seen.1, modOfWord w)) (a + 4#32)
    else
      match wordDefect eclass regs fs w seen (unitWord r).isNone with
      | some c => some (c, a)
      | none => bodyDefect eclass regs fs r (none, none) (a + 4#32)

/-- The words of a copy from an address on. -/
def Copy.words? (k : Copy) (start a : Nat) : Nat → List Word
  | 0 => []
  | n + 1 => match k.word? start a with
    | some w => w :: k.words? start (a + 4) n
    | none => []

/-- The header's defects (R44 item 1). -/
def headerOk (k : Copy) (start a : Nat) (w : Word) (role : Role) : Bool :=
  let h := headerOfWord w
  bits w 17 10 == 0#10 && decide (h.eclass.toNat ≤ 4) && h.count != 0#4 && role.permits h.eclass.toNat
    && decide (a + 4 * h.count.toNat < start + k.slots * 4096)

/-- The first defect of the clause whose header lies at an address, for a role, REGS and format slots (R44): its code and the
address of the word. -/
noncomputable def clauseDefect (k : Copy) (start : Nat) (a : Word) (w : Word) (role : Role) (regs : Nat) (fs : List FmtSlot) :
    Option (BitVec 8 × Word) :=
  if !headerOk k start a.toNat w role then some (0x02#8, a)
  else bodyDefect (headerOfWord w).eclass.toNat regs fs (k.words? start (a.toNat + 4) (headerOfWord w).count.toNat)
    (none, none) (a + 4#32)

/-! ## Issue units -/

/-- A unit from an address on: its prefixes, its instruction word and the address of that word; at most two prefixes. -/
def unitFrom (k : Copy) (start : Nat) : Nat → Word → Seen → Option (Seen × Word × Word)
  | 0, _, _ => none
  | n + 1, a, seen =>
    match k.word? start a.toNat with
    | none => none
    | some w =>
      if bits w 27 5 = 28#5 then unitFrom k start n (a + 4#32) (immOfWord w, seen.2)
      else if bits w 27 5 = 29#5 then unitFrom k start n (a + 4#32) (seen.1, modOfWord w)
      else some (seen, w, a)

/-- The first word of the unit that holds the word at an address: a unit is resumed as one (R50, R51). -/
def unitStart (k : Copy) (start : Nat) : Nat → Word → Word
  | 0, a => a
  | n + 1, a =>
    match k.word? start (a - 4#32).toNat with
    | some w => if isPrefix w then unitStart k start n (a - 4#32) else a
    | none => a

end Sys2Proof.Machine
end

