-- ==== Sys2Proof/Machine/Trans.lean ====
section
/-! DEFINITION. The transcendental instructions (R198 to R200): fixed-point series of 256 bits, rounded once. -/

namespace Sys2Proof.Machine

/-- Fraction bits of the fixed point. -/
def fxBits : Nat := 256
/-- One, in fixed point. -/
def fxOne : Nat := 2 ^ fxBits
/-- A fixed-point product. -/
def fxMul (a b : Nat) : Nat := a * b / fxOne

/-- The sum of one / (k 2^k) for k from 1 to n: ln 2. -/
def ln2Sum : Nat → Nat
  | 0 => 0
  | k + 1 => ln2Sum k + fxOne / ((k + 1) * 2 ^ (k + 1))
def fxLn2 : Nat := ln2Sum 260

/-- The arctangent of 1/q: terms n down from index i, with p = q^(2i+1). -/
def atanInv (q : Nat) : Nat → Nat → Nat → Int
  | 0, _, _ => 0
  | n + 1, i, p => sgnInt (i % 2 == 1) (fxOne / (p * (2 * i + 1)))
      + atanInv q n (i + 1) (p * q * q)
/-- π by Machin's formula. -/
def fxPi : Nat := (16 * atanInv 5 60 0 5 - 4 * atanInv 239 20 0 239).toNat

/-- The sum of t^k / k! from a term on. -/
def expSum (t : Nat) : Nat → Nat → Nat → Nat
  | 0, _, _ => 0
  | n + 1, k, x => x + expSum t n (k + 1) (fxMul x t / (k + 1))

/-- The alternating sum of t^(2k+1) / (2k+1)! from a term on. -/
def sinSum (t : Nat) : Nat → Nat → Nat → Int
  | 0, _, _ => 0
  | n + 1, k, x => (x : Int) - sinSum t n (k + 2) (fxMul (fxMul x t) t / ((k + 1) * (k + 2)))

/-- The sum of z^(2k+1) / (2k+1) from a term on: half of ln ((1+z)/(1−z)). -/
def atanhSum (z : Nat) : Nat → Nat → Nat → Nat
  | 0, _, _ => 0
  | n + 1, k, x => x / k + atanhSum z n (k + 2) (fxMul (fxMul x z) z)

/-- An irrational value: the fixed-point magnitude with a sticky bit. -/
def exFx (neg : Bool) (x : Nat) (e : Int) : Ex := .num neg (2 * x + 1) (e - fxBits - 1)

/-- 2^x of a finite nonzero x (R199). -/
def exExp2 (neg : Bool) (m : Nat) (e : Int) : Ex :=
  let big := Nat.log2 m + e ≥ 8
  if big then (if neg then .num false 1 (-200) else .num false 1 200)
  else
    let u := (-e).toNat
    let x := sgnInt neg (m * 2 ^ e.toNat)
    let n := x / 2 ^ u
    let r := (x - n * 2 ^ u).toNat
    if r = 0 then .num false 1 n
    else exFx false (expSum (fxMul (r * fxOne / 2 ^ u) fxLn2) 80 0 fxOne) n

/-- log2 of a finite positive value (R199). -/
def exLog2 (m : Nat) (e : Int) : Ex :=
  let k := Nat.log2 m
  let ex : Int := e + k
  let y := m * fxOne / 2 ^ k
  if y = fxOne then exOfInt ex 0 false
  else
    let z := (y - fxOne) * fxOne / (y + fxOne)
    let l := 2 * atanhSum z 90 1 z * fxOne / fxLn2
    let v : Int := ex * fxOne + l
    exFx (decide (v < 0)) v.natAbs 0

/-- sin(2π r / 2^u) for 0 ≤ r < 2^u; a zero is +0 (R199). -/
def exSinTurn (r u : Nat) : Ex :=
  let h := 2 ^ u
  let neg := 2 * r ≥ h
  let a := if 2 * r ≥ h then 2 * r - h else 2 * r
  -- a / 2^(u+1) of a turn, below one half
  let b := if 2 * a > h then h - a else a
  if b = 0 then .num false 0 0
  else if 2 * b = h then .num neg 1 0
  else
    let t := fxMul (2 * fxPi) (b * fxOne / (2 * h))
    exFx neg (sinSum t 80 1 t).toNat 0

/-- The fraction of a turn of a finite magnitude: r / 2^u. -/
def turnOf (m : Nat) (e : Int) : Nat × Nat :=
  let u := (-e).toNat
  if 0 ≤ e then (0, 0) else (m % 2 ^ u, u)

/-- The result of a transcendental (R199, R200): rounded in mode 0, with OF and UF. -/
def trResult : Ex × FFlags → Word × FFlags
  | (x, fl) =>
    let (b, rf) := fp32.result 0#2 false x
    let nz := match x with
      | .num _ m _ => m != 0
      | _ => false
    let uf := nz && decide (b % 2 ^ 31 < 2 ^ 23)
    (BitVec.ofNat 32 b, fl ||| (rf &&& flagOF) ||| (if uf then flagUF else 0#6))

def trRcp : Ex → Ex × FFlags := fun x => exDiv (.num false 1 0) x
def trRsq : Ex → Ex × FFlags
  | .nan => (.nan, 0#6)
  | .inf neg => if neg then (.nan, flagIV) else (.num false 0 0, 0#6)
  | .num neg m e =>
    if m = 0 then (.inf neg, flagDZ)
    else if neg then (.nan, flagIV)
    else
      let (m, e) := if e % 2 = 0 then (m, e) else (2 * m, e - 1)
      let n := 2 ^ 160 / m
      let r := isqrt n
      (.num false (2 * r + if r * r * m = 2 ^ 160 then 0 else 1) (-(e / 2) - 81), 0#6)
def trExp2 : Ex → Ex × FFlags
  | .nan => (.nan, 0#6)
  | .inf neg => (if neg then .num false 0 0 else .inf false, 0#6)
  | .num neg m e => (if m = 0 then .num false 1 0 else exExp2 neg m e, 0#6)
def trLog2 : Ex → Ex × FFlags
  | .nan => (.nan, 0#6)
  | .inf neg => if neg then (.nan, flagIV) else (.inf false, 0#6)
  | .num neg m e => if m = 0 then (.inf true, flagDZ) else if neg then (.nan, flagIV) else (exLog2 m e, 0#6)
def trSin : Ex → Ex × FFlags
  | .nan => (.nan, 0#6)
  | .inf _ => (.nan, flagIV)
  | .num neg m e =>
    let (r, u) := turnOf m e
    (match exSinTurn r u with
      | .num n k q => if k = 0 then .num neg 0 0 else .num (xor n neg) k q
      | x => x, 0#6)
def trCos : Ex → Ex × FFlags
  | .nan => (.nan, 0#6)
  | .inf _ => (.nan, flagIV)
  | .num _ m e =>
    let (r, u) := turnOf m e
    (exSinTurn ((4 * r + 2 ^ u) % (4 * 2 ^ u)) (u + 2), 0#6)

/-- A transcendental unit (R198): the enabled fault at issue (R190), else one result through the token. -/
def State.transc (s : State) (sb : BitVec 3) (d a : Opnd) (f : Ex → Ex × FFlags) : Host.Outcome State Fault Refusal :=
  s.perThread fun st s t th =>
    match s.group? st.grp with
    | none => .ok s
    | some g =>
      let (w, fl) := trResult (f (val32 (rd g th a)))
      match fpFault th fl with
      | some c => .plain s c
      | none => s.issueResult st t sb (.words d [w] fl)

/-- `FRCP_F32` (R198 to R200). -/
def execFrcpF32 (d a : Opnd) (sb : BitVec 3) (s : State) : Host.Outcome State Fault Refusal := s.transc sb d a trRcp

/-- `FRSQ_F32` (R198 to R200). -/
def execFrsqF32 (d a : Opnd) (sb : BitVec 3) (s : State) : Host.Outcome State Fault Refusal := s.transc sb d a trRsq

/-- `FEXP2_F32` (R198 to R200). -/
def execFexp2F32 (d a : Opnd) (sb : BitVec 3) (s : State) : Host.Outcome State Fault Refusal := s.transc sb d a trExp2

/-- `FLOG2_F32` (R198 to R200). -/
def execFlog2F32 (d a : Opnd) (sb : BitVec 3) (s : State) : Host.Outcome State Fault Refusal := s.transc sb d a trLog2

/-- `FSIN_F32` (R198 to R200). -/
def execFsinF32 (d a : Opnd) (sb : BitVec 3) (s : State) : Host.Outcome State Fault Refusal := s.transc sb d a trSin

/-- `FCOS_F32` (R198 to R200). -/
def execFcosF32 (d a : Opnd) (sb : BitVec 3) (s : State) : Host.Outcome State Fault Refusal := s.transc sb d a trCos

end Sys2Proof.Machine
end

