-- ==== Sys2Proof/Machine/Shade.lean ====
section
/-! DEFINITION. Attributes (R401 to R403) and sampling (R404 to R407): the instructions, and how their results are
performed. -/

namespace Sys2Proof.Machine

/-! ## Engine reads of several tables -/

/-- A unit's reads for one result, in turn: the machine, and the timestamp that they have reached (R293 item 2). -/
structure UnitRun where
  s : State
  pts : Nat

/-- A read of an engine: its bytes, a page that is waited for, or a code at an address. -/
inductive ReadRes where
  | ok (b : List Byte)
  | wait
  | fault (code : BitVec 8) (va : Nat)
deriving DecidableEq, Repr

/-- A read of a table by the attribute engine or the sampler (R268, R278), for engine operation `eng`. -/
def UnitRun.bytes (x : UnitRun) (core ctx eng va n : Nat) : UnitRun × ReadRes :=
  match x.s.engReadAt (some core) ctx eng va n .unitRead x.pts with
  | (s, .ok _, b, p) => (⟨s, p⟩, .ok b)
  | (s, .fault c a, _) => (⟨s, x.pts⟩, .fault c a)
  | (s, .wait _, _) => (⟨s, x.pts⟩, .wait)

/-- What follows a read that gives its bytes. -/
def UnitRun.andThen {α : Type} (x : UnitRun × ReadRes) (wait : α) (fault : BitVec 8 → Nat → α) (f : UnitRun → List Byte → UnitRun × α) :
    UnitRun × α :=
  match x with
  | (s, .ok b) => f s b
  | (s, .wait) => (s, wait)
  | (s, .fault c va) => (s, fault c va)

/-- Several reads, in order: their bytes. -/
def UnitRun.reads (x : UnitRun) (core ctx eng n : Nat) : List Nat → UnitRun × (List (List Byte) ⊕ ReadRes)
  | [] => (x, .inl [])
  | va :: r =>
    match x.bytes core ctx eng va n with
    | (x, .ok b) =>
      (match x.reads core ctx eng n r with
        | (x, .inl l) => (x, .inl (b :: l))
        | y => y)
    | (x, e) => (x, .inr e)

/-! ## Barycentrics (R403) -/

/-- λ, its x slopes and its y slopes, each of three vertices. -/
structure Bary where
  lam : List Ex
  dx : List Ex
  dy : List Ex
deriving DecidableEq, Repr

/-- (y_j w_k − y_k w_j) and the like, exact. -/
def cross (a b c d : Ex) : Ex := exSub (exProd a b) (exProd c d)

/-- q_i and the slopes gx_i, gy_i, on the integer path: vertex i, and its j and k snapped. -/
def intPath (v : Vtx) (j k : SVtx) (px py : Nat) : Ex × Ex × Ex :=
  (divR (exInt (edgeFn j k (256 * px + 128) (256 * py + 128))) v.w, divR (exInt (256 * (j.y - k.y))) v.w,
   divR (exInt (256 * (k.x - j.x))) v.w)

/-- The same on the homogeneous path. -/
def homPath (r : FrameRec) (j k : Vtx) (px py : Nat) : Ex × Ex × Ex :=
  let half := fun (p : Nat) => Ex.num false (2 * p + 1) (-1)
  let nx := divR (exSub (half px) (val32 r.ox)) (val32 r.sx)
  let ny := divR (exSub (half py) (val32 r.oy)) (val32 r.sy)
  let cy := cross j.y k.w k.y j.w
  let cx := cross k.x j.w j.x k.w
  (addR (exAdd 0#2 (exProd cy nx) (exProd cx ny)).1 (cross j.x k.y k.x j.y), divR cy (val32 r.sx), divR cx (val32 r.sy))

/-- The barycentrics of a pixel (R403); `none` where s is 0 or a NaN. -/
def baryOf (r : FrameRec) (sv : Option (List SVtx)) (v : List Vtx) (px py : Nat) : Option Bary :=
  let q := match sv, v with
    | some [a, b, c], [x, y, z] => [intPath x b c px py, intPath y c a px py, intPath z a b px py]
    | _, [a, b, c] => [homPath r b c px py, homPath r c a px py, homPath r a b px py]
    | _, _ => []
  let sum := fun (f : Ex × Ex × Ex → Ex) => match q with
    | [a, b, c] => addR (addR (f a) (f b)) (f c)
    | _ => .nan
  let s := sum fun x => x.1
  let zero := match s with
    | .num _ m _ => m == 0
    | .nan => true
    | _ => false
  if zero then none
  else
    let sx := sum fun x => x.2.1
    let sy := sum fun x => x.2.2
    let lam := q.map fun x => divR x.1 s
    let slope := fun (g l t : Ex) => divR (fmaR (exNeg l) t g) s
    some ⟨lam, (q.zip lam).map fun (x, l) => slope x.2.1 l sx, (q.zip lam).map fun (x, l) => slope x.2.2 l sy⟩

/-- An attribute's value, or a derivative of it (R403). -/
def interp (w a : List Ex) : Ex :=
  match w, a with
  | [l0, l1, l2], [a0, a1, a2] => fmaR l2 a2 (fmaR l1 a1 (mulR l0 a0))
  | _, _ => .nan

/-- The canonical NaN (R69). -/
def nan32 : Word := BitVec.ofNat 32 fp32.nan

/-! ## Attribute results (R401, R402) -/

/-- How a result of the frame's engines comes out: its words, a wait, or the fault to deliver. -/
inductive UnitRes where
  | ok (ws : List Word)
  | wait
  | fault (code : BitVec 8) (va : Nat)
deriving DecidableEq, Repr

def UnitRes.ofRead : ReadRes → UnitRes
  | .fault c va => .fault c va
  | _ => .wait

/-- Count of words that an attribute instruction writes (R402): op 0 `ATTR`, 1 `ATTR_D`, 2 `BARY`. -/
def attrCount (op : Nat) (sel : Word) : Nat := if op = 2 then 3 else (field sel.toNat 11 8 + 1) * if op = 1 then 3 else 1

/-- The vertices snapped, where the integer path applies (R403). -/
def UnitRun.snapped (x : UnitRun) (r : FrameRec) (v : List Vtx) : UnitRun × Option (List SVtx) :=
  if v.all r.whole then
    let (s, l) := v.foldl (fun (acc : State × List SVtx) a => let (s, y) := acc.1.snapVtx r a; (s, acc.2 ++ [y])) (x.s, [])
    (⟨s, x.pts⟩, some l)
  else (x, none)

/-- The words of an attribute instruction (R401 to R403), from the record, the selector and the tables, read at `pts` or later. -/
def State.attrResult (s : State) (pts core ctx eng op : Nat) (rec : List Word) (sel : Word) : UnitRun × UnitRes :=
  let x : UnitRun := ⟨s, pts⟩
  let w := fun (i : Nat) => rec.getD i 0#32
  let ident : BitVec 64 := w 2 ++ w 1
  let n := field sel.toNat 11 8 + 1
  let woff := field sel.toNat 7 0
  let nans := UnitRes.ok (List.replicate (attrCount op sel) nan32)
  let bad := UnitRes.fault 0x11#8
  if op ≠ 2 && sel.toNat ≥ 2 ^ 12 then (x, bad 0)
  else if ident = BitVec.allOnes 64 then (x, nans)
  else
    UnitRun.andThen (x.bytes core ctx eng (w 5 ++ w 4).toNat 64) .wait .fault fun x fb =>
      let fr := frameOf fb
      UnitRun.andThen (x.bytes core ctx eng (fr.cltab + 32 * (ident.extractLsb' 8 32).toNat) 32) .wait .fault fun x ce =>
        let tri := (ident.extractLsb' 0 8).toNat
        let stride := fld ce 0x18 2
        if tri ≥ fld ce 0x1B 1 || (op ≠ 2 && decide (woff + n > stride / 4)) then (x, bad 0)
        else UnitRun.andThen (x.bytes core ctx eng (fld ce 0x08 8 + 4 * tri) 4) .wait .fault fun x tb =>
          let is := (tb.take 3).map BitVec.toNat
          if is.any fun i => decide (i ≥ fld ce 0x1A 1) then (x, bad 0)
          else match x.reads core ctx eng 16 (is.map fun i => fld ce 0x00 8 + 16 * i) with
            | (x, .inr r) => (x, .ofRead r)
            | (x, .inl vb) =>
              let v := vb.map vtxOf
              let (x, sv) := x.snapped fr v
              match baryOf fr sv v (field (w 0).toNat 15 0) (field (w 0).toNat 31 16) with
              | none => (x, nans)
              | some b =>
                if op = 2 then (x, .ok (b.lam.map word32))
                else match x.reads core ctx eng (4 * n) (is.map fun i => fld ce 0x10 8 + stride * i + 4 * woff) with
                  | (x, .inr r) => (x, .ofRead r)
                  | (x, .inl ab) =>
                    let col := fun (l : List Ex) => (List.range n).map fun k =>
                      word32 (interp l (ab.map fun a => val32 (BitVec.ofNat 32 (fld a (4 * k) 4))))
                    (x, .ok (col b.lam ++ if op = 1 then col b.dx ++ col b.dy else []))

/-- The issue of an attribute instruction (R402): the span, then one result through the token, its registers read now. An
engine command (R293 item 1). -/
def State.attrUnit (s : State) (op : Nat) (d a : VReg) (b : Option Opnd) (sb : BitVec 3) : Host.Outcome State Fault Refusal :=
  s.perThread fun st s t th =>
    match s.group? st.grp with
    | none => .ok s
    | some g =>
      let sel := (b.map fun o => rd g th o).getD 0#32
      let regs := ((s.grid? g.grid).map fun x => x.lr.regs).getD 64
      if d.toNat + attrCount op sel > min 64 regs then .plain s 0x05#8
      else if !g.sq.isEmpty || !s.hasRoom st.grp sb.toNat then .stop s
      else .ok (s.addResult st.grp t (some sb.toNat) st.unit (.attr op (mgets th.v a.toNat 8) sel (.v d)) true).2

/-- `ATTR` (R402, R403). -/
def execAttr (d a : VReg) (b : Opnd) (sb : BitVec 3) (s : State) : Host.Outcome State Fault Refusal := s.attrUnit 0 d a (some b) sb

/-- `ATTR_D` (R402, R403). -/
def execAttrD (d a : VReg) (b : Opnd) (sb : BitVec 3) (s : State) : Host.Outcome State Fault Refusal := s.attrUnit 1 d a (some b) sb

/-- `BARY` (R402, R403). -/
def execBary (d a : VReg) (sb : BitVec 3) (s : State) : Host.Outcome State Fault Refusal := s.attrUnit 2 d a none sb

/-! ## Textures (R404) -/

/-- A texture descriptor. -/
structure Tex where
  base : Nat
  width : Nat
  height : Nat
  levels : Nat
  fmt : Nat
  filter : Nat
  wrap : Nat
  bias : Word
  resmap : Nat
deriving DecidableEq, Repr

/-- A texture descriptor from its 64 bytes; `none` where a reserved bit is set or a field is out of range (R404, R407). -/
def texOf (b : List Byte) : Option Tex :=
  let t : Tex := { base := fld b 0 8, width := fld b 8 2, height := fld b 0x0A 2, levels := fld b 0x0C 1, fmt := fld b 0x0D 1,
                   filter := fld b 0x0E 1, wrap := fld b 0x0F 1, bias := BitVec.ofNat 32 (fld b 0x10 4), resmap := fld b 0x18 8 }
  if t.base % 256 == 0 && decide (1 ≤ t.width ∧ t.width ≤ 16384) && decide (1 ≤ t.height ∧ t.height ≤ 16384) &&
      decide (1 ≤ t.levels ∧ t.levels ≤ min 15 (1 + Nat.log2 (max t.width t.height))) && decide (t.fmt ≤ 4) && decide (t.filter ≤ 2) &&
      decide (t.wrap < 4) && finite32 t.bias && zeros b 0x14 4 && zeros b 0x20 32 then some t
  else none

/-- Bytes of a texel. -/
def Tex.size (t : Tex) : Nat := if t.fmt = 3 then 8 else 4
def Tex.w (t : Tex) (l : Nat) : Nat := max 1 (t.width / 2 ^ l)
def Tex.h (t : Tex) (l : Nat) : Nat := max 1 (t.height / 2 ^ l)

/-- The address of a level. -/
def Tex.levelAt (t : Tex) : Nat → Nat
  | 0 => t.base
  | l + 1 => t.levelAt l + (t.w l * t.h l * t.size + 255) / 256 * 256

/-! ## Texels (R406) -/

/-- The fifth root, floored, bit by bit from bit `i − 1` down. -/
def root5From (n : Nat) : Nat → Nat → Nat
  | 0, r => r
  | i + 1, r => if (r + 2 ^ i) ^ 5 ≤ n then root5From n i (r + 2 ^ i) else root5From n i r

/-- The sRGB-to-linear function of IEC 61966-2-1 at c / 255: ((c/255 + 0.055) / 1.055)^2.4 above 0.04045, with a sticky
bit. -/
def srgb (c : Nat) : Ex :=
  if c ≤ 10 then (exDiv (exInt (100 * c)) (exInt (255 * 1292))).1
  else
    let p := (1000 * c + 14025) ^ 12
    let q := 269025 ^ 12
    let r := root5From (p * 2 ^ 320 / q) 65 0
    .num false (2 * r + if r ^ 5 * q = p * 2 ^ 320 then 0 else 1) (-65)

/-- The four components of a texel's bytes. -/
def Tex.texel (t : Tex) (b : List Byte) : List Ex :=
  let c := fun (i : Nat) => fld b i 1
  let unorm := fun (i : Nat) => divR (exInt (c i)) (exInt 255)
  let half := fun (i : Nat) => Fmt.decode fp16 (fld b (2 * i) 2)
  match t.fmt with
  | 0 => [unorm 0, unorm 1, unorm 2, unorm 3]
  | 1 => [r32 (srgb (c 0)), r32 (srgb (c 1)), r32 (srgb (c 2)), unorm 3]
  | 2 => [half 0, half 1, exInt 0, exInt 1]
  | 3 => [half 0, half 1, half 2, half 3]
  | _ => [val32 (BitVec.ofNat 32 (fld b 0 4)), exInt 0, exInt 0, exInt 1]

/-- How a texel or map access comes out: bytes, a page with V = 0, or a refusal (R407). -/
inductive TexRes where
  | ok (b : List Byte)
  | absent
  | refused
deriving DecidableEq, Repr

/-- A texel or map access, which never requests a page (R407). -/
def UnitRun.tex (x : UnitRun) (ctx va n : Nat) (a : Access) : UnitRun × TexRes :=
  if va ≥ 2 ^ 57 then (x, .refused)
  else match x.s.walkInstall ctx va with
    | (s, .leaf e) =>
      if a.ok e then
        let (s, b, p) := s.homeLoad x.pts (e.pa va) n
        (⟨s, p⟩, .ok b)
      else (⟨s, x.pts⟩, .refused)
    | (s, .violation) => (⟨s, x.pts⟩, .refused)
    | (s, _) => (⟨s, x.pts⟩, .absent)

/-- A texel index wrapped or clamped (R406). -/
def wrapIdx (clamp : Bool) (n : Nat) (i : Int) : Nat := if clamp then (max 0 (min i (n - 1))).toNat else (i % n).toNat

/-- Texels of a level read in order: their components. -/
def UnitRun.texels (s : UnitRun) (ctx : Nat) (t : Tex) (l : Nat) : List (Int × Int) → UnitRun × (List (List Ex) ⊕ TexRes)
  | [] => (s, .inl [])
  | (x, y) :: r =>
    let xi := wrapIdx (t.wrap % 2 == 1) (t.w l) x
    let yi := wrapIdx (t.wrap / 2 == 1) (t.h l) y
    match s.tex ctx (t.levelAt l + (yi * t.w l + xi) * t.size) t.size .unitRead with
    | (s, .ok b) =>
      (match s.texels ctx t l r with
        | (s, .inl cs) => (s, .inl (t.texel b :: cs))
        | x => x)
    | (s, x) => (s, .inr x)

/-- The floor of a finite value; an infinity lies beyond every index. -/
def exFloor : Ex → Int
  | .nan => 0
  | .inf n => if n then -(2 ^ 300) else 2 ^ 300
  | .num n m e => if 0 ≤ e then sgnInt n (m * 2 ^ e.toNat) else sgnInt n m / 2 ^ (-e).toNat

/-- lerp (R406), component by component; `w` in 256ths. -/
def lerp (a b : List Ex) (w : Nat) : List Ex := (a.zip b).map fun (x, y) => fmaR (.num false w (-8)) (exSub y x) x

/-- Point sampling at a level. -/
def UnitRun.point (s : UnitRun) (ctx : Nat) (t : Tex) (u v : Ex) (l : Nat) : UnitRun × (List Ex ⊕ TexRes) :=
  match s.texels ctx t l [(exFloor (exProd u (exInt (t.w l))), exFloor (exProd v (exInt (t.h l))))] with
  | (s, .inl [c]) => (s, .inl c)
  | (s, .inr r) => (s, .inr r)
  | (s, _) => (s, .inl [])

/-- Bilinear sampling at a level. -/
def UnitRun.linear (s : UnitRun) (ctx : Nat) (t : Tex) (u v : Ex) (l : Nat) : UnitRun × (List Ex ⊕ TexRes) :=
  let at_ := fun (u : Ex) (n : Nat) => let x := exFloor (exProd u (exInt (256 * n))) - 128; (x / 256, (x % 256).toNat)
  let (i, wx) := at_ u (t.w l)
  let (j, wy) := at_ v (t.h l)
  match s.texels ctx t l [(i, j), (i + 1, j), (i, j + 1), (i + 1, j + 1)] with
  | (s, .inl [a, b, c, d]) => (s, .inl (lerp (lerp a b wx) (lerp c d wx) wy))
  | (s, .inr r) => (s, .inr r)
  | (s, _) => (s, .inl [])

/-- A coordinate: a NaN counts as 0; for an infinity that is to be wrapped the spec states no texel, and a free value
stands for the coordinate (log 8). -/
def State.coord (s : State) (clamp : Bool) (w : Word) : State × Ex :=
  match val32 w with
  | .nan => (s, .num false 0 0)
  | .inf n => if clamp then (s, .inf n) else let (x, s) := s.freeWord; (s, .num false x.toNat (-32))
  | x => (s, x)

/-- The level of detail (R406). -/
def Tex.lod (t : Tex) (g : List Ex) : Ex :=
  let len := fun (i j : Nat) =>
    let x := exProd (g.getD i (exInt 0)) (exInt t.width)
    let y := exProd (g.getD j (exInt 0)) (exInt t.height)
    (exAdd 0#2 (exProd x x) (exProd y y)).1
  let a := len 0 1
  let b := len 2 3
  let l := val32 (trResult (trLog2 (r32 (if exLt a b then b else a)))).1
  match l with
  | .nan => .num false 0 0
  | l => match fmaR (.num false 1 (-1)) l (val32 t.bias) with
    | .nan => .num false 0 0
    | x => x

/-- A level clamped to the texture's. -/
def Tex.clampLevel (t : Tex) (l : Int) : Nat := (max 0 (min l (t.levels - 1))).toNat

/-- The level that a sample needs, with the weight of the next where that is read (R406). -/
def Tex.level (t : Tex) (lod : Ex) : Nat × Option Nat :=
  if t.filter = 2 then
    let f := exFloor lod
    (t.clampLevel f, if 0 ≤ f && f + 2 ≤ t.levels then
      some ((exFloor (exProd lod (exInt 256)) - 256 * f).toNat) else none)
  else (t.clampLevel (exFloor (exAdd 0#2 lod (.num false 1 (-1))).1), none)

/-- The sample at its level (R406). -/
def UnitRun.sample (s : UnitRun) (ctx : Nat) (t : Tex) (u v : Ex) (l : Nat) (next : Option Nat) : UnitRun × (List Ex ⊕ TexRes) :=
  if t.filter = 0 then s.point ctx t u v l
  else match s.linear ctx t u v l, next with
    | (s, .inl a), some w =>
      (match s.linear ctx t u v (l + 1) with
        | (s, .inl b) => (s, .inl (lerp a b w))
        | x => x)
    | x, _ => x

/-- The five words of a sample (R407): components and status. -/
def texWords (c : List Ex) (status : Nat) : List Word := c.map word32 ++ [BitVec.ofNat 32 status]

/-- A sample without components. -/
def texNone (status : Nat) : List Word := [0#32, 0#32, 0#32, 0#32, BitVec.ofNat 32 status]

/-- The words of an `SMP` (R405 to R407), its reads made at `pts` or later. -/
def State.sampleResult (s : State) (pts core ctx eng desc : Nat) (c : List Word) : UnitRun × UnitRes :=
  if desc % 64 ≠ 0 then (⟨s, pts⟩, .fault 0x70#8 desc)
  else match UnitRun.bytes ⟨s, pts⟩ core ctx eng desc 64 with
    | (x, .wait) => (x, .wait)
    | (x, .fault _ va) => (x, .fault 0x70#8 va)
    | (x, .ok b) =>
      match texOf b with
      | none => (x, .ok (texNone 3))
      | some t =>
        let (s, u) := x.s.coord (t.wrap % 2 == 1) (c.getD 0 0#32)
        let (s, v) := s.coord (t.wrap / 2 == 1) (c.getD 1 0#32)
        let x : UnitRun := ⟨s, x.pts⟩
        let num := fun (w : Word) => match val32 w with
          | .nan => Ex.num false 0 0
          | y => y
        let (l, next) := t.level (t.lod ((c.drop 2).map num))
        let out := fun (x : UnitRun × (List Ex ⊕ TexRes)) (status : Nat) => match x with
          | (x, .inl c) => (x, UnitRes.ok (texWords c status))
          | (x, .inr .refused) => (x, .ok (texNone 3))
          | (x, .inr _) => (x, .ok (texNone 2))
        if t.resmap = 0 then out (x.sample ctx t u v l next) 0
        else
          let i := wrapIdx (t.wrap % 2 == 1) t.width (exFloor (exProd u (exInt t.width)))
          let j := wrapIdx (t.wrap / 2 == 1) t.height (exFloor (exProd v (exInt t.height)))
          match x.tex ctx (t.resmap + j / 128 * ((t.width + 127) / 128) + i / 128) 1 .table with
          | (x, .absent) => (x, .ok (texNone 2))
          | (x, .refused) => (x, .ok (texNone 3))
          | (x, .ok m) =>
            let m := natOfBytes m
            if l ≥ m then out (x.sample ctx t u v l next) 0
            else if m < t.levels then out (x.linear ctx t u v m) 1
            else (x, .ok (texNone 2))

/-- `SMP` (R405): the spans, then one result through the token, its registers read now. An engine command (R293 item 1). -/
def execSmp (d a : VReg) (b : Opnd) (sb : BitVec 3) (s : State) : Host.Outcome State Fault Refusal :=
  s.perThread fun st s t th =>
    match s.group? st.grp with
    | none => .ok s
    | some g =>
      let regs := ((s.grid? g.grid).map fun x => x.lr.regs).getD 64
      if a.toNat + 6 > regs || d.toNat + 5 > regs then .plain s 0x05#8
      else if !g.sq.isEmpty || !s.hasRoom st.grp sb.toNat then .stop s
      else .ok (s.addResult st.grp t (some sb.toNat) st.unit (.sample (rd64 g th b).toNat (.v d) (mgets th.v a.toNat 6)) true).2

end Sys2Proof.Machine
end

