-- ==== Sys2Proof/Machine/Return.lean ====
section
/-! DEFINITION. Results that return (R36, R134, R154, R305, R309, R311, R379), TLB refills (R270), program-timestamp ticks
(R288), the end of a pause (R155). -/

namespace Sys2Proof.Machine

/-! ## What a result writes -/

/-- The words that a load's bytes become (R305). -/
def LoadExt.words (e : LoadExt) (b : List Byte) : List Word :=
  let x : BitVec 8 := b.getD 0 0#8
  let h : BitVec 16 := BitVec.ofNat 16 (natOfBytes (b.take 2))
  match e with
  | .s8 => [x.signExtend 32]
  | .n8 => [x.zeroExtend 32]
  | .s16 => [h.signExtend 32]
  | .n16 => [h.zeroExtend 32]
  | _ => wordsOf b

/-- The columns of a `VMV` (R310, R311): the results, and the flags of every step. -/
def vmvWords (f : VmvFmt) (k n : Nat) (x : List Word) (b : List Byte) : List Word × FFlags :=
  let e := f.size
  let at_ := fun (i j : Nat) => vmvElem f (natOfBytes ((b.drop (e * (i * n + j))).take e))
  let cs := (List.range n).map fun j => vmvColumn x ((List.range k).map fun i => at_ i j)
  (cs.map fun c => c.1, cs.foldl (fun a c => a ||| c.2) 0#6)

/-- The registers and words that a performed result writes, and the flags it sets. -/
def Pending.writes (r : Pending) : List (Opnd × List Word) × FFlags :=
  let v := fun (n : Nat) => Opnd.v (BitVec.ofNat 6 n)
  match r.kind with
  | .load _ ext dst _ _ => ([(v dst, ext.words r.val)], 0#6)
  | .atom _ _ _ _ dst => ([(v dst, wordsOf r.val)], 0#6)
  | .vmv f _ _ k n x dst =>
    let (ws, fl) := vmvWords f k n x r.val
    ([(v dst, ws)], fl)
  | .words dst ws fl => ([(dst, ws)], fl)
  | .remote _ _ ext dst _ => ([(v dst, ext.words r.val)], 0#6)
  | .pop _ _ status dst => (if r.val.isEmpty then [(status, [0#32])] else [(status, [1#32]), (dst, wordsOf r.val)], 0#6)
  | _ => ([], 0#6)

/-! ## Returning -/

/-- The g registers that a result writes. -/
def Pending.gDsts (r : Pending) : List Nat :=
  (r.writes.1.map fun (d, ws) => match d with
    | .g n => (List.range ws.length).map fun i => (n.toNat + i) % 64
    | .v _ => []).flatten

/-- Values written to consecutive registers, but for those g registers that a later thread of the unit has written (R146). -/
def wrLeft (mute : List Nat) (g : Group) (t : Nat) (d : Opnd) : List Word → Group
  | [] => g
  | x :: r =>
    let g := match d with
      | .g n => if mute.contains n.toNat then g else wr g t d x
      | .v _ => wr g t d x
    wrLeft mute g t (nextOpnd d) r

/-- A performed result returns (R36, R154): its registers written, or its fault recorded; its token falls. The results of threads streamed
before it for the same unit leave the g registers alone that it writes (R146). -/
def State.deliver (s : State) (r : Pending) : State :=
  let s := match r.fault with
    | some f => s.addAsync r.grp r.thread f
    | none =>
      let (l, fl) := r.writes
      let earlier := fun (x : Pending) => x.grp == r.grp && x.unit == r.unit && decide (x.id < r.id)
      (s.updGroup r.grp fun g =>
        (l.foldl (fun g (d, ws) => wrLeft r.mute g r.thread d ws) g).updThread r.thread fun t => { t with fpflags := t.fpflags ||| fl }).onDev
          fun d => { d with results := updIf earlier (fun x => { x with mute := x.mute ++ r.gDsts }) d.results }
  (s.dropResult r).endEng r.id

/-- A result of the frame's engines computed (R401 to R407), with the timestamp that its reads reached (R293); or it awaits a page. -/
def deliverUnit (r : Pending) (dst : Opnd) (x : UnitRun × UnitRes) : State :=
  match x with
  | (x, .wait) => x.s
  | (x, .ok ws) => x.s.deliver { r with kind := .words dst ws 0#6, ts := max r.ts x.pts }
  | (x, .fault c va) => x.s.deliver (r.meet c va)

/-- The result is on its way to a team that has left its core: it arrives as a forwarded one (R134). -/
def State.forwarded (s : State) (r : Pending) : Bool := s.dev.fwds.any fun f => f.res.contains r.id

/-- A result returns as far as it can: a memory access is performed in its turn, an engine's result computed, a collective
moved on. -/
def State.returnResult (s : State) (r : Pending) : State :=
  match s.group? r.grp with
  | none => s.dropResult r
  | some g =>
    let saved := s.savedTeam g.team
    match r.kind with
    | .token =>
      if r.ready then s.deliver r
      else match s.dev.link.colls.find? fun c => c.res == r.id with
        | some c => s.collStep c
        | none => s
    | .remote .. => if r.ready && !s.forwarded r then s.deliver r else s
    | .words .. => if saved then s else s.deliver r
    | .sample desc dst coord => if saved then s else deliverUnit r dst (s.sampleResult g.pts g.core g.ctx r.id desc coord)
    | .attr op rec sel dst => if saved then s else deliverUnit r dst (s.attrResult g.pts g.core g.ctx r.id op rec sel)
    | .pop .. => if r.ready && !saved then s.deliver r else s
    | _ =>
      if saved then s
      else
        let s := s.perform r
        match s.pending? r.id with
        | some r => if r.ready then (s.deliver r).checkBars g else s
        | none => s

/-- Event RESULT_RETURN (R36). -/
def execResultReturn (rid : Nat) (s : State) : Host.Outcome State Fault Refusal :=
  .next <|
    match s.pending? rid with
    | none => s
    | some r => s.returnResult r

/-! ## Forwarded arrivals (R134) -/

/-- The entry is freed when nothing is on its way to its team from the core it left (R134 item 4). -/
def State.freeFwd (s : State) (f : Fwd) : State :=
  match s.dev.fwds.find? fun x => x.id == f.id with
  | none => s
  | some f => if f.res.isEmpty && (s.core f.core).cmds.all (fun k => k.team != f.team) then
      s.onDev fun d => { d with fwds := d.fwds.filter fun x => x.id != f.id }
    else s

/-- The first of the lines listed that the copy engine can go on with. -/
def State.anyLine (s : State) (core : Nat) : List Nat → State
  | [] => s
  | l :: r =>
    let s' := s.copyLine core l
    if s' = s then s.anyLine core r else s'

/-- Event FORWARDED_ARRIVAL (R134): a link result that has come, in the order of their arrival, or the next line of a copy, is
delivered where the team is. -/
def execForwardedArrival (core entry : Nat) (s : State) : Host.Outcome State Fault Refusal :=
  .next <|
    match s.dev.fwds.find? fun f => f.id == entry && f.core == core with
    | none => s
    | some f =>
      let come := f.res.filterMap fun i => s.pending? i
      let s := match come.find? fun r => r.ready with
        | some r => (s.deliver r).onDev fun d => { d with fwds := updIf (fun x => x.id == entry) (fun x => { x with res := x.res.filter (· ≠ r.id) }) d.fwds }
        | none =>
          match (s.core core).cmds with
          | k :: _ => if k.team == f.team then s.anyLine core k.lines else s
          | [] => s
      s.freeFwd f

/-! ## TLBs, timestamps, pauses -/

/-- Event TLB_REFILL (R270): the home slice's entry, or a walk's leaf, fills the L1 TLB; a walk without a leaf is answered
to the accesses that wait for it (R274). A page that a running invalidation names is filled once that completes (log 4). -/
def execTlbRefill (core ctx vpage : Nat) (s : State) : Host.Outcome State Fault Refusal :=
  .next <|
    if !s.dev.refills.contains (core, ctx, vpage) then s
    else
      let filled := fun (s : State) => s.onDev fun d => { d with refills := d.refills.filter (· ≠ (core, ctx, vpage)) }
      match s.walkInstall ctx (vpage * 4096) with
      | (s, .leaf e) =>
        if s.mayHold e then (filled s).updCore core fun c => { c with tlb := tlbPut Config.l1TlbEntries e c.tlb } else s
      | (s, _) => (filled s).updCore core fun c => { c with walks := if c.walks.contains (ctx, vpage) then c.walks else c.walks ++ [(ctx, vpage)] }

/-- Every ORD.TICK clk each resident group's program timestamp rises by the lease (R288). -/
def State.ptsTick (s : State) : State :=
  if s.dev.clk < s.dev.nextTick then s
  else s.onDev fun d => { d with
    nextTick := d.nextTick + max 16 d.mmu.tick
    groups := updIf (fun g => !g.ended && s.residentTeam g.team) (fun g => { g with pts := g.pts + s.lease }) d.groups }

/-- Event PTS_TICK (R288). -/
def execPtsTick (s : State) : Host.Outcome State Fault Refusal := .next s.ptsTick

/-- Event PAUSE_END (R155). -/
def execPauseEnd (grp : Nat) (s : State) : Host.Outcome State Fault Refusal :=
  .next <|
    match s.group? grp with
    | none => s
    | some g => if g.pauseEnd ≠ 0 && g.pauseEnd ≤ s.dev.clk then s.updGroup grp fun g => { g with pauseEnd := 0 } else s

end Sys2Proof.Machine
end

