-- ==== Sys2Proof/Machine/Issue.lean ====
section
/-! DEFINITION. The reed: the choice of a group and of its issue PC (R140 to R143), the issue of a clause (R45, R46, R149),
and what precedes and follows each issue unit of a stream (R37, R61, R144, R154, R157). -/

namespace Sys2Proof.Machine

/-! ## Threads (R140, R142) -/

/-- A runnable thread (R140). -/
def Thread.runnable (th : Thread) : Bool := !th.ended && th.wait.isNone && th.park.isNone

/-- The order of issue PCs: inside the handler, 2^32 + vpc (R142, R183 item 3). -/
def Thread.key (th : Thread) : Nat := th.vpc.toNat + if th.inTrap then 2 ^ 32 else 0

/-- The aging limit of a core (R143). -/
def Core.ageLimit (c : Core) : Nat := max 64 c.age

/-- The runnable threads of a group, with their home numbers; those whose trap entry is still to complete are not among them
(R183), nor do they issue. -/
def Group.ready (g : Group) : List (Nat × Thread) :=
  ((List.range g.threads.length).zip g.threads).filter fun (_, th) => th.runnable && !th.trapPending

/-- A thread has not been streamed for the limit (R142 item 1). -/
def Thread.aged (th : Thread) (clk limit : Nat) : Bool := decide (th.lastStreamed + limit ≤ clk)

/-- The thread whose vpc is the issue PC (R142). -/
def Group.lead (g : Group) (clk limit : Nat) : Option (Nat × Thread) :=
  match firstBy (fun a b => decide (a.2.lastStreamed < b.2.lastStreamed)) (g.ready.filter fun (_, th) => th.aged clk limit) with
  | some x => some x
  | none => firstBy (fun a b => decide (a.2.key < b.2.key)) g.ready

/-- The threads at a thread's PC, which execute it from the same copy (R142, R234). -/
def Group.streamOf (g : Group) (th : Thread) : List Nat :=
  (g.ready.filter fun (_, x) => x.key == th.key && x.copy == th.copy && x.start == th.start).map fun x => x.1

/-! ## Eligibility (R141) -/

/-- The copy that a thread executes, and the header of its clause with its word: `none` where the copy is not resident or the
PC lies in no clause (R35, R41). -/
def State.clauseAt (s : State) (core : Nat) (th : Thread) : Option (Copy × Word × Word) :=
  match (s.core core).copy? th.copy with
  | none => none
  | some k =>
    match k.headerOf th.start th.vpc.toNat with
    | none => none
    | some (h, w) =>
      if th.vpc.toNat ≤ h + 4 * (headerOfWord w).count.toNat then some (k, BitVec.ofNat 32 h, w) else none

/-- What a group is held for has come about (R314, R326, R340). -/
def State.holdMet (s : State) (g : Group) : Bool :=
  match g.hold with
  | none => true
  | some .fence => g.sq.isEmpty
  | some .xfence => s.xfenceMet g
  | some (.flush m) => !g.flushing (bitsOf m)
  | some (.wait m) => g.tokensDone m
  | some (.tfree h) => !s.copyInFlight g.team h && ((s.team? g.team).bind fun t => t.handle? h).all (fun x => x.cons == 0)
  | some (.accfree a n) => !s.bankBusy g.core g.team a n
  | some (.seal va n) => s.sealMet g va n
  | some (.word va n) => s.wordMet g va n

/-- A decode fault of the group was recorded in this clk: it is delivered when the group next runs (R45, R63). -/
def Group.badNow (g : Group) (clk : Nat) : Bool := g.threads.any fun th => th.bad.any fun b => b.1 == clk

/-- A group is eligible (R141): it has a runnable thread, is not parked, its context is not dying (R98), and the WAIT field of the clause at its issue PC is
met. -/
def State.eligible (s : State) (g : Group) : Bool :=
  let resident := match s.team? g.team with
    | some t => t.st == .resident && t.window.isSome
    | none => false
  resident && s.ctxState g.ctx != .dying && !g.ended && !g.parked && s.holdMet g && !g.badNow s.dev.clk &&
    match g.lead s.dev.clk (s.core g.core).ageLimit with
    | none => false
    | some (_, th) => match s.clauseAt g.core th with
      | some (_, _, w) => g.tokensDone (headerOfWord w).wait
      | none => true

/-- A group's issue priority plus one: 0 while a `PAUSE` is in force (R141 item 2, R155). -/
def Group.issuePrio (g : Group) (clk : Nat) : Nat := if clk < g.pauseEnd then 0 else g.prio + 1

/-- Has been eligible without being chosen for the limit (R141 item 1). -/
def Group.aged (g : Group) (clk limit : Nat) : Bool := decide (g.eligibleAt + limit ≤ clk)

/-- The eligible groups of a reed, by resident index. -/
def State.eligibleOn (s : State) (core reed : Nat) : List Group :=
  sortBy (fun g => g.rslot) (s.dev.groups.filter fun g => g.core == core && g.reed == reed && s.eligible g)

/-- The group that a reed chooses (R141). -/
def State.chooseGroup (s : State) (core reed : Nat) : Option Group :=
  let l := s.eligibleOn core reed
  let clk := s.dev.clk
  match firstBy (fun a b => decide (a.eligibleAt < b.eligibleAt)) (l.filter fun g => g.aged clk (s.core core).ageLimit) with
  | some g => some g
  | none => firstBy (fun a b => decide (b.issuePrio clk < a.issuePrio clk) ||
      (a.issuePrio clk == b.issuePrio clk && decide (a.lastIssue < b.lastIssue))) l

/-! ## Issue of a clause -/

/-- How a thread's entry into a clause comes out. -/
def State.entered (s : State) (gid t : Nat) (vpc : Word) : SRes → State
  | .ok s => s
  | .leave s => s
  | .stop s => s
  | .fault _ c n va _ => s.takeFault gid t ⟨c, n, vpc, va⟩ false vpc

/-- A thread's first clause is fetched as a `CALLX` would fetch it (R40, R125, R372): ENTRY from ENTRYOV, any other PC from the
overlay that holds it. -/
def State.enterFirst (s : State) (gid t : Nat) : State :=
  match s.group? gid with
  | none => s
  | some g =>
    match g.thread? t, s.grid? g.grid with
    | some th, some gr =>
      let go := fun (s : State) (k : Copy) (b : Bind) =>
        if th.vpc.toNat % 4 ≠ 0 then SRes.plain s 0x04#8
        else match k.word? b.start th.vpc.toNat with
          | none => .plain s 0x06#8
          | some w => if isHeader w then .leave ((s.goto gid t th.vpc k b).enterCopy g.core k.id) else .plain s 0x04#8
      let r :=
        if th.vpc = gr.lr.entry then
          match (s.core g.core).bound? g.ctx gr.lr.codebase gr.lr.entryov with
          | some (k, b) => go s k b
          | none => s.stopOr (s.parkOverlay g.core gid t g.ctx gr.lr.codebase gr.lr.entryov)
        else s.reach g gr t false th.vpc.toNat go
      match r with
      | .fault s' c n va f => s'.entered gid t th.vpc (.fault s' c n va f)
      | r => s.entered gid t th.vpc r
    | _, _ => s

/-- A thread whose copy is not on the core, as after a resumption, goes on in the one that serves the recorded key, for which it parks while
that is fetched (R236). -/
def State.awaitCopy (s : State) (gid t copy : Nat) : State :=
  match s.group? gid with
  | none => s
  | some g =>
    match (g.thread? t).map fun th => th.vpc with
    | none => s
    | some vpc =>
      match s.seekCopy g t copy fun s k => .leave (s.updThread gid t fun th => { th with copy := k.id }) with
      | .fault s' c n va f => s'.entered gid t vpc (.fault s' c n va f)
      | r => s.entered gid t vpc r

/-- The fault that came back to a thread which can issue no unit yet (R228, R276); that of a handle declaration (0x20) waits
for its first unit (R319). -/
def Thread.refused (th : Thread) : Option FaultRec := th.due.filter fun r => th.copy ≠ 0 || r.code != 0x20#8

/-- The threads of a stream go on by `go` in ascending order, up to the first that takes a fault (R153). -/
def State.goEach (s : State) (gid : Nat) (go : State → Nat → State) : List Nat → State
  | [] => s
  | t :: r =>
    let taken := fun (s : State) => ((s.group? gid).bind fun g => g.thread? t).map fun th => (th.inTrap, th.froze.isSome)
    if taken (go s t) = taken s then (go s t).goEach gid go r else go s t

/-- Threads whose code is not on the core go on by `go`, but one whose fault has come back takes it (R153, R228). -/
def State.refuseOr (s : State) (g : Group) (ts : List Nat) (go : State → Nat → State) : State :=
  match ts.find? fun t => (g.thread? t).any fun th => th.refused.isSome with
  | none => s.goEach g.id go ts
  | some t =>
    match (g.thread? t).bind fun th => th.refused.map fun r => (th, r) with
    | none => s
    | some (th, r) => (s.updThread g.id t fun x => { x with due := none }).takeFault g.id t { r with unit := th.vpc } false th.vpc

/-- The tag of a group's clause in a copy (R149). -/
def State.bufTag (s : State) (g : Group) (th : Thread) (k : Copy) (hdr : Word) : BufTag :=
  ⟨g.ctx, ((s.bindOf g th).map fun b => b.image).getD 0, k.id, hdr⟩

/-- The reed holds the clause in a buffer: now its latest (R149). -/
def State.useBuffer (s : State) (core reed : Nat) (b : BufTag) : State :=
  s.updCore core fun c =>
    let l := (assoc c.bufs reed).getD []
    { c with bufs := assocSet c.bufs reed ((b :: l.filter (· ≠ b)).take 8) }

/-- A clause is in a buffer of the reed. -/
def State.buffered (s : State) (core reed : Nat) (b : BufTag) : Bool := ((assoc (s.core core).bufs reed).getD []).contains b

/-- The clause of a group issues at a thread's PC: its check (R44), whose defect is recorded at the first thread of the stream (R45, R63);
its buffer, whose loading takes 4 clk (R149); and the stream (R142), whose threads stand at the first unit to execute (R46). What its WAIT
field awaited is acquired (R36). -/
noncomputable def State.startStream (s : State) (g : Group) (t : Nat) (th : Thread) (k : Copy) (hdr w : Word) : State :=
  match s.grid? g.grid with
  | none => s
  | some gr =>
    match clauseDefect k th.start hdr w g.role gr.lr.regs gr.lr.fs with
    | some (c, a) => s.updThread g.id ((g.streamOf th).headD t) fun th => { th with bad := some (s.dev.clk, ⟨c, 0#10, a, 0#64⟩) }
    | none =>
      let h := headerOfWord w
      let a := if th.vpc = hdr then hdr + 4#32 else unitStart k th.start 2 th.vpc
      let ts := g.streamOf th
      let tag := s.bufTag g th k hdr
      let free := s.dev.clk + if s.buffered g.core g.reed tag then 0 else 4
      let s := s.useBuffer g.core g.reed tag
      let s := s.updGroup g.id fun g => { ts.foldl (fun g t => g.updThread t fun th => { th with vpc := a }) (g.acquire h.wait) with
        hold := none, park := .none, lastIssue := s.dev.clk }
      let st : Stream :=
        { core := g.core, reed := g.reed, grp := g.id, mask := maskOf ts, copy := k.id, hdr := hdr, unit := a, next := a,
          last := hdr + 4#32 * h.count.zeroExtend 32, drain := h.drain, imm := none, neg := false, pred := 7#3, ce := false, pol := 0#2,
          re := false, rm := 0#2, sat := false, bps := (s.core g.core).bps, extra := 0, free := free, due := none, outcome := none }
      s.onDev fun d => { d with streams := d.streams ++ [st] }

/-- The first thread of a group with a decode fault recorded, and the fault (R63). -/
def Group.firstBad (g : Group) : Option (Nat × FaultRec) :=
  ((List.range g.threads.length).zip g.threads).findSome? fun (t, th) => if th.runnable then th.bad.map fun b => (t, b.2) else none

/-- A chosen group issues, and has waited for nothing since (R141 item 1): a decode fault recorded is delivered; a thread that has no copy yet,
or whose copy has gone, asks for it; a PC that is no word of a clause faults (R41); else the clause at the issue PC issues. -/
noncomputable def State.issueGroup (s : State) (g : Group) : State :=
  let s := s.updGroup g.id fun g => { g with eligibleAt := s.dev.clk }
  match g.firstBad with
  | some (t, r) => (s.updThread g.id t fun th => { th with bad := none }).takeFault g.id t r false r.unit
  | none =>
    match g.lead s.dev.clk (s.core g.core).ageLimit with
    | none => s
    | some (t, th) =>
      let ts := g.streamOf th
      if th.copy = 0 then s.refuseOr g ts fun s t => s.enterFirst g.id t
      else match (s.core g.core).copy? th.copy with
        | none => s.refuseOr g ts fun s t => s.awaitCopy g.id t th.copy
        | some k =>
          match s.clauseAt g.core th with
          | some (_, hdr, w) => s.startStream g t th k hdr w
          | none =>
            let c := if (k.word? th.start th.vpc.toNat).isNone then 0x06#8 else 0x02#8
            s.takeFault g.id (ts.headD t) ⟨c, 0#10, th.vpc, 0#64⟩ false th.vpc

/-- Event CLAUSE_ISSUE (R141, R142, R157): a reed that is free to begin a clause. -/
noncomputable def execClauseIssue (core reed : Nat) (s : State) : Host.Outcome State Fault Refusal :=
  .next <|
    if (s.streamAt core reed).isSome then s
    else match s.chooseGroup core reed with
      | none => s
      | some g => s.issueGroup g

/-- Event AGE_EXPIRY (R141 item 1, R142 item 1): a group or a thread of the reed has reached the aging limit; the selection
that follows counts it as aged (R160 case 1). -/
noncomputable def execAgeExpiry (core reed : Nat) (s : State) : Host.Outcome State Fault Refusal :=
  .next <|
    let clk := s.dev.clk
    let lim := (s.core core).ageLimit
    if (s.streamAt core reed).isSome then s
    else match s.chooseGroup core reed with
      | none => s
      | some g => if g.aged clk lim || g.ready.any (fun (_, th) => th.aged clk lim) then s.issueGroup g else s

/-! ## Before a unit (R61, R154, R239) -/

/-- A fault of a thread waits: it would freeze its context (R98, R183 item 4), which a fault of an earlier clk has frozen (R99, R100). -/
def State.faultWaits (s : State) (g : Group) (th : Thread) : Bool :=
  (s.noHandler g.grid || th.inTrap) && s.ctxState g.ctx == .frozen &&
    !((s.ctx? g.ctx).any fun c => c.froze.any fun f => f.1 == s.dev.clk)

/-- A fault of a thread comes after the one that FAULT records, of those of the clk in which its context froze (R100 case 1). -/
def State.faultAfter (s : State) (g : Group) (t : Nat) (th : Thread) (r : FaultRec) : Bool :=
  (s.noHandler g.grid || th.inTrap) && (s.ctx? g.ctx).any fun c =>
    c.st == .frozen && decide (faultPlace c.fault.w ≤ faultPlace (r.regs g t 1).w)

/-- A thread takes the first of the faults that have come back for it, before its next unit (R154); while its context is FROZEN, one that
would freeze it stays recorded, unless it comes before the one that froze it in this clk (R99, R100). -/
def State.takeAsync (s : State) (gid t : Nat) : State :=
  match s.group? gid with
  | none => s
  | some g =>
    match g.thread? t with
    | none => s
    | some th =>
      match th.async with
      | [] => s
      | (_, r) :: rest =>
        if s.faultWaits g th || s.faultAfter g t th r then s
        else (s.updThread gid t fun th => { th with async := rest }).takeFault gid t r true th.vpc

/-- A thread takes a fault that it meets at its unit, one due there among them; while its context is FROZEN since an earlier clk, one that is
due and would freeze it stays (R99, R100). -/
def State.takeDue (s : State) (gid t : Nat) (r : FaultRec) : State :=
  match s.group? gid with
  | none => s
  | some g =>
    match g.thread? t with
    | none => s
    | some th =>
      if th.due.isSome && s.faultWaits g th then s
      else (s.updThread gid t fun th => { th with due := none }).takeFault gid t r false r.unit

/-- The addresses of a unit's words (R61). -/
def unitWords (a last : Word) : List Word := (List.range ((last - a).toNat / 4 + 1)).map fun i => a + 4#32 * BitVec.ofNat 32 i

/-- A thread meets a fault due at its unit, or a breakpoint (R153, R228, R239): its fault. -/
def Thread.meets (th : Thread) (t ctx : Nat) (bps : List Bp) (a last : Word) : Option FaultRec :=
  match th.due with
  | some r => some { r with unit := a }
  | none =>
    let hit := fun (b : Bp) => b.en && (b.anyctx || b.ctx == ctx) && bitAt b.mask t && (unitWords a last).contains b.addr
    if !th.inTrap && !th.noBreak && bps.any hit then some ⟨0x41#8, 0#10, a, 0#64⟩ else none

/-- The thread after those streamed meets its fault in its place of the unit, and its wait starts again there (R142, R144, R153). -/
def State.streamDue (s : State) (gid : Nat) (due : Nat × FaultRec) (at_ : Nat) : State :=
  (s.updThread gid due.1 fun th => { th with lastStreamed := at_ }).takeDue gid due.1 due.2

/-- What comes before the unit at the stream's next address, whose instruction lies at `last`: faults that have come back are
taken and their threads leave the stream; the stream goes on with the threads before the first that meets a fault, which takes it in its turn
(R153). Where that is the first, the unit takes the least time, `floor` clk (R144). -/
def State.preUnit (s : State) (st : Stream) (last : Word) (floor : Nat) : State :=
  let ths := fun (s : State) => ((s.group? st.grp).map fun g => g.threads).getD []
  let back := st.threads.filter fun t => ((ths s)[t]?).any fun th => !th.async.isEmpty
  let s := back.foldl (fun s t => s.takeAsync st.grp t) s
  let ts := st.threads.filter fun t => !back.contains t
  let ctx := ((s.group? st.grp).map fun g => g.ctx).getD 0
  let meets := fun (t : Nat) => ((ths s)[t]?).bind fun th => th.meets t ctx st.bps st.next last
  let keep := ts.takeWhile fun t => (meets t).isNone
  let due := (ts.drop keep.length).head?.bind fun t => (meets t).map fun r => (t, r)
  match keep, due with
  | [], some d => (s.updStream st.core st.reed fun x => { x with mask := 0#32, free := s.dev.clk + floor }).streamDue st.grp d s.dev.clk
  | _, _ => s.updStream st.core st.reed fun x => { x with mask := maskOf keep, due := due }

/-! ## After a unit, and the end of a clause (R37, R144, R157) -/

/-- The stream ends: where its clause had DRAIN set and has completed, the group parks until its counts are 0 (R37). -/
def State.finishClause (s : State) (st : Stream) (completed : Bool) : State :=
  let s := s.onDev fun d => { d with streams := d.streams.filter fun x => !(x.core == st.core && x.reed == st.reed) }
  s.updGroup st.grp fun g => if st.drain && completed && g.park == .none then { g with park := .drain } else g

/-- The clause of the stream at the focus is over: the reed is free once the time of its last unit has passed (R144). -/
def State.overClause (s : State) (st : Stream) (completed : Bool) : State :=
  s.updStream st.core st.reed fun x => { x with outcome := some completed }

/-- The least number of clk that a unit takes (R144). -/
def unitFloor (w : Except DecodeError Instr) : Nat :=
  match w with
  | .ok i => if uniformUnit i then 1 else 4
  | .error _ => 4

/-- The unit of the stream at the focus: what comes before it; then its prefixes are those of the stream and its instruction
is the one to execute. `none` where no stream is there, it has no thread left, or the word is no instruction (which the check
of the clause has refused before). -/
noncomputable def State.fetchUnit (s : State) : State × Option Instr :=
  match s.stream? with
  | none => (s, none)
  | some st =>
    let start := (((s.group? st.grp).bind fun g => g.thread? (st.threads.headD 0)).map fun th => th.start).getD 0
    match ((s.core st.core).copy? st.copy).bind fun k => unitFrom k start 3 st.next (none, none) with
    | none => (s.overClause st false, none)
    | some ((imm, mod), w, a) =>
      let s := s.preUnit st a (unitFloor (decodeWord w))
      match s.stream? with
      | none => (s, none)
      | some st =>
        match st.threads, decodeWord w with
        | [], _ => (s.overClause st false, none)
        | t :: _, .error _ => ((s.takeFault st.grp t ⟨0x01#8, 0#10, a, 0#64⟩ false a).overClause st false, none)
        | _ :: _, .ok i =>
          let m := mod.getD Mod.plain
          (s.updStream st.core st.reed fun x =>
            { x with unit := x.next, next := a + 4#32, imm := imm, neg := m.neg, pred := m.pred, ce := m.ce, pol := m.pol,
                     re := m.re, rm := m.rm, sat := m.sat }, some i)

/-- A thread went past its unit: it stands elsewhere, or has ended (R37, R142). -/
def Thread.passed (before after : Thread) : Bool := after.ended || after.vpc != before.vpc

/-- The unit has stopped the stream at a thread, or faulted at it: it left the stream without going past its unit, or is now in its handler
(R150, R153). -/
def Thread.halted (before after : Thread) : Bool :=
  (!before.inTrap && after.inTrap) || (!after.ended && after.wait.isNone && after.park.isNone && after.vpc == before.vpc)

/-- The threads that a unit was streamed for (R144), of those that execute it: up to the one at which the stream was stopped. `kept`: the
threads still in the stream; each with what it was and what it is. -/
def streamedFor (kept : List Nat) : List (Nat × Thread × Thread) → List (Nat × Thread × Thread)
  | [] => []
  | (t, x, y) :: r => (t, x, y) :: if !kept.contains t && x.halted y then [] else streamedFor kept r

/-- A thread after a unit: its wait starts again from the clk in which it was streamed (R142), and a breakpoint passed over holds again
(R239). -/
def Thread.seen (before after : Thread) (at_ : Option Nat) : Thread :=
  { after with lastStreamed := at_.getD after.lastStreamed, noBreak := after.noBreak && !(before.noBreak && before.passed after) }

/-- What follows a unit that a stream has executed from state `b`: the threads streamed, each in its clk; the fault of the thread after them,
where none of them stopped; the unit's time (R144); and the end of the clause. -/
def State.endUnit (b s : State) (i : Instr) : State :=
  match b.stream?, s.stream? with
  | some st0, some st =>
    match b.group? st.grp, s.group? st.grp with
    | some g0, some g =>
      let was := st0.threads.filterMap fun t => (g0.thread? t).bind fun x => (g.thread? t).map fun y => (t, x, y)
      let on := was.filter fun (_, x, _) => predOn st0 x
      let run := if uniformUnit i then on else streamedFor st.threads on
      let whole := run.length == on.length && run.all fun (t, x, y) => st.threads.contains t || !x.halted y
      let place := fun (t : Nat) => (run.findIdx? fun x => x.1 == t).map fun k => s.dev.clk + if uniformUnit i then 0 else k
      let s := s.updGroup st.grp fun g => was.foldl (fun g (t, x, _) => g.updThread t fun y => x.seen y (place t)) g
      let s := match st0.due with
        | some d => if whole then s.streamDue st.grp d (s.dev.clk + if uniformUnit i then 0 else run.length) else s
        | none => s
      let n := run.length + if st0.due.isSome && whole then 1 else 0
      let done := decide (st.last.toNat < st.next.toNat)
      let s := s.updStream st.core st.reed fun x =>
        { x with free := s.dev.clk + (if uniformUnit i then 1 else max n 4) + x.extra, extra := 0, due := none }
      if st.threads.isEmpty || done then
        s.overClause st (done && was.any fun (_, x, y) => x.passed y && (x.inTrap || !y.inTrap))
      else s
    | _, _ => s
  | _, _ => s

end Sys2Proof.Machine
end

