-- ==== Sys2Proof/Machine/Uniform.lean ====
section
/-! DEFINITION. The uniform ALU (R145, R168, R169). -/

namespace Sys2Proof.Machine

/-- The b operand of format G (R168). -/
def rdG (g : Group) (st : Stream) : GSrc → Word
  | .reg n => mget g.g n.toNat
  | .imm x => immValue st.imm x

/-- A uniform ALU instruction: once per stream, from G[d], A and B (R145, R168). -/
def State.uniform (s : State) (d a : GReg) (b : GSrc) (f : Word → Word → Word → Word) : Host.Outcome State Fault Refusal :=
  s.regsUniform fun st g t _ =>
    .ok (wr g t (.g d) (f (mget g.g d.toNat) (mget g.g a.toNat) (rdG g st b)))

/-- −1, 0 or 1 (R168). -/
def sign3 (lt eq : Bool) : Word := if lt then 0xFFFFFFFF#32 else if eq then 0#32 else 1#32

/-- `GMOV` (R168). -/
def execGmov (d : GReg) (b : GSrc) (s : State) : Host.Outcome State Fault Refusal :=
  s.uniform d 0#6 b fun _ _ B => B

/-- `GADD` (R168). -/
def execGadd (d a : GReg) (b : GSrc) (s : State) : Host.Outcome State Fault Refusal :=
  s.uniform d a b fun _ A B => A + B

/-- `GSUB` (R168). -/
def execGsub (d a : GReg) (b : GSrc) (s : State) : Host.Outcome State Fault Refusal :=
  s.uniform d a b fun _ A B => A - B

/-- `GMUL` (R168). -/
def execGmul (d a : GReg) (b : GSrc) (s : State) : Host.Outcome State Fault Refusal :=
  s.uniform d a b fun _ A B => A * B

/-- `GAND` (R168). -/
def execGand (d a : GReg) (b : GSrc) (s : State) : Host.Outcome State Fault Refusal :=
  s.uniform d a b fun _ A B => A &&& B

/-- `GOR` (R168). -/
def execGor (d a : GReg) (b : GSrc) (s : State) : Host.Outcome State Fault Refusal :=
  s.uniform d a b fun _ A B => A ||| B

/-- `GXOR` (R168). -/
def execGxor (d a : GReg) (b : GSrc) (s : State) : Host.Outcome State Fault Refusal :=
  s.uniform d a b fun _ A B => A ^^^ B

/-- `GSHL` (R168). -/
def execGshl (d a : GReg) (b : GSrc) (s : State) : Host.Outcome State Fault Refusal :=
  s.uniform d a b fun _ A B => A <<< (B.toNat % 32)

/-- `GSHR` (R168). -/
def execGshr (d a : GReg) (b : GSrc) (s : State) : Host.Outcome State Fault Refusal :=
  s.uniform d a b fun _ A B => A >>> (B.toNat % 32)

/-- `GSEL` (R168). -/
def execGsel (d a : GReg) (b : GSrc) (s : State) : Host.Outcome State Fault Refusal :=
  s.uniform d a b fun D A B => if D ≠ 0#32 then A else B

/-- `GCMP_S32` (R168). -/
def execGcmpS32 (d a : GReg) (b : GSrc) (s : State) : Host.Outcome State Fault Refusal :=
  s.uniform d a b fun _ A B => sign3 (decide (A.toInt < B.toInt)) (A == B)

/-- `GCMP_N32` (R168). -/
def execGcmpN32 (d a : GReg) (b : GSrc) (s : State) : Host.Outcome State Fault Refusal :=
  s.uniform d a b fun _ A B => sign3 (decide (A.toNat < B.toNat)) (A == B)

/-- The byte offset of a `GLD` (R169 item 3). -/
def gldOffset (g : Group) (a : GReg) (imm : BitVec 10) : Nat := (mget g.g a.toNat + imm.signExtend 32).toNat

/-- `GLD` (R169): a word of the team's argument window; a word that could not be read when the window was loaded has its
own code, after the checks of item 3. The fault's address is given as 0 (log 40). -/
def execGld (d a : GReg) (imm : BitVec 10) (s : State) : Host.Outcome State Fault Refusal :=
  s.regsUniform fun _ g t _ =>
    let o := gldOffset g a imm
    if o % 4 ≠ 0 then .fault 0x12#8
    else if o ≥ 1024 then .fault 0x11#8
    else match ((s.team? g.team).bind (fun x => x.window)).bind (fun w => w[o / 4]?) with
      | some (.ok w) => .ok (wr g t (.g d) w)
      | some (.bad c) => .fault c
      | none => .fault 0x11#8

end Sys2Proof.Machine
end

