-- ==== Sys2Proof/Machine/Dispatch.lean ====
section
/-! DEFINITION. The meaning of each step of the part: one arm per constructor. -/

namespace Sys2Proof.Machine

open Sys2Proof in /-- The meaning of a step. It is not compiled: Lean makes no code for constructors past the 244th (log 30). -/ noncomputable
def exec (i : Instr) (s : State) : Host.Outcome State Fault Refusal :=
  match i with
  | .bra off => Sys2Proof.Machine.execBra off s
  | .brx a => Sys2Proof.Machine.execBrx a s
  | .call off => Sys2Proof.Machine.execCall off s
  | .callx off => Sys2Proof.Machine.execCallx off s
  | .pause n => Sys2Proof.Machine.execPause n s
  | .gmov d b => Sys2Proof.Machine.execGmov d b s
  | .gadd d a b => Sys2Proof.Machine.execGadd d a b s
  | .gsub d a b => Sys2Proof.Machine.execGsub d a b s
  | .gmul d a b => Sys2Proof.Machine.execGmul d a b s
  | .gand d a b => Sys2Proof.Machine.execGand d a b s
  | .gor d a b => Sys2Proof.Machine.execGor d a b s
  | .gxor d a b => Sys2Proof.Machine.execGxor d a b s
  | .gshl d a b => Sys2Proof.Machine.execGshl d a b s
  | .gshr d a b => Sys2Proof.Machine.execGshr d a b s
  | .gsel d a b => Sys2Proof.Machine.execGsel d a b s
  | .gcmpS32 d a b => Sys2Proof.Machine.execGcmpS32 d a b s
  | .gcmpN32 d a b => Sys2Proof.Machine.execGcmpN32 d a b s
  | .gld d a imm => Sys2Proof.Machine.execGld d a imm s
  | .add d a b => Sys2Proof.Machine.execAdd d a b s
  | .sub d a b => Sys2Proof.Machine.execSub d a b s
  | .mul d a b => Sys2Proof.Machine.execMul d a b s
  | .mulhS32 d a b => Sys2Proof.Machine.execMulhS32 d a b s
  | .mulhN32 d a b => Sys2Proof.Machine.execMulhN32 d a b s
  | .mad d a b => Sys2Proof.Machine.execMad d a b s
  | .divS32 d a b => Sys2Proof.Machine.execDivS32 d a b s
  | .divN32 d a b => Sys2Proof.Machine.execDivN32 d a b s
  | .remS32 d a b => Sys2Proof.Machine.execRemS32 d a b s
  | .remN32 d a b => Sys2Proof.Machine.execRemN32 d a b s
  | .minS32 d a b => Sys2Proof.Machine.execMinS32 d a b s
  | .minN32 d a b => Sys2Proof.Machine.execMinN32 d a b s
  | .maxS32 d a b => Sys2Proof.Machine.execMaxS32 d a b s
  | .maxN32 d a b => Sys2Proof.Machine.execMaxN32 d a b s
  | .abs d a => Sys2Proof.Machine.execAbs d a s
  | .neg d a => Sys2Proof.Machine.execNeg d a s
  | .and d a b => Sys2Proof.Machine.execAnd d a b s
  | .or d a b => Sys2Proof.Machine.execOr d a b s
  | .xor d a b => Sys2Proof.Machine.execXor d a b s
  | .not d a => Sys2Proof.Machine.execNot d a s
  | .shl d a b => Sys2Proof.Machine.execShl d a b s
  | .shr d a b => Sys2Proof.Machine.execShr d a b s
  | .sha d a b => Sys2Proof.Machine.execSha d a b s
  | .rot d a b => Sys2Proof.Machine.execRot d a b s
  | .bfeS32 d a b => Sys2Proof.Machine.execBfeS32 d a b s
  | .bfeN32 d a b => Sys2Proof.Machine.execBfeN32 d a b s
  | .bfi d a b => Sys2Proof.Machine.execBfi d a b s
  | .popc d a => Sys2Proof.Machine.execPopc d a s
  | .clz d a => Sys2Proof.Machine.execClz d a s
  | .brev d a => Sys2Proof.Machine.execBrev d a s
  | .mov d a => Sys2Proof.Machine.execMov d a s
  | .sel n d a b => Sys2Proof.Machine.execSel n d a b s
  | .addImm d a imm => Sys2Proof.Machine.execAddImm d a imm s
  | .mulImm d a imm => Sys2Proof.Machine.execMulImm d a imm s
  | .andImm d a imm => Sys2Proof.Machine.execAndImm d a imm s
  | .orImm d a imm => Sys2Proof.Machine.execOrImm d a imm s
  | .xorImm d a imm => Sys2Proof.Machine.execXorImm d a imm s
  | .shlImm d a imm => Sys2Proof.Machine.execShlImm d a imm s
  | .shrImm d a imm => Sys2Proof.Machine.execShrImm d a imm s
  | .movi d imm => Sys2Proof.Machine.execMovi d imm s
  | .add64 d a b => Sys2Proof.Machine.execAdd64 d a b s
  | .sub64 d a b => Sys2Proof.Machine.execSub64 d a b s
  | .mul64 d a b => Sys2Proof.Machine.execMul64 d a b s
  | .lea a0 d a b => Sys2Proof.Machine.execLea a0 d a b s
  | .sextS8 d a => Sys2Proof.Machine.execSextS8 d a s
  | .sextS16 d a => Sys2Proof.Machine.execSextS16 d a s
  | .sextS32 d a => Sys2Proof.Machine.execSextS32 d a s
  | .zextN8 d a => Sys2Proof.Machine.execZextN8 d a s
  | .zextN16 d a => Sys2Proof.Machine.execZextN16 d a s
  | .zextN32 d a => Sys2Proof.Machine.execZextN32 d a s
  | .icmpEq pd a b => Sys2Proof.Machine.execIcmpEq pd a b s
  | .icmpNe pd a b => Sys2Proof.Machine.execIcmpNe pd a b s
  | .icmpLtS32 pd a b => Sys2Proof.Machine.execIcmpLtS32 pd a b s
  | .icmpLeS32 pd a b => Sys2Proof.Machine.execIcmpLeS32 pd a b s
  | .icmpGtS32 pd a b => Sys2Proof.Machine.execIcmpGtS32 pd a b s
  | .icmpGeS32 pd a b => Sys2Proof.Machine.execIcmpGeS32 pd a b s
  | .icmpLtN32 pd a b => Sys2Proof.Machine.execIcmpLtN32 pd a b s
  | .icmpLeN32 pd a b => Sys2Proof.Machine.execIcmpLeN32 pd a b s
  | .icmpGtN32 pd a b => Sys2Proof.Machine.execIcmpGtN32 pd a b s
  | .icmpGeN32 pd a b => Sys2Proof.Machine.execIcmpGeN32 pd a b s
  | .fcmpEqF32 pd a b => Sys2Proof.Machine.execFcmpEqF32 pd a b s
  | .fcmpNeF32 pd a b => Sys2Proof.Machine.execFcmpNeF32 pd a b s
  | .fcmpLtF32 pd a b => Sys2Proof.Machine.execFcmpLtF32 pd a b s
  | .fcmpLeF32 pd a b => Sys2Proof.Machine.execFcmpLeF32 pd a b s
  | .fcmpGtF32 pd a b => Sys2Proof.Machine.execFcmpGtF32 pd a b s
  | .fcmpGeF32 pd a b => Sys2Proof.Machine.execFcmpGeF32 pd a b s
  | .fcmpUnF32 pd a b => Sys2Proof.Machine.execFcmpUnF32 pd a b s
  | .fcmpOrdF32 pd a b => Sys2Proof.Machine.execFcmpOrdF32 pd a b s
  | .pand pd pa pb => Sys2Proof.Machine.execPand pd pa pb s
  | .por pd pa pb => Sys2Proof.Machine.execPor pd pa pb s
  | .pxor pd pa pb => Sys2Proof.Machine.execPxor pd pa pb s
  | .pnot pd pa => Sys2Proof.Machine.execPnot pd pa s
  | .pmovPv d => Sys2Proof.Machine.execPmovPv d s
  | .pmovVp a => Sys2Proof.Machine.execPmovVp a s
  | .voteAny pd pa => Sys2Proof.Machine.execVoteAny pd pa s
  | .voteAll pd pa => Sys2Proof.Machine.execVoteAll pd pa s
  | .voteBallot d pa => Sys2Proof.Machine.execVoteBallot d pa s
  | .mfs d num => Sys2Proof.Machine.execMfs d num s
  | .mts num a => Sys2Proof.Machine.execMts num a s
  | .clk d => Sys2Proof.Machine.execClk d s
  | .trap n => Sys2Proof.Machine.execTrap n s
  | .brk n => Sys2Proof.Machine.execBrk n s
  | .faddF32 d a b => Sys2Proof.Machine.execFaddF32 d a b s
  | .faddF16x2 d a b => Sys2Proof.Machine.execFaddF16x2 d a b s
  | .faddBf16x2 d a b => Sys2Proof.Machine.execFaddBf16x2 d a b s
  | .fsubF32 d a b => Sys2Proof.Machine.execFsubF32 d a b s
  | .fsubF16x2 d a b => Sys2Proof.Machine.execFsubF16x2 d a b s
  | .fsubBf16x2 d a b => Sys2Proof.Machine.execFsubBf16x2 d a b s
  | .fmulF32 d a b => Sys2Proof.Machine.execFmulF32 d a b s
  | .fmulF16x2 d a b => Sys2Proof.Machine.execFmulF16x2 d a b s
  | .fmulBf16x2 d a b => Sys2Proof.Machine.execFmulBf16x2 d a b s
  | .fminF32 d a b => Sys2Proof.Machine.execFminF32 d a b s
  | .fminF16x2 d a b => Sys2Proof.Machine.execFminF16x2 d a b s
  | .fminBf16x2 d a b => Sys2Proof.Machine.execFminBf16x2 d a b s
  | .fmaxF32 d a b => Sys2Proof.Machine.execFmaxF32 d a b s
  | .fmaxF16x2 d a b => Sys2Proof.Machine.execFmaxF16x2 d a b s
  | .fmaxBf16x2 d a b => Sys2Proof.Machine.execFmaxBf16x2 d a b s
  | .fabsF32 d a => Sys2Proof.Machine.execFabsF32 d a s
  | .fabsF16x2 d a => Sys2Proof.Machine.execFabsF16x2 d a s
  | .fabsBf16x2 d a => Sys2Proof.Machine.execFabsBf16x2 d a s
  | .fnegF32 d a => Sys2Proof.Machine.execFnegF32 d a s
  | .fnegF16x2 d a => Sys2Proof.Machine.execFnegF16x2 d a s
  | .fnegBf16x2 d a => Sys2Proof.Machine.execFnegBf16x2 d a s
  | .fdivF32 d a b => Sys2Proof.Machine.execFdivF32 d a b s
  | .fsqrtF32 d a => Sys2Proof.Machine.execFsqrtF32 d a s
  | .frndF32 d a => Sys2Proof.Machine.execFrndF32 d a s
  | .ffractF32 d a => Sys2Proof.Machine.execFfractF32 d a s
  | .fmaF32 d a b c => Sys2Proof.Machine.execFmaF32 d a b c s
  | .fmsF32 d a b c => Sys2Proof.Machine.execFmsF32 d a b c s
  | .fnmaF32 d a b c => Sys2Proof.Machine.execFnmaF32 d a b c s
  | .fclampF32 d a b c => Sys2Proof.Machine.execFclampF32 d a b c s
  | .fmaF16x2 d a b c => Sys2Proof.Machine.execFmaF16x2 d a b c s
  | .fmaBf16x2 d a b c => Sys2Proof.Machine.execFmaBf16x2 d a b c s
  | .fmsF16x2 d a b c => Sys2Proof.Machine.execFmsF16x2 d a b c s
  | .fmsBf16x2 d a b c => Sys2Proof.Machine.execFmsBf16x2 d a b c s
  | .frcpF32 d a sb => Sys2Proof.Machine.execFrcpF32 d a sb s
  | .frsqF32 d a sb => Sys2Proof.Machine.execFrsqF32 d a sb s
  | .fexp2F32 d a sb => Sys2Proof.Machine.execFexp2F32 d a sb s
  | .flog2F32 d a sb => Sys2Proof.Machine.execFlog2F32 d a sb s
  | .fsinF32 d a sb => Sys2Proof.Machine.execFsinF32 d a sb s
  | .fcosF32 d a sb => Sys2Proof.Machine.execFcosF32 d a sb s
  | .cvtF32S32 d a => Sys2Proof.Machine.execCvtF32S32 d a s
  | .cvtF32N32 d a => Sys2Proof.Machine.execCvtF32N32 d a s
  | .cvtS32F32 d a => Sys2Proof.Machine.execCvtS32F32 d a s
  | .cvtN32F32 d a => Sys2Proof.Machine.execCvtN32F32 d a s
  | .cvtF16F32 d a => Sys2Proof.Machine.execCvtF16F32 d a s
  | .cvtF32F16 d a lane => Sys2Proof.Machine.execCvtF32F16 d a lane s
  | .cvtBf16F32 d a => Sys2Proof.Machine.execCvtBf16F32 d a s
  | .cvtF32Bf16 d a lane => Sys2Proof.Machine.execCvtF32Bf16 d a lane s
  | .cvtF16x2F32 d a b => Sys2Proof.Machine.execCvtF16x2F32 d a b s
  | .cvtBf16x2F32 d a b => Sys2Proof.Machine.execCvtBf16x2F32 d a b s
  | .cvtF32S64 d a => Sys2Proof.Machine.execCvtF32S64 d a s
  | .cvtS64F32 d a => Sys2Proof.Machine.execCvtS64F32 d a s
  | .cvtkK8F32 d a fs lane => Sys2Proof.Machine.execCvtkK8F32 d a fs lane s
  | .cvtkF32K8 d a fs lane => Sys2Proof.Machine.execCvtkF32K8 d a fs lane s
  | .qntK8 d a fs lane => Sys2Proof.Machine.execQntK8 d a fs lane s
  | .qntS8 d a fs lane => Sys2Proof.Machine.execQntS8 d a fs lane s
  | .dqntK8 d a fs lane => Sys2Proof.Machine.execDqntK8 d a fs lane s
  | .dqntS8 d a fs lane => Sys2Proof.Machine.execDqntS8 d a fs lane s
  | .packB8 d a b => Sys2Proof.Machine.execPackB8 d a b s
  | .packB16 d a b => Sys2Proof.Machine.execPackB16 d a b s
  | .unpackS8 d a lane => Sys2Proof.Machine.execUnpackS8 d a lane s
  | .unpackN8 d a lane => Sys2Proof.Machine.execUnpackN8 d a lane s
  | .unpackS16 d a lane => Sys2Proof.Machine.execUnpackS16 d a lane s
  | .unpackN16 d a lane => Sys2Proof.Machine.execUnpackN16 d a lane s
  | .xget d a b => Sys2Proof.Machine.execXget d a b s
  | .xshiftUp d a b => Sys2Proof.Machine.execXshiftUp d a b s
  | .xshiftDn d a b => Sys2Proof.Machine.execXshiftDn d a b s
  | .xscanAddS32 d a => Sys2Proof.Machine.execXscanAddS32 d a s
  | .xscanAddF32 d a => Sys2Proof.Machine.execXscanAddF32 d a s
  | .xscanMinS32 d a => Sys2Proof.Machine.execXscanMinS32 d a s
  | .xscanMaxS32 d a => Sys2Proof.Machine.execXscanMaxS32 d a s
  | .xscanMinF32 d a => Sys2Proof.Machine.execXscanMinF32 d a s
  | .xscanMaxF32 d a => Sys2Proof.Machine.execXscanMaxF32 d a s
  | .xredAddS32 d a => Sys2Proof.Machine.execXredAddS32 d a s
  | .xredAddF32 d a => Sys2Proof.Machine.execXredAddF32 d a s
  | .xredMinS32 d a => Sys2Proof.Machine.execXredMinS32 d a s
  | .xredMaxS32 d a => Sys2Proof.Machine.execXredMaxS32 d a s
  | .xredMinF32 d a => Sys2Proof.Machine.execXredMinF32 d a s
  | .xredMaxF32 d a => Sys2Proof.Machine.execXredMaxF32 d a s
  | .xmatch d a => Sys2Proof.Machine.execXmatch d a s
  | .xbcast d a => Sys2Proof.Machine.execXbcast d a s
  | .xquadH d a => Sys2Proof.Machine.execXquadH d a s
  | .xquadV d a => Sys2Proof.Machine.execXquadV d a s
  | .xquadD d a => Sys2Proof.Machine.execXquadD d a s
  | .tmovToRegister d t rc ge gidx imm => Sys2Proof.Machine.execTmovToRegister d t rc ge gidx imm s
  | .tmovToSlice a t rc ge gidx imm => Sys2Proof.Machine.execTmovToSlice a t rc ge gidx imm s
  | .ttr t => Sys2Proof.Machine.execTtr t s
  | .ldS8 sb d base x => Sys2Proof.Machine.execLdS8 sb d base x s
  | .ldN8 sb d base x => Sys2Proof.Machine.execLdN8 sb d base x s
  | .ldS16 sb d base x => Sys2Proof.Machine.execLdS16 sb d base x s
  | .ldN16 sb d base x => Sys2Proof.Machine.execLdN16 sb d base x s
  | .ldB32 sb d base x => Sys2Proof.Machine.execLdB32 sb d base x s
  | .ldB64 sb d base x => Sys2Proof.Machine.execLdB64 sb d base x s
  | .ldB128 sb d base x => Sys2Proof.Machine.execLdB128 sb d base x s
  | .ldtB32 sb d base x => Sys2Proof.Machine.execLdtB32 sb d base x s
  | .ldtB64 sb d base x => Sys2Proof.Machine.execLdtB64 sb d base x s
  | .ldtB128 sb d base x => Sys2Proof.Machine.execLdtB128 sb d base x s
  | .vmvK8 sb d base x => Sys2Proof.Machine.execVmvK8 sb d base x s
  | .vmvBf16 sb d base x => Sys2Proof.Machine.execVmvBf16 sb d base x s
  | .vmvF32 sb d base x => Sys2Proof.Machine.execVmvF32 sb d base x s
  | .stB8 d base x => Sys2Proof.Machine.execStB8 d base x s
  | .stB16 d base x => Sys2Proof.Machine.execStB16 d base x s
  | .stB32 d base x => Sys2Proof.Machine.execStB32 d base x s
  | .stB64 d base x => Sys2Proof.Machine.execStB64 d base x s
  | .stB128 d base x => Sys2Proof.Machine.execStB128 d base x s
  | .sttB32 d base x => Sys2Proof.Machine.execSttB32 d base x s
  | .sttB64 d base x => Sys2Proof.Machine.execSttB64 d base x s
  | .sttB128 d base x => Sys2Proof.Machine.execSttB128 d base x s
  | .atomAddS32 sb d data base => Sys2Proof.Machine.execAtomAddS32 sb d data base s
  | .atomAddF32 sb d data base => Sys2Proof.Machine.execAtomAddF32 sb d data base s
  | .atomMinS32 sb d data base => Sys2Proof.Machine.execAtomMinS32 sb d data base s
  | .atomMinN32 sb d data base => Sys2Proof.Machine.execAtomMinN32 sb d data base s
  | .atomMaxS32 sb d data base => Sys2Proof.Machine.execAtomMaxS32 sb d data base s
  | .atomMaxN32 sb d data base => Sys2Proof.Machine.execAtomMaxN32 sb d data base s
  | .atomAndB32 sb d data base => Sys2Proof.Machine.execAtomAndB32 sb d data base s
  | .atomOrB32 sb d data base => Sys2Proof.Machine.execAtomOrB32 sb d data base s
  | .atomXorB32 sb d data base => Sys2Proof.Machine.execAtomXorB32 sb d data base s
  | .atomExchB32 sb d data base => Sys2Proof.Machine.execAtomExchB32 sb d data base s
  | .atomCasB32 sb d data base => Sys2Proof.Machine.execAtomCasB32 sb d data base s
  | .atomAddS64 sb d data base => Sys2Proof.Machine.execAtomAddS64 sb d data base s
  | .atomExchB64 sb d data base => Sys2Proof.Machine.execAtomExchB64 sb d data base s
  | .atomCasB64 sb d data base => Sys2Proof.Machine.execAtomCasB64 sb d data base s
  | .atomAddS32Noret data base => Sys2Proof.Machine.execAtomAddS32Noret data base s
  | .atomAddF32Noret data base => Sys2Proof.Machine.execAtomAddF32Noret data base s
  | .atomMinS32Noret data base => Sys2Proof.Machine.execAtomMinS32Noret data base s
  | .atomMinN32Noret data base => Sys2Proof.Machine.execAtomMinN32Noret data base s
  | .atomMaxS32Noret data base => Sys2Proof.Machine.execAtomMaxS32Noret data base s
  | .atomMaxN32Noret data base => Sys2Proof.Machine.execAtomMaxN32Noret data base s
  | .atomAndB32Noret data base => Sys2Proof.Machine.execAtomAndB32Noret data base s
  | .atomOrB32Noret data base => Sys2Proof.Machine.execAtomOrB32Noret data base s
  | .atomXorB32Noret data base => Sys2Proof.Machine.execAtomXorB32Noret data base s
  | .atomAddS64Noret data base => Sys2Proof.Machine.execAtomAddS64Noret data base s
  | .atomtAddS32 sb d data base => Sys2Proof.Machine.execAtomtAddS32 sb d data base s
  | .atomtMinS32 sb d data base => Sys2Proof.Machine.execAtomtMinS32 sb d data base s
  | .atomtMaxS32 sb d data base => Sys2Proof.Machine.execAtomtMaxS32 sb d data base s
  | .atomtExchB32 sb d data base => Sys2Proof.Machine.execAtomtExchB32 sb d data base s
  | .atomtCasB32 sb d data base => Sys2Proof.Machine.execAtomtCasB32 sb d data base s
  | .atomtAddF32 sb d data base => Sys2Proof.Machine.execAtomtAddF32 sb d data base s
  | .wait m => Sys2Proof.Machine.execWait m s
  | .nop => Sys2Proof.Machine.execNop s
  | .ret => Sys2Proof.Machine.execRet s
  | .exit => Sys2Proof.Machine.execExit s
  | .kill => Sys2Proof.Machine.execKill s
  | .rti => Sys2Proof.Machine.execRti s
  | .fence => Sys2Proof.Machine.execFence s
  | .xfence => Sys2Proof.Machine.execXfence s
  | .wcflush => Sys2Proof.Machine.execWcflush s
  | .macq => Sys2Proof.Machine.execMacq s
  | .mrel => Sys2Proof.Machine.execMrel s
  | .rbset n m => Sys2Proof.Machine.execRbset n m s
  | .rbjoin n m => Sys2Proof.Machine.execRbjoin n m s
  | .tbar n m => Sys2Proof.Machine.execTbar n m s
  | .cbar n m => Sys2Proof.Machine.execCbar n m s
  | .gbar n m => Sys2Proof.Machine.execGbar n m s
  | .cvsign n m pd => Sys2Proof.Machine.execCvsign n m pd s
  | .ringwait n stage ph m => Sys2Proof.Machine.execRingwait n stage ph m s
  | .ringpass n stage ph m => Sys2Proof.Machine.execRingpass n stage ph m s
  | .ovload ot id => Sys2Proof.Machine.execOvload ot id s
  | .ovdrop ot => Sys2Proof.Machine.execOvdrop ot s
  | .ovinv id => Sys2Proof.Machine.execOvinv id s
  | .ovq d ot => Sys2Proof.Machine.execOvq d ot s
  | .talloc h a level => Sys2Proof.Machine.execTalloc h a level s
  | .tfree h => Sys2Proof.Machine.execTfree h s
  | .tpres d h => Sys2Proof.Machine.execTpres d h s
  | .cpy h q sb b4 => Sys2Proof.Machine.execCpy h q sb b4 s
  | .cpyg h q sb => Sys2Proof.Machine.execCpyg h q sb s
  | .cpst h q sb b4 => Sys2Proof.Machine.execCpst h q sb b4 s
  | .cpfill h a sb => Sys2Proof.Machine.execCpfill h a sb s
  | .mbind cv acc h fs sb => Sys2Proof.Machine.execMbind cv acc h fs sb s
  | .mbindR cv acc g fs sb => Sys2Proof.Machine.execMbindR cv acc g fs sb s
  | .msignReg cv v => Sys2Proof.Machine.execMsignReg cv v s
  | .msignSlice cv t ge gidx imm => Sys2Proof.Machine.execMsignSlice cv t ge gidx imm s
  | .msignReReg cv v => Sys2Proof.Machine.execMsignReReg cv v s
  | .msignReSlice cv t ge gidx imm => Sys2Proof.Machine.execMsignReSlice cv t ge gidx imm s
  | .msignReNone cv => Sys2Proof.Machine.execMsignReNone cv s
  | .mzero acc => Sys2Proof.Machine.execMzero acc s
  | .mmac acc gA sb => Sys2Proof.Machine.execMmac acc gA sb s
  | .accalloc acc n => Sys2Proof.Machine.execAccalloc acc n s
  | .accfree acc n => Sys2Proof.Machine.execAccfree acc n s
  | .mdrainHandle acc h fs sb => Sys2Proof.Machine.execMdrainHandle acc h fs sb s
  | .mdrainTHandle acc h fs sb => Sys2Proof.Machine.execMdrainTHandle acc h fs sb s
  | .mdrainMemory acc gQ fs sb => Sys2Proof.Machine.execMdrainMemory acc gQ fs sb s
  | .mdrainTMemory acc gQ fs sb => Sys2Proof.Machine.execMdrainTMemory acc gQ fs sb s
  | .accld v acc h c sb => Sys2Proof.Machine.execAccld v acc h c sb s
  | .accst v acc h c => Sys2Proof.Machine.execAccst v acc h c s
  | .bpush a b sb => Sys2Proof.Machine.execBpush a b sb s
  | .bpop d a b sb => Sys2Proof.Machine.execBpop d a b sb s
  | .cont a b => Sys2Proof.Machine.execCont a b s
  | .bflush b => Sys2Proof.Machine.execBflush b s
  | .bquery d b sb => Sys2Proof.Machine.execBquery d b sb s
  | .wgpush a b sb => Sys2Proof.Machine.execWgpush a b sb s
  | .mesh d a b sb => Sys2Proof.Machine.execMesh d a b sb s
  | .fseal d sb => Sys2Proof.Machine.execFseal d sb s
  | .fwait d a => Sys2Proof.Machine.execFwait d a s
  | .attr d a b sb => Sys2Proof.Machine.execAttr d a b sb s
  | .attrD d a b sb => Sys2Proof.Machine.execAttrD d a b sb s
  | .bary d a sb => Sys2Proof.Machine.execBary d a sb s
  | .smp d a b sb => Sys2Proof.Machine.execSmp d a b sb s
  | .rldB32 sb d base x => Sys2Proof.Machine.execRldB32 sb d base x s
  | .rldB64 sb d base x => Sys2Proof.Machine.execRldB64 sb d base x s
  | .rldB128 sb d base x => Sys2Proof.Machine.execRldB128 sb d base x s
  | .rstB32 d base x => Sys2Proof.Machine.execRstB32 d base x s
  | .rstB64 d base x => Sys2Proof.Machine.execRstB64 d base x s
  | .rstB128 d base x => Sys2Proof.Machine.execRstB128 d base x s
  | .ratomAddS32 sb d base x => Sys2Proof.Machine.execRatomAddS32 sb d base x s
  | .ratomAddS64 sb d base x => Sys2Proof.Machine.execRatomAddS64 sb d base x s
  | .ratomExchB64 sb d base x => Sys2Proof.Machine.execRatomExchB64 sb d base x s
  | .ratomCasB64 sb d base x => Sys2Proof.Machine.execRatomCasB64 sb d base x s
  | .coll g sb => Sys2Proof.Machine.execColl g sb s
  | .cwait g d => Sys2Proof.Machine.execCwait g d s
  | .clauseIssue core reed => Sys2Proof.Machine.execClauseIssue core reed s
  | .ageExpiry core reed => Sys2Proof.Machine.execAgeExpiry core reed s
  | .pauseEnd grp => Sys2Proof.Machine.execPauseEnd grp s
  | .resultReturn rid => Sys2Proof.Machine.execResultReturn rid s
  | .storeTimestamp grp => Sys2Proof.Machine.execStoreTimestamp grp s
  | .ptsTick => Sys2Proof.Machine.execPtsTick s
  | .tlbRefill core ctx vpage => Sys2Proof.Machine.execTlbRefill core ctx vpage s
  | .barrierRelease grid owner n => Sys2Proof.Machine.execBarrierRelease grid owner n s
  | .levelStep => Sys2Proof.Machine.execLevelStep s
  | .ctxBind ctx => Sys2Proof.Machine.execCtxBind ctx s
  | .ctxStart ctx => Sys2Proof.Machine.execCtxStart ctx s
  | .ctxSuspend ctx => Sys2Proof.Machine.execCtxSuspend ctx s
  | .ctxResume ctx => Sys2Proof.Machine.execCtxResume ctx s
  | .ctxThaw ctx => Sys2Proof.Machine.execCtxThaw ctx s
  | .ctxKill ctx => Sys2Proof.Machine.execCtxKill ctx s
  | .contextDrainComplete ctx => Sys2Proof.Machine.execContextDrainComplete ctx s
  | .doorbell peer udp form ref seqs body => Sys2Proof.Machine.execDoorbell peer udp form ref seqs body s
  | .packetParse ctx queue => Sys2Proof.Machine.execPacketParse ctx queue s
  | .packetLaunch ctx queue idx => Sys2Proof.Machine.execPacketLaunch ctx queue idx s
  | .packetRetire ctx queue idx => Sys2Proof.Machine.execPacketRetire ctx queue idx s
  | .queueEnable ctx queue => Sys2Proof.Machine.execQueueEnable ctx queue s
  | .queuePreempt ctx queue => Sys2Proof.Machine.execQueuePreempt ctx queue s
  | .queueResume ctx queue => Sys2Proof.Machine.execQueueResume ctx queue s
  | .queueThaw ctx queue => Sys2Proof.Machine.execQueueThaw ctx queue s
  | .queueReset ctx queue => Sys2Proof.Machine.execQueueReset ctx queue s
  | .teamPlace grid => Sys2Proof.Machine.execTeamPlace grid s
  | .argumentWindowLoad team => Sys2Proof.Machine.execArgumentWindowLoad team s
  | .teamSaveComplete team => Sys2Proof.Machine.execTeamSaveComplete team s
  | .teamResume cluster => Sys2Proof.Machine.execTeamResume cluster s
  | .forwardedArrival core entry => Sys2Proof.Machine.execForwardedArrival core entry s
  | .groupEnd grp => Sys2Proof.Machine.execGroupEnd grp s
  | .gridRetire grid => Sys2Proof.Machine.execGridRetire grid s
  | .overlayFetchComplete core fetch => Sys2Proof.Machine.execOverlayFetchComplete core fetch s
  | .ovwaitTimeout core fetch => Sys2Proof.Machine.execOvwaitTimeout core fetch s
  | .accGrant core => Sys2Proof.Machine.execAccGrant core s
  | .accwaitTimeout core => Sys2Proof.Machine.execAccwaitTimeout core s
  | .matrixOperationComplete core => Sys2Proof.Machine.execMatrixOperationComplete core s
  | .drainComplete core entry => Sys2Proof.Machine.execDrainComplete core entry s
  | .copyCommandStart core => Sys2Proof.Machine.execCopyCommandStart core s
  | .copyLineWritten core line => Sys2Proof.Machine.execCopyLineWritten core line s
  | .binEnable core bin => Sys2Proof.Machine.execBinEnable core bin s
  | .binDisable core bin => Sys2Proof.Machine.execBinDisable core bin s
  | .recordAccept core push => Sys2Proof.Machine.execRecordAccept core push s
  | .ringRefill core bin => Sys2Proof.Machine.execRingRefill core bin s
  | .btimeout core bin => Sys2Proof.Machine.execBtimeout core bin s
  | .binLaunch core bin => Sys2Proof.Machine.execBinLaunch core bin s
  | .quadTest owner => Sys2Proof.Machine.execQuadTest owner s
  | .classify frame tile => Sys2Proof.Machine.execClassify frame tile s
  | .tileWriteOut frame tile => Sys2Proof.Machine.execTileWriteOut frame tile s
  | .sealComplete frame => Sys2Proof.Machine.execSealComplete frame s
  | .write peer udp form ref seqs body => Sys2Proof.Machine.execWrite peer udp form ref seqs body s
  | .read peer udp form ref seqs body => Sys2Proof.Machine.execRead peer udp form ref seqs body s
  | .readresp peer udp form ref seqs body => Sys2Proof.Machine.execReadresp peer udp form ref seqs body s
  | .atomic peer udp form ref seq ack addr payload => Sys2Proof.Machine.execAtomic peer udp form ref seq ack addr payload s
  | .atomicresp peer udp form ref seqs body => Sys2Proof.Machine.execAtomicresp peer udp form ref seqs body s
  | .panswer peer udp form ref seqs body => Sys2Proof.Machine.execPanswer peer udp form ref seqs body s
  | .collMessage peer udp form ref seqs addr payload => Sys2Proof.Machine.execCollMessage peer udp form ref seqs addr payload s
  | .mgmt peer udp form ref seqs addr payload => Sys2Proof.Machine.execMgmt peer udp form ref seqs addr payload s
  | .ack peer cover body => Sys2Proof.Machine.execAck peer cover body s
  | .nak peer udp head seqs body => Sys2Proof.Machine.execNak peer udp head seqs body s
  | .retransmitTimeout peer => Sys2Proof.Machine.execRetransmitTimeout peer s
  | .peerOpen peer => Sys2Proof.Machine.execPeerOpen peer s
  | .peerClose peer => Sys2Proof.Machine.execPeerClose peer s
  | .peerThaw peer => Sys2Proof.Machine.execPeerThaw peer s
  | .handshakeDone peer => Sys2Proof.Machine.execHandshakeDone peer s
  | .portUp port => Sys2Proof.Machine.execPortUp port s
  | .portDown port => Sys2Proof.Machine.execPortDown port s
  | .invalidateAsnRange => Sys2Proof.Machine.execInvalidateAsnRange s
  | .invalidateAll => Sys2Proof.Machine.execInvalidateAll s
  | .attestationReport => Sys2Proof.Machine.execAttestationReport s
  | .reportWritten => Sys2Proof.Machine.execReportWritten s
  | .energyRead b => Sys2Proof.Machine.execEnergyRead b s
  | .powerOnReset => Sys2Proof.Machine.execPowerOnReset s
  | .networkBootRetry => Sys2Proof.Machine.execNetworkBootRetry s
  | .blockReady block n => Sys2Proof.Machine.execBlockReady block n s
  | .thermalTrip dies => Sys2Proof.Machine.execThermalTrip dies s
  | .biasStep zone up => Sys2Proof.Machine.execBiasStep zone up s
  | .tempUpdate zone temp => Sys2Proof.Machine.execTempUpdate zone temp s
  | .registerWrite addr value => Sys2Proof.Machine.execRegisterWrite addr value s
  | .invalidationComplete => Sys2Proof.Machine.execInvalidationComplete s
  | .accumulatorIncrement b amount => Sys2Proof.Machine.execAccumulatorIncrement b amount s
  | .standbyRailLoss => Sys2Proof.Machine.execStandbyRailLoss s
  | .boardPowerRemoval => Sys2Proof.Machine.execBoardPowerRemoval s
  | .networkImageFetch image => Sys2Proof.Machine.execNetworkImageFetch image s
  | .fusedCounterRaise value => Sys2Proof.Machine.execFusedCounterRaise value s

end Sys2Proof.Machine
end

