-- ==== Sys2Proof/Machine/Sched.lean ====
section
/-! DEFINITION. What may come in each part of a clk (log 6): the order of the Fife for launches and placements (R118, R131, R135, R372), and
the list of the events that may be due. -/

namespace Sys2Proof.Machine

/-! ## Placement (R118) -/

/-- A placement that waits for nothing but room: its effective priority, whether its teams were never placed, its age, the
event, and whether there is room now. -/
structure Want where
  prio : Nat
  unplaced : Nat
  age : Nat
  ev : Instr
  can : Bool
deriving DecidableEq, Repr

/-- A grid's next clusters; `n`: its place among the launched. -/
noncomputable def State.wantGrid (s : State) (n : Nat) (gr : Grid) : Option Want :=
  let k := gr.batch * gr.lr.clw * gr.lr.clh
  if s.mayRun gr && decide (gr.nextCl < gr.lr.clusters) && !gr.src.isBin && s.quotaOk gr.ctx k (k * gr.lr.saveBytes (s.qacc gr.ctx)) then
    some ⟨gr.prio, 1, n, .teamPlace gr.id, (s.planGrid gr).isSome⟩
  else none

/-- A saved cluster, or a saved cooperative grid. -/
noncomputable def State.wantCluster (s : State) (c : Cluster) : Option Want :=
  match s.grid? c.grid with
  | none => none
  | some gr =>
    let set := s.resumeSet c.id
    let n := (set.map fun c => (s.savedTeams c.id).length).sum
    if !s.mayRun gr || set.any (fun c => c.st != .saved) || n = 0 || !s.quotaOk gr.ctx n 0
        || (gr.lr.coop && s.dev.teams.any fun t => t.grid == gr.id && t.st == .saving) then none
    else some ⟨gr.prio, 0, c.id, .teamResume c.id, (s.resumeAll gr set).isSome⟩

/-- A bin's group that is due (R372). -/
noncomputable def State.wantBin (s : State) (core : Nat) (b : Bin) : Option Want :=
  match b.lr with
  | none => none
  | some r =>
    if s.binDue core b && s.ctxState b.ctx == .active && decide (b.q.length ≥ min 32 b.count) && s.coreReady core
        && s.quotaOk b.ctx 1 (r.saveBytes (s.qacc b.ctx)) then
      some ⟨min (((s.ctx? b.ctx).map fun c => c.e.prio).getD 0) r.prio, 1, s.dev.nextId, .binLaunch core b.n, (s.binSeats core b r).isSome⟩
    else none

/-- Every bin of every core, with its core. -/
def State.allBins (s : State) : List (Nat × Bin) := (s.dev.cores.map fun (c, k) => k.bins.map fun b => (c, b)).flatten

/-- All that waits for room. -/
noncomputable def State.wants (s : State) : List Want :=
  (((List.range s.dev.grids.length).zip s.dev.grids).filterMap fun (n, g) => s.wantGrid n g)
    ++ (s.dev.clusters.filter fun c => c.st == .saved).filterMap s.wantCluster ++ s.allBins.filterMap fun (c, b) => s.wantBin c b

/-- The highest effective priority that waits for room. -/
def topPrio (l : List Want) : Nat := l.foldl (fun m w => max m w.prio) 0

/-- What may be placed now: only the highest priority that waits; resumed teams before teams never placed; the older first. -/
noncomputable def State.placements (s : State) : List Instr :=
  let l := s.wants
  (sortBy (fun w => w.unplaced) (sortBy (fun w => w.age) (l.filter fun w => w.prio == topPrio l && w.can))).map fun w => w.ev

/-- A launch of a bin: its group is placed at once (R372). -/
def isBinLaunch : Instr → Bool
  | .binLaunch _ _ => true
  | _ => false

/-- Pre-emption for placement (R118): where the highest priority that waits finds no room, the placed cluster, with its whole
grid where that is cooperative, of the lowest strictly lower priority is saved, the latest placed first; one at a time. -/
noncomputable def State.preempt (s : State) : State :=
  let l := s.wants
  if l.isEmpty || !s.placements.isEmpty || s.dev.teams.any (fun t => t.st == .saving) then s
  else
    let prio := fun (c : Cluster) => ((s.grid? c.grid).map fun g => g.prio).getD 16
    let lower := s.dev.clusters.filter fun c => c.st == .placed && decide (prio c < topPrio l)
    match firstBy (fun a b => decide (prio a < prio b) || (prio a == prio b && decide (b.placedAt < a.placedAt))) lower with
    | none => s
    | some c => s.requestSave fun t => t.cluster == c.id

/-! ## Launches (R118) -/

/-- A queue's place, in turn, after the one that launched last at its priority. -/
def State.turnOf (s : State) (prio ctx q : Nat) : Nat :=
  let key := fun (x : Nat × Nat) => x.1 * 16384 + x.2
  match assoc s.dev.turn prio with
  | some x => (key (ctx, q) + 2 ^ 26 - key x - 1) % 2 ^ 26
  | none => key (ctx, q)

/-- The oldest ready packet of each queue: the highest effective priority first, equals in turn. -/
noncomputable def State.launches (s : State) : List Instr :=
  let each := (s.dev.ctxs.map fun c => c.queues.filterMap fun a => (c.oldestReady a).map fun p =>
    (packetPrio c a p, s.turnOf (packetPrio c a p) c.id a.q, Instr.packetLaunch c.id a.q p.idx.toNat)).flatten
  (sortBy (fun x => 16 - x.1) (sortBy (fun x => x.2.1) each)).map fun x => x.2.2

/-! ## Reeds -/

/-- The reeds that hold groups, by core and reed: the order of the faults of one clk (R100 case 1). -/
def State.reeds (s : State) : List (Nat × Nat) :=
  sortBy (fun r => r.1) (sortBy (fun r => r.2) (distinct ((s.dev.groups.filter fun g => !g.ended).map fun g => (g.core, g.reed))))

/-- The choices of a clause by a reed, where it has none. -/
noncomputable def State.issues (s : State) (core reed : Nat) : List Instr :=
  if (s.streamAt core reed).isNone then [.ageExpiry core reed, .clauseIssue core reed] else []

/-- The trap entries of a reed to complete (R183): those of resident groups' runnable threads, by resident index. -/
def State.trapEntries (s : State) (core reed : Nat) : List (Nat × Nat) :=
  ((sortBy (fun g => g.rslot) (s.dev.groups.filter fun g => g.core == core && g.reed == reed && !g.ended && s.residentTeam g.team)).map fun g =>
    (((List.range g.threads.length).zip g.threads).filter fun (_, th) => th.runnable && th.trapPending).map fun (t, _) => (g.id, t)).flatten

/-- The next unit of a stream is an `FSEAL`, a word of class 10101 and op 1 that takes no prefix (R397). -/
def State.atSeal (s : State) (x : Stream) : Bool :=
  let start := (((s.group? x.grp).bind fun g => g.thread? (x.threads.headD 0)).map fun th => th.start).getD 0
  (((s.core x.core).copy? x.copy).bind fun k => k.word? start x.next.toNat).any fun w => field w.toNat 31 24 == 0xA9

/-- The first, by core and reed, of the streams chosen whose unit is over. -/
def State.firstStream (s : State) (sel : Stream → Bool) : Option Stream :=
  firstBy (fun a b => decide (a.core < b.core) || (a.core == b.core && decide (a.reed < b.reed)))
    (s.dev.streams.filter fun x => x.outcome.isNone && decide (x.free ≤ s.dev.clk) && sel x)

/-- The cores that anything may happen on, in ascending core number. -/
def State.coreList (s : State) : List Nat :=
  sortBy (fun x => x) (distinct (s.dev.cores.map (fun x => x.1) ++ s.dev.groups.map (fun g => g.core) ++ s.dev.refills.map (fun x => x.1) ++
    s.dev.fwds.map (fun f => f.core) ++ s.dev.pushes.map (fun p => p.core) ++ s.dev.quads.map (fun q => q.owner) ++
    (s.dev.frames.map fun f => (List.range f.fr.tiles).map fun t => s.tileOwner f.fr t).flatten))

/-- The core whose part of the clk it is: the first, in ascending core number, whose events have not come (R286, R287, R302, R317). -/
def State.turn? (s : State) : Option Nat := s.coreList.find? fun c => decide (s.dev.part ≤ c)

/-- The next stream to issue: those at an `FSEAL` first, so that a `MESH` of the same clk issues later (R386 item 3, R408 case 1); then those
of the core whose part it is. -/
def State.nextStream (s : State) : Option Stream :=
  (s.firstStream s.atSeal).or (s.turn?.bind fun c => s.firstStream fun x => x.core == c)

/-! ## Bins -/

/-- Grants of banks, of those free as the clk begins, and their timeouts (R341, R342, R365 cases 1 and 4). -/
noncomputable def State.bankEvents (s : State) : List Instr :=
  (s.dev.cores.map fun (c, _) => [Instr.accGrant c, .accwaitTimeout c]).flatten

/-- Refills, records still to be read, and timeouts of bins (R368, R369, R371). -/
noncomputable def State.binEvents (s : State) : List Instr :=
  (s.allBins.map fun (c, b) => [Instr.ringRefill c b.n] ++ (if b.lr.isSome then [.binEnable c b.n] else []) ++ [.btimeout c b.n]).flatten

/-- `BPOP`s that wait take the records that the refill has brought, in the order of their issue, after the launches (R379, R384). -/
def State.servePops (s : State) : State :=
  s.dev.results.foldl (fun s r => match r.kind with
    | .pop c n _ _ => if r.ready then s else s.servePop c n
    | _ => s) s

/-- The bins that are due and do not launch in this clk: their launch is delayed (R371, R383). -/
def State.delayBins (s : State) : State :=
  (s.allBins.filter fun (c, b) => s.binDue c b).foldl (fun s (c, b) => s.delayBin c b.n) s

/-! ## The events of a clk -/

/-- What a free choice is made among (R38, R458): results that a reed's groups await, one of each reed. -/
noncomputable def State.resultsOf (s : State) (core reed : Nat) : List Instr :=
  (s.dev.results.filter fun r => ((s.group? r.grp).map fun g => g.core == core && g.reed == reed).getD false).map fun r => .resultReturn r.id

/-- Results whose group is gone. -/
noncomputable def State.orphans (s : State) : List Instr :=
  (s.dev.results.filter fun r => (s.group? r.grp).isNone).map fun r => .resultReturn r.id

/-- The stores that a reed's groups hold. -/
noncomputable def State.storesOf (s : State) (core reed : Nat) : List Instr :=
  (s.dev.groups.filter fun g => g.core == core && g.reed == reed && !g.sq.isEmpty).map fun g => .storeTimestamp g.id

/-- Translations on their way to a core. -/
noncomputable def State.refillsOf (s : State) (core : Nat) : List Instr :=
  (s.dev.refills.filter fun x => x.1 == core).map fun (c, x, p) => .tlbRefill c x p

/-- Lines of the copy that a core's engine is at. -/
noncomputable def Core.linesOf (k : Core) (core : Nat) : List Instr :=
  ((k.cmds.take 1).map fun m => m.lines.map fun l => Instr.copyLineWritten core l).flatten

/-- What comes forwarded to a core. -/
noncomputable def State.forwardedTo (s : State) (core : Nat) : List Instr :=
  (s.dev.fwds.filter fun f => f.core == core).map fun f => .forwardedArrival core f.id

/-- Barriers and pauses. -/
noncomputable def State.clocked (s : State) : List Instr :=
  ((s.dev.grids.map fun g => (List.range 2).map fun n => Instr.barrierRelease true g.id n).flatten)
    ++ ((s.dev.clusters.map fun c => (List.range 4).map fun n => Instr.barrierRelease false c.id n).flatten)
    ++ s.dev.groups.map fun g => Instr.pauseEnd g.id

/-- Events of a core's fetcher and engines. -/
noncomputable def coreEvents (c : Nat) (k : Core) : List Instr :=
  (k.fetches.map fun f => Instr.overlayFetchComplete c f.id) ++ (k.fetches.map fun f => Instr.ovwaitTimeout c f.id)
    ++ [.matrixOperationComplete c] ++ (k.eq.map fun e => Instr.drainComplete c e.id) ++ [.copyCommandStart c]

/-- The records on their way to a core's Sheng, as they arrive: by the clk of their push, then ascending core number, then stream order
(R369, R384). -/
noncomputable def State.accepts (s : State) (core : Nat) : List Instr :=
  (sortBy (fun p => p.at_) (sortBy (fun p => p.origin) (sortBy (fun p => p.id) (s.dev.pushes.filter fun p => p.core == core)))).map
    fun p => .recordAccept p.core p.id

/-- Quads and visibility tiles of an owner. -/
noncomputable def State.drawn (s : State) (core : Nat) : List Instr :=
  (if s.dev.quads.any fun q => q.owner == core then [Instr.quadTest core] else [])
    ++ (s.dev.frames.map fun f => ((List.range f.fr.tiles).filter fun t => s.tileOwner f.fr t == core).map fun t => Instr.classify f.id t).flatten

/-- Groups and teams of a core. -/
noncomputable def State.teamEvents (s : State) (core : Nat) : List Instr :=
  ((s.dev.groups.filter fun g => g.core == core).map fun g => Instr.groupEnd g.id)
    ++ ((s.dev.teams.filter fun t => t.core == core).map fun t => Instr.teamSaveComplete t.id)
    ++ (s.dev.teams.filter fun t => t.core == core).map fun t => Instr.argumentWindowLoad t.id

/-- Frames. -/
noncomputable def State.sealed (s : State) : List Instr :=
  ((s.dev.frames.filter fun f => f.st == .unread).map fun f => Instr.classify f.id 0) ++ s.dev.frames.map fun f => Instr.sealComplete f.id

/-- Events of grids, queues and contexts. -/
noncomputable def State.managed (s : State) : List Instr :=
  (s.dev.grids.map fun g => Instr.gridRetire g.id)
    ++ (s.dev.ctxs.map fun c => (c.queues.map fun a =>
        (a.win.map fun p => Instr.packetRetire c.id a.q p.idx.toNat) ++ [.packetParse c.id a.q]).flatten).flatten
    ++ (s.dev.ctxs.map fun c => Instr.contextDrainComplete c.id)
    ++ [.invalidationComplete, .reportWritten] ++ s.dev.link.peers.map fun p => Instr.retransmitTimeout p.n

/-- Boot: the ROM runs out of reset, and each block comes ready (R431, R433). -/
noncomputable def State.booting (s : State) : List Instr :=
  let d := s.dev.die
  if d.stage = 0 && s.dev.ctxs.isEmpty then [.powerOnReset]
  else
    ((List.range 12).filter fun n => !d.zonesRdy.getLsbD n).map (Instr.blockReady 0)
      ++ ((List.range 8).filter fun n => !d.hbmRdy.getLsbD n).map (Instr.blockReady 1)
      ++ ((List.range 8).filter fun n => !d.portsRdy.getLsbD n).map (Instr.blockReady 2)
      ++ (if d.front then [] else [.blockReady 3 0])
      ++ ((List.range 192).filter fun n => !d.shengRdy.getLsbD n).map (Instr.blockReady 4)
      ++ ((List.range 192).filter fun n => !d.rastRdy.getLsbD n).map (Instr.blockReady 5) ++ [.networkBootRetry]

end Sys2Proof.Machine
end

