-- ==== Sys2Proof/Machine/Run.lean ====
section
/-! DEFINITION. What one step of the machine is, apart from where it is called (log 6): the parts of a clk in their order, each step one thing
that a part has to do, or the passing to the next part; and how a word is put where the next step fetches it. -/

namespace Sys2Proof.Machine

/-- The first event of a list that changes the state: what comes of it. -/
noncomputable def State.firstDue (s : State) : List Instr → Option (Host.Outcome State Fault Refusal)
  | [] => none
  | i :: r =>
    match exec i s with
    | .next t => if t = s then s.firstDue r else some (.next t)
    | .fault f => some (.fault f)
    | .refused x => some (.refused x)

/-- An event changes the state. -/
noncomputable def State.isDue (s : State) (i : Instr) : Bool := (s.firstDue [i]).isSome

/-- The state as the next part of the clk begins. -/
def State.toPhase (s : State) (p : Phase) : State := s.onDev fun d => { d with phase := p }

/-! ## The next clk -/

/-- Groups that may not be chosen, or whose clause is issuing, have been eligible for no time (R141 item 1). -/
def State.countEligible (s : State) : State :=
  let one := fun (g : Group) => if s.eligible g && !(s.dev.streams.any fun x => x.grp == g.id) then g else { g with eligibleAt := s.dev.clk }
  s.onDev fun d => { d with groups := d.groups.map one }

/-- ORD.FLOOR rises, to no more than a timestamp that is in use, and no program timestamp is left too far below it (R289; log 5). -/
def State.raiseFloor (s : State) : State :=
  let s := s.onDev fun d => { d with floor := max d.floor (min (Config.ordFloor d.clk).toNat s.topTs) }
  s.onDev fun d => { d with groups := d.groups.map fun g => { g with pts := s.atFloor g.pts } }

/-- A clk begins: the engines' steps, made of what earlier clk have left (R258, R259); the tick of the timestamps, before any access of the
clk (R288, R302 case 2); the floor; how long groups have been eligible;
and the doorbells that waited for FRONT (R433). -/
def State.nextClk (s : State) : State :=
  ((((s.onDev fun d => { d with clk := d.clk + 1, phase := .issue }).engineClk.ptsTick).raiseFloor).countEligible).frontBells

/-! ## The choice of clauses (R141, R183) -/

/-- A stream whose clause is over, once the time of its last unit has passed. -/
def State.overStream (s : State) : Option Stream := s.dev.streams.find? fun x => x.outcome.isSome && decide (x.free ≤ s.dev.clk)

/-- The first of the trap entries that goes on (R183). -/
def State.goTrap (s : State) : List (Nat × Nat) → Option State
  | [] => none
  | (g, t) :: r => if s.completeTrap g t = s then s.goTrap r else some (s.completeTrap g t)

/-- What a reed does next of its choice: a trap entry goes on, or it chooses a clause. -/
noncomputable def State.reedDue (s : State) (r : Nat × Nat) : Option (Host.Outcome State Fault Refusal) :=
  ((s.goTrap (s.trapEntries r.1 r.2)).map .next).or (s.firstDue (s.issues r.1 r.2))

/-- Clauses that are over leave their reeds; then, reed by reed, trap entries go on and the reeds that are free choose a clause. -/
noncomputable def State.stepIssue (s : State) : Host.Outcome State Fault Refusal :=
  match s.overStream with
  | some x => .next (s.finishClause x (x.outcome.getD false))
  | none => (s.reeds.findSome? s.reedDue).getD (.next (s.toPhase .bins))

/-! ## Banks and bins (R365, R384) -/

/-- Grants of the banks free as the clk begins; refills, then launches, of the bins that hold records then. A launch that is due but not
made is delayed. -/
noncomputable def State.stepBins (s : State) : Host.Outcome State Fault Refusal :=
  (s.firstDue (s.bankEvents ++ s.binEvents ++ s.placements.takeWhile isBinLaunch)).getD (.next (s.delayBins.servePops.toPhase .units))

/-! ## Events -/

/-- A free choice among the events of a list that are due: which comes, or that none does yet (R38, R458); the first comes where nothing
else is to be done (log 6). -/
noncomputable def State.choose (s : State) (quiet : Bool) (acc : List Instr × Nat) (l : List Instr) : List Instr × Nat :=
  match l.filter s.isDue with
  | [] => acc
  | i :: r => (acc.1 ++ (((i :: r)[Config.schedule acc.2]?).or (if quiet then some i else none)).toList, acc.2 + 1)

/-- What is due of a core once its units have issued: of a reed's stores, of its results and of the translations one each, chosen freely, as
the lines of a copy are. -/
noncomputable def State.coreTodo (s : State) (quiet : Bool) (c : Nat) : List Instr × Nat :=
  let reeds := (sortBy (fun x => x) (distinct ((s.dev.groups.filter fun g => g.core == c).map fun g => g.reed)))
  let (l, n) := (reeds.map (s.storesOf c) ++ reeds.map (s.resultsOf c) ++ [s.refillsOf c]).foldl (s.choose quiet) ([], s.dev.freeCtr)
  let (l, n) := s.choose quiet (l ++ coreEvents c (s.core c), n) ((s.core c).linesOf c)
  (l ++ s.forwardedTo c ++ s.accepts c ++ s.drawn c ++ s.teamEvents c, n)

/-- What comes without a choice. -/
noncomputable def State.fixed (s : State) : List Instr :=
  (s.coreList.map fun c => coreEvents c (s.core c) ++ s.forwardedTo c ++ s.accepts c ++ s.drawn c ++ s.teamEvents c).flatten ++ s.clocked ++
    s.sealed ++ s.orphans ++ s.managed

/-- Nothing else is to be done in this clk: no reed has a clause, and no event is due that comes without a choice. -/
noncomputable def State.quiet (s : State) : Bool := s.dev.streams.isEmpty && (s.firstDue s.fixed).isNone

/-- The events of a core, in their order, come next; then it is the next core's part. -/
noncomputable def State.planCore (s : State) (c : Nat) : State :=
  let (l, n) := s.coreTodo s.quiet c
  s.onDev fun d => { d with freeCtr := n, todo := l, part := c + 1 }

/-- The events of no one core come next. -/
noncomputable def State.planRest (s : State) : State :=
  s.onDev fun d => { d with phase := .events, part := 0, todo := s.clocked ++ s.sealed ++ s.orphans ++ s.managed }

/-! ## Units -/

/-- The unit of the stream at the focus, fetched and executed. -/
noncomputable def State.stepStream (s : State) : Host.Outcome State Fault Refusal :=
  match s.fetchUnit with
  | (s', none) => .next s'
  | (s', some i) =>
    match exec i s' with
    | .next t => .next (s'.endUnit t i)
    | .fault f => .fault f
    | .refused r => .refused r

/-- An event of the clk comes; `go` where there is none. -/
noncomputable def State.stepTodo (s : State) (go : Host.Outcome State Fault Refusal) : Host.Outcome State Fault Refusal :=
  match s.dev.todo with
  | i :: r => exec i (s.onDev fun d => { d with todo := r })
  | [] => go

/-- Core by core: the streams issue their units, then the core's events come. -/
noncomputable def State.stepUnits (s : State) : Host.Outcome State Fault Refusal :=
  s.stepTodo <| match s.nextStream with
    | some x => (s.onDev fun d => { d with focus := (x.core, x.reed) }).stepStream
    | none => .next (match s.turn? with
      | some c => s.planCore c
      | none => s.planRest)

/-! ## The step -/

/-- What the Fife launches and places; where nothing is placed, room is made (R118). Then blocks come ready, for use from the next clk
(R433), and the clk ends. -/
noncomputable def State.stepPlace (s : State) : Host.Outcome State Fault Refusal :=
  (s.firstDue (s.launches ++ s.placements.filter fun i => !isBinLaunch i)).getD
    (if s.preempt = s then (s.firstDue s.booting).getD (.next s.nextClk) else .next s.preempt)

/-- The next of the steps given; `go` where there is none. -/
noncomputable def State.stepGiven (s : State) (go : Host.Outcome State Fault Refusal) : Host.Outcome State Fault Refusal :=
  match s.agenda with
  | i :: r => exec i { s with agenda := r }
  | [] => go

/-- One step. A part without power takes only what it is given. -/
noncomputable def State.stepOnce (s : State) : Host.Outcome State Fault Refusal :=
  if !s.dev.die.powered then s.stepGiven (.next s.nextClk)
  else match s.dev.phase with
    | .issue => s.stepIssue
    | .bins => s.stepBins
    | .units => s.stepUnits
    | .events => s.stepTodo (.next (s.toPhase .given))
    | .given => s.stepGiven (.next (s.toPhase .place))
    | .place => s.stepPlace

/-! ## A word where the next step fetches it -/

/-- The ECLASS that permits a class, and a role that may issue it (R42, R43). -/
def hostFor (cls : Nat) : Nat × Role :=
  if permits 0 cls then (0, .vector) else if permits 1 cls then (1, .vector) else if permits 2 cls then (2, .matrix)
  else if permits 3 cls then (3, .copy) else (4, .vector)

/-- A format slot that suits a word (R204): INT8 for the 8-bit integer conversions, else MK8. -/
def hostSlot (w : Word) : FmtSlot :=
  let o := field w.toNat 26 21
  { fmt := if w.toNat / 2 ^ 27 = 6 && (o = 15 || o = 17) then 4 else 3, scale := 0, rnd := 0, ovf := 0, resv := 0, cap := 0, olbase := 0,
    scaleref := 0 }

/-- The launch record of the grid that holds a word: 64 registers, one group of a role. -/
def hostLaunch (role : Role) (fs : FmtSlot) : LaunchRec :=
  { codebase := 0, ovtable := 0, ovcount := 0, entry := 0#32, entryov := 0, prio := 0, flags := 0, regs := 64, teamGroups := 1, clw := 1,
    clh := 1, gx := 1, gy := 1, gz := 1, handles := 0, tdcount := 0, tlines := 0,
    roles := match role with
      | .vector => 0#64
      | .matrix => 1#64
      | .copy => 2#64,
    args := 0, tdtable := 0, trapimg := 0, trapov := 0, trapentry := 0#32, resvZero := true, fs := List.replicate 8 fs, decls := [] }

/-- The words of a clause that holds one instruction word: header, the IMM prefix where the instruction requires one, the
word. -/
def hostClause (w : Word) : List Word :=
  let pre := if (accepts w).need then [wordOfImm 0#24] else []
  wordOfHeader { drain := false, wait := 0#8, eclass := BitVec.ofNat 3 (hostFor (w.toNat / 2 ^ 27)).1, count := BitVec.ofNat 4 (pre.length + 1) }
    :: pre ++ [w]

/-- The state with a word in a clause that is issuing: context 0, ACTIVE, with a grid of one team of one group, whose clause
at code address 0 is resident on core 0, and a stream of its thread 0 on reed 0; no access is under way (log 6). -/
def State.withWord (s : State) (w : Word) : State :=
  let role := (hostFor (w.toNat / 2 ^ 27)).2
  let ws := hostClause w
  let e : CtxEntry := ⟨0, 0, 0, 0, 0, 0, 0#32, 0, 0, 0, 0, 0, 0, 0, 0⟩
  let c : Ctx := { newCtx 0 e [] with st := .active }
  let gr : Grid := { newGrid 1 0 (.packet 0 0 0#32) (hostLaunch role (hostSlot w)) 0 0 with st := .running, order := some 0, nextCl := 1 }
  let cl : Cluster := { id := 2, grid := 1, cx := 0, cy := 0, cz := 0, idx := 0, st := .placed, origin := 0, placedAt := s.dev.clk,
                        cb := List.replicate 4 ⟨none, false, 0⟩, mmac := [] }
  let tm : Team := { freshTeam 3 gr 2 0 0 0 with window := some (List.replicate 256 (.ok 0#32)) }
  let g : Group := freshGroup 4 gr 3 0 0 0 0 0 s.dev.clk
  let first : Word := 4#32
  let g := { g with threads := g.threads.map fun th => { th with copy := 5, vpc := first }, role := role }
  let k : Copy := { id := 5, ctx := 0, domain := 0, ident := 0, gen := 0, start := 0, slots := 1, slotNos := [0], digest := [], share := false,
                    words := wordMapOf ws, binds := [⟨0, 0, 0, 0, 0, false, false⟩], entered := s.dev.clk }
  let st : Stream :=
    { core := 0, reed := 0, grp := 4, mask := 1#32, copy := 5, hdr := 0#32, unit := first, next := first,
      last := BitVec.ofNat 32 (4 * (ws.length - 1)), drain := false, imm := none, neg := false, pred := 7#3, ce := false, pol := 0#2,
      re := false, rm := 0#2, sat := false, bps := [], extra := 0, free := s.dev.clk, due := none, outcome := none }
  (s.updCore 0 fun x => { x with copies := [k] }).onDev fun d => { d with
    phase := .units, todo := [], part := 0, focus := (0, 0), nextId := max d.nextId 6, ctxs := [c], grids := [gr], clusters := [cl], teams := [tm], groups := [g], streams := [st],
    results := [], fwds := [], refills := [] }

end Sys2Proof.Machine
end

