-- ==== Sys2Proof/Machine/Step.lean ====
section
/-! DEFINITION. The step of the machine, and the placing of a word for the next step. -/

namespace Sys2Proof.Machine

/-- One step of the machine (log 6). -/
noncomputable def step (s : State) : Host.Outcome State Fault Refusal := s.stepOnce

/-- `s` with an instruction of `nbits` bits where the next step fetches it: in the clause that is issuing. The agenda is
empty, so that no other step is before it. -/
def State.withFetchWord (s : State) (nbits w : Nat) : State :=
  { s with agenda := [] }.withWord (BitVec.ofNat 32 (w % 2 ^ nbits))

end Sys2Proof.Machine
end

