-- ==== Sys2Proof/Safety.lean ====
section
/-! DEFINITION. The terms that statements about the machine use. -/

namespace Sys2Proof.Machine

/-! ## Streams and their threads -/

/-- A clause is issuing: `st` is the stream at the focus and `g` its group (R142). -/
def State.Issues (s : State) (st : Stream) (g : Group) : Prop := s.stream? = some st ∧ s.group? st.grp = some g

/-- The stream has one thread, home thread `k`, and it executes the unit (R53). -/
def State.IssuesOne (s : State) (st : Stream) (g : Group) (k : Nat) (th : Thread) : Prop :=
  s.Issues st g ∧ st.threads = [k] ∧ g.thread? k = some th ∧ predOn st th = true

/-- No thread of the stream executes the unit (R53). -/
def Stream.Off (st : Stream) (g : Group) : Prop := ∀ k ∈ st.threads, ∀ th, g.thread? k = some th → predOn st th = false

/-- The group after each executing thread of a list has acted in turn, each seeing what those before it wrote (R146, R161). -/
def inTurn (st : Stream) (act : Group → Nat → Thread → Group) : List Nat → Group → Group
  | [], g => g
  | k :: r, g => inTurn st act r (match g.thread? k with
    | some th => if predOn st th then act g k th else g
    | none => g)

/-- The group after its first executing thread alone has acted (R145). -/
def atFirst (st : Stream) (act : Group → Nat → Thread → Group) (g : Group) : Group :=
  match firstOn st g st.threads with
  | none => g
  | some k => match g.thread? k with
    | some th => act g k th
    | none => g

/-- The state after a unit that leaves the stream's group as `g'`, faults no thread and moves every thread of the stream on. -/
def State.after (s : State) (st : Stream) (g' : Group) : State := (s.updGroup st.grp fun _ => g').advance st st.threads

/-- The group after a unit of a register class has written words to a destination: once for the stream where it is uniform,
else once for each executing thread (R145, R146). -/
def written (st : Stream) (uni : Bool) (d : Opnd) (val : Group → Thread → List Word) (g : Group) : Group :=
  if uni then atFirst st (fun g k th => wrN g k d (val g th)) g
  else inTurn st (fun g k th => wrN g k d (val g th)) st.threads g

/-- Each executing thread of a list finds a condition met at its turn. -/
def eachInTurn (st : Stream) (act : Group → Nat → Thread → Group) (p : Group → Thread → Prop) : List Nat → Group → Prop
  | [], _ => True
  | k :: r, g => match g.thread? k with
    | some th => if predOn st th then p g th ∧ eachInTurn st act p r (act g k th) else eachInTurn st act p r g
    | none => eachInTurn st act p r g

/-- Each thread for which a unit writes words finds a condition met as it is streamed: the first executing one where the unit
is uniform, else every executing one. -/
def Finds (st : Stream) (uni : Bool) (d : Opnd) (val : Group → Thread → List Word) (p : Group → Thread → Prop) (g : Group) : Prop :=
  if uni then ∀ k th, firstOn st g st.threads = some k → g.thread? k = some th → p g th
  else eachInTurn st (fun g k th => wrN g k d (val g th)) p st.threads g

/-- The instruction's whole effect: its destination is written, the stream moves on, and nothing else happens. -/
def State.Gives (s : State) (i : Instr) (st : Stream) (g : Group) (uni : Bool) (d : Opnd) (val : Group → Thread → List Word) : Prop :=
  exec i s = .next (s.after st (written st uni d val g))

/-- An exact signed result: saturated to .s32 where the unit's prefix says so, else modulo 2^32 (R71, R170, R172). -/
def Stream.clamped (st : Stream) (x : Int) : Word :=
  BitVec.ofInt 32 (if st.sat then max (-2 ^ 31) (min x (2 ^ 31 - 1)) else x)

/-- Position and length of a bit field, from operand b (R173). -/
def fieldPos (B : Word) : Nat := (B.extractLsb' 0 5).toNat
def fieldLen (B : Word) : Nat := min (B.extractLsb' 8 6).toNat 32

/-- The address of a direct transfer: 4 times the offset from the header of its own clause (R50, R54). -/
def Stream.jump (st : Stream) (off : BitVec 19) : Word :=
  st.hdr + BitVec.ofNat 32 4 * (match st.imm with
    | none => off.signExtend 32
    | some p => BitVec.ofNat 32 (p.toNat % 2 ^ 13 * 2 ^ 19 + off.toNat))

/-- The address lies in the overlay of a copy used at `start` (R163 item 1). -/
def Copy.Inside (k : Copy) (start : Nat) (a : Word) : Prop := start ≤ a.toNat ∧ a.toNat < start + k.slots * 4096

/-- The address is that of a header in the overlay of a copy used at `start` (R35, R40). -/
def Copy.Lands (k : Copy) (start : Nat) (a : Word) : Prop :=
  k.Inside start a ∧ a.toNat % 4 = 0 ∧ (mget k.words ((a.toNat - start) / 4)).toNat / 2 ^ 27 = 31

/-- The trap handler of the group's grid can be entered at once: its image header is held, its overlay is resident and its
entry is a header; the group's context is not dying (R95, R183). -/
def State.HandlerReady (s : State) (g : Group) (gr : Grid) (entry : Word) (kp : Copy) (b : Bind) : Prop :=
  s.grid? g.grid = some gr ∧ s.ctxState g.ctx ≠ .dying ∧ (∃ t n, gr.trap = .ok t n) ∧
    ∃ img ov, s.handler gr = some (img, ov, entry) ∧ (s.core g.core).bound? g.ctx img ov = some (kp, b) ∧ kp.Lands b.start entry

/-! ## Floating point (R187 to R190) -/

/-- A thread's part of a floating-point unit: the destination and the flags (R194). -/
def fpAct (d : Opnd) (val : Group → Thread → List Word × FFlags) (g : Group) (k : Nat) (th : Thread) : Group :=
  (wrN g k d (val g th).1).updThread k fun x => { x with fpflags := x.fpflags ||| (val g th).2 }

/-- No exception that the thread's result raises is enabled as a fault (R190). -/
def Untrapped (th : Thread) (fl : FFlags) : Prop :=
  ¬ (fl.getLsbD 0 = true ∧ th.fptraps.getLsbD 0 = true) ∧ ¬ (fl.getLsbD 1 = true ∧ th.fptraps.getLsbD 1 = true)

/-- The instruction is a floating-point unit with these results and flags: where no enabled exception is met, every executing
thread gets them in its turn; one that meets an enabled exception takes FP invalid, or else FP divide by zero, with neither
destination nor flags written (R190, R194). -/
def State.FpUnit (s : State) (i : Instr) (st : Stream) (g : Group) (d : Opnd) (val : Group → Thread → List Word × FFlags) : Prop :=
  (eachInTurn st (fpAct d val) (fun g th => Untrapped th (val g th).2) st.threads g →
    exec i s = .next (s.after st (inTurn st (fpAct d val) st.threads g))) ∧
  ∀ k th, st.threads = [k] → g.thread? k = some th → predOn st th = true → ¬ Untrapped th (val g th).2 →
    let code := if (val g th).2.getLsbD 0 && th.fptraps.getLsbD 0 then 0x30#8 else 0x31#8
    exec i s = .next (((s.updGroup st.grp fun _ => g).takeFault st.grp k ⟨code, 0#10, st.unit, 0#64⟩ false st.unit).advance st [])

/-! ## Memory accesses (R303 to R311) -/

/-- The core's L1 TLB holds a leaf that translates an address of the group's context (R265, R270). -/
def State.Translates (s : State) (g : Group) (va : Nat) (e : TlbEntry) : Prop :=
  (s.core g.core).tlb.find? (fun x => x.asn == s.asnOf g.ctx && decide (x.vbase ≤ va) && decide (va < x.vbase + x.size)) = some e

/-- The checks of R304 pass: the address lies above virtual page 0 and below 2^57 and is aligned, and its leaf is of a type
and with the permissions that the access needs (R268); a page to be written has DTY set (R269). -/
def State.Reaches (s : State) (g : Group) (va : BitVec 64) (align : Nat) (types : List Nat) (r w : Bool) (e : TlbEntry) : Prop :=
  4096 ≤ va.toNat ∧ va.toNat < 2 ^ 57 ∧ va.toNat % align = 0 ∧ s.Translates g va.toNat e ∧ e.typ ∈ types ∧
    (r = true → e.r = true) ∧ (w = true → e.w = true ∧ e.dty = true)

/-- An access that a unit makes for a thread finds its leaf, of type C and readable, at an aligned address below 2^57; it may be to
page 0 (R268, R304 item 2). -/
def State.Finds (s : State) (g : Group) (va align : Nat) (e : TlbEntry) : Prop :=
  va < 2 ^ 57 ∧ va % align = 0 ∧ s.Translates g va e ∧ e.typ = 0 ∧ e.r = true

/-- The thread issues one result through a token: the count rises by one, and the result, with the next identity, is
outstanding until it returns (R36). -/
def State.issued (s : State) (st : Stream) (k : Nat) (sb : BitVec 3) (kind : ResKind) : State :=
  let s := { s with dev := { s.dev with
    nextId := s.dev.nextId + 1
    results := s.dev.results ++ [(⟨s.dev.nextId, st.grp, k, some sb.toNat, st.unit, kind, false, [], 0, none, false, []⟩ : Pending)] } }
  (s.updGroup st.grp fun g => { g with sb := g.sb.set sb.toNat (g.sb.getD sb.toNat 0 + 1) }).advance st [k]

/-- The thread's store enters its group's store queue, and the oldest entry there is on its way to its home (R290). -/
def State.enqueued (s : State) (st : Stream) (k : Nat) (loc : Loc) (op : SqOp) : State :=
  let s := { s with dev := { s.dev with nextId := s.dev.nextId + 1 } }
  (s.updGroup st.grp fun g => { g with sq := g.sq ++ [(⟨s.dev.nextId - 1, k, loc, op⟩ : SqEntry)],
                                       left := min (g.sq.length + 1) (g.left + 1) }).advance st [k]

/-- The instruction makes the stream's thread take a fault at the unit, with an address (R153, R183). -/
def State.FaultsAt (s : State) (i : Instr) (st : Stream) (k : Nat) (code : BitVec 8) (va : BitVec 64) : Prop :=
  exec i s = .next ((s.takeFault st.grp k ⟨code, 0#10, st.unit, va⟩ false st.unit).advance st [])

/-- The instruction's effect on the stream's one thread leaves the thread at the unit, out of the stream (R150). -/
def State.StopsAt (s : State) (i : Instr) (st : Stream) : Prop := exec i s = .next (s.advance st [])

/-! ## The link (R410 to R420) -/

/-- A datagram of TYPE `t` that the device hears (R410), and whose SEQ is the next of a peer that carries traffic, with none held behind
it (R412). -/
def State.Due (s : State) (n t : Nat) (d : Datagram) : Prop :=
  d.sumOk = true ∧ d.dport.toNat = s.dev.link.udpport ∧ d.ctrl.toNat % 16 = 1 ∧ d.ctrl.toNat / 16 % 256 = t ∧
    (s.peerAt n).live = true ∧ d.seq.toNat = (s.peerAt n).rxSeq ∧ (s.peerAt n).heldMsgs = []

/-- The state once a message's acknowledgement and SEQ have been taken (R411, R412). -/
def State.took (s : State) (n : Nat) (d : Datagram) : State :=
  (s.acked n d.ack.toNat).setPeer n fun p => { p with rxSeq := (d.seq + 1#32).toNat }

/-- The lowest-numbered enabled window that a peer may use and that holds the whole range (R415 item 1). -/
def State.InWindow (s : State) (n wa len : Nat) (w : Window) : Prop :=
  ∃ l r, s.dev.link.windows = l ++ w :: r ∧
    let holds := fun (w : Window) => w.en = true ∧ (w.anypeer = true ∨ w.peer = n) ∧ w.wa0 ≤ wa ∧ wa + len ≤ w.wa0 + 4096 * w.pages
    holds w ∧ ∀ x ∈ l, ¬ holds x

/-! ## Frames -/

/-- From `s` to `t` nothing outside a stream and its group has changed: no byte of memory, no fuse, no other group, no other
stream, and no other part of the device. -/
def State.Elsewhere (s t : State) (st : Stream) : Prop :=
  (∀ a, mget t.mem a = mget s.mem a) ∧ t.fuse = s.fuse ∧ t.agenda = s.agenda ∧
  (let d : Dev := { t.dev with groups := s.dev.groups, streams := s.dev.streams }
   d = s.dev) ∧
  (∀ (i : Nat) (x : Group), s.dev.groups[i]? = some x → x.id ≠ st.grp → t.dev.groups[i]? = some x) ∧
  ∀ (i : Nat) (x : Stream), s.dev.streams[i]? = some x → ¬ (x.core = st.core ∧ x.reed = st.reed) → t.dev.streams[i]? = some x

/-- From `g` to `x` a group keeps every register, predicate and flag but those chosen, and everything else but the program
counters: its tokens, barriers, return stack, timestamps and store queue, and its threads' traps, waits and parks; a thread that
does not execute the unit keeps all of them. `v` and `gr` choose v and g registers, `p` predicates, `fl` the flags. -/
def Group.KeepsBut (g x : Group) (st : Stream) (v gr p : Nat → Prop) (fl : Prop) : Prop :=
  (∀ r, ¬ gr r → mget x.g r = mget g.g r) ∧
  (let y : Group := { x with g := g.g, threads := g.threads }
   y = g) ∧
  x.threads.length = g.threads.length ∧
  ∀ (k : Nat) (th : Thread), g.threads[k]? = some th → ∃ u, x.threads[k]? = some u ∧
    (∀ r, ¬ v r → mget u.v r = mget th.v r) ∧ (∀ n, n < 7 → ¬ p n → u.p.getLsbD n = th.p.getLsbD n) ∧
    (¬ fl → u.fpflags = th.fpflags) ∧
    (let y : Thread := { u with v := th.v, p := th.p, fpflags := th.fpflags, vpc := th.vpc }
     y = th) ∧
    (k ∉ st.threads ∨ predOn st th = false →
      let y : Thread := { u with vpc := th.vpc }
      y = th)

end Sys2Proof.Machine

namespace Sys2Proof

/-! The events of the link by the datagram that arrives: every such event is the one of the datagram of its parts. -/

noncomputable def Datagram.writeOf (d : Datagram) (peer : Nat) : Instr := .write peer d.toUdpPart d.toFormPart d.toRefPart d.toSeqPart d.toBodyPart
noncomputable def Datagram.readOf (d : Datagram) (peer : Nat) : Instr := .read peer d.toUdpPart d.toFormPart d.toRefPart d.toSeqPart d.toBodyPart
noncomputable def Datagram.readrespOf (d : Datagram) (peer : Nat) : Instr := .readresp peer d.toUdpPart d.toFormPart d.toRefPart d.toSeqPart d.toBodyPart
noncomputable def Datagram.atomicOf (d : Datagram) (peer : Nat) : Instr := .atomic peer d.toUdpPart d.toFormPart d.toRefPart d.seq d.ack d.addr d.payload
noncomputable def Datagram.atomicrespOf (d : Datagram) (peer : Nat) : Instr := .atomicresp peer d.toUdpPart d.toFormPart d.toRefPart d.toSeqPart d.toBodyPart
noncomputable def Datagram.doorbellOf (d : Datagram) (peer : Nat) : Instr := .doorbell peer d.toUdpPart d.toFormPart d.toRefPart d.toSeqPart d.toBodyPart
noncomputable def Datagram.panswerOf (d : Datagram) (peer : Nat) : Instr := .panswer peer d.toUdpPart d.toFormPart d.toRefPart d.toSeqPart d.toBodyPart
noncomputable def Datagram.collMessageOf (d : Datagram) (peer : Nat) : Instr := .collMessage peer d.toUdpPart d.toFormPart d.toRefPart d.toSeqPart d.addr d.payload
noncomputable def Datagram.mgmtOf (d : Datagram) (peer : Nat) : Instr := .mgmt peer d.toUdpPart d.toFormPart d.toRefPart d.toSeqPart d.addr d.payload
noncomputable def Datagram.ackOf (d : Datagram) (peer : Nat) : Instr := .ack peer d.toCoverPart d.toBodyPart
noncomputable def Datagram.nakOf (d : Datagram) (peer : Nat) : Instr := .nak peer d.toUdpPart d.toHeadPart d.toSeqPart d.toBodyPart

/-- The parts of a header that every message has in one form: the reserved bits and word are 0, and LEN is the payload's length (R410,
R411). -/
def Datagram.Formed (d : Datagram) : Prop := d.ctrl.toNat / 2 ^ 12 = 0 ∧ d.rsvd = 0#32 ∧ d.len.toNat = d.payload.length

/-- The register of an operand, and those after it, as v and as g registers. -/
def Opnd.vRegs (d : Opnd) (n : Nat) (r : Nat) : Prop :=
  match d with
  | .v k => k.toNat ≤ r ∧ r < k.toNat + n
  | .g _ => False

def Opnd.gRegs (d : Opnd) (n : Nat) (r : Nat) : Prop :=
  match d with
  | .v _ => False
  | .g k => k.toNat ≤ r ∧ r < k.toNat + n

end Sys2Proof
end

