-- ==== Sys2Proof/Certificates/Slice0/Obligations.lean ====
section
/-! DEFINITION. The statements about the machine. -/

open Sys2Proof Sys2Proof.Machine

/-- R168: each uniform ALU instruction writes its result to G[d] once for the stream. R169 item 3: `GLD` reads the argument
window of the team, with its two faults at the first executing thread. The address 0 of such a fault is the model's choice
(log 40). -/
def Obligations.UniformAluResults : Prop :=
  (∀ (s : State) (st : Stream) (g : Group) (d a : GReg) (b : GSrc), s.Issues st g →
     let once := fun (i : Instr) (f : Word → Word → Word → Word) =>
       exec i s = .next (s.after st (atFirst st (fun g _ _ =>
         { g with g := mset g.g d.toNat (f (mget g.g d.toNat) (mget g.g a.toNat) (rdG g st b)) }) g))
     exec (.gmov d b) s = .next (s.after st (atFirst st (fun g _ _ => { g with g := mset g.g d.toNat (rdG g st b) }) g)) ∧
     once (.gadd d a b) (fun _ A B => BitVec.ofNat 32 (A.toNat + B.toNat)) ∧
     once (.gsub d a b) (fun _ A B => BitVec.ofInt 32 (A.toNat - B.toNat)) ∧
     once (.gmul d a b) (fun _ A B => BitVec.ofNat 32 (A.toNat * B.toNat)) ∧
     once (.gand d a b) (fun _ A B => A &&& B) ∧
     once (.gor d a b) (fun _ A B => A ||| B) ∧
     once (.gxor d a b) (fun _ A B => A ^^^ B) ∧
     once (.gshl d a b) (fun _ A B => BitVec.ofNat 32 (A.toNat * 2 ^ (B.toNat % 32))) ∧
     once (.gshr d a b) (fun _ A B => BitVec.ofNat 32 (A.toNat / 2 ^ (B.toNat % 32))) ∧
     once (.gsel d a b) (fun D A B => if D ≠ 0#32 then A else B) ∧
     once (.gcmpS32 d a b) (fun _ A B =>
       if A.toInt < B.toInt then BitVec.ofInt 32 (-1) else if A.toInt = B.toInt then 0#32 else 1#32) ∧
     once (.gcmpN32 d a b) (fun _ A B =>
       if A.toNat < B.toNat then BitVec.ofInt 32 (-1) else if A.toNat = B.toNat then 0#32 else 1#32)) ∧
  (∀ (s : State) (st : Stream) (g : Group) (k : Nat) (th : Thread) (d a : GReg) (imm : BitVec 10) (tm : Team) (win : List WinWord),
     s.Issues st g → firstOn st g st.threads = some k → g.thread? k = some th →
     s.team? g.team = some tm → tm.window = some win → win.length = 256 →
     let o := ((mget g.g a.toNat).toNat + (imm.signExtend 32).toNat) % 2 ^ 32
     let fault := fun (c : BitVec 8) => exec (.gld d a imm) s =
       .next ((((s.updGroup st.grp fun _ => g).takeFault st.grp k ⟨c, 0#10, st.unit, 0#64⟩ false st.unit).advance st
         (st.threads.takeWhile (· ≠ k))))
     (o % 4 ≠ 0 → fault 0x12#8) ∧
     (o % 4 = 0 → 1024 ≤ o → fault 0x11#8) ∧
     (∀ w, o % 4 = 0 → o < 1024 → win[o / 4]? = some (.ok w) →
       exec (.gld d a imm) s = .next (s.after st { g with g := mset g.g d.toNat w })) ∧
     (∀ c, o % 4 = 0 → o < 1024 → win[o / 4]? = some (.bad c) → fault c))

/-- R170, R172: the three-register integer instructions, for each executing thread in turn, or once where every operand
selects a g register. R170, R172, R173: the instructions that read one operand, the bit fields, and `SEL`. That a uniform
`SEL` reads the predicate of its first executing thread is the model's choice (log 13). -/
def Obligations.IntegerResults : Prop :=
  (∀ (s : State) (st : Stream) (g : Group) (d a b : Opnd), s.Issues st g →
     let gives := fun (i : Instr) (f : Word → Word → Word → Word) =>
       s.Gives i st g (d.isG && a.isG && b.isG) d fun g th => [f (rd g th d) (rd g th a) (rd g th b)]
     gives (.add d a b) (fun _ A B => st.clamped (A.toInt + B.toInt)) ∧
     gives (.sub d a b) (fun _ A B => st.clamped (A.toInt - B.toInt)) ∧
     gives (.mul d a b) (fun _ A B => st.clamped (A.toInt * B.toInt)) ∧
     gives (.mad d a b) (fun D A B => st.clamped (D.toInt + A.toInt * B.toInt)) ∧
     gives (.mulhS32 d a b) (fun _ A B => BitVec.ofInt 32 (A.toInt * B.toInt / 2 ^ 32)) ∧
     gives (.mulhN32 d a b) (fun _ A B => BitVec.ofNat 32 (A.toNat * B.toNat / 2 ^ 32)) ∧
     gives (.minS32 d a b) (fun _ A B => BitVec.ofInt 32 (min A.toInt B.toInt)) ∧
     gives (.minN32 d a b) (fun _ A B => BitVec.ofNat 32 (min A.toNat B.toNat)) ∧
     gives (.maxS32 d a b) (fun _ A B => BitVec.ofInt 32 (max A.toInt B.toInt)) ∧
     gives (.maxN32 d a b) (fun _ A B => BitVec.ofNat 32 (max A.toNat B.toNat)) ∧
     gives (.and d a b) (fun _ A B => A &&& B) ∧
     gives (.or d a b) (fun _ A B => A ||| B) ∧
     gives (.xor d a b) (fun _ A B => A ^^^ B) ∧
     gives (.shl d a b) (fun _ A B => BitVec.ofNat 32 (A.toNat * 2 ^ (B.toNat % 32))) ∧
     gives (.shr d a b) (fun _ A B => BitVec.ofNat 32 (A.toNat / 2 ^ (B.toNat % 32))) ∧
     gives (.sha d a b) (fun _ A B => BitVec.ofInt 32 (A.toInt / 2 ^ (B.toNat % 32))) ∧
     gives (.rot d a b) (fun _ A B => BitVec.ofNat 32 (A.toNat * 2 ^ (B.toNat % 32) + A.toNat / 2 ^ (32 - B.toNat % 32)))) ∧
  (∀ (s : State) (st : Stream) (g : Group) (d a b : Opnd) (n : BitVec 3), s.Issues st g →
     let one := fun (i : Instr) (f : Word → Word) => s.Gives i st g (d.isG && a.isG) d fun g th => [f (rd g th a)]
     let three := fun (i : Instr) (f : Group → Thread → Word → Word → Word → Word) =>
       s.Gives i st g (d.isG && a.isG && b.isG) d fun g th => [f g th (rd g th d) (rd g th a) (rd g th b)]
     one (.abs d a) (fun A => st.clamped (A.toInt.natAbs : Int)) ∧
     one (.neg d a) (fun A => st.clamped (-A.toInt)) ∧
     one (.not d a) (fun A => ~~~A) ∧
     one (.mov d a) (fun A => A) ∧
     one (.popc d a) (fun A => BitVec.ofNat 32 ((List.range 32).filter fun i => A.getLsbD i).length) ∧
     (∃ f : Word → Word, (∀ A : Word, (A = 0#32 → f A = 32#32) ∧ (∀ i, A.getLsbD i = true →
         (∀ j, i < j → A.getLsbD j = false) → f A = BitVec.ofNat 32 (31 - i))) ∧ one (.clz d a) f) ∧
     (∃ f : Word → Word, (∀ A i, i < 32 → (f A).getLsbD i = A.getLsbD (31 - i)) ∧ one (.brev d a) f) ∧
     (∃ f : Word → Word → Word, (∀ A B : Word, ∀ i, i < 32 → (f A B).getLsbD i =
         (decide (i < fieldLen B) && A.getLsbD (fieldPos B + i))) ∧ three (.bfeN32 d a b) (fun _ _ _ A B => f A B)) ∧
     (∃ f : Word → Word → Word, (∀ A B : Word, ∀ i, i < 32 → (f A B).getLsbD i =
         (decide (0 < fieldLen B) && A.getLsbD (min 31 (fieldPos B + min i (fieldLen B - 1))))) ∧
       three (.bfeS32 d a b) (fun _ _ _ A B => f A B)) ∧
     (∃ f : Word → Word → Word → Word, (∀ D A B : Word, ∀ i, i < 32 → (f D A B).getLsbD i =
         if fieldPos B ≤ i ∧ i < fieldPos B + fieldLen B then A.getLsbD (i - fieldPos B) else D.getLsbD i) ∧
       three (.bfi d a b) (fun _ _ D A B => f D A B)) ∧
     three (.sel n d a b) (fun _ th _ A B => if rdP th n then A else B))

/-- R171: division truncates toward zero and a remainder takes the sign of its dividend, −2^31 by −1 included; a divisor of
0 is integer divide by zero at the first thread that has one: the threads before it keep their results and go on, and
neither it nor a thread after it executes the unit. -/
def Obligations.DivisionResults : Prop :=
  ∀ (s : State) (st : Stream) (g : Group) (d a b : Opnd), s.Issues st g →
    let uni := d.isG && a.isG && b.isG
    ∀ i f, (i, f) ∈ [(Instr.divS32 d a b, fun (A B : Word) => BitVec.ofInt 32 (A.toInt.tdiv B.toInt)),
        (.divN32 d a b, fun A B => BitVec.ofNat 32 (A.toNat / B.toNat)),
        (.remS32 d a b, fun A B => BitVec.ofInt 32 (A.toInt - A.toInt.tdiv B.toInt * B.toInt)),
        (.remN32 d a b, fun A B => BitVec.ofInt 32 (A.toNat - A.toNat / B.toNat * B.toNat))] →
      let val := fun (g : Group) (th : Thread) => [f (rd g th a) (rd g th b)]
      let act := fun (g : Group) (k : Nat) (th : Thread) => wrN g k d (val g th)
      let divides := fun (g : Group) (th : Thread) => rd g th b ≠ 0#32
      let faults := fun (g' : Group) (k : Nat) (kept : List Nat) =>
        exec i s = .next (((s.updGroup st.grp fun _ => g').takeFault st.grp k ⟨0x32#8, 0#10, st.unit, 0#64⟩ false st.unit).advance st kept)
      (Finds st uni d val divides g → s.Gives i st g uni d val) ∧
      (∀ k th, uni = true → firstOn st g st.threads = some k → g.thread? k = some th → ¬ divides g th →
        faults g k (st.threads.takeWhile (· ≠ k))) ∧
      ∀ pre k post th, uni = false → st.threads = pre ++ k :: post → eachInTurn st act divides pre g →
        (inTurn st act pre g).thread? k = some th → predOn st th = true → ¬ divides (inTurn st act pre g) th → faults (inTurn st act pre g) k pre

/-- R174: the register-immediate instructions compute as the three-register ones with B the immediate. R175: the 64-bit
instructions write a pair, low word in the even register. -/
def Obligations.ImmediateAndPairResults : Prop :=
  (∀ (s : State) (st : Stream) (g : Group) (d a : Opnd) (imm : BitVec 10), s.Issues st g →
     let B : Word := match st.imm with
       | none => imm.signExtend 32
       | some p => BitVec.ofNat 32 (p.toNat % 2 ^ 22 * 2 ^ 10 + imm.toNat)
     let gives := fun (i : Instr) (f : Word → Word) => s.Gives i st g (d.isG && a.isG) d fun g th => [f (rd g th a)]
     gives (.addImm d a imm) (fun A => st.clamped (A.toInt + B.toInt)) ∧
     gives (.mulImm d a imm) (fun A => st.clamped (A.toInt * B.toInt)) ∧
     gives (.andImm d a imm) (fun A => A &&& B) ∧
     gives (.orImm d a imm) (fun A => A ||| B) ∧
     gives (.xorImm d a imm) (fun A => A ^^^ B) ∧
     (B.toNat < 32 → gives (.shlImm d a imm) (fun A => BitVec.ofNat 32 (A.toNat * 2 ^ B.toNat))) ∧
     (B.toNat < 32 → gives (.shrImm d a imm) (fun A => BitVec.ofNat 32 (A.toNat / 2 ^ B.toNat))) ∧
     s.Gives (.movi d imm) st g d.isG d (fun _ _ => [B])) ∧
  (∀ (s : State) (st : Stream) (g : Group) (d a b : Opnd) (sh : BitVec 2), s.Issues st g →
     let P := fun (g : Group) (th : Thread) (o : Opnd) => ((rd g th o).toNat : Int) + 2 ^ 32 * (rd g th (nextOpnd o)).toNat
     let pair := fun (x : Int) => [BitVec.ofInt 32 x, BitVec.ofInt 32 (x / 2 ^ 32)]
     let three := fun (i : Instr) (f : Group → Thread → Int) =>
       s.Gives i st g (d.isG && a.isG && b.isG) d fun g th => pair (f g th)
     let two := fun (i : Instr) (f : Word → Int) => s.Gives i st g (d.isG && a.isG) d fun g th => pair (f (rd g th a))
     three (.add64 d a b) (fun g th => P g th a + P g th b) ∧
     three (.sub64 d a b) (fun g th => P g th a - P g th b) ∧
     three (.mul64 d a b) (fun g th => P g th a * P g th b) ∧
     three (.lea sh d a b) (fun g th => P g th a + (rd g th b).toInt * 2 ^ sh.toNat) ∧
     two (.sextS8 d a) (fun A => (A.setWidth 8).toInt) ∧
     two (.sextS16 d a) (fun A => (A.setWidth 16).toInt) ∧
     two (.sextS32 d a) (fun A => A.toInt) ∧
     two (.zextN8 d a) (fun A => (A.toNat % 2 ^ 8 : Nat)) ∧
     two (.zextN16 d a) (fun A => (A.toNat % 2 ^ 16 : Nat)) ∧
     two (.zextN32 d a) (fun A => (A.toNat : Int)))

/-- R177: the compares write one predicate of each executing thread. A float compares by value: the zeros are equal, and any
relation but "not equal" and "unordered" is false where an operand is a NaN. R176, R178, R179: the predicate operations.
R180: the votes combine a predicate over the threads of the stream as the unit finds it. -/
def Obligations.CompareAndPredicateResults : Prop :=
  (∀ (s : State) (st : Stream) (g : Group) (pd : BitVec 3) (a b : Opnd), s.Issues st g →
     let gives := fun (i : Instr) (f : Word → Word → Bool) => exec i s = .next (s.after st
       (inTurn st (fun g k th => g.updThread k fun x => wrP x pd (f (rd g th a) (rd g th b))) st.threads g))
     let nan := fun (w : Word) => decide (w.toNat % 2 ^ 31 > 0x7F800000)
     let ord := fun (w : Word) => if w.toNat < 2 ^ 31 then (w.toNat : Int) else -((w.toNat - 2 ^ 31 : Nat) : Int)
     let num := fun (A B : Word) => !nan A && !nan B
     gives (.icmpEq pd a b) (fun A B => decide (A = B)) ∧
     gives (.icmpNe pd a b) (fun A B => decide (A ≠ B)) ∧
     gives (.icmpLtS32 pd a b) (fun A B => decide (A.toInt < B.toInt)) ∧
     gives (.icmpLeS32 pd a b) (fun A B => decide (A.toInt ≤ B.toInt)) ∧
     gives (.icmpGtS32 pd a b) (fun A B => decide (A.toInt > B.toInt)) ∧
     gives (.icmpGeS32 pd a b) (fun A B => decide (A.toInt ≥ B.toInt)) ∧
     gives (.icmpLtN32 pd a b) (fun A B => decide (A.toNat < B.toNat)) ∧
     gives (.icmpLeN32 pd a b) (fun A B => decide (A.toNat ≤ B.toNat)) ∧
     gives (.icmpGtN32 pd a b) (fun A B => decide (A.toNat > B.toNat)) ∧
     gives (.icmpGeN32 pd a b) (fun A B => decide (A.toNat ≥ B.toNat)) ∧
     gives (.fcmpEqF32 pd a b) (fun A B => num A B && decide (ord A = ord B)) ∧
     gives (.fcmpNeF32 pd a b) (fun A B => !(num A B && decide (ord A = ord B))) ∧
     gives (.fcmpLtF32 pd a b) (fun A B => num A B && decide (ord A < ord B)) ∧
     gives (.fcmpLeF32 pd a b) (fun A B => num A B && decide (ord A ≤ ord B)) ∧
     gives (.fcmpGtF32 pd a b) (fun A B => num A B && decide (ord A > ord B)) ∧
     gives (.fcmpGeF32 pd a b) (fun A B => num A B && decide (ord A ≥ ord B)) ∧
     gives (.fcmpUnF32 pd a b) (fun A B => nan A || nan B) ∧
     gives (.fcmpOrdF32 pd a b) (fun A B => num A B)) ∧
  (∀ (s : State) (st : Stream) (g : Group) (pd : BitVec 3) (pa pb : PSrc) (o : Opnd), s.Issues st g →
     let gives := fun (i : Instr) (f : Thread → Bool) => exec i s = .next (s.after st
       (inTurn st (fun g k th => g.updThread k fun x => wrP x pd (f th)) st.threads g))
     let src := fun (th : Thread) (x : PSrc) => (if x.p = 7#3 then true else th.p.getLsbD x.p.toNat) != x.neg
     gives (.pand pd pa pb) (fun th => src th pa && src th pb) ∧
     gives (.por pd pa pb) (fun th => src th pa || src th pb) ∧
     gives (.pxor pd pa pb) (fun th => src th pa != src th pb) ∧
     gives (.pnot pd pa) (fun th => !src th pa) ∧
     exec (.pmovPv o) s = .next (s.after st (inTurn st (fun g k th => wr g k o (BitVec.ofNat 32 th.p.toNat)) st.threads g)) ∧
     exec (.pmovVp o) s = .next (s.after st
       (inTurn st (fun g k th => g.updThread k fun x => { x with p := BitVec.ofNat 7 (rd g th o).toNat }) st.threads g))) ∧
  (∀ (s : State) (st : Stream) (g : Group) (pd : BitVec 3) (pa : PSrc) (d : Opnd), s.Issues st g →
     let yes := fun (u : Nat) => (g.thread? u).any fun th => rdPSrc th pa
     let gives := fun (i : Instr) (b : Bool) => exec i s = .next (s.after st
       (inTurn st (fun g k _ => g.updThread k fun x => wrP x pd b) st.threads g))
     gives (.voteAny pd pa) (st.threads.any yes) ∧
     gives (.voteAll pd pa) (st.threads.all yes) ∧
     ∃ m : Word, (∀ u, u < 32 → m.getLsbD u = (st.threads.contains u && yes u)) ∧
       exec (.voteBallot d pa) s = .next (s.after st (inTurn st (fun g k _ => wr g k d m) st.threads g)))

/-- R31, R104, R132, R181, R182: what `MFS` reads, at the one thread of a stream. R181, R182: `MTS` writes FPFLAGS and
FPTRAPS, and XPC inside the handler only; `CLK` writes the clk at which each thread is streamed, one for each thread that
executes the unit, to a pair. -/
def Obligations.SystemRegisters : Prop :=
  (∀ (s : State) (st : Stream) (g : Group) (k : Nat) (th : Thread) (d : Opnd) (c : Ctx) (gr : Grid) (tm : Team) (cl : Cluster),
     s.IssuesOne st g k th → s.ctx? g.ctx = some c → s.grid? g.grid = some gr → s.team? g.team = some tm →
     s.cluster? tm.cluster = some cl →
     let reads := fun (num : BitVec 10) (w : Word) => exec (.mfs d num) s = .next (s.after st (wr g k d w))
     let n := BitVec.ofNat 32
     let inside := fun (w : Word) => if th.inTrap then w else 0#32
     let notBin := fun (other x : Nat) => n (if gr.src.isBin then other else x)
     reads 0x010#10 (n th.fpflags.toNat) ∧ reads 0x011#10 (n th.fptraps.toNat) ∧
     reads 0x020#10 (n (g.ctx % 4096)) ∧ reads 0x021#10 (n (s.gen g.ctx % 2 ^ 20)) ∧ reads 0x022#10 (n (c.e.prio % 16)) ∧
     reads 0x023#10 (n (c.e.domain % 4096)) ∧ reads 0x024#10 (n (c.e.asn % 65536)) ∧
     reads 0x030#10 (n gr.lr.codebase) ∧ reads 0x031#10 (n (gr.lr.codebase / 2 ^ 32)) ∧
     reads 0x032#10 (n gr.args) ∧ reads 0x033#10 (n (gr.args / 2 ^ 32)) ∧
     reads 0x034#10 (notBin 0 cl.cx) ∧ reads 0x035#10 (notBin 0 cl.cy) ∧ reads 0x036#10 (notBin 0 cl.cz) ∧
     reads 0x037#10 (notBin 0 tm.ri) ∧ reads 0x038#10 (notBin 0 tm.rj) ∧ reads 0x039#10 (notBin 0 g.slot) ∧
     reads 0x03A#10 (notBin 1 gr.lr.teamGroups) ∧ reads 0x03B#10 (n g.core) ∧ reads 0x03C#10 (n k) ∧
     reads 0x03D#10 (notBin 1 gr.lr.gx) ∧ reads 0x03E#10 (notBin 1 gr.lr.gy) ∧ reads 0x03F#10 (notBin 1 gr.lr.gz) ∧
     reads 0x040#10 (inside th.xpc) ∧ reads 0x041#10 (inside th.xcode) ∧ reads 0x042#10 (inside th.xunit) ∧
     reads 0x043#10 (n th.xva.toNat) ∧ reads 0x044#10 (n (th.xva.toNat / 2 ^ 32)) ∧
     reads 0x050#10 (if th.helper then 1#32 else 0#32) ∧
     (∀ i, i < 18 → reads (BitVec.ofNat 10 (0x060 + i)) (s.fuse.devWord i))) ∧
  (∀ (s : State) (st : Stream) (g : Group) (a : Opnd), s.Issues st g →
     let at_ := fun (n : Nat) => [BitVec.ofNat 32 n, BitVec.ofNat 32 (n / 2 ^ 32)]
     let on := fun (g : Group) => st.threads.filter fun u => (g.thread? u).any (predOn st)
     let turn := fun (act : Group → Nat → Thread → Group) => (.next (s.after st (inTurn st act st.threads g)) : Host.Outcome State Fault Refusal)
     exec (.mts 0x010#10 a) s = turn (fun g k th => g.updThread k fun x => { x with fpflags := BitVec.ofNat 6 (rd g th a).toNat }) ∧
     exec (.mts 0x011#10 a) s = turn (fun g k th => g.updThread k fun x => { x with fptraps := BitVec.ofNat 2 (rd g th a).toNat }) ∧
     exec (.mts 0x040#10 a) s = turn (fun g k th => g.updThread k fun x => if x.inTrap then { x with xpc := rd g th a } else x) ∧
     exec (.clk a) s = .next (s.after st (if a.isG then atFirst st (fun g k _ => wrN g k a (at_ s.dev.clk)) g
       else inTurn st (fun g k _ => wrN g k a (at_ (s.dev.clk + ((on g).takeWhile (· ≠ k)).length))) st.threads g)))

/-- R50, R54, R162, R163, R40: `NOP` only moves the stream on; `BRA` and `BRX` send a thread to a header of its overlay, and
raise overlay fault for an address outside it and misaligned target for a word that is no header. R155: `PAUSE` sets the clk
at which the group's pause ends, once for the group; 0 ends a pause in force. R166, R400: `EXIT` and `KILL` end the thread
and clear its bit from every entry of the return stack; `KILL` marks the pixel of a shaded thread as discarded. The team has
no convergence register in use here. -/
def Obligations.BranchesAndThreadEnds : Prop :=
  ((∀ (s : State) (st : Stream) (g : Group), s.Issues st g → exec .nop s = .next (s.advance st st.threads)) ∧
   ∀ (s : State) (st : Stream) (g : Group) (k : Nat) (th : Thread) (kp : Copy) (off : BitVec 19) (o : Opnd),
     s.IssuesOne st g k th → (s.core st.core).copy? th.copy = some kp →
     ∀ i a, (i = .bra off ∧ a = st.jump off) ∨ (i = .brx o ∧ a = rd g th o) →
       let fault := fun (c : BitVec 8) =>
         exec i s = .next ((s.takeFault st.grp k ⟨c, 0#10, st.unit, 0#64⟩ false st.unit).advance st [])
       (kp.Lands th.start a → exec i s = .next ((s.updThread st.grp k fun x => { x with vpc := a }).advance st [])) ∧
       (¬ kp.Inside th.start a → fault 0x06#8) ∧
       (kp.Inside th.start a → ¬ kp.Lands th.start a → fault 0x04#8)) ∧
  (∀ (s : State) (st : Stream) (g : Group) (k : Nat) (n : BitVec 19), s.Issues st g → firstOn st g st.threads = some k →
     exec (.pause n) s = .next ((s.updGroup st.grp fun g =>
       { g with pauseEnd := if n = 0#19 then s.dev.clk else s.dev.clk + 1 + n.toNat }).advance st st.threads)) ∧
  (∀ (s : State) (st : Stream) (g : Group) (k : Nat) (th : Thread) (tm : Team), s.IssuesOne st g k th →
     s.team? g.team = some tm → (∀ c ∈ tm.cv, c = .free) →
     let ended := fun (s : State) => (((s.updGroup st.grp fun g =>
       { g.updThread k (fun x => { x with ended := true, wait := none, park := none }) with
         rstack := (g.rstack.map fun e => { e with mask := e.mask &&& ~~~(1#32 <<< k) }).filter fun e => e.mask ≠ 0#32 }).advance st
       []).recheck st.grp)
     exec .exit s = .next (ended s) ∧
     ((th.pixel = none ∨ ∃ p, th.pixel = some p ∧ p.helper = true) → exec .kill s = .next (ended s)) ∧
     (∀ p, th.pixel = some p → p.helper = false → exec .kill s = .next (ended (s.updTile p.frame p.tile fun x =>
       { x with discard := if x.discard.contains (pixelIn p.px p.py) then x.discard else x.discard ++ [pixelIn p.px p.py] }))))

/-- R163, R164: `CALL` pushes the fall-through address with the thread's bit and transfers; a full stack is overlay fault.
R163 item 2, R164, R223: `CALLX` enters another overlay where that is resident: it pushes as `CALL` does, and the copy is
entered. R165: `RET` sends a thread to the return address of its topmost entry, clears its bit there and frees an entry left
empty; a thread that no entry holds raises overlay fault. -/
def Obligations.CallsAndReturns : Prop :=
  (∀ (s : State) (st : Stream) (g : Group) (k : Nat) (th : Thread) (kp : Copy) (own : Bind) (off : BitVec 19),
     s.IssuesOne st g k th → (s.core st.core).copy? th.copy = some kp → s.bindOf g th = some own → kp.Lands th.start (st.jump off) →
     let entry : RetEntry := ⟨st.last + 4#32, own.id, own.gen, th.copy, th.start, 1#32 <<< k⟩
     (g.rstack.length < 8 → exec (.call off) s = .next (((s.updGroup st.grp fun g => { g with rstack := g.rstack ++ [entry] }).updThread
       st.grp k fun x => { x with vpc := st.jump off }).advance st [])) ∧
     (8 ≤ g.rstack.length → exec (.call off) s =
       .next ((s.takeFault st.grp k ⟨0x06#8, 0#10, st.unit, 0#64⟩ false st.unit).advance st []))) ∧
  (∀ (s s1 : State) (st : Stream) (g : Group) (k : Nat) (th : Thread) (gr : Grid) (img : Image) (e : OvEntry) (kp : Copy) (b own : Bind)
     (off : BitVec 19),
     s.IssuesOne st g k th → s.grid? g.grid = some gr → s.imageOf gr th.inTrap = some img →
     s.searchTable g.core g.ctx 0 (fun x => x.holds (st.jump off).toNat) img.count img.table = (s1, .found e) →
     s1.group? st.grp = some g → (s1.core g.core).bound? g.ctx img.base e.id = some (kp, b) →
     kp.Lands b.start (st.jump off) → g.rstack.length < 8 → s1.bindOf g th = some own →
     let entry : RetEntry := ⟨st.last + 4#32, own.id, own.gen, th.copy, th.start, 1#32 <<< k⟩
     exec (.callx off) s = .next ((((s1.updGroup st.grp fun g => { g with rstack := g.rstack ++ [entry] }).updThread st.grp k fun x =>
       { x with vpc := st.jump off, copy := kp.id, start := b.start, ov := (b.id, b.gen) }).enterCopy st.core kp.id).advance st [])) ∧
  (∀ (s : State) (st : Stream) (g : Group) (k : Nat) (th : Thread), s.IssuesOne st g k th →
     ((∀ x ∈ g.rstack, x.mask.getLsbD k = false) → exec .ret s =
       .next ((s.takeFault st.grp k ⟨0x06#8, 0#10, st.unit, 0#64⟩ false st.unit).advance st [])) ∧
     ∀ (below above : List RetEntry) (e : RetEntry) (kp : Copy), g.rstack = below ++ e :: above →
       e.mask.getLsbD k = true → (∀ x ∈ above, x.mask.getLsbD k = false) →
       (s.core g.core).copy? e.copy = some kp → kp.Lands e.start e.ret →
       let m := e.mask &&& ~~~(1#32 <<< k)
       dropTop k g.rstack = below ++ (if m = 0#32 then above else { e with mask := m } :: above) ∧
       exec .ret s = .next ((((s.updGroup st.grp fun g => { g with rstack := dropTop k g.rstack }).updThread st.grp k fun x =>
         { x with vpc := e.ret, copy := e.copy, start := e.start, ov := (e.ident, e.gen) }).enterCopy st.core e.copy).advance st []))

/-- R153, R183: trap entry, where the handler's overlay is resident and its image header is held: what is recorded of the
fault, where the thread resumes, and that it goes on at TRAPENTRY inside the handler; a fault that had come back for the
unit it was to resume at is kept. R92, R98, R99, R100, R183: a fault with no handler, or inside the handler, freezes the
context: the thread keeps it, the context records it and becomes FROZEN, both are written to its table entry, and every
resident team of it is asked to save. In a context already frozen the thread keeps the fault, and the record stays, but for
an earlier fault of the clk of the freeze (the order of R100). -/
def Obligations.TrapEntryAndFreeze : Prop :=
  (∀ (s : State) (g : Group) (k : Nat) (th : Thread) (gr : Grid) (entry : Word) (kp : Copy) (b : Bind) (r : FaultRec) (late : Bool)
     (xpc : Word),
     s.group? g.id = some g → g.thread? k = some th → s.HandlerReady g gr entry kp b → th.inTrap = false →
     s.takeFault g.id k r late xpc = (s.updThread g.id k fun x => { x with
       xcode := BitVec.ofNat 32 (r.code.toNat + 2 ^ 8 * r.num.toNat + 2 ^ 18 * late.toNat), xunit := r.unit, xva := r.va, xpc := xpc,
       inTrap := true, trapPending := false, noBreak := false, due := none, kept := x.due.map (fun r => { r with unit := x.vpc }),
       vpc := entry, copy := kp.id, start := b.start, ov := (b.id, b.gen) }).enterCopy g.core kp.id) ∧
  (∀ (s : State) (g : Group) (k : Nat) (th : Thread) (gr : Grid) (c : Ctx) (r : FaultRec) (late : Bool) (xpc : Word),
     s.group? g.id = some g → g.thread? k = some th → s.grid? g.grid = some gr → s.ctx? g.ctx = some c →
     (s.handler gr = none ∨ th.inTrap = true) →
     let w := BitVec.ofNat 32 (r.code.toNat + g.core * 2 ^ 8 + g.reed * 2 ^ 16 + g.rslot * 2 ^ 23 + k * 2 ^ 25)
     let regs : FaultRegs := ⟨w, th.vpc, if s.handler gr = none then 1 else 2, r.va⟩
     let keeps := s.updThread g.id k fun x => { x with froze := some r }
     (c.st = .active ∨ c.st = .suspended → s.takeFault g.id k r late xpc =
       (((((keeps.updCtx g.ctx fun c => { c with froze := some (s.dev.clk, c.fault) }).updCtx g.ctx fun c =>
         { c with st := .frozen }).writeStatus g.ctx).updCtx g.ctx fun c => { c with fault := regs }).writeFault g.ctx).requestSave
           fun x => x.ctx == g.ctx) ∧
     (c.st = .frozen → (∀ f, c.froze = some f → f.1 = s.dev.clk → faultPlace c.fault.w ≤ faultPlace w) →
       s.takeFault g.id k r late xpc = keeps) ∧
     (∀ f, c.st = .frozen → c.froze = some f → f.1 = s.dev.clk → faultPlace w < faultPlace c.fault.w →
       s.takeFault g.id k r late xpc = (keeps.updCtx g.ctx fun c => { c with fault := regs }).writeFault g.ctx) ∧
     (c.st = .dying → s.takeFault g.id k r late xpc = s))

/-- R183, R184: `TRAP` and `BRK` take their exception with the number they name and resume after the unit. R185: `RTI`
inside the handler resumes the thread at XPC, outside the handler; a misaligned XPC faults. -/
def Obligations.TrapInstructions : Prop :=
  (∀ (s : State) (st : Stream) (g : Group) (k : Nat) (th : Thread) (gr : Grid) (entry : Word) (kp : Copy) (b : Bind) (n : BitVec 10),
     s.IssuesOne st g k th → s.HandlerReady g gr entry kp b → th.inTrap = false →
     let enters := fun (i : Instr) (code : Nat) => exec i s = .next (((s.updThread st.grp k fun x => { x with
       xcode := BitVec.ofNat 32 (code + 2 ^ 8 * n.toNat), xunit := st.unit, xva := 0#64, xpc := st.unit + 4#32, inTrap := true,
       trapPending := false, noBreak := false, due := none, kept := x.due.map (fun r => { r with unit := x.vpc }), vpc := entry,
       copy := kp.id, start := b.start, ov := (b.id, b.gen) }).enterCopy g.core kp.id).advance st [])
     enters (.trap n) 0x40 ∧ enters (.brk n) 0x41) ∧
  (∀ (s s1 : State) (st : Stream) (g : Group) (k : Nat) (th : Thread) (gr : Grid) (img : Image) (e : OvEntry) (kp : Copy) (b : Bind),
     s.IssuesOne st g k th → s.grid? g.grid = some gr → th.inTrap = true →
     (th.xpc.toNat % 4 ≠ 0 → exec .rti s =
       .next ((s.takeFault st.grp k ⟨0x04#8, 0#10, st.unit, 0#64⟩ false st.unit).advance st [])) ∧
     (th.xpc.toNat % 4 = 0 → s.imageOf gr false = some img →
       s.searchTable g.core g.ctx 0 (fun x => x.holds th.xpc.toNat) img.count img.table = (s1, .found e) →
       (s1.core g.core).bound? g.ctx img.base e.id = some (kp, b) →
       exec .rti s = .next (((s1.updThread st.grp k fun x =>
         { x with inTrap := false, vpc := x.xpc, copy := kp.id, start := b.start, ov := (b.id, b.gen), noBreak := true, due := x.kept.filter (fun r => r.unit == x.xpc),
                  kept := none }).enterCopy g.core kp.id).advance st [])))

/-- R187, R190, R193 to R196: the float vector instructions, element by element. -/
def Obligations.FloatVectorResults : Prop :=
  ∀ (s : State) (st : Stream) (g : Group) (d a b : Opnd), s.Issues st g →
    let R := fun (mode : BitVec 2) (f : Fmt) (x : Ex × FFlags) => ((f.result mode st.sat x.1).1, x.2 ||| (f.result mode st.sat x.1).2)
    let scalar := fun (i : Instr) (e : Fmt → Nat → Nat → Nat × FFlags) => s.FpUnit i st g d fun g th =>
      let r := e fp32 (rd g th a).toNat (rd g th b).toNat
      ([BitVec.ofNat 32 r.1], r.2)
    let packed := fun (i : Instr) (f : Fmt) (e : Fmt → Nat → Nat → Nat × FFlags) => s.FpUnit i st g d fun g th =>
      let r0 := e f ((rd g th a).toNat % 2 ^ 16) ((rd g th b).toNat % 2 ^ 16)
      let r1 := e f ((rd g th a).toNat / 2 ^ 16) ((rd g th b).toNat / 2 ^ 16)
      ([BitVec.ofNat 32 (r0.1 + 2 ^ 16 * r1.1)], r0.2 ||| r1.2)
    let three := fun (i32 i16 ib : Instr) (e : Fmt → Nat → Nat → Nat × FFlags) => scalar i32 e ∧ packed i16 fp16 e ∧ packed ib bf16 e
    let one := fun (i : Instr) (e : Ex → BitVec 2 × (Ex × FFlags)) => s.FpUnit i st g d fun g th =>
      let x := e (fp32.decode (rd g th a).toNat)
      ([BitVec.ofNat 32 (R x.1 fp32 x.2).1], (R x.1 fp32 x.2).2)
    let oneThree := fun (i32 i16 ib : Instr) (e : Fmt → Nat → Nat) =>
      (s.FpUnit i32 st g d fun g th => ([BitVec.ofNat 32 (e fp32 (rd g th a).toNat)], 0#6)) ∧
      ∀ i f, (i = i16 ∧ f = fp16) ∨ (i = ib ∧ f = bf16) → s.FpUnit i st g d fun g th =>
        ([BitVec.ofNat 32 (e f ((rd g th a).toNat % 2 ^ 16) + 2 ^ 16 * e f ((rd g th a).toNat / 2 ^ 16))], 0#6)
    three (.faddF32 d a b) (.faddF16x2 d a b) (.faddBf16x2 d a b) (fun f x y => R st.rnd f (exAdd st.rnd (f.decode x) (f.decode y))) ∧
    three (.fsubF32 d a b) (.fsubF16x2 d a b) (.fsubBf16x2 d a b)
      (fun f x y => R st.rnd f (exAdd st.rnd (f.decode x) (exNeg (f.decode y)))) ∧
    three (.fmulF32 d a b) (.fmulF16x2 d a b) (.fmulBf16x2 d a b) (fun f x y => R st.rnd f (exMul (f.decode x) (f.decode y))) ∧
    three (.fminF32 d a b) (.fminF16x2 d a b) (.fminBf16x2 d a b) (fun f x y => R 0#2 f (f.decode (f.minNum x y), 0#6)) ∧
    three (.fmaxF32 d a b) (.fmaxF16x2 d a b) (.fmaxBf16x2 d a b) (fun f x y => R 0#2 f (f.decode (f.maxNum x y), 0#6)) ∧
    oneThree (.fabsF32 d a) (.fabsF16x2 d a) (.fabsBf16x2 d a) (fun f x => if f.isNaN x then f.nan else x % f.signBit) ∧
    oneThree (.fnegF32 d a) (.fnegF16x2 d a) (.fnegBf16x2 d a)
      (fun f x => if f.isNaN x then f.nan else if x < f.signBit then x + f.signBit else x - f.signBit) ∧
    scalar (.fdivF32 d a b) (fun f x y => R st.rnd f (exDiv (f.decode x) (f.decode y))) ∧
    one (.fsqrtF32 d a) (fun x => (st.rnd, exSqrt x)) ∧
    one (.frndF32 d a) (fun x => (st.rnd, exRnd st.rnd x, 0#6)) ∧
    one (.ffractF32 d a) (fun x => (1#2, exFract x))

/-- R187, R194, R197: the four-operand float instructions: one exact value, one rounding. R190, R198 to R200: a
transcendental issues one result through its token, or takes the enabled fault at issue; with the special values of R200. -/
def Obligations.FusedAndTranscendental : Prop :=
  (∀ (s : State) (st : Stream) (g : Group) (d a b c : VReg), s.Issues st g →
     let R := fun (mode : BitVec 2) (f : Fmt) (x : Ex × FFlags) => ((f.result mode st.sat x.1).1, x.2 ||| (f.result mode st.sat x.1).2)
     let v := fun (th : Thread) (n : VReg) => (mget th.v n.toNat).toNat
     let scalar := fun (i : Instr) (e : Nat → Nat → Nat → Nat × FFlags) => s.FpUnit i st g (.v d) fun _ th =>
       let r := e (v th a) (v th b) (v th c)
       ([BitVec.ofNat 32 r.1], r.2)
     let packed := fun (i : Instr) (e : Nat → Nat → Nat → Nat × FFlags) => s.FpUnit i st g (.v d) fun _ th =>
       let r0 := e (v th a % 2 ^ 16) (v th b % 2 ^ 16) (v th c % 2 ^ 16)
       let r1 := e (v th a / 2 ^ 16) (v th b / 2 ^ 16) (v th c / 2 ^ 16)
       ([BitVec.ofNat 32 (r0.1 + 2 ^ 16 * r1.1)], r0.2 ||| r1.2)
     let fma := fun (f : Fmt) (x y z : Nat) => R st.rnd f (exFma st.rnd (f.decode x) (f.decode y) (f.decode z))
     let fms := fun (f : Fmt) (x y z : Nat) => R st.rnd f (exFma st.rnd (f.decode x) (f.decode y) (exNeg (f.decode z)))
     scalar (.fmaF32 d a b c) (fma fp32) ∧ packed (.fmaF16x2 d a b c) (fma fp16) ∧ packed (.fmaBf16x2 d a b c) (fma bf16) ∧
     scalar (.fmsF32 d a b c) (fms fp32) ∧ packed (.fmsF16x2 d a b c) (fms fp16) ∧ packed (.fmsBf16x2 d a b c) (fms bf16) ∧
     scalar (.fnmaF32 d a b c) (fun x y z =>
       R st.rnd fp32 (exFma st.rnd (exNeg (fp32.decode x)) (fp32.decode y) (fp32.decode z))) ∧
     scalar (.fclampF32 d a b c) (fun x y z => R 0#2 fp32 (fp32.decode (fp32.minNum (fp32.maxNum x y) z), 0#6))) ∧
  ((∀ (s : State) (st : Stream) (g : Group) (k : Nat) (th : Thread) (d a : Opnd) (sb : BitVec 3), s.IssuesOne st g k th →
     s.hasRoom st.grp sb.toNat = true →
     ∀ i f, (i = .frcpF32 d a sb ∧ f = trRcp) ∨ (i = .frsqF32 d a sb ∧ f = trRsq) ∨ (i = .fexp2F32 d a sb ∧ f = trExp2) ∨
         (i = .flog2F32 d a sb ∧ f = trLog2) ∨ (i = .fsinF32 d a sb ∧ f = trSin) ∨ (i = .fcosF32 d a sb ∧ f = trCos) →
       let r := trResult (f (fp32.decode (rd g th a).toNat))
       (Untrapped th r.2 → exec i s =
         .next ((s.addResult st.grp k (some sb.toNat) st.unit (.words d [r.1] r.2) false).2.advance st [k])) ∧
       (¬ Untrapped th r.2 → exec i s = .next ((s.takeFault st.grp k
         ⟨if r.2.getLsbD 0 && th.fptraps.getLsbD 0 then 0x30#8 else 0x31#8, 0#10, st.unit, 0#64⟩ false st.unit).advance st []))) ∧
   let at_ := fun (f : Ex → Ex × FFlags) (x : Nat) => trResult (f (fp32.decode x))
   let nan := fun (x : Nat) => decide (x < 2 ^ 32) && decide (x % 2 ^ 31 > 0x7F800000)
   (∀ x, nan x = true → ∀ f ∈ [trRcp, trRsq, trExp2, trLog2, trSin, trCos], at_ f x = (0x7FC00000#32, 0#6)) ∧
   at_ trRcp 0x7F800000 = (0#32, 0#6) ∧ at_ trRcp 0xFF800000 = (0x80000000#32, 0#6) ∧
   at_ trRcp 0 = (0x7F800000#32, flagDZ) ∧ at_ trRcp 0x80000000 = (0xFF800000#32, flagDZ) ∧
   at_ trRsq 0x7F800000 = (0#32, 0#6) ∧ at_ trRsq 0xFF800000 = (0x7FC00000#32, flagIV) ∧
   at_ trRsq 0 = (0x7F800000#32, flagDZ) ∧ at_ trRsq 0x80000000 = (0xFF800000#32, flagDZ) ∧
   at_ trExp2 0x7F800000 = (0x7F800000#32, 0#6) ∧ at_ trExp2 0xFF800000 = (0#32, 0#6) ∧
   at_ trExp2 0 = (0x3F800000#32, 0#6) ∧ at_ trExp2 0x80000000 = (0x3F800000#32, 0#6) ∧
   at_ trLog2 0x7F800000 = (0x7F800000#32, 0#6) ∧ at_ trLog2 0xFF800000 = (0x7FC00000#32, flagIV) ∧
   at_ trLog2 0 = (0xFF800000#32, flagDZ) ∧ at_ trLog2 0x80000000 = (0xFF800000#32, flagDZ) ∧
   (∀ f ∈ [trSin, trCos], at_ f 0x7F800000 = (0x7FC00000#32, flagIV) ∧ at_ f 0xFF800000 = (0x7FC00000#32, flagIV)) ∧
   at_ trSin 0 = (0#32, 0#6) ∧ at_ trSin 0x80000000 = (0x80000000#32, 0#6) ∧
   at_ trCos 0 = (0x3F800000#32, 0#6) ∧ at_ trCos 0x80000000 = (0x3F800000#32, 0#6))

/-- R187, R201, R202, R203: conversions between formats and integer types, and packing. R204 to R206: the conversions
through a format slot. An encoding whose slot needs no append puts its byte in the lane and raises the slot's flags; a
decoding gives the element times the slot's scale; a slot of another kind is an illegal instruction. -/
def Obligations.ConversionResults : Prop :=
  (∀ (s : State) (st : Stream) (g : Group) (d a b : Opnd), s.Issues st g →
     let gives := fun (i : Instr) (f : Fmt) (x : Group → Thread → Ex) => s.FpUnit i st g d fun g th =>
       ([BitVec.ofNat 32 (f.result st.rnd st.sat (x g th)).1], (f.result st.rnd st.sat (x g th)).2)
     let int := fun (i : Instr) (lo hi dflt : Int) => s.FpUnit i st g d fun g th =>
       let r := toIntType st.rnd st.sat lo hi dflt (fp32.decode (rd g th a).toNat)
       ([BitVec.ofInt 32 r.1], r.2)
     let widen := fun (i : Instr) (f : Fmt) (lane : BitVec 1) => s.FpUnit i st g d fun g th =>
       ([BitVec.ofNat 32 (fp32.result 0#2 false (f.decode ((rd g th a).toNat / 2 ^ (16 * lane.toNat) % 2 ^ 16))).1], 0#6)
     let pair := fun (i : Instr) (f : Fmt) => s.FpUnit i st g d fun g th =>
       let r0 := f.result st.rnd st.sat (fp32.decode (rd g th a).toNat)
       let r1 := f.result st.rnd st.sat (fp32.decode (rd g th b).toNat)
       ([BitVec.ofNat 32 (r0.1 + 2 ^ 16 * r1.1)], r0.2 ||| r1.2)
     let pack := fun (i : Instr) (f : Word → Word → Word → Nat) => exec i s =
       .next (s.after st (inTurn st (fun g k th => wr g k d (BitVec.ofNat 32 (f (rd g th d) (rd g th a) (rd g th b)))) st.threads g))
     let low := fun (n : Nat) (x : Word) =>
       ((if st.sat then max (-2 ^ (n - 1)) (min x.toInt (2 ^ (n - 1) - 1)) else x.toInt) % 2 ^ n).toNat
     let sext := fun (n x : Nat) => (BitVec.ofInt 32 (if x < 2 ^ (n - 1) then (x : Int) else x - 2 ^ n)).toNat
     gives (.cvtF32S32 d a) fp32 (fun g th => .num (decide ((rd g th a).toInt < 0)) (rd g th a).toInt.natAbs 0) ∧
     gives (.cvtF32N32 d a) fp32 (fun g th => .num false (rd g th a).toNat 0) ∧
     gives (.cvtF32S64 d a) fp32 (fun g th => .num (decide ((rd64 g th a).toInt < 0)) (rd64 g th a).toInt.natAbs 0) ∧
     gives (.cvtF16F32 d a) fp16 (fun g th => fp32.decode (rd g th a).toNat) ∧
     gives (.cvtBf16F32 d a) bf16 (fun g th => fp32.decode (rd g th a).toNat) ∧
     int (.cvtS32F32 d a) (-2 ^ 31) (2 ^ 31 - 1) (-2 ^ 31) ∧
     int (.cvtN32F32 d a) 0 (2 ^ 32 - 1) (2 ^ 32 - 1) ∧
     (s.FpUnit (.cvtS64F32 d a) st g d fun g th =>
       let r := toIntType st.rnd st.sat (-2 ^ 63) (2 ^ 63 - 1) (-2 ^ 63) (fp32.decode (rd g th a).toNat)
       ([BitVec.ofInt 32 r.1, BitVec.ofInt 32 (r.1 / 2 ^ 32)], r.2)) ∧
     (∀ lane, widen (.cvtF32F16 d a lane) fp16 lane ∧ widen (.cvtF32Bf16 d a lane) bf16 lane) ∧
     pair (.cvtF16x2F32 d a b) fp16 ∧ pair (.cvtBf16x2F32 d a b) bf16 ∧
     pack (.packB8 d a b) (fun D A B => low 8 B * 2 ^ 24 + low 8 A * 2 ^ 16 + D.toNat / 2 ^ 16) ∧
     pack (.packB16 d a b) (fun _ A B => low 16 B * 2 ^ 16 + low 16 A) ∧
     (∀ lane, pack (.unpackN8 d a lane) (fun _ A _ => A.toNat / 2 ^ (8 * lane.toNat) % 2 ^ 8) ∧
       pack (.unpackS8 d a lane) (fun _ A _ => sext 8 (A.toNat / 2 ^ (8 * lane.toNat) % 2 ^ 8))) ∧
     (∀ lane, pack (.unpackN16 d a lane) (fun _ A _ => A.toNat / 2 ^ (16 * lane.toNat) % 2 ^ 16) ∧
       pack (.unpackS16 d a lane) (fun _ A _ => sext 16 (A.toNat / 2 ^ (16 * lane.toNat) % 2 ^ 16)))) ∧
  (∀ (s : State) (st : Stream) (g : Group) (k : Nat) (th : Thread) (gr : Grid) (f : FmtSlot) (d a : Opnd) (fs : BitVec 3)
     (lane : BitVec 2),
     s.IssuesOne st g k th → s.grid? g.grid = some gr → gr.lr.fs[fs.toNat]? = some f →
     let sc := if f.scale = 1 then fp32.decode f.scaleref else .num false 1 0
     (∀ i fmt top, (i = .cvtkK8F32 d a fs lane ∧ fmt = 3 ∧ top = 0) ∨ (i = .qntK8 d a fs lane ∧ fmt = 3 ∧ top = 1) ∨
         (i = .qntS8 d a fs lane ∧ fmt = 4 ∧ top = 1) →
       let o := f.encode (exMul (fp32.decode (rd g th a).toNat) sc).1
       (¬ (f.fmt = fmt ∧ f.scale ≤ top) → exec i s =
         .next ((s.takeFault st.grp k ⟨0x01#8, 0#10, st.unit, 0#64⟩ false st.unit).advance st [])) ∧
       (f.fmt = fmt → f.scale ≤ top → o.out = none → (o.flags = 0 ∨ f.olbase = 0) → exec i s =
         .next ((s.updGroup st.grp fun g => match g.thread? k with
           | none => g
           | some th => (wr g k d (putByte (rd g th d) lane.toNat o.elem)).updThread k fun x =>
               { x with fpflags := x.fpflags ||| slotFFlags o.flags o.nx }).advance st [k]))) ∧
     (∀ i fmt top mode, (i = .cvtkF32K8 d a fs lane ∧ fmt = 3 ∧ top = 0 ∧ mode = 0#2) ∨
         (i = .dqntK8 d a fs lane ∧ fmt = 3 ∧ top = 1 ∧ mode = 0#2) ∨
         (i = .dqntS8 d a fs lane ∧ fmt = 4 ∧ top = 1 ∧ mode = BitVec.ofNat 2 f.rnd) →
       let r := fp32.result mode false (exMul (f.decode ((rd g th a).toNat / 2 ^ (8 * lane.toNat) % 2 ^ 8)) sc).1
       (¬ (f.fmt = fmt ∧ f.scale ≤ top) → exec i s =
         .next ((s.takeFault st.grp k ⟨0x01#8, 0#10, st.unit, 0#64⟩ false st.unit).advance st [])) ∧
       (f.fmt = fmt → f.scale ≤ top → exec i s = .next ((s.updGroup st.grp fun g => (wr g k d (BitVec.ofNat 32 r.1)).updThread k fun x =>
         { x with fpflags := x.fpflags ||| r.2 }).advance st [k]))))

/-- R208, R209, R212: the exchanges that name positions: every participant's source is read before any destination is
written, and a position that names a thread outside the stream gives the reader's own value. R90, R213, R214: scans take the
participants up to the reading thread in ascending order, reductions take all; the .f32 forms round each step in mode 0,
return the canonical NaN for a NaN, and OR each step's flags into FPFLAGS. R216 to R219: a row slice is a thread's 32
registers and a column slice one register of each thread; `TMOV` moves between a slice and one register of each participant,
and `TTR` transposes the block of the participants. -/
def Obligations.ExchangeResults : Prop :=
  (∀ (s : State) (st : Stream) (g : Group) (th : Nat → Thread) (d a b : Opnd), s.Issues st g →
     st.pred = 7#3 → st.neg = false → (∀ k ∈ st.threads, g.thread? k = some (th k)) →
     let A := fun (u : Nat) => rd g (th u) a
     let at_ := fun (k : Nat) (i : Int) => if 0 ≤ i ∧ st.threads.contains i.toNat then A i.toNat else A k
     let gives := fun (i : Instr) (f : Nat → Word) => exec i s = .next (s.after st
       (inTurn st (fun g k _ => wr g k d (f k)) st.threads g))
     gives (.xget d a b) (fun k => at_ k ((rd g (th k) b).toNat % 32 : Nat)) ∧
     gives (.xshiftUp d a b) (fun k => at_ k ((k : Int) - (rd g (th k) b).toNat)) ∧
     gives (.xshiftDn d a b) (fun k => at_ k ((k : Int) + (rd g (th k) b).toNat)) ∧
     gives (.xbcast d a) (fun _ => A (st.threads.headD 0)) ∧
     gives (.xquadH d a) (fun k => at_ k (k ^^^ 1 : Nat)) ∧
     gives (.xquadV d a) (fun k => at_ k (k ^^^ 2 : Nat)) ∧
     gives (.xquadD d a) (fun k => at_ k (k ^^^ 3 : Nat)) ∧
     ∃ m : Nat → Word, (∀ k ∈ st.threads, ∀ u < 32, (m k).getLsbD u = (st.threads.contains u && A u == A k)) ∧
       gives (.xmatch d a) m) ∧
  (∀ (s : State) (st : Stream) (g : Group) (th : Nat → Thread) (d a : Opnd), s.Issues st g →
     st.pred = 7#3 → st.neg = false → (∀ k ∈ st.threads, g.thread? k = some (th k)) →
     let A := fun (u : Nat) => rd g (th u) a
     let upTo := fun (k : Nat) => st.threads.filter fun u => decide (u ≤ k)
     let ints := fun (scan red : Instr) (is : List Word → Word → Prop) => ∀ i part, (i = scan ∧ part = upTo) ∨ (i = red ∧ part =
         fun _ => st.threads) → ∃ f : Nat → Word, (∀ k ∈ st.threads, is ((part k).map A) (f k)) ∧
       exec i s = .next (s.after st (inTurn st (fun g k _ => wr g k d (f k)) st.threads g))
     let floats := fun (scan red : Instr) (op : Word → Word → Nat × FFlags) => ∀ i part, (i = scan ∧ part = upTo) ∨ (i = red ∧ part =
         fun _ => st.threads) →
       let canon := fun (w : Word) => if w.toNat % 2 ^ 31 > 0x7F800000 then 0x7FC00000#32 else w
       let f := fun (k : Nat) => ((part k).tail.map A).foldl (fun (r : Word × FFlags) y =>
         (canon (BitVec.ofNat 32 (op r.1 y).1), r.2 ||| (op r.1 y).2)) (canon (A ((part k).headD 0)), 0#6)
       exec i s = .next (s.after st (inTurn st (fun g k _ => (wr g k d (f k).1).updThread k fun x =>
         { x with fpflags := x.fpflags ||| (f k).2 }) st.threads g))
     ints (.xscanAddS32 d a) (.xredAddS32 d a) (fun l w => w = l.sum) ∧
     ints (.xscanMinS32 d a) (.xredMinS32 d a) (fun l w => w ∈ l ∧ ∀ x ∈ l, w.toInt ≤ x.toInt) ∧
     ints (.xscanMaxS32 d a) (.xredMaxS32 d a) (fun l w => w ∈ l ∧ ∀ x ∈ l, x.toInt ≤ w.toInt) ∧
     floats (.xscanAddF32 d a) (.xredAddF32 d a) (fun x y =>
       let e := exAdd 0#2 (fp32.decode x.toNat) (fp32.decode y.toNat)
       ((fp32.result 0#2 false e.1).1, e.2 ||| (fp32.result 0#2 false e.1).2)) ∧
     floats (.xscanMinF32 d a) (.xredMinF32 d a) (fun x y => (fp32.minNum x.toNat y.toNat, 0#6)) ∧
     floats (.xscanMaxF32 d a) (.xredMaxF32 d a) (fun x y => (fp32.maxNum x.toNat y.toNat, 0#6))) ∧
  (∀ (s : State) (st : Stream) (g : Group) (th : Nat → Thread) (d : Opnd) (t ge : BitVec 1) (gidx : BitVec 6)
     (imm : BitVec 5),
     s.Issues st g → st.pred = 7#3 → st.neg = false → (∀ k < 32, g.thread? k = some (th k)) →
     let x := if ge = 1#1 then ((mget g.g gidx.toNat).toNat + imm.toNat) % 32 else imm.toNat
     let b := 32 * t.toNat
     let V := fun (k n : Nat) => mget (th k).v n
     let S := fun (k : Nat) => rd g (th k) d
     let writes := fun (i : Instr) (act : Group → Nat → Group) => exec i s = .next (s.after st
       (inTurn st (fun g k _ => act g k) st.threads g))
     let put := fun (g : Group) (k n : Nat) (w : Word) => g.updThread k fun th => { th with v := mset th.v n w }
     writes (.tmovToRegister d t 0#1 ge gidx imm) (fun g k => wr g k d (V x (b + k))) ∧
     writes (.tmovToRegister d t 1#1 ge gidx imm) (fun g k => wr g k d (V k (b + x))) ∧
     writes (.tmovToSlice d t 0#1 ge gidx imm) (fun g k => put g x (b + k) (S k)) ∧
     writes (.tmovToSlice d t 1#1 ge gidx imm) (fun g k => put g k (b + x) (S k)) ∧
     ∃ ths : List Thread, exec (.ttr t) s = .next (s.after st { g with threads := ths }) ∧ ∀ k < 32, ∃ x, ths[k]? = some { th k with v := x } ∧
       (∀ n < 32, mget x (b + n) = if st.threads.contains k && st.threads.contains n then V n (b + k) else V k (b + n)) ∧
       ∀ n, n < b ∨ b + 32 ≤ n → mget x n = V k n)

/-- R303, R305, R308 to R311: a load, an atomic with return and `VMV` whose checks pass issue one result through their
token, in every thread but a helper's atomic, which does nothing (R307); a token with no room stops the stream (R150). An
access of the W page takes with it the bytes of its range that the core's combining buffer holds (R297). -/
def Obligations.TokenAccessIssue : Prop :=
  ∀ (s : State) (st : Stream) (g : Group) (k : Nat) (th : Thread) (d : VReg) (base : Opnd) (x : BitVec 6) (sb : BitVec 3) (e : TlbEntry),
    s.IssuesOne st g k th →
    let room := g.sb.getD sb.toNat 0 < 255
    let gives := fun (i : Instr) (kind : ResKind) =>
      (room → exec i s = .next (s.issued st k sb kind)) ∧ (¬ room → s.StopsAt i st)
    let held := fun (pa n : Nat) => (((s.core g.core).comb.map fun x => x.bytes).flatten.filter fun b => pa ≤ b.addr && b.addr < pa + n).map
      fun b => (b.addr, b.byte)
    (∀ i n ext, (i = .ldS8 sb d base x ∧ n = 1 ∧ ext = .s8) ∨ (i = .ldN8 sb d base x ∧ n = 1 ∧ ext = .n8) ∨ (i = .ldS16 sb d base x ∧ n = 2 ∧ ext = .s16) ∨
        (i = .ldN16 sb d base x ∧ n = 2 ∧ ext = .n16) ∨ (i = .ldB32 sb d base x ∧ n = 4 ∧ ext = .b32) ∨ (i = .ldB64 sb d base x ∧ n = 8 ∧ ext = .b64) ∨
        (i = .ldB128 sb d base x ∧ n = 16 ∧ ext = .b128) →
      let a := addrM g th base x st.imm n
      s.Reaches g a n [0, 1] true false e →
      let pa := e.pbase + (a.toNat - e.vbase)
      gives i (.load (.mem pa) ext d.toNat (if e.typ = 1 then 0 else st.policy) (if e.typ = 1 then held pa n else []))) ∧
    (∀ i op (data : VReg), (i = .atomAddS32 sb d data base ∧ op = .addS32) ∨ (i = .atomAddF32 sb d data base ∧ op = .addF32) ∨
        (i = .atomMinS32 sb d data base ∧ op = .minS32) ∨ (i = .atomMinN32 sb d data base ∧ op = .minN32) ∨
        (i = .atomMaxS32 sb d data base ∧ op = .maxS32) ∨ (i = .atomMaxN32 sb d data base ∧ op = .maxN32) ∨
        (i = .atomAndB32 sb d data base ∧ op = .and32) ∨ (i = .atomOrB32 sb d data base ∧ op = .or32) ∨
        (i = .atomXorB32 sb d data base ∧ op = .xor32) ∨ (i = .atomExchB32 sb d data base ∧ op = .exch32) ∨
        (i = .atomCasB32 sb d data base ∧ op = .cas32) ∨ (i = .atomAddS64 sb d data base ∧ op = .addS64) ∨
        (i = .atomExchB64 sb d data base ∧ op = .exch64) ∨ (i = .atomCasB64 sb d data base ∧ op = .cas64) →
      let n := if op = .addS64 ∨ op = .exch64 ∨ op = .cas64 then 8 else 4
      let a := addrN g th base st.imm
      let r := fun (j : Nat) => mget th.v (data + BitVec.ofNat 6 j).toNat
      let b : BitVec 64 := if op = .cas64 then r 3 ++ r 2 else if op = .addS64 ∨ op = .exch64 then r 1 ++ r 0
        else if op = .cas32 then (r 1).zeroExtend 64 else (r 0).zeroExtend 64
      let c : BitVec 64 := if op = .cas64 then r 1 ++ r 0 else if op = .cas32 then (r 0).zeroExtend 64 else 0#64
      (th.helper = true → exec i s = .next (s.advance st [k])) ∧
      (th.helper = false → s.Reaches g a n [0] true true e →
        gives i (.atom (.mem (e.pbase + (a.toNat - e.vbase))) op b c d.toNat))) ∧
    (∀ i fmt n (en : Nat → TlbEntry) (p : BitVec 24), (i = .vmvK8 sb d base x ∧ fmt = .k8 ∧ n = 1) ∨ (i = .vmvBf16 sb d base x ∧ fmt = .bf16 ∧ n = 2) ∨
        (i = .vmvF32 sb d base x ∧ fmt = .f32 ∧ n = 4) → st.imm = some p →
      let xs := p.toNat % 64
      let K := p.toNat / 2 ^ 6 % 16 + 1
      let N := p.toNat / 2 ^ 10 % 16 + 1
      let a := addrM g th base x none n
      s.Reaches g a n [0, 1] true false (en (a.toNat / 4096)) →
      (∀ va ∈ pagesOf a.toNat (K * N * n), va < 2 ^ 57 ∧ s.Translates g va (en (va / 4096)) ∧ (en (va / 4096)).typ = 0 ∧ (en (va / 4096)).r = true) →
      gives i (.vmv fmt ((List.range (K * N)).map fun j =>
          let va := a.toNat + n * j
          (en (va / 4096)).pbase + (va - (en (va / 4096)).vbase))
        [] K N ((List.range K).map fun j => mget th.v (xs + j)) d.toNat))

/-- R290, R297, R306 to R309: a store or no-return atomic whose checks pass enters its group's store queue, or on a W page
the store is gathered in the combining buffer; a full queue stops the stream; a helper thread's does nothing. After a store
on the W page, a byte that the core sees through a W mapping (gathered, or else of memory) is the one stored where the store
wrote, and as before elsewhere, whether or not a line left to make room. That the oldest entry of a queue leaves as the next
one enters is the model's choice (log 15). R263, R268, R304: the checks of an access in their order, said of `LD_B32` and
`ST_B32`: access violation for an address outside the range or a leaf that refuses it, else alignment, else a TLB miss stops
the stream and asks for the translation. -/
def Obligations.StoreIssue : Prop :=
  (∀ (s : State) (st : Stream) (g : Group) (k : Nat) (th : Thread) (base : Opnd) (e : TlbEntry),
     s.IssuesOne st g k th →
     let enters := fun (i : Instr) (loc : Loc) (op : SqOp) =>
       (g.sq.length < 16 + g.left → exec i s = .next (s.enqueued st k loc op)) ∧ (16 + g.left ≤ g.sq.length → s.StopsAt i st)
     let seen := fun (t : State) (a : Nat) =>
       match ((t.core g.core).comb.map fun x => x.bytes).flatten.find? fun b => b.addr == a with
       | some b => b.byte
       | none => mget t.mem a
     let comb := (s.core g.core).comb
     let combOk := (comb.map fun x => x.line).Nodup ∧ (comb.map fun x => x.slot).Nodup ∧
       ∀ x ∈ comb, (x.bytes.map fun b => b.addr).Nodup ∧ ∀ b ∈ x.bytes, b.addr / 128 = x.line
     (∀ i n (d : Opnd) (x : BitVec 6), (i = .stB8 d base x ∧ n = 1) ∨ (i = .stB16 d base x ∧ n = 2) ∨ (i = .stB32 d base x ∧ n = 4) ∨
         (i = .stB64 d base x ∧ n = 8) ∨ (i = .stB128 d base x ∧ n = 16) →
       let a := addrM g th base x st.imm n
       let pa := e.pbase + (a.toNat - e.vbase)
       ∀ data : List Byte, data.length = n → (∀ j < n, data[j]? = some ((rdN g th d ((n + 3) / 4)).getD (j / 4) 0#32 |>.extractLsb' (8 * (j % 4)) 8)) →
       (th.helper = true → exec i s = .next (s.advance st [k])) ∧
       (th.helper = false → s.Reaches g a n [0, 1] false true e →
         (e.typ = 0 → enters i (.mem pa) (.bytes data)) ∧
         (e.typ = 1 → e.pbase % 4096 = 0 → e.vbase % 4096 = 0 → ∃ t : State, exec i s = .next (t.advance st [k]) ∧ t = s.gather g.core st.grp k pa e data ∧
           (combOk → ∀ b, seen t b = if pa ≤ b ∧ b < pa + n then data.getD (b - pa) 0#8 else seen s b)))) ∧
     ∀ i op (data : VReg), (i = .atomAddS32Noret data base ∧ op = .addS32) ∨ (i = .atomAddF32Noret data base ∧ op = .addF32) ∨
         (i = .atomMinS32Noret data base ∧ op = .minS32) ∨ (i = .atomMinN32Noret data base ∧ op = .minN32) ∨
         (i = .atomMaxS32Noret data base ∧ op = .maxS32) ∨ (i = .atomMaxN32Noret data base ∧ op = .maxN32) ∨
         (i = .atomAndB32Noret data base ∧ op = .and32) ∨ (i = .atomOrB32Noret data base ∧ op = .or32) ∨
         (i = .atomXorB32Noret data base ∧ op = .xor32) ∨ (i = .atomAddS64Noret data base ∧ op = .addS64) →
       let n := if op = .addS64 then 8 else 4
       let a := addrN g th base st.imm
       let r := fun (j : Nat) => mget th.v (data + BitVec.ofNat 6 j).toNat
       (th.helper = true → exec i s = .next (s.advance st [k])) ∧
       (th.helper = false → s.Reaches g a n [0] true true e →
         enters i (.mem (e.pbase + (a.toNat - e.vbase))) (.atom op (if op = .addS64 then r 1 ++ r 0 else (r 0).zeroExtend 64) 0#64))) ∧
  (∀ (s : State) (st : Stream) (g : Group) (k : Nat) (th : Thread) (d : VReg) (base : Opnd) (x : BitVec 6) (sb : BitVec 3),
     s.IssuesOne st g k th → th.helper = false →
     let a := addrM g th base x st.imm 4
     let unmapped := ∀ e ∈ (s.core g.core).tlb, ¬ (e.asn = s.asnOf g.ctx ∧ e.vbase ≤ a.toNat ∧ a.toNat < e.vbase + e.size)
     ∀ i w, (i = .ldB32 sb d base x ∧ w = false) ∨ (i = .stB32 (.v d) base x ∧ w = true) →
       (2 ^ 57 ≤ a.toNat ∨ a.toNat < 4096 → s.FaultsAt i st k 0x11#8 a) ∧
       (4096 ≤ a.toNat → a.toNat < 2 ^ 57 →
         (∀ e, s.Translates g a.toNat e → ¬ (e.typ ∈ [0, 1] ∧ (if w then e.w = true else e.r = true)) → s.FaultsAt i st k 0x11#8 a) ∧
         (∀ e, s.Translates g a.toNat e → e.typ ∈ [0, 1] → (if w then e.w = true else e.r = true) → a.toNat % 4 ≠ 0 →
           s.FaultsAt i st k 0x12#8 a) ∧
         (unmapped → s.requested g.ctx (a.toNat / 4096) = false → (g.ctx, a.toNat / 4096) ∉ (s.core g.core).walks →
           exec i s = .next ((s.askTlb g.core g.ctx a.toNat).advance st []))))

/-- R271: the home of a translation is, among the enabled slices in ascending core number, the one numbered by the hash of
VA[56:21] and the ASN modulo their number; so all pages of one 2 MiB region share a home, and a leaf that a walk finds is
held at the home of the address through which it is used. -/
def Obligations.TranslationHome : Prop :=
  ∀ (s : State),
    let l := (List.range 192).filter fun n => s.fuse.l2mask.getLsbD n
    (∀ va asn, asn < 2 ^ 16 → l ≠ [] →
      let x : BitVec 36 := BitVec.extractLsb' 21 36 (BitVec.ofNat 64 va)
      let f : BitVec 16 := x.extractLsb' 0 16 ^^^ x.extractLsb' 16 16 ^^^ (x.extractLsb' 32 4).setWidth 16 ^^^ BitVec.ofNat 16 asn
      l[f.toNat % l.length]? = some (s.homeTlb va asn)) ∧
    (∀ va wa asn, va / 2 ^ 21 = wa / 2 ^ 21 → s.homeTlb va asn = s.homeTlb wa asn) ∧
    ∀ core ctx page e, (core, ctx, page) ∈ s.dev.refills → s.dev.mmu.run = none → s.walk ctx (page * 4096) = .leaf e →
      (∀ x ∈ s.dev.l2tlb, x.1 = s.homeTlb (page * 4096) (s.asnOf ctx) → x.2.covers (s.asnOf ctx) (page * 4096) = false) →
      ∃ u : State, exec (.tlbRefill core ctx page) s = .next u ∧ u.dev.l2tlb.head? = some (s.homeTlb (page * 4096) (s.asnOf ctx), e)

/-- R36, R285, R287, R290, R291, R297, R305, R308, R309, R311: a load, an atomic with return or a `VMV`, with no earlier
access of its group outstanding, returns: the token's count falls by one and the thread's destination holds, for a load, the
bytes read, each the gathered one or else memory's, in the form of its extension; for an atomic, the old value, the new one
stored at its home at one timestamp; for `VMV`, each column's sum, rounded at each step, and the flags of every step are
set. A core's copies of lines agree with memory where a load or `VMV` may read them; a load of the home has its timestamp.
R286, R287, R289: a store at its home: every byte reads as stored and every other as before, in one canonical form; it is
admitted at one timestamp, above the read timestamp of each line it touches and not below the program timestamp, and both
timestamps of those lines become it. A load changes no byte and extends each line's lease. -/
def Obligations.AccessCompletion : Prop :=
  (∀ (s : State) (g : Group) (th : Thread) (r : Pending) (tm : Team),
     s.pending? r.id = some r → s.group? r.grp = some g → g.thread? r.thread = some th → s.team? g.team = some tm → tm.st ≠ .saved →
     r.ready = false → r.fault = none → (∀ e ∈ g.sq, r.id < e.id) → (∀ x ∈ s.dev.results, x.grp = r.grp → r.id ≤ x.id) →
     let back := fun (s1 : State) (p : Nat) (d : Nat) (ws : List Word) (fl : FFlags) => exec (.resultReturn r.id) s =
       .next ((((s1.updGroup r.grp fun g => (wrN { g with pts := max g.pts p } r.thread (.v (BitVec.ofNat 6 d)) ws).updThread r.thread
         fun x => { x with fpflags := x.fpflags ||| fl }).dropResult r).endEng r.id).checkBars g)
     let agree := ∀ x ∈ (s.core g.core).l1, ∀ a, a / 128 = x.line → mget x.data a = mget s.mem a
     let reads := fun (d : Nat) (ws : List Word) (fl : FFlags) (home : State → Nat → Prop) => ∃ cores ts p,
       let s1 : State := { s with dev := { s.dev with cores := cores, ts := ts } }
       home s1 p ∧ back s1 p d ws fl
     let byte := fun (comb : Mem) (a : Nat) => (assoc comb a).getD (mget s.mem a)
     let half := fun (comb : Mem) (a : Nat) => (byte comb (a + 1) ++ byte comb a : BitVec 16)
     let word := fun (comb : Mem) (a : Nat) => (half comb (a + 2) ++ half comb a : Word)
     (∀ pa ext d pol comb (n : Nat) (ws : List Word), r.kind = .load (.mem pa) ext d pol comb →
       (ext, n, ws) ∈ [(LoadExt.s8, 1, [BitVec.ofInt 32 (byte comb pa).toInt]), (.n8, 1, [BitVec.ofNat 32 (byte comb pa).toNat]),
         (.s16, 2, [BitVec.ofInt 32 (half comb pa).toInt]), (.n16, 2, [BitVec.ofNat 32 (half comb pa).toNat]), (.b32, 4, [word comb pa]),
         (.b64, 8, [word comb pa, word comb (pa + 4)]),
         (.b128, 16, [word comb pa, word comb (pa + 4), word comb (pa + 8), word comb (pa + 12)])] →
       pa % n = 0 → agree →
       reads d ws 0#6 fun s1 p => pol = 1 ∨ pol = 3 → s1 = (s.homeLoad g.pts pa n).1 ∧ p = (s.homeLoad g.pts pa n).2.2) ∧
     (∀ pa op (x c : BitVec 64) d (new : List Word), r.kind = .atom (.mem pa) op x c d →
       let o := word [] pa
       let o2 : BitVec 64 := word [] (pa + 4) ++ o
       let y : Word := x.setWidth 32
       let pair := fun (z : BitVec 64) => [z.extractLsb' 0 32, z.extractLsb' 32 32]
       (op, new) ∈ [(AtomOp.addS32, [o + y]), (.addF32, [roundF32 0#2 (exAdd 0#2 (fp32.decode o.toNat) (fp32.decode y.toNat)).1]),
         (.minS32, [BitVec.ofInt 32 (min o.toInt y.toInt)]), (.minN32, [BitVec.ofNat 32 (min o.toNat y.toNat)]),
         (.maxS32, [BitVec.ofInt 32 (max o.toInt y.toInt)]), (.maxN32, [BitVec.ofNat 32 (max o.toNat y.toNat)]),
         (.and32, [o &&& y]), (.or32, [o ||| y]), (.xor32, [o ^^^ y]), (.exch32, [y]), (.cas32, [if o = c.setWidth 32 then y else o]),
         (.addS64, pair (o2 + x)), (.exch64, pair x), (.cas64, pair (if o2 = c then x else o2))] →
       let h := s.homeStore g.pts pa (bytesOf new)
       back h.1 h.2 d (if new.length = 2 then pair o2 else [o]) 0#6) ∧
     ∀ fmt e pas comb K N (X : List Word) d (elem : Nat → Ex), r.kind = .vmv fmt pas comb K N X d → pas.length = K * N → X.length = K → agree →
       (∀ a ∈ pas, a % e = 0) → (fmt, e) ∈ [(VmvFmt.k8, 1), (.bf16, 2), (.f32, 4)] →
       (∀ j < K * N, elem j = if fmt = .k8 then decodeK8 (byte comb (pas.getD j 0)).toNat
         else if fmt = .bf16 then bf16.decode (half comb (pas.getD j 0)).toNat else fp32.decode (word comb (pas.getD j 0)).toNat) →
       let step := fun (j : Nat) (acc : Word × FFlags) (i : Nat) =>
         let q := exFma 0#2 (fp32.decode (X.getD i 0#32).toNat) (elem (i * N + j)) (fp32.decode acc.1.toNat)
         let w := fp32.result 0#2 false q.1
         (BitVec.ofNat 32 w.1, acc.2 ||| q.2 ||| w.2)
       let col := fun (j : Nat) => (List.range K).foldl (step j) (0#32, 0#6)
       reads d ((List.range N).map fun j => (col j).1) ((List.range N).foldl (fun fl j => fl ||| (col j).2) 0#6) fun _ _ => True) ∧
  (∀ (s : State) (pts pa : Nat) (data : List Byte) (n : Nat),
     let t := (s.homeStore pts pa data).2
     let m := (s.homeStore pts pa data).1
     let touched := fun (line len : Nat) => ∃ i < len, (pa + i) / 128 = line
     (∀ a, mget m.mem a = if pa ≤ a ∧ a < pa + data.length then data.getD (a - pa) 0#8 else mget s.mem a) ∧
     (Memory.wf s.mem = true → Memory.wf m.mem = true) ∧
     pts ≤ t ∧ (∀ line, touched line data.length → (s.lineTs line).2 < t ∧ m.lineTs line = (t, t)) ∧
     (∀ line, ¬ touched line data.length → m.lineTs line = s.lineTs line) ∧
     (∀ T, pts ≤ T → (∀ line, touched line data.length → (s.lineTs line).2 < T) → t ≤ T) ∧
     let l := s.homeLoad pts pa n
     l.1.mem = s.mem ∧ l.2.1 = mgets s.mem pa n ∧ pts ≤ l.2.2 ∧
     ∀ line, if touched line n then (s.lineTs line).1 ≤ l.2.2 ∧ (l.1.lineTs line).1 = (s.lineTs line).1 ∧
       (l.1.lineTs line).2 = max (s.lineTs line).2 (max (s.lineTs line).1 (pts + (if s.dev.mmu.lease = 0 then 1 else s.dev.mmu.lease)))
     else l.1.lineTs line = s.lineTs line)

/-- R293, R313 to R315: `FENCE`, `XFENCE`, `WAIT` and `WCFLUSH` complete where their condition holds, else the group is held
by it; `XFENCE` raises the program timestamp to every write admitted so far (the model's choice of a timestamp, log 3);
`WAIT` raises the program timestamp above those that the awaited commands admitted; `WCFLUSH` moves the lines that hold the
thread's bytes into the store queue, and waits until what it has moved has taken its place. -/
def Obligations.OrderAndWait : Prop :=
  ∀ (s : State) (st : Stream) (g : Group) (k : Nat) (th : Thread) (m : BitVec 8), s.IssuesOne st g k th →
    let holds := fun (i : Instr) (h : Hold) => exec i s = .next ((s.updGroup st.grp fun g => { g with hold := some h }).advance st [])
    let done := fun (i : Instr) => exec i s = .next (s.advance st [k])
    let far := ∀ r ∈ s.dev.results, r.grp = st.grp → r.kind.isRemote = false ∧ (r.kind.isMem = true → r.ready = true)
    let zero := ∀ n < 8, m.getLsbD n = true → g.sb.getD n 0 = 0
    let raised := fun (x : Group) =>
      (List.range 8).foldl (fun p n => if m.getLsbD n && x.tokTs.getD n 0 ≠ 0 then max p (x.tokTs.getD n 0 + 1) else p) x.pts
    (g.sq = [] → done .fence) ∧ (g.sq ≠ [] → holds .fence .fence) ∧
    let top := s.dev.ts.foldl (fun m x => max m x.2.1) 0
    (g.sq = [] ∧ g.remote = 0 ∧ far → exec .xfence s = .next ((s.updGroup st.grp fun x => { x with pts := max x.pts top }).advance st [k])) ∧ (¬ (g.sq = [] ∧ g.remote = 0 ∧ far) → holds .xfence .xfence) ∧
    (zero → exec (.wait m) s = .next ((s.updGroup st.grp fun x => { x with pts := raised x }).advance st [k])) ∧ (¬ zero → holds (.wait m) (.wait m)) ∧
    let held := (s.core g.core).comb.filter fun x => x.bytes.any fun b => b.grp == st.grp && b.thread == k
    let flushing := ∃ e ∈ g.sq, e.thread = k ∧ ∃ l, e.op = .line l
    (held = [] → ¬ flushing → done .wcflush) ∧ (held = [] → flushing → holds .wcflush (.flush st.mask)) ∧
    (held ≠ [] → g.sq.length + held.length ≤ 16 + g.left → ∃ (t : State) (L : List CombLine), exec .wcflush s = .next (t.advance st []) ∧
      L.Perm held ∧ L.Pairwise (fun x y => x.line ≤ y.line) ∧ (t.core g.core).comb = (s.core g.core).comb.filter (fun x => ∀ y ∈ held, y.slot ≠ x.slot) ∧
      t.group? st.grp = some { g with hold := some (.flush st.mask), sq := g.sq ++ (List.range L.length).zipWith (fun n x =>
        ⟨s.dev.nextId + n, k, .mem (x.line * 128), .line x⟩) L })

/-- R305 to R309, R318, R328, R329, R335: `LDT`, `STT` and `ATOMT` reach the bytes of a handle of the thread's team: a load
or atomic issues through its token, a store enters the store queue; range, alignment, absent lines and consumers are checked
in that order. That the oldest entry of the queue leaves as `STT`'s enters is the model's choice (log 15). R324 to R327:
`TALLOC` gives the team a handle with every line present, and faults where its number is in use, the team has its HANDLES or
the level cannot supply the lines; `TFREE` releases one that nothing uses and waits for one in use; `TPRES` reads the lines
present, with bit 31 where all are. -/
def Obligations.TileStoreAccess : Prop :=
  (∀ (s : State) (st : Stream) (g : Group) (k : Nat) (th : Thread) (tm : Team) (d data : VReg) (base o : Opnd) (x : BitVec 6)
     (sb : BitVec 3),
     s.IssuesOne st g k th → s.team? g.team = some tm →
     let h := (rd g th base).toNat % 256
     let size := fun (y : Handle) => y.rows * pitchOf y.rowb
     let plain := fun (i : Instr) (c : BitVec 8) => s.FaultsAt i st k c 0#64
     let checks := fun (i : Instr) (off n : Nat) (write : Bool) =>
       (tm.handle? h = none → plain i 0x20#8) ∧ ∀ y, tm.handle? h = some y →
         (size y < off + n → plain i 0x20#8) ∧ (off + n ≤ size y → off % n ≠ 0 → plain i 0x12#8) ∧
         (off + n ≤ size y → off % n = 0 → off / 128 ∈ y.absent ∨ (write = true ∧ y.cons ≠ 0) →
           ∀ t, s.park st.grp k (.line g.team h (off / 128)) = some t → exec i s = .next (t.advance st []))
     let meets := fun (off n : Nat) (write : Bool) => ∃ y, tm.handle? h = some y ∧ off + n ≤ size y ∧ off % n = 0 ∧
       off / 128 ∉ y.absent ∧ (write = true → y.cons = 0)
     (∀ i n ext, (i = .ldtB32 sb d base x ∧ n = 4 ∧ ext = .b32) ∨ (i = .ldtB64 sb d base x ∧ n = 8 ∧ ext = .b64) ∨
         (i = .ldtB128 sb d base x ∧ n = 16 ∧ ext = .b128) →
       let off := (tileOffM g th base x st.imm n).toNat
       checks i off n false ∧ (meets off n false → g.sb.getD sb.toNat 0 < 255 →
         exec i s = .next (s.issued st k sb (.load (.tile g.team h off) ext d.toNat 0 [])))) ∧
     (∀ i n (l : List Byte), (i = .sttB32 o base x ∧ n = 4) ∨ (i = .sttB64 o base x ∧ n = 8) ∨ (i = .sttB128 o base x ∧ n = 16) →
       l = bytesOf (rdN g th o (n / 4)) →
       let off := (tileOffM g th base x st.imm n).toNat
       (th.helper = true → exec i s = .next (s.advance st [k])) ∧
       (th.helper = false → checks i off n true ∧ (meets off n true → g.sq.length < 16 + g.left →
         exec i s = .next (s.enqueued st k (.tile g.team h off) (.bytes l))))) ∧
     ∀ i op, (i = .atomtAddS32 sb d data base ∧ op = .addS32) ∨ (i = .atomtMinS32 sb d data base ∧ op = .minS32) ∨
         (i = .atomtMaxS32 sb d data base ∧ op = .maxS32) ∨ (i = .atomtExchB32 sb d data base ∧ op = .exch32) ∨
         (i = .atomtCasB32 sb d data base ∧ op = .cas32) ∨ (i = .atomtAddF32 sb d data base ∧ op = .addF32) →
       let off := (tileOffN g th base st.imm).toNat
       let r := fun (j : Nat) => ((mget th.v (data + BitVec.ofNat 6 j).toNat).zeroExtend 64 : BitVec 64)
       (th.helper = true → exec i s = .next (s.advance st [k])) ∧
       (th.helper = false → checks i off 4 true ∧ (meets off 4 true → g.sb.getD sb.toNat 0 < 255 →
         exec i s = .next (s.issued st k sb (.atom (.tile g.team h off) op (if op = .cas32 then r 1 else r 0)
           (if op = .cas32 then r 0 else 0#64) d.toNat))))) ∧
  (∀ (s : State) (st : Stream) (g : Group) (k : Nat) (th : Thread) (tm : Team) (gr : Grid) (h : BitVec 8) (a d : Opnd) (level : BitVec 2),
     s.IssuesOne st g k th → s.team? g.team = some tm → s.grid? tm.grid = some gr →
     let rows := (rd g th a).toNat / 2 ^ 12 + 1
     let rowb := (rd g th a).toNat % 2 ^ 12 + 1
     let free := tm.handle? h.toNat = none ∧ tm.handles.length < gr.lr.handles ∧
       s.canSupply tm level.toNat ((rows * pitchOf rowb + 127) / 128) = true
     (free → exec (.talloc h a level) s = .next ((s.updTeam g.team fun t =>
       { t with handles := t.handles ++ [⟨h.toNat, rows, rowb, level.toNat, [], [], 0⟩] }).advance st [k])) ∧
     (¬ free → s.FaultsAt (.talloc h a level) st k 0x20#8 0#64) ∧
     (tm.handle? h.toNat = none → s.FaultsAt (.tfree h) st k 0x20#8 0#64 ∧ s.FaultsAt (.tpres d h) st k 0x20#8 0#64) ∧
     ∀ y, tm.handle? h.toNat = some y →
       let used := y.cons ≠ 0 ∨ ∃ c ∈ s.dev.cores, ∃ z ∈ c.2.cmds, z.team = g.team ∧ z.h = h.toNat
       (¬ used → exec (.tfree h) s = .next (((s.updTeam g.team fun t => { t with handles := t.handles.filter fun y =>
         y.h != h.toNat }).freeLines g.team h.toNat).advance st [k])) ∧
       (used → exec (.tfree h) s = .next ((s.updGroup st.grp fun g => { g with hold := some (.tfree h.toNat) }).advance st [])) ∧
       exec (.tpres d h) s = .next ((s.updGroup st.grp fun g => wr g k d (BitVec.ofNat 32
         ((y.rows * pitchOf y.rowb + 127) / 128 - y.absent.length + if y.absent = [] then 2 ^ 31 else 0))).advance st [k]))

/-- R321, R324, R331 to R334: a copy instruction of an allocated handle, with its group's earlier stores at home, the core's
queue and the token with room, puts its command at the end of the core's queue with one result that its token counts, and
makes the lines it may write absent; while an operation still reads the handle they stay. That the stream waits at the unit
until the store queue is empty is the model's reading (log 37). R321, R330 to R335: the copy engine runs its core's commands
in order. A command starts once no operation reads its handle: `CPFILL` has every line to write; the others read their
record, refuse an invalid one or one that does not fit with 20H and zeros in every line they cleared, and otherwise make
present again each cleared line that they do not write; `CPYG` reads its indices. A refused page ends the command with that
page's fault. 20H for an index list that is not 4-aligned is the model's choice (log 44). -/
def Obligations.CopyCommands : Prop :=
  (∀ (s : State) (st : Stream) (g : Group) (k : Nat) (th : Thread) (tm : Team) (y : Handle) (h : BitVec 8) (q : Opnd) (sb : BitVec 3)
     (b4 : BitVec 5),
     s.IssuesOne st g k th → s.team? g.team = some tm → tm.handle? h.toNat = some y →
     let w := fun (j : Nat) => (rdN g th q 4).getD j 0#32
     let all := List.range ((y.rows * pitchOf y.rowb + 127) / 128)
     ∀ i op lines (n b : Nat), (i = .cpy h q sb b4 ∧ op = .cpy ∧ n = 4 ∧ b = b4.toNat ∧ lines = all.drop ((w 3).toNat % 2 ^ 16 * pitchOf y.rowb / 128)) ∨
         (i = .cpyg h q sb ∧ op = .cpyg ∧ n = 4 ∧ b = 0 ∧ lines = all) ∨ (i = .cpst h q sb b4 ∧ op = .cpst ∧ n = 4 ∧ b = b4.toNat ∧ lines = []) ∨
         (i = .cpfill h q sb ∧ op = .cpfill ∧ n = 1 ∧ b = 0 ∧ lines = all) →
       let p := fun (j : Nat) => if j < n then w j else 0#32
       let ready := g.sq = [] ∧ (s.core g.core).cmds.length < 256 ∧ g.sb.getD sb.toNat 0 < 255
       (¬ ready → s.StopsAt i st) ∧
       (ready →
         let held := y.cons ≠ 0 ∧ op ≠ .cpst
         let s1 := (s.addResult st.grp k (some sb.toNat) st.unit .token true).2.onDev fun x => { x with nextId := s.dev.nextId + 2 }
         let s2 := if held then s1 else s1.updHandle g.team h.toNat fun x => { x with absent := distinct (x.absent ++ lines) }
         exec i s = .next ((s2.updCore g.core fun c => { c with cmds := c.cmds ++
           [{ id := s.dev.nextId + 1, op := op, grp := st.grp, team := g.team, h := h.toNat, recVa := (p 1 ++ p 0).toNat, q2 := p 2,
              q3 := p 3, b4 := b, pol := st.policy, pts := g.pts, res := s.dev.nextId, cleared := if held then none else some lines, started := false,
              trec := none, idx := [], lines := [], rx := [] }] }).advance st [k]))) ∧
  (∀ (s : State) (core : Nat),
     ((s.core core).cmds = [] → exec (.copyCommandStart core) s = .next s) ∧
     ∀ k rest g x, (s.core core).cmds = k :: rest → s.group? k.grp = some g → s.handleOf k.team k.h = some x →
       (k.cleared = none ∨ k.started = true → exec (.copyCommandStart core) s = .next s) ∧
       ∀ cl, k.cleared = some cl → k.started = false →
         let refuses := fun (t : State) (code : BitVec 8) (va : Nat) => ∃ (u : State) (y : Handle), exec (.copyCommandStart core) s = .next u ∧
           (u.core core).cmds = (t.core core).cmds.filter (fun c => c.id != k.id) ∧ u.handleOf k.team k.h = some y ∧
           (∀ l, l ∈ y.absent ↔ l ∈ x.absent ∧ l ∉ cl) ∧ (∀ a, mget y.data a = if a / 128 ∈ cl ∧ a < x.size then 0#8 else mget x.data a) ∧
           ∀ p, t.pending? k.res = some p → p.fault = none → ∃ q, u.pending? k.res = some q ∧ q.ready = true ∧
             q.fault = some ⟨code, 0#10, p.unit, BitVec.ofNat 64 va⟩
         (k.op = .cpfill → exec (.copyCommandStart core) s =
           .next (s.updCmd core k.id fun c => { c with started := true, lines := List.range ((x.size + 127) / 128) })) ∧
         (k.op ≠ .cpfill → k.recVa % 64 ≠ 0 → refuses s 0x20#8 0) ∧
         ∀ s1 res b, k.op ≠ .cpfill → k.recVa % 64 = 0 → s.cmdRead core g k (2 ^ 32) k.recVa 64 = (s1, res, b) →
           (∀ v, res = .wait v → exec (.copyCommandStart core) s = .next s1) ∧
           (∀ c va, res = .fault c va → refuses s1 c va) ∧
           (∀ z, res = .ok z → tensorOf b = none → refuses s1 0x20#8 0) ∧
           ∀ z r, res = .ok z → tensorOf b = some r →
             let e := s1.recBytes g.grid r
             let B := fun (i : Nat) => r.box.getD i 1
             let r0 := if k.op = .cpyg then 0 else k.q3.toNat % 2 ^ 16
             let count := if k.op = .cpyg then B 1 else B 1 * B 2 * B 3 * B 4
             let fits := r.sized e = true ∧ r0 + count ≤ x.rows ∧ r.box.getD 0 1 * e ≤ x.rowb
             let writes := fun (l : Nat) => ∃ i < count, ∃ c < B 0 * e, ((r0 + i) * x.pitch + c) / 128 = l
             let starts := fun (idx : List Nat) => ∃ (u : State) (L : List Nat) (y : Handle), exec (.copyCommandStart core) s = .next u ∧
               (u.core core).cmds.head? = some { k with started := true, trec := some r, idx := idx, lines := L } ∧ (∀ l, l ∈ L ↔ writes l) ∧
               u.handleOf k.team k.h = some y ∧ y.data = x.data ∧ ∀ l, l ∈ y.absent ↔ l ∈ x.absent ∧ (writes l ∨ l ∉ cl)
             let ia := k.q2.toNat + 2 ^ 32 * k.q3.toNat
             r.box.length = 5 →
             (¬ fits → refuses s1 0x20#8 0) ∧
             (fits → k.op ≠ .cpyg → starts []) ∧
             (fits → k.op = .cpyg → (ia % 4 ≠ 0 → refuses s1 0x20#8 0) ∧
               ∀ s2 res2 b2, ia % 4 = 0 → s1.cmdRead core g k (2 ^ 32 + 1) ia (4 * count) = (s2, res2, b2) →
                 (∀ v, res2 = .wait v → exec (.copyCommandStart core) s = .next s2) ∧ (∀ c va, res2 = .fault c va → refuses s2 c va) ∧
                 ∀ z2, res2 = .ok z2 → starts ((List.range count).map fun i => natOfBytes ((b2.drop (4 * i)).take 4))))

/-- R321, R331 to R334: what a started command does to a line, in memory of this device: `CPFILL` writes its word; `CPY` and
`CPYG` write the bytes of the elements in range and zeros for the others, and the line is present; `CPST` writes from a
present line each element in range and nothing else; a line whose page is refused is zeros, with the page's fault for the
token, which returns with the last line. -/
def Obligations.CopyLines : Prop :=
  (∀ (s : State) (core line : Nat),
    ((s.core core).cmds = [] → exec (.copyLineWritten core line) s = .next s) ∧
    ∀ k rest g x, (s.core core).cmds = k :: rest → s.group? k.grp = some g → s.handleOf k.team k.h = some x → k.rx = [] →
      (k.started = false ∨ line ∉ k.lines ∨ s.movedFrom core k.team = true → exec (.copyLineWritten core line) s = .next s) ∧
      (k.started = true → line ∈ k.lines → s.movedFrom core k.team = false →
        let others := k.lines.filter (· ≠ line)
        let done := fun (t u : State) (fault : Option (BitVec 8 × Nat)) =>
          (others ≠ [] → (u.core core).cmds.head? = some { k with lines := others }) ∧
          (others = [] → (u.core core).cmds = (t.core core).cmds.filter fun c => c.id != k.id) ∧
          ∀ p, t.pending? k.res = some p → p.fault = none → ∃ q, u.pending? k.res = some q ∧ (others = [] → q.ready = true) ∧
            q.fault = fault.map fun f => ⟨f.1, 0#10, p.unit, BitVec.ofNat 64 f.2⟩
        let fills := fun (u : State) (byte : Nat → Byte) => ∃ y, u.handleOf k.team k.h = some y ∧ (∀ l, l ∈ y.absent ↔ l ∈ x.absent ∧ l ≠ line) ∧
          ∀ a, mget y.data a = if a / 128 = line ∧ a < x.size then byte a else mget x.data a
        (k.op = .cpfill → ∃ u : State, exec (.copyLineWritten core line) s = .next u ∧ done s u none ∧ u.mem = s.mem ∧
          fills u fun a => BitVec.ofNat 8 (k.recVa % 2 ^ 32 / 256 ^ (a % 4))) ∧
        ∀ r, k.op ≠ .cpfill → k.trec = some r →
          let e := s.recBytes g.grid r
          let a := if k.op = .cpst then Access.copyWrite else .copyRead
          (k.op = .cpst → line ∈ x.absent → exec (.copyLineWritten core line) s = .next s) ∧
          ∀ s1 res l, (k.op = .cpst → line ∉ x.absent) → s.physPieces core g.ctx k.id a (k.pieces r x e line) = (s1, res, l) →
            (∀ v, res = .wait v → exec (.copyLineWritten core line) s = .next s1) ∧
            (∀ c va, res = .fault c va → ∃ u : State, exec (.copyLineWritten core line) s = .next u ∧ done s1 u (some (c, va)) ∧
              (k.op = .cpst → u.mem = s1.mem ∧ u.handleOf k.team k.h = some x) ∧ (k.op ≠ .cpst → fills u fun _ => 0#8)) ∧
            (∀ z, res = .ok z → (∀ p ∈ l, ∀ pa t, p.2.2 = some (pa, t) → t.typ ≠ 3) → (∀ p ∈ l, p.1 / 128 = line ∧ p.1 + p.2.1 ≤ x.size) →
              l.Pairwise (fun p q => p.1 + p.2.1 ≤ q.1) → k.op ≠ .cpst → k.pol = 1 ∨ k.pol = 3 → ∃ (u : State) (y : Handle), exec (.copyLineWritten core line) s = .next u ∧
                done s1 u none ∧ u.mem = s1.mem ∧ u.handleOf k.team k.h = some y ∧ (∀ n, n ∈ y.absent ↔ n ∈ x.absent ∧ n ≠ line) ∧
                (∀ p ∈ l, ∀ i < p.2.1, mget y.data (p.1 + i) = match p.2.2 with
                  | none => 0#8
                  | some (pa, _) => mget s1.mem (pa + i)) ∧
                ∀ o, (∀ p ∈ l, o < p.1 ∨ p.1 + p.2.1 ≤ o) → mget y.data o = mget x.data o) ∧
            ∀ z, res = .ok z → (∀ p ∈ l, ∀ pa t, p.2.2 = some (pa, t) → t.typ ≠ 3) → k.op = .cpst →
              l.Pairwise (fun p q => ∀ pa t qa v, p.2.2 = some (pa, t) → q.2.2 = some (qa, v) → pa + p.2.1 ≤ qa ∨ qa + q.2.1 ≤ pa) →
              ∃ (u : State), exec (.copyLineWritten core line) s = .next u ∧ done s1 u none ∧ u.handleOf k.team k.h = some x ∧
                (∀ p ∈ l, ∀ pa t, p.2.2 = some (pa, t) → ∀ i < p.2.1, mget u.mem (pa + i) = mget x.data (p.1 + i)) ∧
                ∀ o, (∀ p ∈ l, ∀ pa t, p.2.2 = some (pa, t) → o < pa ∨ pa + p.2.1 ≤ o) → mget u.mem o = mget s1.mem o)) ∧
  ∀ (k : CopyCmd) (r : TensorRec) (e : Nat),
    let B := fun (i : Nat) => r.box.getD i 1
    let D := fun (i : Nat) => r.dim.getD i 1
    let S := fun (i : Nat) => r.stride.getD i 0
    (∀ k1 k2 k3 k4, k.op ≠ .cpyg → r.dim.length = 5 → k1 < B 1 → k2 < B 2 → k3 < B 3 → k4 < B 4 →
      let i0 := k.q2.toNat % 2 ^ 16 * B 0
      let i1 := k.q2.toNat / 2 ^ 16 * B 1 + k1
      let i2 := k.q3.toNat / 2 ^ 16 % 2 ^ 8 * B 2 + k2
      let i3 := k.q3.toNat / 2 ^ 24 * B 3 + k3
      let i4 := k.b4 * B 4 + k4
      k.rowAt r e (k.q3.toNat % 2 ^ 16 + (k1 + B 1 * (k2 + B 2 * (k3 + B 3 * k4)))) =
        (r.base + i0 * e + i1 * S 1 + i2 * S 2 + i3 * S 3 + i4 * S 4,
          if i1 < D 1 ∧ i2 < D 2 ∧ i3 < D 3 ∧ i4 < D 4 then min (B 0) (D 0 - i0) * e else 0)) ∧
    ∀ row, k.op = .cpyg → k.rowAt r e row = (r.base + k.idx.getD row 0 * S 1, if k.idx.getD row 0 < D 1 then min (B 0) (D 0) * e else 0)

/-- R223, R228, R229 to R235: `OVLOAD` binds a residency token to the resident copy, or to the fetch it asks for; `OVDROP`
frees one; `OVQ` reads one; `OVINV` makes the current bindings of an overlay stale on every core. -/
def Obligations.OverlayInstructions : Prop :=
  ∀ (s : State) (st : Stream) (g : Group) (k : Nat) (th : Thread) (tm : Team) (gr : Grid) (n : BitVec 4) (id : BitVec 12) (d : Opnd),
    s.IssuesOne st g k th → s.team? g.team = some tm → s.grid? g.grid = some gr →
    let img := s.imageBase gr th.inTrap
    let set := fun (s : State) (o : OtTok) => s.updTeam g.team fun t => { t with ot := t.ot.set n.toNat o }
    let from_ : OtFrom := ⟨st.grp, k, st.unit⟩
    (∀ c b, (s.core g.core).bound? g.ctx img id.toNat = some (c, b) → exec (.ovload n id) s =
      .next (((set (set s .free) (.held id.toNat c.id b.gen b.start from_)).enterCopy g.core c.id).advance st [k])) ∧
    ((s.core g.core).bound? g.ctx img id.toNat = none → exec (.ovload n id) s =
      let a := (set s .free).askFetch g.core g.ctx img id.toNat none
      .next ((set a.2 (.loading id.toNat a.1 from_)).advance st [k])) ∧
    exec (.ovdrop n) s = .next ((set s .free).advance st [k]) ∧
    exec (.ovq d n) s = .next ((s.updGroup st.grp fun g => wr g k d (match tm.ot.getD n.toNat .free with
      | .free => 0#32
      | .loading i _ _ => BitVec.ofNat 32 (16 * i + 1)
      | .held i _ _ _ _ => BitVec.ofNat 32 (16 * i + 2)
      | .failed i => BitVec.ofNat 32 (16 * i + 3))).advance st [k]) ∧
    (s.memSettled g = true → ∃ t : State, exec (.ovinv id) s = .next (t.advance st [k]) ∧
      (∀ c ctx im i, (ctx, im, i) ≠ (g.ctx, img, id.toNat) → ((t.core c).bound? ctx im i).map (fun x => (x.1.id, x.2)) =
        ((s.core c).bound? ctx im i).map (fun x => (x.1.id, x.2))) ∧
      ∀ c, (t.core c).bound? g.ctx img id.toNat = none) ∧
    (s.memSettled g = false → s.StopsAt (.ovinv id) st)

/-- R225 to R228, R236, R241: a fetch whose slots are taken reads its code: where the digest is the entry's, the copy is
resident with those words, current for its context unless an OVINV or another current binding has come between, and every
token that loaded it is HELD; where it is not, or a page is refused, the slots are free again, every such token is FAILED
and every thread parked on it has the fault due; a page that must be waited for leaves it. A shareable overlay of a resident
copy of its domain, slots and digest binds to that, which an `OVLOAD` enters. The wait for slots ends in 06H, for tokens
42H, once the limit has passed and not before. Which binding is stale, which clk a copy that nothing has entered counts
from, that an unchanged digest binds the resident shared copy, and which grid's table serves an image are the model's
choices (log 40); the digest is SM3 with constants from outside the manual (log 10). -/
def Obligations.OverlayFetches : Prop :=
  ∀ (s : State) (core n : Nat),
    (s.fetch? core n = none → exec (.overlayFetchComplete core n) s = .next s ∧ exec (.ovwaitTimeout core n) s = .next s) ∧
    ∀ f, s.fetch? core n = some f →
      let tokens := fun (t u : State) (new : Nat → OtFrom → OtTok) => u.dev.teams = t.dev.teams.map fun x =>
        if x.core = core ∧ x.st ≠ .saved then { x with ot := x.ot.map fun o => match o with
          | .loading i c w => if c = f.id then new i w else o
          | o => o } else x
      let gone := fun (u : State) => u.fetch? core n = none
      let wakes := fun (t u : State) (due : Option FaultRec → Option FaultRec) => ∀ (i : Nat) (x : Group), t.dev.groups[i]? = some x → ∃ y, u.dev.groups[i]? = some y ∧
        let parked := fun (th : Thread) => x.core = core ∧ t.residentTeam x.team = true ∧ th.parkKey = f.id ∧
          ((∃ c, th.park = some (.copy c)) ∨ ∃ a b c, th.park = some (.overlay a b c))
        ∀ (j : Nat) (th : Thread), x.threads[j]? = some th → ∃ v, y.threads[j]? = some v ∧
          (parked th → v.park = none ∧ v.due = due th.due ∧ v.vpc = th.vpc) ∧ (¬ parked th → v.park = th.park ∧ v.due = th.due)
      let fails := fun (t : State) (code tok : BitVec 8) (va : Nat) (i : Instr) => ∃ u : State, exec i s = .next u ∧ gone u ∧
        (u.core core).copies = (t.core core).copies ∧
        ((∀ c, t.ctxState c ≠ .suspended) → tokens t u (fun i _ => .failed i) ∧ wakes t u (fun _ => some ⟨code, 0#10, 0#32, BitVec.ofNat 64 va⟩) ∧
        ∀ x ∈ t.dev.teams, x.core = core → x.st ≠ .saved → ∀ i w, x.ot = [.loading i f.id w] → t.dev.teams.filter (fun y => !y.ot.isEmpty) = [x] →
          ∀ g th, t.group? w.grp = some g → g.thread? w.thread = some th → ∃ y v, u.group? w.grp = some y ∧ y.thread? w.thread = some v ∧
            v.async = addFault t.dev.clk ⟨tok, 0#10, w.unit, BitVec.ofNat 64 va⟩ th.async)
      let goes := Instr.overlayFetchComplete core n
      (∀ e s1 r b, f.entry = some e → s.engRead (some core) f.ctx f.id (f.image + e.start) (e.slots * 4096) .code = (s1, r, b) →
        (∀ v, r = .wait v → exec goes s = .next s1) ∧
        (∀ c va, r = .fault c va → fails s1 c c va goes) ∧
        (∀ x, r = .ok x → sm3 b ≠ e.digest → fails s1 0x06#8 0x06#8 0 goes) ∧
        (∀ x, r = .ok x → sm3 b = e.digest → b.length = e.slots * 4096 → e.start % 4096 = 0 → ∃ (u : State) (k : Copy), exec goes s = .next u ∧
          gone u ∧ tokens s1 u (fun i w => .held i f.id e.gen e.start w) ∧ wakes s1 u id ∧ k ∈ (u.core core).copies ∧ k.id = f.id ∧ k.digest = e.digest ∧ k.slotNos = f.slotNos ∧
          k.entered = s1.dev.clk ∧
          k.binds = [⟨f.ctx, f.image, f.ident, e.gen, e.start, e.share, f.stale || e.stale || ((s1.core core).bound? f.ctx f.image f.ident).isSome⟩] ∧
          ∀ i < 1024 * e.slots, k.word? e.start (e.start + 4 * i) = some (BitVec.ofNat 32 (natOfBytes ((b.drop (4 * i)).take 4))))) ∧
      (f.entry = none → f.key = none →
        (s.tableFor f.ctx f.image = none → fails s 0x06#8 0x06#8 0 goes) ∧
        ∀ img s1, s.tableFor f.ctx f.image = some img →
          let finds := fun (r : TableRes) => s.searchTable core f.ctx f.id (fun e => e.id == f.ident) img.count img.table = (s1, r)
          (finds .none → fails s1 0x06#8 0x06#8 0 goes) ∧ (∀ c va, finds (.fault c va) → fails s1 c c va goes) ∧
          (∀ va, finds (.wait va) → exec goes s = .next s1) ∧
          ∀ e, finds (.found e) →
            let dom := ((s1.ctx? f.ctx).map fun c => c.e.domain).getD 0
            let same := fun (k : Copy) => e.share && dom != 0 && k.share && k.domain == dom && k.slots == e.slots && k.digest == e.digest
            (∀ k, (s1.core core).copies.find? same = some k → (∀ x ∈ (s1.core core).copies, x.id = k.id → x = k) → ∃ u : State,
              exec goes s = .next u ∧ gone u ∧ tokens s1 u (fun i w => .held i k.id e.gen e.start w) ∧ wakes s1 u id ∧ ∃ entered,
              { k with binds := k.binds ++ [⟨f.ctx, f.image, f.ident, e.gen, e.start, e.share, false⟩], entered := entered } ∈ (u.core core).copies ∧
              let loads := ∃ x ∈ s1.dev.teams, x.core = core ∧ x.st ≠ .saved ∧ ∃ i w, OtTok.loading i f.id w ∈ x.ot
              (loads → entered = s1.dev.clk) ∧ (¬ loads → entered = k.entered)) ∧
            ∀ s2, (s1.core core).copies.find? same = none → s1.takeSlots core f.ctx e.slots = (none, s2) → ∃ u : State,
              exec goes s = .next u ∧ u.fetch? core n = some { f with waitFrom := some (f.waitFrom.getD s1.dev.clk) }) ∧
      (let lim := (s.core core).ovwait.toNat
       (f.waitFrom = none ∨ lim = 0 ∨ (∃ c, f.waitFrom = some c ∧ s.dev.clk < c + lim) → exec (.ovwaitTimeout core n) s = .next s) ∧
       ∀ c, f.waitFrom = some c → lim ≠ 0 → c + lim ≤ s.dev.clk →
         let t := s.fetchStep core f
         ((t.fetch? core n = none ∨ ∃ x, t.fetch? core n = some x ∧ x.waitFrom = none) → exec (.ovwaitTimeout core n) s = .next t) ∧
         ∀ x c', t.fetch? core n = some x → x.waitFrom = some c' → fails t 0x06#8 0x42#8 0 (.ovwaitTimeout core n))

/-- R243 to R246: `RBSET` binds a thread mask, `RBJOIN` makes the thread arrive and wait, past the unit; a mask of 0, a
bound mask changed while threads wait, and a join by a thread outside the mask are barrier membership faults. R247, R248,
R250: `TBAR`, `CBAR` and `GBAR` of a thread with a valid membership set the phase mask, and the thread waits past the unit;
a mask other than the phase's, an empty one, one beyond the participants, one without the thread's own group or team, a
second group of a team that has arrived, and `GBAR` outside a cooperative grid are barrier membership faults. -/
def Obligations.BarrierUnits : Prop :=
  (∀ (s : State) (st : Stream) (g : Group) (k : Nat) (th : Thread) (n : BitVec 4) (m : Opnd), s.IssuesOne st g k th →
     let v := rd g th m
     let bound := g.rb.getD n.toNat none
     let gathering := ∃ x ∈ g.threads, x.wait = some (.rb n.toNat)
     let fault := fun (i : Instr) => exec i s =
       .next (((s.takeFault st.grp k ⟨0x24#8, 0#10, st.unit, 0#64⟩ false st.unit).advance st []).checkBars g)
     (v = 0#32 ∨ (gathering ∧ bound ≠ some v) → fault (.rbset n m)) ∧
     (v ≠ 0#32 → (gathering → bound = some v) → exec (.rbset n m) s =
       .next (((s.updGroup st.grp fun g => { g with rb := g.rb.set n.toNat (some v) }).advance st [k]).checkBars g)) ∧
     (bound ≠ some v ∨ v.getLsbD k = false → fault (.rbjoin n m)) ∧
     (bound = some v → v.getLsbD k = true → exec (.rbjoin n m) s = .next (((s.updThread st.grp k fun x =>
       { x with vpc := st.next, wait := some (.rb n.toNat) }).advance st []).checkBars g))) ∧
  (∀ (s : State) (st : Stream) (g : Group) (k : Nat) (th : Thread) (tm : Team) (c : Cluster) (gr : Grid) (n : BitVec 4) (m : Opnd),
     s.IssuesOne st g k th → s.team? g.team = some tm → s.cluster? tm.cluster = some c → s.grid? g.grid = some gr →
     let v := rd g th m
     let fault := fun (i : Instr) => exec i s =
       .next (((s.takeFault st.grp k ⟨0x24#8, 0#10, st.unit, 0#64⟩ false st.unit).advance st []).checkBars g)
     let waits := fun (i : Instr) (s1 : State) (w : WaitOn) => exec i s = .next (((s1.updThread st.grp k fun x =>
       { x with vpc := st.next, wait := some w }).advance st []).checkBars g)
     let good := fun (b : Bar) (limit own : Nat) => (∀ x, b.mask = some x → x = v) ∧ v ≠ 0#32 ∧ v.toNat < 2 ^ limit ∧ v.getLsbD own = true
     let rank := tm.rj * gr.lr.clw + tm.ri
     let tb := tm.tb.getD n.toNat ⟨none, false, 0⟩
     let cb := c.cb.getD n.toNat ⟨none, false, 0⟩
     let gb := gr.gb.getD n.toNat ⟨none, false, 0⟩
     let okT := good tb gr.lr.teamGroups g.slot
     let okC := good cb (gr.lr.clw * gr.lr.clh) rank ∧ s.otherAt g (.cb n.toNat) = false
     let okG := gr.lr.flags / 2 % 2 = 1 ∧ good gb (gr.lr.clw * gr.lr.clh) rank ∧ s.otherAt g (.gb n.toNat) = false
     (okT → waits (.tbar n m) (s.updTeam g.team fun x => { x with tb := x.tb.set n.toNat ⟨some v, false, 0⟩ }) (.tb n.toNat)) ∧
     (okC → waits (.cbar n m) (s.updCluster c.id fun x => { x with cb := x.cb.set n.toNat ⟨some v, cb.releasing, cb.openedAt⟩ }) (.cb n.toNat)) ∧
     (okG → waits (.gbar n m) (s.updGrid gr.id fun x => { x with gb := x.gb.set n.toNat ⟨some v, gb.releasing, gb.openedAt⟩ }) (.gb n.toNat)) ∧
     (¬ okT → fault (.tbar n m)) ∧ (¬ okC → fault (.cbar n m)) ∧ (¬ okG → fault (.gbar n m)))

/-- R246, R249, R250, R251: a reconvergence barrier with an arrival opens exactly when every thread of its mask waits at it
or has ended: its threads are runnable again and its mask stays bound. A team barrier opens exactly when every group of its
mask has arrived or ended: its phase ends, its waiting threads are runnable, and each released group's program timestamp
becomes the largest among the arrivals, the members that have ended among them. R140, R244, R250: the release of a grid's or
a cluster's barrier that has opened: every thread waiting at it goes on, its group's timestamp is that of the latest of them
at least, and the arrivals are cleared for the next phase; one that has not opened releases nothing. That every waiting
thread goes on, of a group that has not arrived whole too, is the model's choice (log 40: the rules are silent), and so is
the clk of the event after the opening (log 44). -/
def Obligations.BarrierOpening : Prop :=
  ((∀ (s : State) (g : Group) (n : Nat) (m : Word), s.group? g.id = some g → g.rb.getD n none = some m →
     let at_ := fun (th : Thread) => th.wait = some (.rb n)
     let all := ∀ i < 32, m.getLsbD i = true → ∀ th, g.thread? i = some th → th.ended = true ∨ at_ th
     (all → (∃ th ∈ g.threads, at_ th) → ∃ g', (s.checkRb g.id n).group? g.id = some g' ∧ g'.rb = g.rb ∧
       g'.threads = g.threads.map fun th => if th.wait = some (.rb n) then { th with wait := none } else th) ∧
     (¬ all ∨ ¬ (∃ th ∈ g.threads, at_ th) → s.checkRb g.id n = s)) ∧
   ∀ (s : State) (tm : Team) (n : Nat) (b : Bar) (m : Word), s.team? tm.id = some tm → tm.tb[n]? = some b → b.mask = some m →
     let members := fun (x : Group) => x ∈ s.dev.groups ∧ x.team = tm.id
     let arrived := fun (x : Group) => s.groupAt x (.tb n) = true
     let all := ∀ i < 32, m.getLsbD i = true → ∀ x, (s.dev.groups.filter fun y => y.team == tm.id).find? (fun y => y.slot == i) = some x →
       x.ended = true ∨ arrived x
     let waits := fun (x : Group) => ∃ th ∈ x.threads, th.wait = some (.tb n)
     let came := fun (x : Group) => waits x ∨ (x.ended = true ∧ m.getLsbD x.slot = true)
     (all → (s.checkTb tm.id n).team? tm.id = some { tm with tb := tm.tb.set n ⟨none, false, 0⟩ } ∧
       ∀ (j : Nat) (x : Group), s.dev.groups[j]? = some x → x.team = tm.id → waits x → ∃ y : Group, (s.checkTb tm.id n).dev.groups[j]? = some y ∧
         y.threads = x.threads.map (fun th => if th.wait = some (.tb n) then { th with wait := none } else th) ∧
         (∀ z, members z → came z → z.pts ≤ y.pts) ∧ ∃ z, members z ∧ came z ∧ y.pts = z.pts) ∧
     (¬ all → s.checkTb tm.id n = s)) ∧
  (∀ (s : State) (owner n : Nat),
     let phase := fun (sel : Group → Bool) (w : WaitOn) (u : State) =>
       (∀ (g : Group), g ∈ u.dev.groups → sel g = true → ∀ th ∈ g.threads, th.wait ≠ some w) ∧
       (∀ (i : Nat) (g : Group), s.dev.groups[i]? = some g → ∃ x, u.dev.groups[i]? = some x ∧
         (sel g = false ∨ (∀ th ∈ g.threads, th.wait ≠ some w) → x = g) ∧
         (sel g = true → (∃ th ∈ g.threads, th.wait = some w) → g.pts ≤ x.pts ∧
           x.threads = g.threads.map fun th => if th.wait = some w then { th with wait := none } else th) ∧
         ∀ (j : Nat) (y : Group), s.dev.groups[j]? = some y → sel g = true → sel y = true → (∃ th ∈ g.threads, th.wait = some w) →
           (∃ th ∈ y.threads, th.wait = some w) → y.pts ≤ x.pts)
     (∀ gr, s.grid? owner = some gr →
       ((gr.gb.getD n ⟨none, false, 0⟩).releasing = false → exec (.barrierRelease true owner n) s = .next s) ∧
       ((gr.gb.getD n ⟨none, false, 0⟩).releasing = true → ∃ u : State, exec (.barrierRelease true owner n) s = .next u ∧
         (u.grid? owner).map (fun x => x.gb) = some (gr.gb.set n ⟨none, false, 0⟩) ∧ phase (fun g => g.grid == owner) (.gb n) u)) ∧
     ∀ c, s.cluster? owner = some c →
       ((c.cb.getD n ⟨none, false, 0⟩).releasing = false → exec (.barrierRelease false owner n) s = .next s) ∧
       ((c.cb.getD n ⟨none, false, 0⟩).releasing = true → ∃ u : State, exec (.barrierRelease false owner n) s = .next u ∧
         (u.cluster? owner).map (fun x => x.cb) = some (c.cb.set n ⟨none, false, 0⟩) ∧
         phase (fun g => (s.dev.teams.filter fun t => t.cluster == owner).any fun t => t.id == g.team) (.cb n) u))

/-- R252: `CVSIGN` signs a convergence register, and the last member is told so and frees it. R253 to R256, R262: `RINGWAIT`
lets the producer wait for empty and the consumer for full, and `RINGPASS` hands a stage on, releasing those that wait for
it; a stage is passed once in a clk (R262 item 4); the descriptor is bound by the first and checked by every ring
instruction. -/
def Obligations.ConvergenceAndRings : Prop :=
  (∀ (s : State) (st : Stream) (g : Group) (k : Nat) (th : Thread) (tm : Team) (n : BitVec 4) (m : Opnd) (pd : BitVec 3) (cv : Cv),
     s.IssuesOne st g k th → s.team? g.team = some tm → tm.cv[n.toNat]? = some cv →
     let v := rd g th m
     let fault := fun (c : BitVec 8) => exec (.cvsign n m pd) s =
       .next (((s.takeFault st.grp k ⟨c, 0#10, st.unit, 0#64⟩ false st.unit).advance st []).checkBars g)
     let signs := fun (mask done : Word) => ∀ all : Bool, (all = true ↔ ∀ i < 32, mask.getLsbD i = true → i = k ∨ done.getLsbD i = true ∨
         ∀ x, g.thread? i = some x → x.ended = true) →
       exec (.cvsign n m pd) s = .next (((((s.updTeam g.team fun x => { x with cv := x.cv.set n.toNat (if all then Cv.free
         else .signing mask (done ||| 1#32 <<< k) st.grp) }).updThread st.grp k fun x => { x with p := if all then x.p ||| (1#7 <<< pd.toNat)
           else x.p &&& ~~~(1#7 <<< pd.toNat) }).advance st [k])).checkBars g)
     (∀ b, cv = .bound b → fault 0x23#8) ∧ (cv = .free → v = 0#32 → fault 0x24#8) ∧
     (cv = .free → v ≠ 0#32 → v.getLsbD k = false → fault 0x23#8) ∧
     (cv = .free → v ≠ 0#32 → v.getLsbD k = true → signs v 0#32) ∧
     ∀ mask done owner, cv = .signing mask done owner →
       (owner ≠ st.grp ∨ v.getLsbD k = false ∨ done.getLsbD k = true → fault 0x23#8) ∧
       (owner = st.grp → v.getLsbD k = true → done.getLsbD k = false → (v ≠ mask → fault 0x24#8) ∧ (v = mask → signs mask done))) ∧
  (∀ (s : State) (st : Stream) (g : Group) (k : Nat) (th : Thread) (tm : Team) (gr : Grid) (r : Ring) (n : BitVec 4) (stage : BitVec 3)
     (ph : BitVec 1) (m : Opnd),
     s.IssuesOne st g k th → s.team? g.team = some tm → s.grid? g.grid = some gr → tm.rings[n.toNat]? = some r →
     let v := rd g th m
     let prod := v.toNat % 32
     let cons := v.toNat / 2 ^ 5 % 32
     let sc := v.toNat / 2 ^ 10 % 8
     let member := (∀ x, r.desc = some x → x = v) ∧ sc ≠ 0 ∧ v.toNat < 2 ^ 13 ∧ prod ≠ cons ∧ prod < gr.lr.teamGroups ∧
       cons < gr.lr.teamGroups ∧ (g.slot = prod ∨ g.slot = cons)
     let turn := stage.toNat ≤ sc ∧ g.slot = (if ph = 0#1 then prod else cons)
     let now := r.phase.getLsbD stage.toNat = decide (ph = 1#1)
     let fault := fun (i : Instr) (c : BitVec 8) => exec i s =
       .next (((s.takeFault st.grp k ⟨c, 0#10, st.unit, 0#64⟩ false st.unit).advance st []).checkBars g)
     let bound := s.updTeam g.team fun x => { x with rings := x.rings.set n.toNat { r with desc := some v } }
     (∀ i, i = .ringwait n stage ph m ∨ i = .ringpass n stage ph m →
       (¬ member → fault i 0x24#8) ∧ (member → ¬ turn → fault i 0x25#8)) ∧
     (member → turn →
       (now → exec (.ringwait n stage ph m) s = .next ((bound.advance st [k]).checkBars g)) ∧
       (¬ now → exec (.ringwait n stage ph m) s = .next (((bound.updThread st.grp k fun x =>
         { x with vpc := st.next, wait := some (.ring n.toNat stage.toNat (decide (ph = 1#1))) }).advance st []).checkBars g)) ∧
       (¬ now ∨ assoc r.passed stage.toNat = some s.dev.clk → fault (.ringpass n stage ph m) 0x25#8) ∧
       (now → assoc r.passed stage.toNat ≠ some s.dev.clk → s.memSettled g = false →
         exec (.ringpass n stage ph m) s = .next ((s.advance st []).checkBars g)) ∧
       (now → assoc r.passed stage.toNat ≠ some s.dev.clk → s.memSettled g = true → ∃ t : State, exec (.ringpass n stage ph m) s = .next ((t.advance st [k]).checkBars g) ∧
         t.team? g.team = some { tm with rings := tm.rings.set n.toNat ⟨some v, r.phase ^^^ (1#8 <<< stage.toNat),
           assocSet r.passed stage.toNat s.dev.clk⟩ } ∧
         (∀ x ∈ t.dev.groups, x.team = g.team → ∀ y ∈ x.threads, y.wait ≠ some (.ring n.toNat stage.toNat (decide (ph = 0#1)))) ∧
         ∀ x ∈ t.dev.groups, x.team = g.team → x.slot = prod ∨ x.slot = cons → g.pts ≤ x.pts)))

/-- R344 to R346, R352: `MACQ` gives a free engine to the group, or queues and parks it; `MREL` hands the engine to the head
of the ownership queue, which runs again, and needs the engine and no bound operation. R37, R97, R339 to R342: `ACCALLOC`
parks its group on a request for the banks, `ACC_GRANT` grants the oldest queued request once the banks are free, the group
goes on past the unit, and those that its context's quota no longer allows leave the queue; `ACCFREE` releases held banks
that no queued operation names; when every queued request has waited for ACCWAIT, the oldest takes wait timeout. -/
def Obligations.EngineAndBanks : Prop :=
  (∀ (s : State) (st : Stream) (g : Group) (k : Nat) (th : Thread) (tm : Team), s.IssuesOne st g k th → s.team? g.team = some tm →
     let c := s.core g.core
     (c.owner = some st.grp → exec .macq s = .next (s.advance st [k])) ∧
     (c.owner = none → c.ownq = [] → c.relAt = some s.dev.clk → ∃ t : State, exec .macq s = .next (t.advance st []) ∧
        (t.core g.core).owner = some st.grp) ∧
      (c.owner = none → c.ownq = [] → c.relAt ≠ some s.dev.clk → exec .macq s = .next ((s.updCore g.core fun c => { c with owner := some st.grp }).advance st [k])) ∧
     (∀ o, c.owner = some o → o ≠ st.grp → st.grp ∉ c.ownq → exec .macq s = .next (((s.updCore g.core fun c =>
       { c with ownq := c.ownq ++ [st.grp] }).updGroup st.grp fun g => { g with park := .macq }).advance st [])) ∧
     (c.owner ≠ some st.grp → s.FaultsAt .mrel st k 0x22#8 0#64) ∧
     (c.owner = some st.grp → (∃ b, Cv.bound b ∈ tm.cv ∧ b.owner = st.grp) → s.FaultsAt .mrel st k 0x23#8 0#64) ∧
     (c.owner = some st.grp → (∀ b, Cv.bound b ∈ tm.cv → b.owner ≠ st.grp) → ∃ t : State, exec .mrel s = .next (t.advance st [k]) ∧
       (t.core g.core).owner = c.ownq.head? ∧ (t.core g.core).ownq = c.ownq.tail ∧
       ∀ h, c.ownq.head? = some h → ∀ x, s.group? h = some x → (t.group? h).map (·.park) = some .none)) ∧
  ((∀ (s : State) (st : Stream) (g : Group) (k : Nat) (th : Thread) (tm : Team) (acc : BitVec 5) (n : BitVec 6),
     s.IssuesOne st g k th → s.team? g.team = some tm → tm.ctx = g.ctx →
     let lo := acc.toNat
     let hi := acc.toNat + n.toNat
     let q := s.qacc g.ctx
     let bad := 32 < hi ∨ (∃ b ∈ tm.banks, lo ≤ b.n ∧ b.n < hi) ∨ (q ≠ 0 ∧ q < n.toNat)
     let missing := ∃ i, lo ≤ i ∧ i < hi ∧ tm.bank? i = none
     (bad → s.FaultsAt (.accalloc acc n) st k 0x21#8 0#64) ∧
     (¬ bad → ∃ queued, exec (.accalloc acc n) s = .next (((s.updCore g.core fun c => { c with accq := c.accq ++
         [⟨st.grp, g.team, lo, n.toNat, [k], st.unit, st.next, s.dev.clk, queued⟩] }).updGroup st.grp fun g => { g with park := .acc }).advance st []) ∧
       (q = 0 → queued = true)) ∧
     (missing → s.FaultsAt (.accfree acc n) st k 0x21#8 0#64) ∧
     (¬ missing → s.bankBusy g.core g.team lo n.toNat = true → exec (.accfree acc n) s =
       .next ((s.updGroup st.grp fun g => { g with hold := some (.accfree lo n.toNat) }).advance st [])) ∧
     (¬ missing → s.bankBusy g.core g.team lo n.toNat = false → exec (.accfree acc n) s =
       .next ((s.updTeam g.team fun t => { t with banks := t.banks.filter fun b => decide (b.n < lo ∨ hi ≤ b.n) }).advance st [k]))) ∧
   (∀ (s : State) (core : Nat) (r : AccReq) (rest : List AccReq) (tm : Team) (g : Group),
     (s.core core).accq = r :: rest → r.queued = true → (∀ x ∈ rest, x.queued = true) → ((r :: rest).map fun x => x.grp).Nodup → s.team? r.team = some tm →
     s.group? r.grp = some g → (∀ x ∈ r :: rest, s.underQuota core x = true) → r.n ≤ s.freeBanks core → ∃ t, exec (.accGrant core) s = .next t ∧
       ((t.core core).accq.map fun x => { x with queued := true }) = rest ∧ (∀ x ∈ (t.core core).accq, x.queued = t.underQuota core x) ∧
       (∃ banks, t.team? r.team = some { tm with banks := banks } ∧ banks.Perm (tm.banks ++ (List.range r.n).map fun i => ⟨r.first + i, .unset, []⟩)) ∧
       (t.group? r.grp).map (fun x => decide (x.park = .acc ∨ x.park = .macq)) = some false ∧
       ∀ h ∈ r.threads, ∀ th, g.thread? h = some th → ((t.group? r.grp).bind fun x => x.thread? h) = some { th with vpc := r.next }) ∧
   ∀ (s : State) (core : Nat) (r : AccReq) (rest : List AccReq),
     (s.core core).accq = r :: rest → (∀ x ∈ r :: rest, x.queued = true) → (∀ x ∈ rest, x.grp ≠ r.grp) →
     let lim := (s.core core).accwait.toNat
     (lim ≠ 0 → s.freeBanks core < r.n → (∀ x ∈ r :: rest, x.since + lim ≤ s.dev.clk) → exec (.accwaitTimeout core) s =
       .next ((((s.updCore core fun c => { c with accq := rest.map fun x => { x with since := s.dev.clk } }).updGroup r.grp fun g =>
         { g with park := .none }).takeFault r.grp (r.threads.headD 0) ⟨0x42#8, 0#10, r.unit, 0#64⟩ false r.unit))) ∧
     ((lim = 0 ∨ r.n ≤ s.freeBanks core ∨ ∃ x ∈ r :: rest, s.dev.clk < x.since + lim) → exec (.accwaitTimeout core) s = .next s))

/-- R346, R348 to R350: `MBIND` and `MBIND_R` bind a matrix operation to a convergence register, with the result that its
token counts; ownership, the register, the bank, the mask and the operand are checked in that order. R347, R351 to R353: a
signature latches the thread's row, fixes the kind of the operation and marks the thread; the last member's queues the
operation. A thread that is no unsigned member, or signs in another kind, is a convergence fault. R346, R347, R353: an
operation whose members have signed enters the engine queue at its tail, in place of its convergence register; one that
finds 16 entries is due. Its bank, operand, depth and result are the binding's. -/
def Obligations.MatrixUnits : Prop :=
  (∀ (s : State) (st : Stream) (g : Group) (k : Nat) (th : Thread) (tm : Team) (gr : Grid) (fa fb : FmtSlot) (p : BitVec 24) (cv : BitVec 4)
     (acc : BitVec 5) (h : BitVec 8) (q : BitVec 6) (fs sb : BitVec 3),
     s.IssuesOne st g k th → s.team? g.team = some tm → s.grid? g.grid = some gr → st.imm = some p →
     gr.lr.fs[p.toNat / 2 ^ 6 % 8]? = some fa → gr.lr.fs[fs.toNat]? = some fb → cv.toNat < tm.cv.length →
     let K := p.toNat % 64 + 1
     let mask := mget g.g (p.toNat / 2 ^ 9 % 64)
     let org := (mget g.g (p.toNat / 2 ^ 9 % 64 + 1)).toNat
     let owns := (s.core g.core).owner = some st.grp
     let e := max fa.bytes fb.bytes
     let fits := ∃ b, tm.bank? acc.toNat = some b ∧ (fa.fmt = 4 ↔ fb.fmt = 4) ∧ K % (if e = 1 then 8 else if e = 2 then 4 else 1) = 0 ∧
       K * fa.bytes ≤ 64 ∧ (b.mode = .unset ∨ b.mode = if fa.fmt = 4 then .integer else .float)
     let room := g.sb.getD sb.toNat 0 < 255
     let holds := ∃ y, tm.handle? h.toNat = some y ∧ K ≤ y.rows ∧ 64 * fb.bytes ≤ y.rowb
     ∀ i src, (i = .mbind cv acc h fs sb ∧ src = .handle h.toNat) ∨
         (i = .mbindR cv acc q fs sb ∧ src = .record ((mget g.g q.toNat).toNat + 2 ^ 32 * (mget g.g (q.toNat + 1)).toNat)) →
       let fault := fun (c : BitVec 8) => s.FaultsAt i st k c 0#64
       (¬ owns → fault 0x22#8) ∧ (owns → tm.cv[cv.toNat]? ≠ some .free → fault 0x23#8) ∧
       (owns → tm.cv[cv.toNat]? = some .free →
         (¬ fits → fault 0x21#8) ∧ (fits → mask = 0#32 → fault 0x23#8) ∧
         (fits → mask ≠ 0#32 → src = .handle h.toNat → ¬ holds → fault 0x20#8) ∧
         (fits → mask ≠ 0#32 → (src = .handle h.toNat → holds) → (src ≠ .handle h.toNat → g.sq = []) → room →
           ∃ t : State, exec i s = .next (t.advance st [k]) ∧ t.mem = s.mem ∧
             t.dev.results = s.dev.results ++ [⟨s.dev.nextId, st.grp, k, some sb.toNat, st.unit, .token, false, [], 0, none, true, []⟩] ∧
             (t.group? st.grp).map (fun x => x.sb) = some (g.sb.set sb.toNat (g.sb.getD sb.toNat 0 + 1)) ∧
             ∃ tm', t.team? g.team = some tm' ∧
               tm'.cv = tm.cv.set cv.toNat (.bound ⟨mask, 0#32, st.grp, acc.toNat, src, p.toNat / 2 ^ 6 % 8, fs.toNat, K, org % 2 ^ 16,
                 org / 2 ^ 16, s.dev.nextId, none, none, (s.core g.core).held?.map Prod.snd, []⟩) ∧
               tm'.handles = (if src = .handle h.toNat then tm.handles.map fun x => if x.h = h.toNat then { x with cons := x.cons + 1 } else x
                 else tm.handles) ∧
               tm'.banks = tm.banks.map fun b => if b.n = acc.toNat ∧ b.mode = .unset then
                 { b with mode := if fa.fmt = 4 then .integer else .float } else b))) ∧
  (∀ (s : State) (st : Stream) (g : Group) (k : Nat) (th : Thread) (tm : Team) (cv : BitVec 4) (v gidx : BitVec 6) (t ge : BitVec 1)
     (imm : BitVec 5),
     s.IssuesOne st g k th → s.team? g.team = some tm →
     let owns := (s.core g.core).owner = some st.grp
     let x := ((if ge = 1#1 then ((mget g.g gidx.toNat).toNat + imm.toNat) % 32 else imm.toNat) + k) % 32
     let slice := match g.thread? x with
       | some y => mgets y.v (32 * t.toNat) 32
       | none => []
     let reg := mgets th.v v.toNat 32
     ∀ i (ws : Option (List Word)) re, (i = .msignReg cv v ∧ ws = some reg ∧ re = false) ∨ (i = .msignSlice cv t ge gidx imm ∧ ws = some slice ∧ re = false) ∨
         (i = .msignReReg cv v ∧ ws = some reg ∧ re = true) ∨ (i = .msignReSlice cv t ge gidx imm ∧ ws = some slice ∧ re = true) ∨
         (i = .msignReNone cv ∧ ws = none ∧ re = true) →
       let fault := fun (c : BitVec 8) => s.FaultsAt i st k c 0#64
       let kind : SignKind := ⟨ws.isSome, re⟩
       (¬ owns → fault 0x22#8) ∧ (owns → (∀ b, tm.cv[cv.toNat]? ≠ some (.bound b)) → fault 0x23#8) ∧
       ∀ b, tm.cv[cv.toNat]? = some (.bound b) → owns →
         let may := b.owner = st.grp ∧ b.mask.getLsbD k = true ∧ b.signed.getLsbD k = false ∧ (b.kind = none ∨ b.kind = some kind)
         let done := b.signed ||| 1#32 <<< k
         let last := allSigned g b.mask done
         let signed := fun (s1 : State) (b1 : Binding) =>
           exec i s = .next ((s1.updTeam g.team fun x => { x with cv := x.cv.set cv.toNat (.bound b1) }).advance st [k])
         (¬ may → fault 0x23#8) ∧
         (may → ∀ l, ws = some l → ∀ n, b.buf = some n →
           (last = false → signed s { b with signed := done, kind := some kind, rows := msets b.rows (32 * k) l }) ∧
           (last = true → (s.core g.core).eqRoom = true → exec i s =
             .next ((s.queueOp g cv.toNat { b with signed := done, kind := some kind, rows := msets b.rows (32 * k) l }).advance st [k]))) ∧
         (may → s.latchDue g.core = false → ∀ l, ws = some l → b.buf = none → ∀ n, (s.core g.core).freeBuf = some n →
           let s1 := s.setBuf g.core n ⟨.filling, []⟩
           let b1 := { b with signed := done, kind := some kind, buf := some n, rows := msets b.rows (32 * k) l }
           (last = false → signed s1 b1) ∧
           (last = true → (s.core g.core).eqRoom = true → exec i s = .next ((s1.queueOp g cv.toNat b1).advance st [k]))) ∧
         (may → s.latchDue g.core = false → ws = none → b.kind = none → (s.core g.core).held? = none → fault 0x23#8) ∧
         (may → ws = none → ∀ b1, (∃ n rows, b.kind = none ∧ (s.core g.core).held? = some (n, rows) ∧ b1 = { b with
             signed := done, kind := some kind, buf := (if b.held.getD rows = rows then some n else none), rows := b.held.getD rows }) ∨
             (b.kind = some kind ∧ b1 = { b with signed := done }) →
           (last = false → signed s b1) ∧
           (last = true → (s.core g.core).eqRoom = true → exec i s = .next ((s.queueOp g cv.toNat b1).advance st [k])))) ∧
  (∀ (s : State) (g : Group) (tm : Team) (cv : Nat) (b : Binding) (fb : FmtSlot),
     s.team? g.team = some tm → (s.slotsOf g)[b.bfs]? = some fb → fb.sidePath = false →
     let fa := s.slotAt g b.afs
     let q := if max fa.bytes fb.bytes = 1 then 8 else if max fa.bytes fb.bytes = 2 then 4 else 1
     let e : EqEntry := { id := s.dev.nextId, grp := g.id, team := g.team, kind := .op b, units := 0, need := 8 * b.k / q, list := [],
                          added := 0, toRead := false, begun := true, share := none, rx := [], res := b.res }
     let t := s.queueOp g cv b
     t.team? g.team = some { tm with cv := tm.cv.set cv .free } ∧ t.mem = s.mem ∧
     (t.core g.core).eq = (if (s.core g.core).eq.length < 16 ∧ (s.core g.core).due = [] then (s.core g.core).eq ++ [e] else (s.core g.core).eq) ∧
     (t.core g.core).due = (if (s.core g.core).eq.length < 16 ∧ (s.core g.core).due = [] then (s.core g.core).due else (s.core g.core).due ++ [e]))

/-- R346, R347, R358 to R363: the units that take an entry of the engine queue: ownership is checked first, then the bank
and the targets, of whose faults the lowest is taken, then room; a drain and a tensor operation have a result that their
token counts, `ACCLD` one for its thread. -/
def Obligations.EngineUnitsIssue : Prop :=
  ∀ (s : State) (st : Stream) (g : Group) (k : Nat) (th : Thread) (tm : Team) (acc : BitVec 5) (h : BitVec 8) (q v : BitVec 6)
    (fs sb : BitVec 3) (hb : BitVec 1) (c : BitVec 2),
    s.IssuesOne st g k th → s.team? g.team = some tm →
    let owns := (s.core g.core).owner = some st.grp
    let room := (s.core g.core).eq.length < 16 ∧ (s.core g.core).due = []
    let bank := ∃ b, tm.bank? acc.toNat = some b
    let count := g.sb.getD sb.toNat 0
    let entry := fun (id res : Nat) (kind : EqKind) => EqEntry.mk id st.grp g.team kind 0 0 [] 0 false true none [] res
    let fresh := fun (s : State) (n : Nat) => s.onDev fun d => { d with nextId := n }
    let slot := s.slotAt g
    let p := (st.imm.getD 0#24).toNat
    let words := fun (q n : Nat) => (mget g.g (q + n)).toNat
    let target := fun (q : Nat) => DrainTo.memory (words q 0 + 2 ^ 32 * words q 1) (words q 2) (words q 3 % 2 ^ 16) (words q 3 / 2 ^ 16)
    let fits := fun (d : DrainTo) (f : FmtSlot) => match d with
      | .handle h _ => ∃ x, tm.handle? h = some x ∧ 64 ≤ x.rows ∧ 64 * f.bytes ≤ x.rowb
      | .memory base pitch _ _ => base % f.bytes = 0 ∧ pitch % f.bytes = 0
    (∀ i ∈ [Instr.mzero acc, .mmac acc q sb, .mdrainHandle acc h fs sb, .mdrainTHandle acc h fs sb, .mdrainMemory acc q fs sb,
      .mdrainTMemory acc q fs sb, .accld v acc hb c sb, .accst v acc hb c], ¬ owns → s.FaultsAt i st k 0x22#8 0#64) ∧
    (∀ i ∈ [Instr.mzero acc, .accld v acc hb c sb, .accst v acc hb c], owns → ¬ bank → s.FaultsAt i st k 0x21#8 0#64) ∧
    (owns → bank → room →
      exec (.mzero acc) s = .next (((fresh s (s.dev.nextId + 1)).pushEq g.core (entry s.dev.nextId 0 (.mzero acc.toNat))).advance st [k]) ∧
      exec (.accst v acc hb c) s = .next (((fresh s (s.dev.nextId + 1)).pushEq g.core (entry s.dev.nextId 0
        (.accst acc.toNat hb.toNat c.toNat [(k, mgets th.v v.toNat 16)]))).advance st [k]) ∧
      (count < 255 → exec (.accld v acc hb c sb) s =
        .next (((fresh (s.addResult st.grp k (some sb.toNat) st.unit .token false).2 (s.dev.nextId + 2)).pushEq g.core (entry (s.dev.nextId + 1) 0
          (.accld acc.toNat [(k, s.dev.nextId)] v.toNat hb.toNat c.toNat))).advance st [k]))) ∧
    ∀ i d o, (i = .mdrainHandle acc h fs sb ∧ d = .handle h.toNat false ∧ o = none) ∨
        (i = .mdrainTHandle acc h fs sb ∧ d = .handle h.toNat false ∧ o = some (.handle (p % 256) false, p / 2 ^ 8 % 8)) ∨
        (i = .mdrainMemory acc q fs sb ∧ d = target q.toNat ∧ o = none) ∨
        (i = .mdrainTMemory acc q fs sb ∧ d = target q.toNat ∧ o = some (target (p / 2 ^ 3 % 64), p % 8)) →
      let meets := fun (p : DrainTo → FmtSlot → Prop) => p d (slot fs.toNat) ∨ ∃ d2 n, o = some (d2, n) ∧ p d2 (slot n)
      let askew := meets fun d f => (∃ b p r c, d = .memory b p r c) ∧ ¬ fits d f
      let small := meets fun d f => (∃ h x, d = .handle h x) ∧ ¬ fits d f
      (owns → askew → s.FaultsAt i st k 0x12#8 0#64) ∧ (owns → ¬ askew → small → s.FaultsAt i st k 0x20#8 0#64) ∧
      (owns → ¬ askew → ¬ small → ¬ bank → s.FaultsAt i st k 0x21#8 0#64) ∧
      (owns → bank → ¬ askew → ¬ small →
      (g.sq = [] ∧ room ∧ count < 255 →
        let a := (fresh (s.addResult st.grp k (some sb.toNat) st.unit .token true).2 (s.dev.nextId + 2)).drainClears g.team (slot fs.toNat) d
        let b := match o with
          | none => (a.1, none)
          | some (d2, n) => ((a.1.drainClears g.team (a.1.slotAt g n) d2).1, some ((a.1.drainClears g.team (a.1.slotAt g n) d2).2, n))
        exec i s = .next ((b.1.pushEq g.core (entry (s.dev.nextId + 1) s.dev.nextId (.drain acc.toNat a.2 fs.toNat b.2))).advance st [k])) ∧
      (¬ (g.sq = [] ∧ room ∧ count < 255) → s.StopsAt i st))

/-- R127, R346, R349, R358, R359: `MMAC` with readable records and four fitting banks: the team gives its part of the
cluster's operation, which begins once every team of the cluster has given it: every share is then of the one operation of
the teams that agree, whose records are read once for all; a team whose arguments differ from the first's takes a
convergence fault. R81, R88, R89, R354: what an operation leaves in element (i, j) of its bank: in an integer bank the old
value plus the exact sum of products, modulo 2^32; in a floating-point bank, for each chunk in ascending K, one rounding of
the sum with the exact dot product of the chunk, then one for each of the chunk's records. -/
def Obligations.MatrixElements : Prop :=
  ((∀ (s s1 s2 : State) (st : Stream) (g : Group) (k : Nat) (th : Thread) (tm : Team) (cl : Cluster) (acc : BitVec 5) (gA : BitVec 6)
     (sb : BitVec 3) (x y : TensorRec) (ea eb : TlbEntry)
     (fa1 fb1 : List (Nat × Nat × Nat × Nat)),
     s.IssuesOne st g k th → s.team? g.team = some tm → s.cluster? tm.cluster = some cl → (s.core g.core).owner = some st.grp →
     let p := (st.imm.getD 0#24).toNat
     let K := p / 2 ^ 6 % 64 + 1
     let va := fun (n : Nat) => (mget g.g (n + 1) ++ mget g.g n).toNat
     let a := va gA.toNat
     let b := va (p % 64)
     let got := fun (s : State) => (s.core g.core).recs.filter fun p => p.line == st.grp
     s.readTensor g.core g.ctx 0 g.grid a g.pts (got s) = (s1, .ok ea, some x, fa1) →
     s1.readTensor g.core g.ctx 0 g.grid b g.pts (got s1) = (s2, .ok eb, some y, fb1) →
     let s3 := s2.updCore g.core fun c => { c with recs := c.recs.filter fun p => p.line != st.grp }
     let fa := s2.slotAt g x.fs
     let fb := s2.slotAt g y.fs
     (∀ i < 4, bankFits (tm.bank? (acc.toNat + i)) fa fb K = true) → (s2.core g.core).eqRoom = true → s2.hasRoom st.grp sb.toNat = true →
     (∀ m ∈ cl.mmac, m.team ≠ tm.id) →
     let agrees := ∀ m, (cl.mmac.find? fun m => m.part) = some m → m.a = a ∧ m.b = b ∧ m.k = K
     let gives := fun (s : State) (part : Bool) => (s.updCluster tm.cluster fun c => { c with mmac := c.mmac ++ [⟨tm.id, a, b, K, part⟩] }).beginMmac
       tm.cluster
     (agrees →
       let s4 := (s3.addResult st.grp k (some sb.toNat) st.unit .token true).2.onDev fun d => { d with nextId := s2.dev.nextId + 2 }
       let mode := fun (z : Bank) => if z.mode = .unset then (if fa.fmt = 4 then .integer else .float) else z.mode
       let s5 := (List.range 4).foldl (fun (s : State) i => s.updBank tm.id (acc.toNat + i) fun z => { z with mode := mode z }) s4
       let e := EqEntry.mk (s2.dev.nextId + 1) st.grp g.team (.share acc.toNat a b K tm.ri tm.rj) 0 (32 * K / chunkDepth fa fb) [] 0 false false none
         [] s2.dev.nextId
       exec (.mmac acc gA sb) s = .next ((gives (s5.pushEq g.core e) true).advance st [k])) ∧
     (¬ agrees → exec (.mmac acc gA sb) s = .next (((gives s3 false).takeFault st.grp k ⟨0x23#8, 0#10, st.unit, 0#64⟩ false
       st.unit).advance st []))) ∧
   ∀ (s : State) (id : Nat) (c : Cluster), s.cluster? id = some c →
     let teams := s.dev.teams.filter fun t => t.cluster == id
     let all := ∀ t ∈ teams, t.st = .retired ∨ ∃ m ∈ c.mmac, m.team = t.id
     (¬ all → s.beginMmac id = s) ∧
     let ranks := (teams.filter fun t => c.mmac.any fun m => m.team == t.id && m.part).map fun t => (t.ri, t.rj)
     let plain := fun (e : EqEntry) => { e with toRead := false, list := [], rx := [], share := none }
     let joins := fun (core : Nat) (e : EqEntry) => e.begun = false ∧ ∃ t ∈ teams, t.core = core ∧ t.id = e.team
     (all → (s.beginMmac id).cluster? id = some { c with mmac := [] } ∧ ∀ core, ((s.beginMmac id).core core).eq.map plain =
       ((s.core core).eq.map fun e => if joins core e then plain { e with begun := true } else plain e) ∧
       ((∀ x ∈ s.dev.cores, ∀ e ∈ x.2.eq, ∀ o, e.share = some o → o.op ≠ s.dev.nextId) → ∀ (n : Nat) (e : EqEntry), (s.core core).eq[n]? = some e →
         ∃ e', ((s.beginMmac id).core core).eq[n]? = some e' ∧ (joins core e → ∃ recs, e'.share = some ⟨s.dev.nextId, ranks, recs, none⟩) ∧
           (¬ joins core e → e'.share = e.share)))) ∧
  (∀ (fa fb : FmtSlot) (q k : Nat) (a b : Nat → Nat → Nat) (side : List (Nat × Nat × Word)) (data : WordMap) (i j : Nat), i < 64 → j < 64 →
     let c := mget data (64 * i + j)
     let out := mget (macBank fa fb q k a b side data) (64 * i + j)
     let s8 := fun (x : Nat) => (BitVec.ofNat 8 x).toInt
     let dot := fun (ch : Nat) => (List.range q).foldl (fun x n => (exAdd 0#2 x (exMul (fa.decode (a i (ch * q + n))) (fb.decode (b (ch * q + n) j))).1).1)
       (.num false 0 0)
     let rounded := fun (c : Word) (x : Ex) => BitVec.ofNat 32 (fp32.result 0#2 false (exAdd 0#2 (fp32.decode c.toNat) x).1).1
     (fa.fmt = 4 → out = c + BitVec.ofInt 32 (((List.range k).map fun n => s8 (a i n) * s8 (b n j)).sum)) ∧
     (fa.fmt ≠ 4 → out = (List.range (k / q)).foldl (fun c ch => (side.filter fun r => r.2.1 == j && r.1 / q == ch).foldl
       (fun c r => rounded c (exMul (fa.decode (a i r.1)) (fp32.decode r.2.2.toNat)).1) (rounded c (dot ch))) c))

/-- R347, R350, R352, R354, R355, R357, R359, R360, R363: what the entry that the engine is at does when it completes; an
operation completes once its units and records are done and the lines of its operand are present; a share of a cluster's, of
the bytes read once for all shares; `ACCLD` writes its threads' registers there and then. R347, R362: a drain that may
proceed writes its bank's elements to its targets, the lines of a handle target become present, and it leaves, its token
returned; one that awaits a page asks for it and stays. R81, R82, R362: the bytes that a drain writes to one target. Element
(i, j) of the bank, times the exact scale of its place (of row i for SCALE 2 and of column j for SCALE 3, counted from the
target's origin), is encoded once into the slot's format, and its bytes stand at base + i × pitch + j × e of the target (for
the transposed target, those of element (j, i) there), low byte first; where elements overlap the last in ascending row,
then column, stands; every other byte is as before. Said where each page is held with its permission and no element needs
the outlier list. R258 to R260: a level step falls on a clk divisible by 4; an idle engine never rises and a busy one never
falls, none rises above 8, and in each zone at most its slope limit rises. That a core whose share of an `MMAC` has not
begun is not busy is the model's choice (log 40). -/
def Obligations.EngineProgress : Prop :=
  (∀ (s : State) (core : Nat),
     let done := fun (s1 : State) => exec (.matrixOperationComplete core) s = .next s1
     (s.current core = none → done s) ∧
     (∀ e, s.current core = some e → s.group? e.grp = none → done (s.dropEq core e.id)) ∧
     ∀ e g, s.current core = some e → s.group? e.grp = some g →
       (∀ acc, e.kind = .mzero acc → done ((s.updBank e.team acc fun b => { b with data := [], mode := .unset }).dropEq core e.id)) ∧
       (∀ acc h c data, e.kind = .accst acc h c data → 
         done ((s.updBank e.team acc fun b => { b with data := data.foldl (fun m x => msets m (64 * (32 * h + x.1) + 16 * c) x.2) b.data }).dropEq
           core e.id)) ∧
       (∀ acc ts reg h c tm b, e.kind = .accld acc ts reg h c → s.team? e.team = some tm → tm.bank? acc = some b → 
         let row := fun (x : Nat × Nat) => mgets b.data (64 * (32 * h + x.1) + 16 * c) 16
         done ((ts.foldl (fun s x => (s.updGroup e.grp fun g => wrN g x.1 (.v (BitVec.ofNat 6 reg)) (row x)).updPending x.2 fun p =>
           { p with ready := true }) s).dropEq core e.id)) ∧
       (∀ acc va vb K i j o x y bytes f1 f2, e.kind = .share acc va vb K i j → e.share = some o → o.recs = some (some (x, y), f1) →
         o.got = some (bytes, f2) → e.toRead = false → (∀ z ∈ s.opShares o.op, z.2.id = e.id → z.2 = e) →
         (¬ (e.need ≤ e.units ∧ e.list.length ≤ e.added) → done s) ∧
         (e.need ≤ e.units → e.list.length ≤ e.added →
           let fa := s.slotAt g x.fs
           let fb := s.slotAt g y.fs
           let rowA := fun (n r c : Nat) => memElem bytes fa.bytes (((128 * j + n / 2 * 64 + r) * K + c) * fa.bytes)
           let rowB := fun (n r c : Nat) => memElem bytes fb.bytes (shareCols + (128 * K * i + r * 128 + n % 2 * 64 + c) * fb.bytes)
           let side := fun (n : Nat) => (e.list.filter fun z => n % 2 * 64 ≤ z.2.1 && z.2.1 < n % 2 * 64 + 64).map fun z => (z.1, z.2.1 - n % 2 * 64, z.2.2)
           done ((((List.range 4).foldl (fun s n => s.updBank e.team (acc + n) fun z =>
             { z with data := macBank fa fb (32 * K / e.need) K (rowA n) (rowB n) (side n) z.data }) s).dropEq core e.id).returnToken e.res 0))) ∧
       (∀ acc d f o, e.kind = .drain acc d f o → done s) ∧
       ∀ b, e.kind = .op b → e.toRead = false →
         (¬ (e.need ≤ e.units ∧ e.list.length ≤ e.added) → done s) ∧
         (e.need ≤ e.units → e.list.length ≤ e.added → ∀ h y, b.src = .handle h → s.handleOf e.team h = some y →
           let fa := s.slotAt g b.afs
           let fb := s.slotAt g b.bfs
           let lines := rowLines y 0 b.k (64 * s.slotBytes e.team b.bfs)
           ((∃ l ∈ lines, l ∈ y.absent) → done s) ∧
           let elem := fun (n j : Nat) => natOfBytes (mgets y.data (n * pitchOf y.rowb + j * fb.bytes) fb.bytes)
           let product := macBank fa fb (8 * b.k / e.need) b.k (latchElem b.rows fa.bytes) elem e.list
           ((∀ l ∈ lines, l ∉ y.absent) → done ((s.updBank e.team b.acc fun x => { x with data := product x.data }).opDone core e b)))) ∧
  (∀ (s : State) (core : Nat) (e : EqEntry) (g : Group) (tm : Team) (b : Bank) (acc fs : Nat) (d : DrainTo) (o : Option (DrainTo × Nat)),
     ((s.core core).eq.find? fun x => x.id == e.id) = some e → e.kind = .drain acc d fs o → s.group? e.grp = some g →
     s.team? e.team = some tm → tm.bank? acc = some b →
     let a1 := drainTarget core g e b (s.slotAt g fs) d false ⟨s, [], 0, 0, []⟩
     let a := match o with
       | some (d2, n) => drainTarget core g e b (s.slotAt g n) d2 true a1
       | none => a1
     let lands := fun (t : State) (x : DrainTo × Nat) => match x.1 with
       | .handle h _ => match t.handleOf e.team h with
         | some y => (rowLines y 0 64 (64 * (s.slotAt g x.2).bytes)).foldl (fun t l => t.linePresent e.team h l) t
         | none => t
       | .memory .. => t
     (s.current core ≠ some e → exec (.drainComplete core e.id) s = .next s) ∧
     (s.current core = some e → a.waits ≠ [] → exec (.drainComplete core e.id) s =
       .next (a.waits.foldl (fun s x => s.requestPage g.ctx (x.1 / 4096) x.2 (some e.id)) s)) ∧
     (s.current core = some e → a.waits = [] → exec (.drainComplete core e.id) s =
       .next (((o.toList.foldl lands (lands a.s (d, fs))).dropEq core e.id).returnToken e.res a.ts))) ∧
  (∀ (core : Nat) (g : Group) (e : EqEntry) (b : Bank) (f : FmtSlot) (d : DrainTo) (tr : Bool) (a : DrainAcc) (en : Nat → TlbEntry),
     g.core = core → a.cells = [] →
     let s := a.s
     let n := if f.fmt = 0 then 4 else if f.fmt ≤ 2 then 2 else 1
     let held := fun (va : Nat) => va < 2 ^ 57 ∧ (e.id, va / 4096) ∉ s.dev.engFail ∧ s.Translates g va (en (va / 4096))
     let pa := fun (va : Nat) => (en (va / 4096)).pbase + (va - (en (va / 4096)).vbase)
     let org := match d with
       | .memory _ _ ro co => (ro, co)
       | .handle _ _ => (0, 0)
     let sva := fun (r c : Nat) => f.scaleref * 64 + 4 * (if f.scale = 2 then org.1 + r else org.2 + c)
     let scale := fun (r c : Nat) => if f.scale = 0 then Ex.num false 1 0 else if f.scale = 1 then fp32.decode f.scaleref
       else fp32.decode (natOfBytes (mgets s.mem (pa (sva r c)) 4))
     let word := fun (r c : Nat) => mget b.data (if tr then 64 * c + r else 64 * r + c)
     let value := fun (r c : Nat) => if b.mode = .integer then exOfInt (word r c).toInt 0 false else fp32.decode (word r c).toNat
     let out := fun (r c : Nat) => f.encode (exMul (value r c) (scale r c)).1
     let byte := fun (r c i : Nat) => BitVec.ofNat 8 ((out r c).elem / 2 ^ (8 * i))
     let all := fun (p : Nat → Nat → Prop) => ∀ r < 64, ∀ c < 64, p r c
     (1 < f.scale → all fun r c => held (sva r c) ∧ (en (sva r c / 4096)).typ = 0 ∧ (en (sva r c / 4096)).r = true) →
     (all fun r c => (out r c).out = none) → (f.olbase = 0 ∨ all fun r c => (out r c).flags = 0) →
     let t := drainTarget core g e b f d tr a
     let stands := fun (m m' : Mem) (at_ : Nat → Nat → Nat) =>
       (all fun r c => ∀ i < n, (all fun r' c' => ∀ i' < n, at_ r' c' + i' = at_ r c + i → 64 * r' + c' ≤ 64 * r + c) →
         mget m' (at_ r c + i) = byte r c i) ∧
       ∀ x, (all fun r c => x < at_ r c ∨ at_ r c + n ≤ x) → mget m' x = mget m x
     (∀ base pitch ro co, d = .memory base pitch ro co →
       let va := fun (r c : Nat) => (base + r * pitch + c * n) % 2 ^ 64
       (all fun r c => held (va r c) ∧ (en (va r c / 4096)).typ ∈ [0, 1, 2] ∧ (en (va r c / 4096)).w = true ∧ (en (va r c / 4096)).dty = true) →
       t.waits = a.waits ∧ stands s.mem t.s.mem (fun r c => pa (va r c))) ∧
     ∀ h cl y, d = .handle h cl → s.handleOf e.team h = some y → t.waits = a.waits ∧ t.s.mem = s.mem ∧
       ∃ m, t.s.handleOf e.team h = some { y with data := m } ∧ stands y.data m (fun r c => r * pitchOf y.rowb + c * n)) ∧
  (∀ s : State,
     let now := s.dev.clk % 4 = 0 ∧ s.dev.nextStep ≤ s.dev.clk
     let busy := fun (c : Nat) => (s.core c).busy = true
     (¬ now → exec .levelStep s = .next s) ∧
     (now → ∃ t, exec .levelStep s = .next t ∧ t.mem = s.mem ∧ t.dev.groups = s.dev.groups ∧ t.dev.clk = s.dev.clk ∧ t.dev.nextStep = s.dev.clk + 1 ∧
       (∀ c, { t.core c with level := 0 } = { s.core c with level := 0 }) ∧
       (∀ c, busy c → (s.core c).level ≤ (t.core c).level ∧ ((s.core c).level < (t.core c).level → (s.core c).level < 8)) ∧
       (∀ c, ¬ busy c → (t.core c).level ≤ (s.core c).level) ∧
       ∀ z (l : List Nat), l.Nodup → (∀ c ∈ l, zoneOf c = z ∧ (s.core c).level < (t.core c).level) →
         l.length ≤ if (s.zone z).limit = 0 then 1 else min (s.zone z).limit 128))

/-- R366, R370, R375 to R382: the instructions that push records to bins and read them: a push takes 8 registers to a bin
with room, parks at a full one or faults; a helper's push does nothing; `BPOP` and `BQUERY` answer through their token:
status 0 where the bin holds no record, else the queue's first record, after the pops that wait. The room kept for records
on their way is the model's choice (log 29). R376, R377, R382: `CONT` pushes a continuation at its PC to a bin of that PC,
or binds an unbound one of the grid's code, and ends the thread; a helper thread only ends; a PC that is 0 or misaligned,
and a PC no bin can take, fault. That a bin which records of the PC are on their way to goes before an unbound one is the
model's choice (log 44), and so is the room kept for records on their way (log 29). -/
def Obligations.BinUnits : Prop :=
  (∀ (s : State) (st : Stream) (g : Group) (k : Nat) (th : Thread) (d a : VReg) (o b : Opnd) (sb : BitVec 3),
     s.IssuesOne st g k th → g.sb.getD sb.toNat 0 < 255 →
     let B := rd g th b
     let N := (B.extractLsb' 0 24).setWidth 32
     let ws := mgets th.v a.toNat 8
     let bin := (s.ctxBins g.core g.ctx).find? fun x => x.key == B
     let item := (s.ctxBins g.core g.ctx).find? fun x => x.kind != .continuation && x.key == B
     let node := (s.ctxBins g.core g.ctx).find? fun x => x.kind == .node && x.key == N
     let step := fun (i : Instr) (t : State) => exec i s = .next (t.advance st [k])
     let fault := fun (i : Instr) (c : BitVec 8) => s.FaultsAt i st k c 0#64
     let record := fun (x : Dev) (core : Nat) (n : Option Nat) (key : Word) (res : Option Nat) =>
       Push.mk x.nextId g.core core n key ws st.grp k g.ctx res g.pts x.clk
     let put := fun (s : State) (core : Nat) (n : Option Nat) (key : Word) (res : Option Nat) =>
       s.onDev fun x => { x with nextId := x.nextId + 1, pushes := x.pushes ++ [record x core n key res] }
     let token := (s.addResult st.grp k (some sb.toNat) st.unit .token false).2
     let stuck := fun (x : Bin) => x.st = .closing ∨ x.st = .faulted
     let goes := fun (i : Instr) (x : Bin) (go : Prop) => (stuck x → fault i 0x50#8) ∧
       (¬ stuck x → s.onWay g.core x.n < x.room → go) ∧
       (¬ stuck x → x.room ≤ s.onWay g.core x.n → (x.full = true → fault i 0x50#8) ∧
         (x.full = false → ∀ t, s.park st.grp k (.bin g.core x.n) = some t → exec i s = .next (t.advance st [])))
     (th.helper = true → step (.bpush a b sb) s ∧ step (.wgpush a b sb) s) ∧
     (th.helper = false →
       (item = none → fault (.bpush a b sb) 0x50#8) ∧
       (∀ x, item = some x → goes (.bpush a b sb) x
         (step (.bpush a b sb) (put token g.core (some x.n) B (some s.dev.nextId)))) ∧
       (∀ x, node = some x → goes (.wgpush a b sb) x (step (.wgpush a b sb) (put token g.core (some x.n) N (some s.dev.nextId)))) ∧
       (node = none → step (.wgpush a b sb) (put token (B.toNat / 2 ^ 24) none N (some s.dev.nextId)))) ∧
     (bin = none → step (.bflush b) s ∧
       step (.bquery o b sb) ((s.addResult st.grp k (some sb.toNat) st.unit (.words o [0#32] 0#6) false).2.resultReady s.dev.nextId 0)) ∧
     (∀ x, bin = some x →
       step (.bflush b) (if x.count = 0 then s else s.updBin g.core x.n fun y => { y with flush := true }) ∧
       step (.bquery o b sb) ((s.addResult st.grp k (some sb.toNat) st.unit
         (.words o [BitVec.ofNat 32 (x.count + x.st.code * 2 ^ 21 + 2 ^ 24)] 0#6) false).2.resultReady s.dev.nextId 0)) ∧
     let pop := fun (n : Nat) => (s.addResult st.grp k (some sb.toNat) st.unit (.pop g.core n o (.v d)) false).2
     (bin = none → step (.bpop d o b sb) ((pop 64).resultReady s.dev.nextId 0)) ∧
     ∀ x, bin = some x →
       let waits := ∃ r ∈ s.dev.results, ∃ a d, r.kind = .pop g.core x.n a d ∧ r.ready = false
       (x.q = [] → x.ringRecs = [] → step (.bpop d o b sb) ((pop x.n).resultReady s.dev.nextId 0)) ∧
       (x.q = [] ∨ waits → x.q ≠ [] ∨ x.ringRecs ≠ [] → step (.bpop d o b sb) (pop x.n)) ∧
       (x.q ≠ [] → ¬ waits → step (.bpop d o b sb) ((pop x.n).takePop g.core x.n s.dev.nextId))) ∧
  (∀ (s : State) (st : Stream) (g : Group) (k : Nat) (th : Thread) (gr : Grid) (a : VReg) (b : Opnd),
     s.IssuesOne st g k th → s.grid? g.grid = some gr →
     let pc := rd g th b
     let ends := fun (t : State) => exec (.cont a b) s = .next (((t.endThread st.grp k).advance st []).recheck st.grp)
     let fault := fun (c : BitVec 8) => exec (.cont a b) s =
       .next (((s.takeFault st.grp k ⟨c, 0#10, st.unit, 0#64⟩ false st.unit).advance st []).recheck st.grp)
     let record := fun (x : Dev) (n : Nat) => Push.mk x.nextId g.core g.core (some n) pc (mgets th.v a.toNat 8) st.grp k g.ctx none g.pts x.clk
     let push := fun (s : State) (n : Nat) => s.onDev fun x => { x with nextId := x.nextId + 1, pushes := x.pushes ++ [record x n] }
     let named := (s.ctxBins g.core g.ctx).find? fun x => x.key == pc
     let free := fun (x : Bin) => x.kind = .continuation ∧ x.key = 0#32
     let expects := fun (x : Bin) => free x ∧ ∃ p ∈ s.dev.pushes, p.core = g.core ∧ p.bin = some x.n ∧ p.key = pc
     let unbound := fun (x : Bin) => free x ∧ s.onWay g.core x.n = 0 ∧ ∃ r, x.lr = some r ∧ r.codebase = gr.lr.codebase
     let binds := fun (x : Bin) => ends (push (s.updBin g.core x.n fun y => { y with key := pc }) x.n)
     let open_ := fun (x : Bin) => x.st ≠ .closing ∧ x.st ≠ .faulted ∧ s.onWay g.core x.n < x.room
     (th.helper = true → ends s) ∧
     (th.helper = false → pc.toNat % 4 ≠ 0 ∨ pc = 0#32 → fault 0x04#8) ∧
     (th.helper = false → pc.toNat % 4 = 0 → pc ≠ 0#32 →
       (∀ x, named = some x → x.kind = .continuation → open_ x → ends (push s x.n)) ∧
       (∀ x, named = some x → x.kind ≠ .continuation → fault 0x50#8) ∧
       (named = none → (∀ x ∈ s.ctxBins g.core g.ctx, ¬ expects x ∧ ¬ unbound x) → fault 0x50#8) ∧
       (named = none → ∀ l r x, s.ctxBins g.core g.ctx = l ++ x :: r → open_ x →
         ((∀ y ∈ l, ¬ expects y) → expects x → binds x) ∧
         ((∀ y ∈ l ++ x :: r, ¬ expects y) → (∀ y ∈ l, ¬ unbound y) → unbound x → binds x))))

/-- R366, R368, R369, R371, R372, R379, R383: what a bin does of itself: a record is accepted into its queue, one in a clk
and none within a quad; the ring's head moves to the queue, none after the launch of that clk (R384); a bin is enabled or
refused; a disabled bin closes while it holds records and is OFF where it holds none; a bin that is not due, or has decided
in this clk, does not launch, and one that cannot place its group is LAUNCHING until it can. What becomes of local records
on their way to a bin that goes OFF is the model's choice (log 29): they end with bin (0x50). -/
def Obligations.BinEvents : Prop :=
  ∀ (s : State) (core n : Nat),
    let b := s.bin core n
    let held := fun (b : Bin) => { b with st := if b.st = .idle then .holding else b.st }
    (∀ p : Push, (s.dev.pushes.find? fun x => x.id == p.id && x.core == core) = some p → p.bin = some n →
      (∀ x ∈ s.dev.pushes, p.id ≤ x.id) → s.storesBefore p = false → s.accepted core = false → s.quadOn core = none →
      let pts := max p.pts (((s.group? p.grp).map fun g => g.pts).getD 0)
      (b.st ≠ .off → b.st ≠ .faulted → b.ringRecs = [] → b.q.length < 32 → exec (.recordAccept core p.id) s =
        .next (((s.updBin core n fun b => held { b with q := b.q ++ [⟨p.words, s.dev.clk, none, pts⟩] }).rebind core n p).endPush p none 0)) ∧
      (b.st = .off ∨ b.st = .faulted → exec (.recordAccept core p.id) s = .next (s.endPush p (some (0x50#8, 0)) 0))) ∧
    (∀ p : Push, (s.dev.pushes.find? fun x => x.id == p.id && x.core == core) = some p →
      s.storesBefore p = true ∨ s.accepted core = true ∨ s.quadOn core ≠ none → exec (.recordAccept core p.id) s = .next s) ∧
    (b.ringRecs = [] ∨ b.decided = some s.dev.clk → exec (.ringRefill core n) s = .next s) ∧
    (∀ r rest s1 e d p, b.ringRecs = r :: rest → b.q.length < 32 → b.st ≠ .faulted → b.st ≠ .off → b.decided ≠ some s.dev.clk →
      s.engReadAt (some core) b.ctx (2 ^ 60 + 64 * core + n) (b.ring + 32 * (b.head % b.ringSize)) 32 .unitRead r.pts = (s1, .ok e, d, p) →
      exec (.ringRefill core n) s =
        .next (((s1.updBin core n fun b => { b with q := b.q ++ [{ r with words := wordsOf d }], ringRecs := rest, head := b.head + 1 }).endEng
          (2 ^ 60 + 64 * core + n)).unpark (fun _ => true) (.bin core n) id)) ∧
    (b.st ≠ .off ∨ b.en = false → exec (.binEnable core n) s = .next s) ∧
    (b.st = .off → b.en = true → b.lr = none → s.inMem b.lrec 256 = false ∨ b.kind = .off ∨ (1 ≤ b.rlog2 ∧ b.rlog2 ≤ 3) ∨ 20 < b.rlog2 ∨
        s.gen b.ctx ≠ b.gen ∨ s.ctxState b.ctx = .free ∨ s.ctxState b.ctx = .dying ∨
        (b.key ≠ 0#32 ∧ ∃ x ∈ (s.core core).bins, x.n ≠ n ∧ x.st ≠ .off ∧ x.key = b.key) →
      exec (.binEnable core n) s = .next ((s.updBin core n fun b => { b with en := false, fault := 0x50#8 }).endEng (2 ^ 60 + 64 * core + n))) ∧
    (let r := { launchOf (s.bytesAt b.lrec 256) with gx := 1, gy := 1, gz := 1 }
     b.st = .off → b.en = true → b.lr = none → s.inMem b.lrec 256 = true → b.kind ≠ .off → b.rlog2 = 0 ∨ (4 ≤ b.rlog2 ∧ b.rlog2 ≤ 20) → s.gen b.ctx = b.gen →
      s.ctxState b.ctx ≠ .free → s.ctxState b.ctx ≠ .dying → (∀ x ∈ (s.core core).bins, x.n ≠ n → x.st ≠ .off → b.key = 0#32 ∨ x.key ≠ b.key) →
      r.inRange = true → r.tdcount = 0 → s.binRecordOk b r = true → exec (.binEnable core n) s =
        .next ((s.updBin core n fun b => { b with lr := some r, st := .idle, q := [], ringRecs := [], head := 0, tail := 0, flush := false }).endEng
          (2 ^ 60 + 64 * core + n))) ∧
    (let closed := (s.updBin core n fun b => { b with en := false }).updBin core n fun b => { b with st := .closing }
     b.st = .idle ∨ b.st = .holding ∨ b.st = .launching →
      (b.count = 0 → (∀ p ∈ s.dev.pushes, ¬ (p.core = core ∧ p.bin = some n)) → (∀ r ∈ s.dev.results, r.waitsPop core n = false) →
        exec (.binDisable core n) s = .next (closed.updBin core n Bin.off)) ∧
      (b.count = 0 → (s.dev.pushes.map fun p => p.id).Nodup → ∃ t : State, exec (.binDisable core n) s = .next t ∧ (t.bin core n).st = .off ∧
        t.dev.pushes = s.dev.pushes.filter fun p => !(p.core == core && p.bin == some n)) ∧
      (b.count ≠ 0 → exec (.binDisable core n) s = .next closed)) ∧
    (s.binDue core b = false ∨ b.decided = some s.dev.clk → exec (.binLaunch core n) s = .next s) ∧
    (∀ r, s.binDue core b = true → b.lr = some r → s.binSeats core b r = none → exec (.binLaunch core n) s =
      .next (s.updBin core n fun b => { b with st := if b.st = .holding then .launching else b.st })) ∧
    (∀ r seats, s.binDue core b = true → b.lr = some r → s.binSeats core b r = some seats →
      exec (.binLaunch core n) s = .next (s.binLaunch core b r seats)) ∧
    exec (.btimeout core n) s = .next (if b.timedOut s.dev.clk = true ∧ s.binDue core b = true
      then s.updBin core n fun b => { b with st := if b.st = .holding then .launching else b.st } else s) ∧
    ∀ (r : LaunchRec) (clk i : Nat) (recs : List BinRec), i < 32 →
      (∀ x, recs[i]? = some x → ∃ y, (binThreads b r clk recs)[i]? = some y ∧ y.ended = false ∧ y.pixel = x.pixel ∧
        y.vpc = (if b.kind = .continuation then b.key else r.entry) ∧ (∀ j < x.words.length, mget y.v j = x.words.getD j 0#32) ∧
        y.helper = (decide (b.kind = .material) && (x.words.getD 7 0#32).getLsbD 0)) ∧
      (recs.length ≤ i → ∃ y, (binThreads b r clk recs)[i]? = some y ∧ y.ended = true)

/-- R386 to R388, R397: `MESH`: a helper submits nothing; the thread waits for its group's stores and a token with room; it
opens the frame of its key with the record read at that clk where none is open, or faults and opens none; a handle that is
not live or too small faults; else it issues one result and its triangles are rasterised in ascending order. That it waits
for the group's stores is the model's reading (log 37). R386, R397: `FSEAL` takes the open frame of its key with one result
that its token counts: it is sealed at once, or once the earlier seals of the key are; `FWAIT` completes when the seal word
has reached the count, and raises the program timestamp to that of its load; else the group is held at it. The model's
choices: an `FSEAL` with no open frame first waits for its group's stores (log 44); `FWAIT` reads its record on each try,
once the group's accesses have taken their places, and one that is misaligned is an access violation (log 31). -/
def Obligations.MeshAndSeals : Prop :=
  (∀ (s : State) (st : Stream) (g : Group) (k : Nat) (th : Thread) (tm : Team) (d a b : Opnd) (sb : BitVec 3),
     s.IssuesOne st g k th → s.team? g.team = some tm →
     let i := Instr.mesh d a b sb
     let w := (rd g th a).toNat
     let nv := w / 2 ^ 8 % 64 + 1
     let nt := w / 2 ^ 14 % 128 + 1
     let h := w % 2 ^ 8
     let size := 1024 + 4 * nt
     let va := rd64 g th d
     let isOpen := fun (f : Frame) => f.ctx == g.ctx && f.va == va.toNat && f.st == .open_
     let room := g.sq = [] ∧ g.sb.getD sb.toNat 0 < 255
     let submit := fun (s0 : State) (f : Frame) =>
       (tm.handle? h = none → exec i s = .next ((s0.takeFault st.grp k ⟨0x20#8, 0#10, st.unit, 0#64⟩ false st.unit).advance st [])) ∧
       ∀ y, tm.handle? h = some y →
         (y.rows * pitchOf y.rowb < size ∨ 2 ^ 21 ≤ w →
           exec i s = .next ((s0.takeFault st.grp k ⟨0x20#8, 0#10, st.unit, 0#64⟩ false st.unit).advance st [])) ∧
         (size ≤ y.rows * pitchOf y.rowb → w < 2 ^ 21 → (∀ l ∈ y.absent, size ≤ l * 128) →
           let x := s0.tileLoad g.pts g.team h 0 size
           let s1 := (x.1.raisePts st.grp x.2.2).addResult st.grp k (some sb.toNat) st.unit .token true
           exec i s = .next ((s1.2.rasterMesh f s1.1 ((rd g th b).setWidth 24) (rd g th (nextOpnd b)) nv nt x.2.1).advance st [k]))
     (th.helper = true → exec i s = .next (s.advance st [k])) ∧
     (th.helper = false → ¬ room → s.StopsAt i st) ∧
     (th.helper = false → room → (∀ f, s.dev.frames.find? isOpen = some f → submit s f) ∧
       (s.dev.frames.find? isOpen = none →
         let count := (s.dev.frames.filter fun f => f.st == .open_).length
         (4096 ≤ count → s.StopsAt i st) ∧ (count < 4096 → va.toNat % 64 ≠ 0 → s.FaultsAt i st k 0x11#8 va) ∧
         ∀ e, count < 4096 → s.Finds g va.toNat 64 e →
           let l := s.homeLoad g.pts (e.pbase + (va.toNat - e.vbase)) 64
           let s1 := l.1.raisePts st.grp l.2.2
           let fr := frameOf l.2.1
           let f := newFrame s.dev.nextId g.ctx va.toNat fr .open_ 0
           (fr.ok (s.qcount g.ctx) = false →
             exec i s = .next ((s1.takeFault st.grp k ⟨0x11#8, 0#10, st.unit, va⟩ false st.unit).advance st [])) ∧
           (fr.ok (s.qcount g.ctx) = true → submit (s1.onDev fun d => { d with nextId := d.nextId + 1, frames := d.frames ++ [f] }) f)))) ∧
  (∀ (s : State) (st : Stream) (g : Group) (k : Nat) (th : Thread) (d a : Opnd) (sb : BitVec 3),
     s.IssuesOne st g k th →
     let va := rd64 g th d
     let isOpen := fun (f : Frame) => f.ctx == g.ctx && f.va == va.toNat && f.st == .open_
     let count := g.sb.getD sb.toNat 0
     (255 ≤ count → s.StopsAt (.fseal d sb) st) ∧
     (∀ f, count < 255 → s.dev.frames.find? isOpen = some f →
       let earlier := ∃ e ∈ s.dev.frames, e.ctx = g.ctx ∧ e.va = va.toNat ∧ e.st ≠ .open_
       ∀ now, (earlier → now = .waiting) → (¬ earlier → now = .sealing) →
         exec (.fseal d sb) s = .next ((((s.addResult st.grp k (some sb.toNat) st.unit .token true).2).updFrame f.id fun x =>
           { x with st := now, res := s.dev.nextId }).advance st [k])) ∧
     (count < 255 → s.dev.frames.find? isOpen = none → (∀ f ∈ s.dev.frames, f.id ≠ s.dev.nextId + 1 ∧ f.st ≠ .waiting) →
       (∀ r ∈ s.dev.results, r.id ≠ s.dev.nextId) →
       ((∃ e ∈ g.sq, e.id < s.dev.nextId) → exec (.fseal d sb) s = .next (((s.addResult st.grp k (some sb.toNat) st.unit .token true).2.onDev
         fun x => { x with nextId := s.dev.nextId + 2, frames := x.frames ++
           [newFrame (s.dev.nextId + 1) g.ctx va.toNat (frameOf []) .unread s.dev.nextId] }).advance st [k])) ∧
       (g.sq = [] → va.toNat % 64 ≠ 0 → ∃ t : State, exec (.fseal d sb) s = .next (t.advance st [k]) ∧ t.dev.frames = s.dev.frames ∧
         t.mem = s.mem ∧ t.pending? s.dev.nextId =
           some ⟨s.dev.nextId, st.grp, k, some sb.toNat, st.unit, .token, true, [], s.topTs, some ⟨0x11#8, 0#10, st.unit, va⟩, true, []⟩)) ∧
     let stays := fun (t : State) => exec (.fwait d a) s =
       .next ((t.updGroup st.grp fun x => { x with hold := some (.seal va.toNat (rd g th a)) }).advance st [])
     (s.memSettled g = false → stays s) ∧
     (s.memSettled g = true → va.toNat % 64 ≠ 0 → s.FaultsAt (.fwait d a) st k 0x11#8 va) ∧
     ∀ e e2, s.memSettled g = true → va.toNat % 64 = 0 → s.Finds g (va.toNat + 0x30) 8 e →
       let l := s.homeLoad g.pts (e.pbase + (va.toNat + 0x30 - e.vbase)) 8
       let word := natOfBytes l.2.1
       s.Finds g word 4 e2 →
         let l2 := l.1.homeLoad (max g.pts l.2.2) (e2.pbase + (word - e2.vbase)) 4
         let v := BitVec.ofNat 32 (natOfBytes l2.2.1)
         ((v - rd g th a).toNat < 2 ^ 31 → exec (.fwait d a) s = .next ((l2.1.raisePts st.grp l2.2.2).advance st [k])) ∧
         (2 ^ 31 ≤ (v - rd g th a).toNat → stays l2.1))

/-- R385, R389, R391: coverage of a snapped triangle: with the signs of the edge functions taken so that the area is
positive, a pixel of the frame is in a quad exactly when every edge function is positive at its centre, or zero on a left or
top edge; a triangle of area 0, or culled, covers nothing. R393 to R396, R398: a quad is tested at its owner in arrival
order: each covered pixel that passes the depth compare takes its identifier and depth, the others keep theirs, and the tile
is open; a written-out tile leaves the L2 with its bytes at its backing; a tile is not classified before its turn, nor a
seal completed before every tile is shaded. -/
def Obligations.FramePixels : Prop :=
  (∀ (r : FrameRec) (u v w : SVtx) (px py : Nat),
     let E := fun (j k : SVtx) (x y : Int) => (k.x - j.x) * (y - j.y) - (k.y - j.y) * (x - j.x)
     let A := E v w 0 0 + E w u 0 0 + E u v 0 0
     let sg : Int := if A < 0 then -1 else 1
     let x : Int := 256 * px + 128
     let y : Int := 256 * py + 128
     let within := fun (j k : SVtx) => let e := sg * E j k x y; let dx := sg * (j.y - k.y); let dy := sg * (k.x - j.x)
       e > 0 ∨ (e = 0 ∧ (dx > 0 ∨ (dx = 0 ∧ dy > 0)))
     let covered := ∃ q ∈ quadsOf r [u, v, w], q.1 = px / 2 ∧ q.2.1 = py / 2 ∧ q.2.2.1.getLsbD (px % 2 + 2 * (py % 2)) = true
     covered ↔ (A ≠ 0 ∧ ¬ (r.cull = 1 ∧ A < 0) ∧ ¬ (r.cull = 2 ∧ A > 0) ∧ px < r.width ∧ py < r.height ∧ within v w ∧ within w u ∧ within u v)) ∧
  ((∀ (s : State) (owner : Nat), (∀ q ∈ s.dev.quads, q.owner = owner → s.quadHeld q = true) → exec (.quadTest owner) s = .next s) ∧
   (∀ (s : State) (q : Quad) (f : Frame) (l r : List Quad), s.dev.quads = l ++ q :: r → (∀ x ∈ l, x.owner ≠ q.owner ∧ x ≠ q) →
     s.quadHeld q = false → s.frame? q.frame = some f →
     let i := q.qy / 4 * (f.fr.width / 8) + q.qx / 4
     let old := (f.tiles.find? fun t => t.idx == i).getD ⟨i, .open_, true, List.replicate 64 (BitVec.allOnes 64),
       List.replicate 64 f.fr.cleard, 0, [], [], []⟩
     old.ids.length = 64 → old.depth.length = 64 →
     ∃ t, exec (.quadTest q.owner) s = .next ((((s.onDev fun d => { d with quads := l ++ r }).updFrame f.id fun x =>
         { x with tiles := (x.tiles.filter fun y => y.idx != i) ++ [t] })).meshDone q.res) ∧
       t.idx = old.idx ∧ t.st = old.st ∧ t.inL2 = true ∧ t.ids.length = 64 ∧ t.depth.length = 64 ∧
       ∀ p < 64, let e := p % 2 + 2 * (p / 8 % 2)
         let mine := p % 8 / 2 = q.qx % 4 ∧ p / 16 = q.qy % 4 ∧ q.mask.getLsbD e = true
         let passes := mine ∧ depthPass f.fr.dcmp (q.depth.getD e 0#32) (old.depth.getD p 0#32) = true
         (passes → t.ids[p]? = some q.ident ∧ t.depth[p]? = some (q.depth.getD e 0#32)) ∧
         (¬ passes → t.ids[p]? = old.ids[p]? ∧ t.depth[p]? = old.depth[p]?)) ∧
   (∀ new old : Word, let nan := (fp32.decode new.toNat = .nan ∨ fp32.decode old.toNat = .nan)
     (depthPass 0 new old = false) ∧ (depthPass 7 new old = true) ∧ (nan → ∀ c < 7, depthPass c new old = decide (c = 5)) ∧
     (¬ nan → depthPass 1 new old = exLt (fp32.decode new.toNat) (fp32.decode old.toNat) ∧
       depthPass 4 new old = exLt (fp32.decode old.toNat) (fp32.decode new.toNat) ∧
       depthPass 3 new old = (depthPass 1 new old || depthPass 2 new old) ∧ depthPass 6 new old = (depthPass 4 new old || depthPass 2 new old) ∧
       depthPass 5 new old = !(depthPass 2 new old) ∧ depthPass 2 new old = (!(depthPass 1 new old) && !(depthPass 4 new old)))) ∧
   (∀ (s s1 : State) (frame tile : Nat) (f : Frame) (t : Tile) (e : TlbEntry) (p : Nat), s.frame? frame = some f →
     (f.tiles.find? fun t => t.idx == tile) = some t → t.inL2 = true → t.st = .open_ ∨ t.st = .sealed →
     s.engWrite none f.ctx 0 (f.fr.surf + 768 * tile) t.bytes .unitWrite 0 = (s1, .ok e, p) →
     exec (.tileWriteOut frame tile) s = .next (s1.putTile frame { t with inL2 := false })) ∧
   (∀ (s : State) (frame tile : Nat) (f : Frame), s.frame? frame = some f → f.st ≠ .unread →
     f.st ≠ .sealing ∨ f.meshes ≠ [] ∨ f.fr.tiles ≤ tile ∨ f.done tile = true ∨
       (∃ i < tile, f.nextTile ≤ i ∧ s.tileOwner f.fr i = s.tileOwner f.fr tile ∧ f.done i = false) →
     exec (.classify frame tile) s = .next s) ∧
   (∀ (s : State) (frame tile : Nat) (f : Frame) (old : Tile), s.frame? frame = some f → f.st = .sealing → f.meshes = [] → tile < f.fr.tiles →
     f.done tile = false → (∀ i < tile, f.nextTile ≤ i → s.tileOwner f.fr i = s.tileOwner f.fr tile → f.done i = true) →
     old = (f.tiles.find? fun t => t.idx == tile).getD ⟨tile, .open_, true, List.replicate 64 (BitVec.allOnes 64),
       List.replicate 64 f.fr.cleard, 0, [], [], []⟩ → old.ids = List.replicate 64 (BitVec.allOnes 64) → old.mats = [] → old.live = 0 →
     ∃ (t : State) (f' : Frame), exec (.classify frame tile) s = .next t ∧ t.frame? frame = some f' ∧ t.mem = s.mem ∧ t.dev.quads = s.dev.quads ∧
       (f'.tiles.find? fun t => t.idx == tile) = some { old with st := .shaded, inL2 := true, mats := List.replicate 64 none, todo := [] } ∧
       (∀ i ≠ tile, (f'.tiles.find? fun t => t.idx == i) = (f.tiles.find? fun t => t.idx == i)) ∧
       f.nextTile ≤ f'.nextTile ∧ (f.nextTile = tile → tile < f'.nextTile)) ∧
   (∀ (s s1 s2 : State) (frame : Nat) (f : Frame) (e e2 : TlbEntry) (pa n : Nat) (rest : List (Nat × Nat × TlbEntry)), s.frame? frame = some f →
     f.st = .sealing → f.meshes = [] → f.nextTile = f.fr.tiles → (∀ t ∈ f.tiles, t.st = .shaded) →
     s.writeBack f s.topTs (sortBy (fun t => t.idx) f.tiles) = (s1, true) →
     s1.engRange none f.ctx f.id f.fr.sealword 4 .list = (s2, .ok e, (pa, n, e2) :: rest) →
     let old := BitVec.ofNat 32 (natOfBytes (mgets s2.mem pa 4))
     let s3 := (s2.homeStore s2.topTs pa (bytesOfNat (old + 1#32).toNat 4)).1
     let s4 := if f.fr.sigq.getLsbD 20 then s3.countToken f.ctx (f.fr.sigq.toNat % 2 ^ 14) (f.fr.sigq.toNat / 2 ^ 14 % 64) else s3
     ∀ f', s4.frame? frame = some f' → exec (.sealComplete frame) s = .next (s4.dropFrame f')) ∧
   ∀ (s : State) (frame : Nat) (f : Frame), s.frame? frame = some f →
     f.st ≠ .sealing ∨ f.meshes ≠ [] ∨ f.nextTile ≠ f.fr.tiles ∨ (∃ t ∈ f.tiles, t.st ≠ .shaded) →
     exec (.sealComplete frame) s = .next s)

/-- R401, R402, R405: the issue of an attribute or sampling instruction: the spans are checked, the group's stores and the
token are waited for, then one result is issued with the registers as they are at issue. That the span of `SMP` is checked
at issue, with illegal register (0x05), is the model's choice (log 31). R402, R403, R405 to R407: what the results hold: a
selector with reserved bits faults; a clear identifier gives canonical NaNs; the barycentrics are the quotients of q by its
sum s and their slopes, each step rounded once; a misaligned sampler descriptor faults, a malformed one gives status 3 with
zero components; a result is written when its token falls. -/
def Obligations.AttributeAndSample : Prop :=
  (∀ (s : State) (st : Stream) (g : Group) (k : Nat) (th : Thread) (d a : VReg) (b : Opnd) (sb : BitVec 3),
     s.IssuesOne st g k th →
     let regs := ((s.grid? g.grid).map fun x => x.lr.regs).getD 64
     let sel := rd g th b
     let n := sel.toNat / 2 ^ 8 % 16 + 1
     let room := g.sq = [] ∧ g.sb.getD sb.toNat 0 < 255
     let gives := fun (i : Instr) (spans : Prop) (kind : ResKind) =>
       (¬ spans → s.FaultsAt i st k 0x05#8 0#64) ∧ (spans → ¬ room → s.StopsAt i st) ∧
       (spans → room → exec i s = .next ((s.addResult st.grp k (some sb.toNat) st.unit kind true).2.advance st [k]))
     let fits := fun (n : Nat) => d.toNat + n ≤ 64 ∧ d.toNat + n ≤ regs
     gives (.attr d a b sb) (fits n) (.attr 0 (mgets th.v a.toNat 8) sel (.v d)) ∧
     gives (.attrD d a b sb) (fits (3 * n)) (.attr 1 (mgets th.v a.toNat 8) sel (.v d)) ∧
     gives (.bary d a sb) (fits 3) (.attr 2 (mgets th.v a.toNat 8) 0#32 (.v d)) ∧
     gives (.smp d a b sb) (a.toNat + 6 ≤ regs ∧ d.toNat + 5 ≤ regs) (.sample (rd64 g th b).toNat (.v d) (mgets th.v a.toNat 6))) ∧
  ((∀ (s : State) (pts core ctx eng op : Nat) (rec : List Word) (sel : Word), let n := if op = 2 then 3 else (sel.toNat / 2 ^ 8 % 16 + 1) * if op = 1 then 3 else 1
     (op ≠ 2 → 2 ^ 12 ≤ sel.toNat → s.attrResult pts core ctx eng op rec sel = (⟨s, pts⟩, .fault 0x11#8 0)) ∧
     (op = 2 ∨ sel.toNat < 2 ^ 12 → rec.getD 1 0#32 = 0xFFFFFFFF#32 → rec.getD 2 0#32 = 0xFFFFFFFF#32 →
       s.attrResult pts core ctx eng op rec sel = (⟨s, pts⟩, .ok (List.replicate n 0x7FC00000#32)))) ∧
   (∀ (r : FrameRec) (a b c : SVtx) (x y z : Vtx) (px py : Nat),
     let E := fun (j k : SVtx) => (k.x - j.x) * (256 * py + 128 - j.y) - (k.y - j.y) * (256 * px + 128 - j.x)
     let q := [divR (exInt (E b c)) x.w, divR (exInt (E c a)) y.w, divR (exInt (E a b)) z.w]
     let gx := [divR (exInt (256 * (b.y - c.y))) x.w, divR (exInt (256 * (c.y - a.y))) y.w, divR (exInt (256 * (a.y - b.y))) z.w]
     let gy := [divR (exInt (256 * (c.x - b.x))) x.w, divR (exInt (256 * (a.x - c.x))) y.w, divR (exInt (256 * (b.x - a.x))) z.w]
     let sum := fun (l : List Ex) => addR (addR (l.getD 0 .nan) (l.getD 1 .nan)) (l.getD 2 .nan)
     let lam := q.map fun x => divR x (sum q)
     let slope := fun (t : List Ex) => (t.zip lam).map fun (u, l) => divR (fmaR (exNeg l) (sum t) u) (sum q)
     baryOf r (some [a, b, c]) [x, y, z] px py = match sum q with
       | .nan => none
       | .num _ 0 _ => none
       | _ => some ⟨lam, slope gx, slope gy⟩) ∧
   (∀ l0 l1 l2 a0 a1 a2 : Ex, interp [l0, l1, l2] [a0, a1, a2] = fmaR l2 a2 (fmaR l1 a1 (mulR l0 a0))) ∧
   (∀ (s : State) (pts core ctx eng desc : Nat) (c : List Word),
     (desc % 64 ≠ 0 → s.sampleResult pts core ctx eng desc c = (⟨s, pts⟩, .fault 0x70#8 desc)) ∧
     ∀ s1 e b p, desc % 64 = 0 → s.engReadAt (some core) ctx eng desc 64 .unitRead pts = (s1, .ok e, b, p) →
       fld b 0 8 % 256 ≠ 0 ∨ fld b 8 2 = 0 ∨ 16384 < fld b 8 2 ∨ fld b 0x0A 2 = 0 ∨ 16384 < fld b 0x0A 2 ∨ fld b 0x0C 1 = 0 ∨ 15 < fld b 0x0C 1 ∨
         4 < fld b 0x0D 1 ∨ 2 < fld b 0x0E 1 ∨ 3 < fld b 0x0F 1 ∨ fld b 0x14 4 ≠ 0 →
       s.sampleResult pts core ctx eng desc c = (⟨s1, p⟩, .ok [0#32, 0#32, 0#32, 0#32, 3#32])) ∧
   ∀ (s : State) (g : Group) (tm : Team) (r : Pending), s.pending? r.id = some r → s.group? r.grp = some g → s.team? g.team = some tm →
     tm.st ≠ .saved → r.fault = none →
     let back := fun (x : UnitRun) (d : VReg) (ws : List Word) =>
       (((x.s.updGroup r.grp fun g => wrN g r.thread (.v d) ws).dropResult { r with ts := max r.ts x.pts }).endEng r.id)
     (∀ desc d coord x ws, r.kind = .sample desc (.v d) coord → s.sampleResult g.pts g.core g.ctx r.id desc coord = (x, .ok ws) →
       exec (.resultReturn r.id) s = .next (back x d ws)) ∧
     (∀ op rec sel d x ws, r.kind = .attr op rec sel (.v d) → s.attrResult g.pts g.core g.ctx r.id op rec sel = (x, .ok ws) →
       exec (.resultReturn r.id) s = .next (back x d ws)) ∧
     ∀ op rec sel d x c va, r.kind = .attr op rec sel d → s.attrResult g.pts g.core g.ctx r.id op rec sel = (x, .fault c va) →
       exec (.resultReturn r.id) s = .next (((x.s.addAsync r.grp r.thread ⟨c, 0#10, r.unit, BitVec.ofNat 64 va⟩).dropResult r).endEng r.id))

/-- R268, R307, R418 to R420: `RLD`, `RST` and `RATOM` on a page of type X: the request goes to the page's peer and the
result, or the group's count of unacknowledged accesses, waits for its answer; with a peer that carries no traffic the
access fails with link (0x60), one in TRAINING too, which is the model's choice (log 40); a helper's `RST` and `RATOM` do
nothing. -/
def Obligations.RemoteAccesses : Prop :=
  ∀ (s : State) (st : Stream) (g : Group) (k : Nat) (th : Thread) (d : VReg) (o base : Opnd) (x : BitVec 6) (sb : BitVec 3) (e : TlbEntry),
    s.IssuesOne st g k th →
    let live := s.peerLive e.peer = true
    let room := g.sb.getD sb.toNat 0 < 255
    let tag := BitVec.ofNat 32 s.dev.nextId
    let cg := s.ctxgen g.ctx
    let gives := fun (i : Instr) (ext : LoadExt) (atomic : Bool) (m : Msg) =>
      let t := (s.addResult st.grp k (some sb.toNat) st.unit (.remote e.peer tag ext d.toNat atomic) false).2
      (¬ room → s.StopsAt i st) ∧
      (room → live → exec i s = .next (((t.send e.peer m).updGroup st.grp fun g =>
        if atomic then { g with remote := g.remote + 1 } else g).advance st [k])) ∧
      (room → ¬ live → exec i s = .next ((t.updPending s.dev.nextId fun p => { (p.meet 0x60#8 0) with ready := true }).advance st [k]))
    let wa := fun (a : BitVec 64) => e.pbase + (a.toNat - e.vbase)
    (∀ i n ext, (i = .rldB32 sb d base x ∧ n = 4 ∧ ext = .b32) ∨ (i = .rldB64 sb d base x ∧ n = 8 ∧ ext = .b64) ∨
        (i = .rldB128 sb d base x ∧ n = 16 ∧ ext = .b128) → let a := addrM g th base x st.imm n
      s.Reaches g a n [3] true false e → gives i ext false (.read cg tag (wa a) n)) ∧
    (∀ i n, (i = .rstB32 o base x ∧ n = 4) ∨ (i = .rstB64 o base x ∧ n = 8) ∨ (i = .rstB128 o base x ∧ n = 16) →
      let a := addrM g th base x st.imm n
      (th.helper = true → exec i s = .next (s.advance st [k])) ∧
      (th.helper = false → s.Reaches g a n [3] false true e →
        (live → exec i s = .next (((s.sendWrite e.peer cg (wa a) (bytesOf (rdN g th o (n / 4))) (.rst st.grp k st.unit)).updGroup st.grp
          fun g => { g with remote := g.remote + 1 }).advance st [k])) ∧
        (¬ live → exec i s = .next ((s.addAsync st.grp k ⟨0x60#8, 0#10, st.unit, 0#64⟩).advance st [k])))) ∧
    ∀ i op n, (i = .ratomAddS32 sb d base x ∧ op = 0 ∧ n = 4) ∨ (i = .ratomAddS64 sb d base x ∧ op = 1 ∧ n = 8) ∨
        (i = .ratomExchB64 sb d base x ∧ op = 2 ∧ n = 8) ∨ (i = .ratomCasB64 sb d base x ∧ op = 3 ∧ n = 8) →
      let a := addrM g th base x st.imm n
      let r := fun (j : Nat) => mget th.v (d + BitVec.ofNat 6 j).toNat
      (th.helper = true → exec i s = .next (s.advance st [k])) ∧
      (th.helper = false → s.Reaches g a n [3] true true e → gives i (if n = 4 then .b32 else .b64) true (.atomic cg tag (wa a) op
        (if op = 0 then (r 0).setWidth 64 else if op = 3 then r 3 ++ r 2 else r 1 ++ r 0) (if op = 3 then r 1 ++ r 0 else 0#64)))

/-- R90, R422 to R424: `COLL` reads its descriptor and begins a collective that its token counts; `CWAIT` completes when the
done word has reached the target; each element of DST is the sum over the participants in ascending rank, one rounding a
step, or the element of the participant it is taken from; when DST is written and every participant has read SRC, the done
word is written and the token falls. That a descriptor which is not valid fails with link (0x60) is the model's choice (log
32). -/
def Obligations.Collectives : Prop :=
  (∀ (s : State) (st : Stream) (g : Group) (k : Nat) (th : Thread) (n : GReg) (d : Opnd) (sb : BitVec 3) (e : TlbEntry),
    s.IssuesOne st g k th →
    let a := mget g.g (n.toNat + 1) ++ mget g.g n.toNat
    let pa := e.pbase + (a.toNat - e.vbase)
    let settled := s.memSettled g = true
    let holds := fun (t : State) => exec (.cwait n d) s =
      .next ((t.updGroup st.grp fun x => { x with hold := some (.word a.toNat (rd g th d)) }).advance st [])
    (¬ (settled ∧ g.sb.getD sb.toNat 0 < 255) → s.StopsAt (.coll n sb) st) ∧
    (settled → g.sb.getD sb.toNat 0 < 255 → s.Finds g a.toNat 64 e →
      let b := mgets s.mem pa 64
      let s1 := ((s.homeLoad g.pts pa 64).1.raisePts st.grp (s.homeLoad g.pts pa 64).2.2).addResult st.grp k (some sb.toNat) st.unit .token true
      let c := Coll.mk (s.dev.nextId + 1) g.ctx g.core s.dev.nextId a.toNat b [] false [] [] [] false false
        (if collOk b then none else some (0x60#8, 0))
      exec (.coll n sb) s = .next (((s1.2.onDev fun d => { d with nextId := s.dev.nextId + 2 }).updLink fun l =>
        { l with colls := l.colls ++ [c] }).advance st [k])) ∧
    (¬ settled → holds s) ∧
    (settled → s.Finds g a.toNat 4 e →
      let v := BitVec.ofNat 32 (natOfBytes (mgets s.mem pa 4))
      ((v - rd g th d).toNat < 2 ^ 31 → exec (.cwait n d) s =
        .next (((s.homeLoad g.pts pa 4).1.raisePts st.grp (s.homeLoad g.pts pa 4).2.2).advance st [k])) ∧
      (2 ^ 31 ≤ (v - rd g th d).toNat → holds (s.homeLoad g.pts pa 4).1))) ∧
  (∀ (c : Coll) (x : Nat → Nat → Nat) (i : Nat), 2 ≤ c.npart → (∀ r < c.npart, ∀ j, c.elem r j = some (x r j)) → c.root < c.npart →
    let ty := fld c.desc 1 1
    let canon := fun (a : Nat) => if ty = 0 ∧ fp32.decode a = .nan then 0x7FC00000 else if ty = 1 ∧ bf16.decode a = .nan then 0x7FC0 else a
    let add := fun (a b : Nat) => if ty = 0 then (roundF32 0#2 (exAdd 0#2 (fp32.decode a) (fp32.decode b)).1).toNat
      else if ty = 1 then (bf16.result 0#2 false (exAdd 0#2 (bf16.decode a) (bf16.decode b)).1).1 else (a + b) % 2 ^ 32
    let sum := fun (j : Nat) => (List.range (c.npart - 1)).foldl (fun a r => add a (x (r + 1) j)) (canon (x 0 j))
    (c.op = 0 → c.dst i = some (sum i)) ∧ (c.op = 1 → i < c.npart * c.count → c.dst i = some (x (i / c.count) (i % c.count))) ∧
    (c.op = 2 → c.dst i = some (sum (c.rank * c.count + i))) ∧ (c.op = 3 → c.dst i = some (x c.root i))) ∧
  ∀ (s s1 : State) (g : Group) (r : Pending) (c : Coll) (e : TlbEntry) (t : Nat), s.pending? r.id = some r → s.group? r.grp = some g →
    r.kind = .token → (s.dev.link.colls.find? fun c => c.res == r.id) = some c → r.ready = false →
    c.fail = none → c.joined = true → (∀ q ∈ c.others, (assoc c.descs q).isSome = true ∧ q ∈ c.readDone) → c.agree = true → c.sent = true →
    c.written = true → s.engWrite none c.ctx c.id (fld c.desc 0x28 8) (bytesOfNat (fld c.desc 0x0C 4) 8) 
      .unitWrite r.ts = (s1, .ok e, t) →
    exec (.resultReturn r.id) s = .next ((((s1.updPending r.id fun p => { p with ts := max p.ts t }).updLink fun l =>
      { l with colls := l.colls.filter fun x => x.id != c.id, peers := l.peers.map (Peer.collOver (fld c.desc 0x0C 4)) }).endEng
        c.id).resultReady r.id 0)

/-- R410 to R412, R415, R417: a datagram that is no Grieveane message is dropped; a peer's messages are applied in SEQ
order, each once: one that comes ahead of a gap is held, a duplicate is acknowledged and dropped, and a peer that carries no
traffic is not heard; an ACK only takes what it acknowledges off the messages kept for retransmission. The model's choices
(log 21): every message sent, a bare ACK too, takes a SEQ and is kept; what a NAK acknowledges counts once it is applied in
its turn. -/
def Obligations.MessageOrder : Prop :=
  (∀ (s : State) (n : Nat) (d : Datagram) (i : Instr) (t : Nat),
    (i = d.writeOf n ∧ t = 1) ∨ (i = d.readOf n ∧ t = 2) ∨ (i = d.readrespOf n ∧ t = 3) ∨ (i = d.atomicOf n ∧ t = 4) ∨ (i = d.atomicrespOf n ∧ t = 5) ∨
    (i = d.doorbellOf n ∧ t = 6) ∨ (i = d.panswerOf n ∧ t = 8) ∨ (i = d.collMessageOf n ∧ t = 10) ∨ (i = d.mgmtOf n ∧ t = 11) ∨
    (i = d.ackOf n ∧ t = 12) ∨ (i = d.nakOf n ∧ t = 13) →
    let p := s.peerAt n
    let heard := d.sumOk = true ∧ d.dport.toNat = s.dev.link.udpport ∧ d.ctrl.toNat % 16 = 1
    let ahead := (d.seq - BitVec.ofNat 32 p.rxSeq).toNat
    (¬ heard → exec i s = .next s) ∧ (p.st ≠ .up ∧ p.st ≠ .degraded → exec i s = .next s) ∧
    (heard → d.ctrl.toNat / 16 % 256 = t → p.st = .up ∨ p.st = .degraded → p.rxSeq < 2 ^ 32 → d.seq.toNat ≠ p.rxSeq →
      (ahead < 2 ^ 31 → (∀ x ∈ p.heldMsgs, x.seq ≠ d.seq) →
        exec i s = .next ((if d.msg.isNak = true then s else s.acked n d.ack.toNat).setPeer n fun p => { p with heldMsgs := p.heldMsgs ++ [d] })) ∧
      (2 ^ 31 ≤ ahead → exec i s = .next ((s.acked n d.ack.toNat).send n .ack)))) ∧
  (∀ (s : State) (n : Nat) (d : Datagram), s.Due n 12 d → d.Formed → d.payload = [] → d.addr = 0#64 → exec (d.ackOf n) s = .next (s.took n d)) ∧
  (∀ (s : State) (n ack : Nat) (p : Peer), s.peer? n = some p → (∀ a ∈ s.dev.link.acks, a.peer ≠ n) →
    ∃ q, (s.acked n ack).peer? n = some q ∧
      q.unacked = p.unacked.filter (fun x => decide (2 ^ 31 ≤ (BitVec.ofNat 32 ack - BitVec.ofNat 32 (x.seq + 1)).toNat)) ∧
      q.rxSeq = p.rxSeq ∧ q.txSeq = p.txSeq ∧ q.st = p.st) ∧
  ∀ (s : State) (n : Nat) (p : Peer) (m : Msg), s.peer? n = some p →
    (p.st ≠ .up ∧ p.st ≠ .degraded → s.send n m = s) ∧
    (p.st = .up ∨ p.st = .degraded → (s.send n m).dev.link.out = s.dev.link.out ++ [(n, p.txSeq, p.rxSeq, m)] ∧
      ∃ q, (s.send n m).peer? n = some q ∧ q.txSeq = (p.txSeq + 1) % 2 ^ 32 ∧ q.unacked = p.unacked ++ [⟨p.txSeq, m, 0, s.dev.clk⟩] ∧
        q.rxSeq = p.rxSeq)

/-- R410, R411, R413, R415: an inbound READ, WRITE or ATOMIC in its turn goes through the first window that holds its whole
range: it is performed at its home above the peer's earlier writes and answered or acknowledged; without a window,
permission, memory or a well-formed message, the peer is FROZEN with the cause and nothing is performed. R91, R276, R411,
R413, R415, R418 to R420, R423: the other messages in their turn: a response gives its bytes to the result whose request it
answers, which is then ready to return; a DOORBELL, PANSWER or MGMT access from a HOST peer takes effect, and from another
freezes it; a collective's message goes to its collective; a NAK fails the access it refuses with link (0x60). A response or
NAK whose CTXGEN is not current has no effect (R91). The model's choices (log 21): each message not answered by another has
a bare ACK of its own; a NAK acknowledges after it has refused; the sender's right (HOST) is looked at before the form of a
message. -/
def Obligations.InboundMessages : Prop :=
  (∀ (s : State) (n : Nat) (d : Datagram),
     let wa := d.addr.toNat
     let b := d.payload
     let r := s.took n d
     let pts := (s.peerAt n).ts + 1
     let op := fld b 0 1
     let size := if op = 0 then 4 else 8
     let len := fld b 0 4
     let wr := d.writeOf n
     let rd := d.readOf n
     let at_ := d.atomicOf n
     let formed := d.Formed ∧ wa < 2 ^ 44
     let okW := formed ∧ 1 ≤ b.length ∧ b.length ≤ 4096
     let okR := formed ∧ b.length = 4 ∧ 1 ≤ len ∧ len ≤ 4096
     let okA := formed ∧ b.length = 24 ∧ (∀ k, 1 ≤ k → k < 8 → b.getD k 0#8 = 0#8) ∧ op ≤ 3 ∧ wa % size = 0 ∧ (op = 3 ∨ fld b 16 8 = 0) ∧
       (op = 0 → fld b 12 4 = 0)
     let freezes := fun (i : Instr) (cause : Nat) => exec i s = .next (r.freezePeer n d cause wa)
     let pa := fun (w : Window) => w.pa0 + (wa - w.wa0)
     let noWindow := fun (len : Nat) => ∀ w ∈ s.dev.link.windows,
       ¬ (w.en = true ∧ (w.anypeer = true ∨ w.peer = n) ∧ w.wa0 ≤ wa ∧ wa + len ≤ w.wa0 + 4096 * w.pages)
     (s.Due n 1 d → (¬ okW → freezes wr 3) ∧ (okW → noWindow b.length → freezes wr 1) ∧ ∀ w, okW → s.InWindow n wa b.length w →
       (¬ (w.wr = true ∧ s.inMem (pa w) b.length = true) → freezes wr 2) ∧
       (w.wr = true ∧ s.inMem (pa w) b.length = true →
         exec wr s = .next (((r.homeStore pts (pa w) b).1.peerTs n (r.homeStore pts (pa w) b).2).send n .ack))) ∧
     (s.Due n 2 d → (¬ okR → freezes rd 3) ∧ (okR → noWindow len → freezes rd 1) ∧ ∀ w, okR → s.InWindow n wa len w →
       (¬ (w.r = true ∧ s.inMem (pa w) len = true) → freezes rd 2) ∧
       (w.r = true ∧ s.inMem (pa w) len = true →
         exec rd s = .next ((r.homeLoad pts (pa w) len).1.send n (.readResp d.ctxgen d.tag wa (mgets s.mem (pa w) len))))) ∧
     (s.Due n 4 d → (¬ okA → freezes at_ 3) ∧ (okA → noWindow size → freezes at_ 1) ∧ ∀ w, okA → s.InWindow n wa size w →
       let x := BitVec.ofNat 64 (fld b 8 8)
       let old := BitVec.ofNat 64 (natOfBytes (mgets s.mem (pa w) size))
       let new : BitVec 64 := if op = 0 ∨ op = 1 then old + x else if op = 2 then x else if old = BitVec.ofNat 64 (fld b 16 8) then x else old
       let h := r.homeStore pts (pa w) (bytesOfNat new.toNat size)
       let may := w.r = true ∧ w.wr = true ∧ w.a = true ∧ s.inMem (pa w) size = true
       (¬ may → freezes at_ 2) ∧ (may → exec at_ s = .next ((h.1.peerTs n h.2).send n (.atomicResp d.ctxgen d.tag wa old))))) ∧
  (∀ (s : State) (n : Nat) (d : Datagram),
     let r := s.took n d
     let a := d.addr.toNat
     let b := d.payload
     let acked := fun (t : State) => t.send n .ack
     let host := (s.peerAt n).host = true
     let freezes := fun (i : Instr) (cause wa : Nat) => exec i s = .next (r.freezePeer n d cause wa)
     let answers := fun (q : Pending) (b : List Byte) (atomic : Bool) =>
       let t := (r.updPending q.id fun p => { p with ready := true, val := b }).arrived q.id
       acked ((if atomic then t.updGroup q.grp fun g => { g with remote := g.remote - 1 } else t).answered n d.tag)
     let current := s.gen (d.ctxgen.toNat % 4096) = d.ctxgen.toNat / 4096
     (∀ q ext v atomic, (s.dev.results.find? fun x => x.awaitsTag n d.tag) = some q → q.kind = .remote n d.tag ext v atomic → current → d.Formed → a < 2 ^ 44 →
       (s.Due n 3 d → 1 ≤ b.length → b.length ≤ 4096 → (ext.size = b.length → exec (d.readrespOf n) s = .next (answers q b atomic)) ∧
         (ext.size ≠ b.length → freezes (d.readrespOf n) 3 a)) ∧
       (s.Due n 5 d → b.length = 8 → (ext.size = 4 → fld b 0 8 < 2 ^ 32) →
         exec (d.atomicrespOf n) s = .next (answers q (bytesOfNat (fld b 0 8) ext.size) atomic))) ∧
     (¬ current → d.Formed →
       (s.Due n 3 d → a < 2 ^ 44 → 1 ≤ b.length → b.length ≤ 4096 → exec (d.readrespOf n) s = .next (acked r)) ∧
       (s.Due n 5 d → a < 2 ^ 44 → b.length = 8 → exec (d.atomicrespOf n) s = .next (acked r)) ∧
       (s.Due n 13 d → b.length = 8 → d.addr = 0#64 → fld b 4 4 < 8 → exec (d.nakOf n) s =
         .next (acked ((s.setPeer n fun p => { p with rxSeq := (d.seq + 1#32).toNat }).acked n d.ack.toNat)))) ∧
     (¬ host → (s.Due n 6 d → freezes (d.doorbellOf n) 4 0) ∧ (s.Due n 8 d → freezes (d.panswerOf n) 4 0) ∧
       (s.Due n 11 d → freezes (d.mgmtOf n) 4 0)) ∧
     (host → s.Due n 6 d → d.Formed → b = [] → a / 2 ^ 14 % 2 ^ 18 = 0 → s.frontReady = true →
       exec (d.doorbellOf n) s = .next (acked (r.doorbell d.ctxgen (a % 2 ^ 14) (BitVec.ofNat 32 (a / 2 ^ 32))))) ∧
     (host → s.Due n 8 d → d.Formed → b.length = 16 → d.addr = 0#64 → fld b 12 4 = 0 → exec (d.panswerOf n) s =
       .next ((r.pageAnswer (BitVec.ofNat 32 (fld b 0 4)) (BitVec.ofNat 32 (fld b 4 4)) (BitVec.ofNat 32 (fld b 8 4))).ackBack n (s.peerAt n).txSeq)) ∧
     (host → s.Due n 11 d → d.Formed → a / 2 ^ 33 = 0 → a % 4 = 0 → b.length = (if a / 2 ^ 32 = 1 then 4 else 0) →
       let reg := a % 2 ^ 32
       let w := decide (a / 2 ^ 32 = 1)
       let x := if w = true then r.regWrite reg (BitVec.ofNat 32 (fld b 0 4)) else r
       let t := if w = true then x else (x.regRead reg).1
       (t.peerAt n).live = true → (t.peerAt n).txSeq = (s.peerAt n).txSeq →
       exec (d.mgmtOf n) s = .next (t.send n (.mgmt d.tag reg w true (x.regRead reg).2))) ∧
     (let ph := a / 2 ^ 48
      (ph = 0 ∧ b.length = 64) ∨ (ph = 2 ∧ b = []) → s.Due n 10 d → d.Formed →
       exec (d.collMessageOf n) s = .next (acked (r.collMsg n (BitVec.ofNat 32 a) (a / 2 ^ 32 % 2 ^ 16) ph b))) ∧
     ∀ x g t unit, current → s.Due n 13 d → d.Formed → b.length = 8 → d.addr = 0#64 → fld b 4 4 < 8 → x ∈ s.dev.link.acks →
       (∀ y ∈ s.dev.link.acks, y.peer = n → y = x) → x.peer = n → x.seq = fld b 0 4 → x.what = .rst g t unit → (s.peerAt n).unacked = [] →
       (s.peerAt n).asked = [] →
       exec (d.nakOf n) s = .next (acked ((((s.updLink fun l => { l with acks := l.acks.filter fun y => y.id != x.id }).addAsync g t
         ⟨0x60#8, 0#10, unit, 0#64⟩).updGroup g fun y => { y with remote := y.remote - 1 }).setPeer n
           fun p => { p with rxSeq := (d.seq + 1#32).toNat })))

/-- R409, R412, R414, R417, R420, R425: the states of peers and ports: OPEN trains a peer that is DOWN with both SEQ at 0;
the handshake makes it UP where all its ports are up, DEGRADED where some are; a port lost degrades it, the last takes it
DOWN; CLOSE takes it DOWN and its operations fail with link (0x60); THAW trains a FROZEN one again; an unacknowledged
message is sent again after RTO, and once one has been RETRY times a live peer goes DOWN. That a bare ACK is not sent again,
and that a FROZEN peer is sent what it has been refused as often and no more, are the model's choices (log 21). -/
def Obligations.PeerStates : Prop :=
  ∀ (s : State) (n : Nat) (p : Peer), n < 256 → s.peer? n = some p →
    let set := fun (i : Instr) (q : Peer) => ∃ t : State, exec i s = .next t ∧ t.peer? n = some q ∧ t.mem = s.mem ∧ t.dev.groups = s.dev.groups
    let up := (List.range 8).filter fun k => s.dev.link.pstate.getD k 0 == 2
    let mine := (List.range 8).filter fun k => p.ports.getLsbD k
    let all := ∀ k ∈ mine, k ∈ up
    let some_ := ∃ k ∈ mine, k ∈ up
    (p.st = .down → set (.peerOpen n) { p with st := .training, txSeq := 0, rxSeq := 0, unacked := [], heldMsgs := [] }) ∧
    (p.st ≠ .down → exec (.peerOpen n) s = .next s) ∧
    (p.st = .frozen → set (.peerThaw n) { p with st := .training, cause := 0, txSeq := 0, rxSeq := 0, heldMsgs := [] }) ∧
    (p.st ≠ .frozen → exec (.peerThaw n) s = .next s) ∧
    (p.st ≠ .training ∨ ¬ some_ → exec (.handshakeDone n) s = .next s) ∧
    (p.st = .training → some_ → p.unacked = [] → n ≠ s.dev.link.hostpeer → ∃ t : State, exec (.handshakeDone n) s = .next t ∧
      t.peer? n = some { p with st := if all then .up else .degraded }) ∧
    (∃ (t : State) (q : Peer), exec (.peerClose n) s = .next t ∧ t.peer? n = some q ∧ q.st = .down ∧ q.unacked = [] ∧ q.heldMsgs = [] ∧
      (∀ r ∈ s.dev.results, ∀ tag ext d a, r.kind = .remote n tag ext d a → r.ready = false → r.fault = none → (∀ x ∈ s.dev.results, x.id = r.id → x = r) →
        t.pending? r.id = some { r with ready := true, fault := some ⟨0x60#8, 0#10, r.unit, 0#64⟩ }) ∧
      (∀ c ∈ t.dev.link.colls, (∃ r < c.peers.length, r ≠ fld c.desc 4 2 ∧ c.peers.getD r 256 = n) → c.fail ≠ none) ∧ ∀ a ∈ t.dev.link.acks, a.peer ≠ n) ∧
    (let late := fun (x : Sent) => x.at_ ≤ s.dev.clk ∧ s.dev.link.rto.toNat * 6 ≤ 5 * (s.dev.clk - x.at_)
     let spent := fun (x : Sent) => late x ∧ x.msg ≠ .ack ∧ s.dev.link.retry ≤ x.tries
     let live := p.st = .up ∨ p.st = .degraded
     (¬ (live ∨ p.st = .frozen) ∨ (∀ x ∈ p.unacked, late x → x.msg = .ack) → exec (.retransmitTimeout n) s = .next s) ∧
     (live → (∃ x ∈ p.unacked, spent x) → ∃ (t : State) (q : Peer), exec (.retransmitTimeout n) s = .next t ∧ t.peer? n = some q ∧
       q.st = .down ∧ q.cause = 5) ∧
     ∀ x ∈ p.unacked, late x → x.msg ≠ .ack → (live ∧ ∀ y ∈ p.unacked, ¬ spent y) ∨ p.st = .frozen →
       ∃ (t : State) (q : Peer), exec (.retransmitTimeout n) s = .next t ∧ t.peer? n = some q ∧ q.st = p.st ∧
         q.unacked.map Sent.seq = p.unacked.map Sent.seq ∧ (¬ spent x → { x with tries := x.tries + 1, at_ := s.dev.clk } ∈ q.unacked ∧
           (n, x.seq, p.rxSeq, x.msg) ∈ t.dev.link.out) ∧
         (∀ y ∈ p.unacked, spent y ∨ ¬ late y → y ∈ q.unacked)) ∧
    ∀ port < 8, s.dev.link.pstate.length = 8 → (∀ x ∈ s.dev.link.peers, x.n = n → x = p) →
      let usable := s.fuse.ports.getLsbD port = true ∧ s.dev.die.portsRdy.getLsbD port = true ∧ s.dev.link.rate.getD port 0 ≠ 0
      let moved := fun (up : List Nat) => if p.st ≠ .up ∧ p.st ≠ .degraded then p.st else if ∀ k ∈ mine, k ∉ up then .down
        else if ∀ k ∈ mine, k ∈ up then .up else .degraded
      (¬ usable ∨ s.notFresh 2 port = false → exec (.portUp port) s = .next s) ∧
      (usable → s.notFresh 2 port = true → ∃ (t : State) (q : Peer), exec (.portUp port) s = .next t ∧ t.dev.link.pstate = s.dev.link.pstate.set port 2 ∧ t.peer? n = some q ∧
        q.st = moved (port :: up)) ∧
      ∃ (t : State) (q : Peer), exec (.portDown port) s = .next t ∧ t.dev.link.pstate = s.dev.link.pstate.set port (if usable then 1 else 0) ∧
        t.peer? n = some q ∧ q.st = moved (up.filter fun k => k != port)

/-- R429 to R433: bring-up and power: power-on reset verifies the flash image and runs it, or goes on to network boot with
the lowest failure that applies, for which its lowest enabled port comes up; an image accepted there, the first of its
attempt, runs, its body in tightly coupled memory at 0 and the firmware at ENTRY; a trip and a removal of power lose
everything but PWR.TRIP, which a board without a standby rail reads as 0 after every power-up; a block that is enabled sets
its ready bit, once, and is used from the next clk. That BOOT.FAIL has the lowest code that applies and the composition of
the digests are the model's (log 10). R426 to R428, R434: a bias code moves one step within its range unless it is held, at
most once a microsecond; an accumulator counts modulo 2^48 and sets WRAP when it passes its end; a read of ELO latches EHI
and WRAP as they were before the increments of its clk; OP = 1 forms the report of R434, with the signature by the device's
secret key over the SM3 digest of the rest, which is at its address before BUSY falls; OP while busy, and an address outside
memory, write nothing. The model's choices: a bias code keeps the end of its range (log 38); the number that a signature
draws is free (log 11). -/
def Obligations.PowerAndDie : Prop :=
  ((∀ s : State,
     let d := s.dev.die
     let lost := fun (powered tripn : Bool) (trip : BitVec 4) (f : Die → Die) =>
       let die := f { Die.reset with standby := d.standby, powered := powered, tripn := tripn, trip := trip, svn := d.svn, flash := d.flash }
       { s with mem := [], dev := { Dev.reset with freeCtr := s.dev.freeCtr, nextId := s.dev.nextId, die := die } }
     let runs := fun (src : Nat) (b : List Byte) (x : Die) =>
       { x with stage := 3, src := src, image := b.take (256 + fld b 8 4), tcm := (b.take (256 + fld b 8 4)).drop 256, pc := fld b 0xC 4, fwDigest := sm3 (b.take (256 + fld b 8 4)) }
     let port := (List.range 8).find? fun k => s.fuse.ports.getLsbD k
     let rated := fun (rate : Nat) (t : State) => match port with
       | none => t
       | some k => t.setRate k rate
     let left := if d.standby then d.trip else 0#4
     let up := ∃ k, port = some k ∧ s.dev.link.pstate.getD k 0 = 2
     (d.tripn = true → exec .powerOnReset s = .next s) ∧
     (d.tripn = false → d.flash = none → exec .powerOnReset s = .next (rated 1 (lost true false left fun x => { x with stage := 2, fail := 1 }))) ∧
     (∀ b, d.tripn = false → d.flash = some b →
       let key := (b.drop 0x20).take 64
       let valid := 256 + fld b 8 4 ≤ b.length ∧ fld b 0 4 = 0x46574B50 ∧ fld b 4 2 = 1 ∧ fld b 6 2 = 0 ∧ fld b 0x14 12 = 0 ∧ fld b 0xA0 96 = 0 ∧
         4 ≤ fld b 8 4 ∧ fld b 8 4 ≤ 262144 ∧ fld b 8 4 % 4 = 0 ∧ fld b 0xC 4 % 2 = 0 ∧ fld b 0xC 4 < fld b 8 4
       let digest := sm3 (b.take 0x60 ++ (b.drop 256).take (fld b 8 4))
       let fail := if ¬ valid then 2 else if sm3 key ≠ s.fuse.keyHash then 3 else if sm2Verify key digest ((b.drop 0x60).take 64) = false then 4
         else if fld b 0x10 4 < d.svn.toNat then 5 else 0
       exec .powerOnReset s = .next (if fail = 0 then lost true false left (runs 0 b)
         else rated 1 (lost true false left fun x => { x with stage := 2, fail := fail })) ∧
       (s.imageFail b = fail)) ∧
     (∀ b, let tries := d.powered = true ∧ d.stage = 2 ∧ up ∧ d.tried = false
       (tries → s.imageFail b = 0 → exec (.networkImageFetch b) s = .next ((rated 0 s).updDie (runs 1 b))) ∧
       (tries → s.imageFail b ≠ 0 → exec (.networkImageFetch b) s = .next (s.updDie fun d => { d with tried := true })) ∧
       (¬ tries → exec (.networkImageFetch b) s = .next s)) ∧
     (exec .networkBootRetry s = .next (if d.powered = true ∧ d.stage = 2 ∧ 1200000000 * (d.netRetries + 1) ≤ s.dev.clk
       then rated 1 (s.updDie fun d => { d with netRetries := d.netRetries + 1, tried := false }) else s)) ∧
     (∀ dies, dies ≠ 0#4 → d.powered = true → exec (.thermalTrip dies) s = .next (lost false true (d.trip ||| dies) id)) ∧
     exec .boardPowerRemoval s = .next (lost false false d.trip id) ∧
     exec .standbyRailLoss s = .next (s.updDie fun d => { d with trip := 0#4 }) ∧
     (∀ v, exec (.fusedCounterRaise v) s = .next (if d.stage = 3 ∧ d.svn.toNat < v.toNat then s.updDie fun d => { d with svn := v } else s))) ∧
   ∀ (s : State) (n : Nat), s.dev.die.powered = true → s.dev.die.stage ≠ 0 →
     let come := fun (block k : Nat) (f : Die → Die) => if f s.dev.die = s.dev.die then s else s.updDie fun d =>
       { f d with fresh := (if d.freshAt = s.dev.clk then d.fresh else []) ++ [(block, k)], freshAt := s.dev.clk }
     let set := fun (block : Nat) (enabled : Prop) (f : Die → Die) =>
       (enabled → exec (.blockReady block n) s = .next (come block (if block = 3 then 0 else n) f)) ∧ (¬ enabled → exec (.blockReady block n) s = .next s)
     let core := n < 192 ∧ s.fuse.coremask.getLsbD n = true
     set 0 (n < 12 ∧ ∃ c < 192, c / 16 / 4 * 4 + c % 16 / 4 = n ∧ s.fuse.coremask.getLsbD c = true)
       (fun d => { d with zonesRdy := d.zonesRdy ||| (1#12 <<< n) }) ∧
     set 1 (n < 8 ∧ s.fuse.hbm.getLsbD n = true) (fun d => { d with hbmRdy := d.hbmRdy ||| (1#8 <<< n) }) ∧
     (let t := come 2 n fun d => { d with portsRdy := d.portsRdy ||| (1#8 <<< n) }
      (n < 8 ∧ s.fuse.ports.getLsbD n = true → exec (.blockReady 2 n) s =
        .next (if s.dev.link.rate.getD n 0 ≠ 0 ∧ s.dev.link.pstate.getD n 0 = 0 then t.setPort n 1 else t)) ∧
      (¬ (n < 8 ∧ s.fuse.ports.getLsbD n = true) → exec (.blockReady 2 n) s = .next s)) ∧
     (s.dev.die.heldBells = [] → set 3 True fun d => { d with front := true }) ∧
     set 4 core (fun d => { d with shengRdy := d.shengRdy ||| (1#192 <<< n) }) ∧
     set 5 core (fun d => { d with rastRdy := d.rastRdy ||| (1#192 <<< n) }) ∧
     (n < 12 → s.dev.die.zonesRdy.getLsbD n = false → (∃ c < 192, zoneOf c = n ∧ s.fuse.coremask.getLsbD c = true) → ∃ t : State,
       exec (.blockReady 0 n) s = .next t ∧ t.zoneReady n = false ∧ ∀ clk, clk ≠ s.dev.clk → (t.onDev fun d => { d with clk := clk }).zoneReady n = true)) ∧
  (∀ s : State,
     let d := s.dev.die
     (∀ z up, z < 12 → (s.zone z).hold = false → (s.zone z).biasFrom ≤ s.dev.clk → ∃ t : State, exec (.biasStep z up) s = .next t ∧
       (t.zone z).code.toInt = max (-16) (min 15 ((s.zone z).code.toInt + if up = true then 1 else -1)) ∧
       { t.zone z with code := 0#5, biasFrom := 0 } = { s.zone z with code := 0#5, biasFrom := 0 } ∧
       ((t.zone z).code ≠ (s.zone z).code → (t.zone z).biasFrom = s.dev.clk + 1200) ∧ ∀ y, y ≠ z → t.zone y = s.zone y) ∧
     (∀ z up, 12 ≤ z ∨ (s.zone z).hold = true ∨ s.dev.clk < (s.zone z).biasFrom → exec (.biasStep z up) s = .next s) ∧
     (∀ z c, z < 12 → ((s.zone z).tempFrom ≤ s.dev.clk →
         exec (.tempUpdate z c) s = .next (s.updZone z fun x => { x with temp := c, tempFrom := s.dev.clk + 12000 })) ∧
       (s.dev.clk < (s.zone z).tempFrom → exec (.tempUpdate z c) s = .next s)) ∧
     (∀ b n e, d.energy[b]? = some e → ∃ (t : State) (e2 : Energy), exec (.accumulatorIncrement b n) s = .next t ∧
       t.dev.die.energy[b]? = some e2 ∧ e2.acc = (e.acc + n) % 2 ^ 48 ∧ (e2.wrap = true ↔ e.wrap = true ∨ 2 ^ 48 ≤ e.acc + n) ∧ e2.ehi = e.ehi ∧
       e2.latWrap = e.latWrap ∧ e2.seen s.dev.clk = e.seen s.dev.clk ∧ ∀ c ≠ b, t.dev.die.energy[c]? = d.energy[c]?) ∧
     (∀ b e, d.energy[b]? = some e → ∃ t : State, exec (.energyRead b) s = .next t ∧
       t.dev.die.energy[b]? = some { e with ehi := (if e.incAt = s.dev.clk then e.was else e.acc) / 2 ^ 32,
                                              latWrap := if e.incAt = s.dev.clk then e.wasWrap else e.wrap } ∧ ∀ c ≠ b, t.dev.die.energy[c]? = d.energy[c]?) ∧
     (let a := d.rptlo.toNat + 2 ^ 32 * d.rpthi.toNat
      let word := fun (n : Nat) => bytesOfNat n 4
      let body := word 0x41544B50 ++ bytesOf [s.fuse.devWord 0, s.fuse.devWord 1] ++ word d.svn.toNat ++ d.fwDigest ++ bytesOf d.nonce ++
        bytesOfNat s.fuse.coremask.toNat 24 ++ bytesOfNat s.fuse.l2mask.toNat 24 ++ word d.src ++ List.replicate 60 0#8
      (d.secBusy = true → exec .attestationReport s = .next (s.updDie fun d => { d with secResult := 2 })) ∧
      (d.secBusy = false → s.memSize < a + 256 → exec .attestationReport s = .next (s.updDie fun d => { d with secResult := 1 })) ∧
      (d.secBusy = false → a + 256 ≤ s.memSize → d.fwDigest.length = 32 → d.nonce.length = 8 → ∃ (t : State) (sig : List Byte),
        exec .attestationReport s = .next t ∧ sig = sm2Sign s.fuse.idkey (sm3 body) Config.signDraw s.dev.freeCtr 4 ∧ t.dev.die.secBusy = true ∧ t.dev.die.secReport = body ++ sig ∧ t.dev.die.secAddr = a ∧
        t.mem = s.mem)) ∧
     (d.secBusy = false → exec .reportWritten s = .next s) ∧
     (d.secBusy = true → d.secAddr + d.secReport.length ≤ s.memSize → exec .reportWritten s =
       .next ((s.homeStore 0 d.secAddr d.secReport).1.updDie fun d => { d with secBusy := false, secResult := 0, secReport := [] })))

/-- R91 to R93, R98, R100, R101: the CTX commands: BUSY is tested first, then the generation, then the state's row; BIND
copies a valid entry, START makes the context ACTIVE and its enabled queues READY, SUSPEND asks every team to save and ends
when all are saved, RESUME and THAW change the state, KILL leaves the context DYING without its requests, pushes and frames.
R91, R93, R98: a dying context is released once everything issued for it is done: its teams, groups and grids are gone, its
identifier is free and its generation has risen by one, modulo 2^20; KILL then ends. -/
def Obligations.ContextStates : Prop :=
  (∀ (s : State) (ctx : Nat),
     let r := s.dev.ctxRegs
     let regs := fun (f : CmdRegs → CmdRegs) => s.onDev fun d => { d with ctxRegs := f d.ctxRegs }
     let result := fun (n : Nat) => regs fun r => { r with result := n, refusedBusy := false }
     let entry := r.base + 256 * ctx
     let status := fun (t : State) (st : CtxState) (code : Nat) =>
       (t.updCtx ctx fun c => { c with st := st }).put entry (bytesOfNat (code + 4096 * s.gen ctx) 4)
     let taken := r.busy = false ∧ r.gen = s.gen ctx
     (∀ i from_, (i, from_) ∈ [(Instr.ctxBind ctx, [CtxState.free]), (.ctxStart ctx, [.built]), (.ctxSuspend ctx, [.active]), (.ctxResume ctx, [.suspended]),
         (.ctxThaw ctx, [.frozen]), (.ctxKill ctx, [.built, .active, .suspended, .frozen])] →
       (r.busy = true → exec i s = .next (regs fun r => { r with refusedBusy := true })) ∧
       (r.busy = false → r.gen ≠ s.gen ctx → exec i s = .next (result 2)) ∧
       (taken → s.ctxState ctx ∉ from_ → exec i s = .next (result 1))) ∧
     (taken → s.ctx? ctx = none →
       let b := mgets s.mem entry 256
       let e := ctxEntryOf b
       (s.memSize < entry + 256 ∨ 4096 ≤ ctx → exec (.ctxBind ctx) s = .next (result 3)) ∧
       (entry + 256 ≤ s.memSize → ctx < 4096 → s.entryOk ctx b = false ∨ s.queuesOf e.qdesc e.qcount = none → exec (.ctxBind ctx) s = .next (result 3)) ∧
       (∀ qs, entry + 256 ≤ s.memSize → ctx < 4096 → s.entryOk ctx b = true → s.queuesOf e.qdesc e.qcount = some qs →
         ∃ t : State, exec (.ctxBind ctx) s = .next t ∧ t.ctx? ctx = some ⟨ctx, .built, e, qs, 0#32, ⟨0#32, 0#32, 0, 0#64⟩, none⟩ ∧ t.gen ctx = s.gen ctx ∧
           mgets t.mem entry 4 = bytesOfNat (1 + 4096 * (s.gen ctx % 2 ^ 20)) 4 ∧ t.dev.ctxRegs.result = 0)) ∧
     ∀ c, taken → s.ctx? ctx = some c →
       (c.st = .built → (c.queues.map Queue.q).Nodup → ∃ t : State, exec (.ctxStart ctx) s = .next t ∧ t.ctxState ctx = .active ∧
         ∀ n q, c.queue? n = some q → (t.queue? ctx n).map Queue.st = some (if q.enable = true ∧ q.st = .off then .ready else q.st)) ∧
       (c.st = .suspended → exec (.ctxResume ctx) s = .next (status (result 0) .active 2)) ∧
       (c.st = .frozen → exec (.ctxThaw ctx) s = .next (status (((result 0).updCtx ctx fun c => { c with fault := { c.fault with cause := 0 } }).put (entry + 12)
         (List.replicate 4 0#8)) .suspended 3)) ∧
       (c.st = .active → ∃ t : State, exec (.ctxSuspend ctx) s = .next t ∧ t.ctxState ctx = .suspended ∧ (∀ x ∈ t.dev.teams, x.ctx = ctx → x.st ≠ .resident) ∧
         let held := ∃ x ∈ s.dev.teams, x.ctx = ctx ∧ (x.st = .resident ∨ x.st = .saving)
         (held → t.dev.ctxRegs.busy = true ∧ t.dev.ctxRegs.run = some (3, ctx, 0)) ∧
         (¬ held → t.dev.ctxRegs.busy = false ∧ t.dev.ctxRegs.result = 0)) ∧
       (c.st ≠ .free → c.st ≠ .dying → ∃ t : State, exec (.ctxKill ctx) s = .next t ∧ t.ctxState ctx = .dying ∧ t.dev.ctxRegs.busy = true ∧
         t.dev.ctxRegs.run = some (6, ctx, 0) ∧ (∀ x ∈ t.dev.preqs, x.ctx ≠ ctx) ∧ (∀ x ∈ t.dev.pushes, x.ctx ≠ ctx) ∧ ∀ x ∈ t.dev.frames, x.ctx ≠ ctx)) ∧
  (∀ (s : State) (ctx : Nat) (c : Ctx), s.ctx? ctx = some c →
     (c.st ≠ .dying ∨ s.drained ctx = false → exec (.contextDrainComplete ctx) s = .next s) ∧
     (c.st = .dying → s.drained ctx = true → ∃ t : State, exec (.contextDrainComplete ctx) s = .next t ∧ t.ctx? ctx = none ∧
       t.gen ctx = (s.gen ctx + 1) % 2 ^ 20 ∧ (∀ n, n ≠ ctx → t.gen n = s.gen n ∧ t.ctx? n = s.ctx? n) ∧ (∀ x ∈ t.dev.teams, x.ctx ≠ ctx) ∧
       (∀ x ∈ t.dev.groups, x.ctx ≠ ctx) ∧ (∀ x ∈ t.dev.grids, x.ctx ≠ ctx) ∧ (∀ x ∈ s.dev.groups, x.ctx ≠ ctx → x ∈ t.dev.groups) ∧
       (∀ k ∈ t.dev.cores, ∀ y ∈ k.2.copies, ∀ b ∈ y.binds, b.ctx ≠ ctx) ∧
       ((∀ x ∈ s.dev.ctxs, x.id ≠ ctx → x.e.asn ≠ c.e.asn) → ∀ e ∈ t.dev.l2tlb, e.2.asn ≠ c.e.asn) ∧
       (s.dev.ctxRegs.run = some (6, ctx, 0) → t.dev.ctxRegs = ⟨s.dev.ctxRegs.base, s.dev.ctxRegs.gen, false, 0, false, none⟩)))

/-- R106, R119, R120: the QUEUE commands: BUSY, then the generation, then that the queue exists, then the state's row:
ENABLE and RESUME make it READY, PREEMPT asks its packets' teams to save and ends when they are, THAW parses again from
FAULTIDX what was not launched, RESET retires without effect what was not. R107 to R118: a packet's life: it is read and
checked at its index, a malformed one freezes the queue there; a LAUNCH packet waits for its record's declarations and is
refused with a record R125 refuses; the oldest ready packet launches, or retires where it is a SIGNAL; the priority at which
a SIGNAL packet takes its queue's turn, the least of its context's and its queue's, is the model's choice (log 40: it has no
launch record); the packet of a retired grid raises its tokens, sends its completion, and leaves the window in order. -/
def Obligations.QueuesAndPackets : Prop :=
  (∀ (s : State) (ctx q : Nat),
     let r := s.dev.queueRegs
     let regs := fun (f : CmdRegs → CmdRegs) => s.onDev fun d => { d with queueRegs := f d.queueRegs }
     let result := fun (n : Nat) => regs fun r => { r with result := n, refusedBusy := false }
     let taken := r.busy = false ∧ r.gen = s.gen ctx ∧ s.ctxState ctx ≠ .free
     (∀ i from_, (i, from_) ∈ [(Instr.queueEnable ctx q, [QState.off]), (.queuePreempt ctx q, [.ready]), (.queueResume ctx q, [.preempted]),
         (.queueThaw ctx q, [.frozen]), (.queueReset ctx q, [.frozen, .preempted])] →
       (r.busy = true → exec i s = .next (regs fun r => { r with refusedBusy := true })) ∧
       (r.busy = false → r.gen ≠ s.gen ctx → exec i s = .next (result 2)) ∧
       (r.busy = false → r.gen = s.gen ctx → s.ctxState ctx = .free ∨ s.queue? ctx q = none → exec i s = .next (result 3)) ∧
       (∀ a, taken → s.queue? ctx q = some a → a.st ∉ from_ → exec i s = .next (result 1))) ∧
     ∀ a, taken → s.queue? ctx q = some a →
       let set := fun (i : Instr) (f : Queue → Queue) => exec i s = .next ((result 0).setQueue ctx q f)
       (a.st = .off → set (.queueEnable ctx q) fun a => { a with st := .ready }) ∧
       (a.st = .preempted → set (.queueResume ctx q) fun a => { a with st := .ready }) ∧
       (let stays := fun (a : Queue) (p : Packet) => p.launched || decide (2 ^ 31 ≤ (p.idx - a.faultidx).toNat)
        a.st = .frozen → set (.queueThaw ctx q) fun a => { a with st := .ready, cause := 0, win := a.win.filter (stays a) }) ∧
       (a.st = .frozen ∨ a.st = .preempted → ∃ (t : State) (b : Queue), exec (.queueReset ctx q) s = .next t ∧ t.queue? ctx q = some b ∧ b.st = .ready ∧
         b.cause = 0 ∧ b.widx = a.widx ∧ (∀ p ∈ b.win, p.launched = true) ∧ (∀ p ∈ a.win, p.launched = true → p.retired = false → p ∈ b.win) ∧
         ((∀ p ∈ a.win, p.launched = false) → b.ridx = a.widx)) ∧
       (a.st = .ready → ∃ t : State, exec (.queuePreempt ctx q) s = .next t ∧ (t.queue? ctx q).map Queue.st = some .preempted ∧
         let mine := fun (s : State) (x : Team) => x.ctx = ctx ∧ ∃ g c i, s.grid? x.grid = some g ∧ g.src = .packet c q i
         (∀ x ∈ t.dev.teams, mine t x → x.st ≠ .resident) ∧
         ((∃ x ∈ s.dev.teams, mine s x ∧ (x.st = .resident ∨ x.st = .saving)) → t.dev.queueRegs.busy = true) ∧
         ((∀ x ∈ s.dev.teams, mine s x → x.st ≠ .resident ∧ x.st ≠ .saving) → t.dev.queueRegs.busy = false ∧ t.dev.queueRegs.result = 0))) ∧
  (∀ (s : State) (ctx q : Nat) (c : Ctx) (a : Queue), s.ctx? ctx = some c → c.queue? q = some a →
     let set := fun (t : State) (f : Queue → Queue) => t.setQueue ctx q f
     let drop := fun (idx : Word) (a : Queue) => { a with win := a.win.filter fun x => x.idx != idx }
     (c.st ≠ .active ∨ a.st ≠ .ready → exec (.packetParse ctx q) s = .next s) ∧
     (c.st = .active → a.st = .ready → s.declsReady a = none → a.nextParse = none → exec (.packetParse ctx q) s = .next s) ∧
     (∀ idx, c.st = .active → a.st = .ready → s.declsReady a = none → a.nextParse = some idx →
       let b := mgets s.mem (a.ringbase + 64 * (idx.toNat % 2 ^ a.log2n)) 64
       (s.packetOf c.e.qcount idx b = none → exec (.packetParse ctx q) s = .next (set s fun a => { a with st := .frozen, cause := 1, faultidx := idx })) ∧
       ∀ p, s.packetOf c.e.qcount idx b = some p →
         (p.typ = 0 → exec (.packetParse ctx q) s = .next (set s fun a => (a.putPacket { p with launched := true, retired := true }).advanceRead)) ∧
         (p.typ = 2 → exec (.packetParse ctx q) s = .next (s.updQueue ctx q fun a => a.putPacket p)) ∧
         (p.typ = 1 → let r := launchOf (mgets s.mem (fld b 0x20 8) 256)
           let s1 := s.onDev fun d => { d with nextId := d.nextId + 1 }
           (r.inRange = false ∨ (r.inRange = true ∧ r.tdcount = 0 ∧ s.recordOk ctx r = false) → exec (.packetParse ctx q) s =
             .next ((set (s1.updQueue ctx q (drop idx)) fun a => { a with st := .frozen, cause := 2, faultidx := idx }).endEng s.dev.nextId)) ∧
           (r.inRange = true → r.tdcount = 0 → s.recordOk ctx r = true → exec (.packetParse ctx q) s =
             .next (((s1.endEng s.dev.nextId).updQueue ctx q (drop idx)).updQueue ctx q fun a =>
               a.putPacket { p with grid := s.dev.nextId, lrec := some r, declsDue := false })))) ∧
     (∀ idx, c.oldestReady a = none → exec (.packetLaunch ctx q idx) s = .next s) ∧
     (∀ p, c.oldestReady a = some p →
       (p.typ = 2 → p.lrec = none → exec (.packetLaunch ctx q p.idx.toNat) s =
         .next ((s.retirePacket ctx q p).onDev fun d => { d with turn := assocSet d.turn (min c.e.prio a.prio) (ctx, q) })) ∧
       (∀ r, p.typ = 1 → p.lrec = some r →
         let g := Grid.mk p.grid ctx (.packet ctx q p.idx) r (if p.args = 0 then r.args else p.args) (min c.e.prio (min a.prio r.prio)) .launched none
           .unread [⟨none, false, 0⟩, ⟨none, false, 0⟩] 0
         exec (.packetLaunch ctx q p.idx.toNat) s = .next ((s.updQueue ctx q fun a => { a with win := a.win.map fun x =>
           if x.idx = p.idx then { x with launched := true } else x }).onDev fun d =>
           { d with turn := assocSet d.turn (min c.e.prio (min a.prio r.prio)) (ctx, q), grids := d.grids ++ [g] }))) ∧
     (∀ p g, (a.win.find? fun x => x.idx == p.idx) = some p → s.grid? p.grid = some g → p.typ = 1 →
       (p.launched = true ∧ p.retired = false ∧ g.st = .retired ∧ c.st ≠ .dying → exec (.packetRetire ctx q p.idx.toNat) s = .next (s.retirePacket ctx q p)) ∧
       (p.launched = false ∨ p.retired = true ∨ g.st ≠ .retired ∨ c.st = .dying → exec (.packetRetire ctx q p.idx.toNat) s = .next s)) ∧
     ∀ p rest, a.win = p :: rest → rest.length < 32 → (∀ x ∈ rest, x.idx ≠ p.idx) → p.idx = a.ridx → p.notify = false →
       ∃ b, (s.retirePacket ctx q p).queue? ctx q = some b ∧ (∀ x ∈ b.win, x.idx ≠ p.idx) ∧ b.ridx ≠ a.ridx ∧
         ∀ n < 64, mget b.toks n = mget a.toks n + if p.setmask.getLsbD n = true then 1#32 else 0#32)

/-- R127, R128, R131, R433: where a grid's next cluster goes: the first origin from the placement pointer on, modulo 192,
whose rectangle lies within the array and one half, with every core enabled, ready and accepting its team; a group slot goes
to the lowest reed with fewer than 4 groups and register words to spare; a block that came ready in this clk is used from
the next; with no place, or over a quota, nothing is placed. R123, R126, R127, R131, R138: a grid whose next cluster has a
place is given it: the cluster, a RESIDENT team of its rank on each core and the team's groups on their seats, every thread
at ENTRY with registers and predicates zero; the grid runs on to its next cluster and the pointer moves past the origin;
without a place nothing happens. -/
def Obligations.Placement : Prop :=
  ((∀ (s : State) (gr : Grid), gr.lr.coop = false → gr.src.isBin = false →
     let w := gr.lr.clw
     let h := gr.lr.clh
     let accepts := fun (o : Nat) => o % 16 + w ≤ 16 ∧ o / 16 + h ≤ 12 ∧ o % 16 / 8 = (o % 16 + w - 1) / 8 ∧ ∀ i < w, ∀ j < h, let c := o + 16 * j + i
       s.fuse.coremask.getLsbD c = true ∧ s.dev.die.zonesRdy.getLsbD (zoneOf c) = true ∧ s.dev.die.shengRdy.getLsbD c = true ∧
         s.dev.die.rastRdy.getLsbD c = true ∧ (s.dev.die.freshAt = s.dev.clk → ∀ b ∈ [(0, zoneOf c), (4, c), (5, c)], b ∉ s.dev.die.fresh) ∧
         ((s.occ c).accept s.fuse.reeds gr.lr).isSome = true
     let may := s.mayRun gr = true ∧ gr.nextCl < gr.lr.clusters ∧ s.quotaOk gr.ctx (w * h) (w * h * gr.lr.saveBytes (s.qacc gr.ctx)) = true
     let at_ := fun (k : Nat) => (s.dev.placePtr + k) % 192
     (s.planGrid gr = none ↔ ¬ (may ∧ ∃ k < 192, accepts (at_ k))) ∧
     ∀ l, s.planGrid gr = some l → ∃ k < 192, ∃ cores, l = [⟨at_ k, cores⟩] ∧ accepts (at_ k) ∧ (∀ j < k, ¬ accepts (at_ j)) ∧ cores.length = w * h ∧
       ∀ n < w * h, (cores[n]?).map Prod.fst = some (at_ k + 16 * (n / w) + n % w)) ∧
   ∀ (reeds words : Nat) (l : List (Nat × Nat × Nat)),
     let here := fun (r : Nat) => l.filter fun x => x.1 == r
     let room := fun (r : Nat) => (here r).length < 4 ∧ ((here r).map fun x => x.2.2).sum + words ≤ 2048
     (∀ r i, seatOne reeds words l = some (r, i) → r < reeds ∧ i < 4 ∧ room r ∧ (∀ q < r, ¬ room q) ∧ ∀ x ∈ here r, x.2.1 ≠ i) ∧
     (seatOne reeds words l = none → ∀ r < reeds, ¬ room r)) ∧
  (∀ (s : State) (grid : Nat) (gr : Grid), s.grid? grid = some gr →
     (s.planGrid gr = none → exec (.teamPlace grid) s = .next s) ∧
     ∀ sp, s.planGrid gr = some [sp] → gr.lr.decls = [] → ∃ (t : State) (ts : List Team) (gss : List (List Group)),
       exec (.teamPlace grid) s = .next t ∧ t.dev.teams = s.dev.teams ++ ts ∧ t.dev.groups = s.dev.groups ++ gss.flatten ∧
       ts.length = sp.cores.length ∧ gss.length = sp.cores.length ∧ t.dev.placePtr = (sp.origin + gr.lr.clw) % 192 ∧
       (let n := gr.nextCl
        let cl := Cluster.mk s.dev.nextId grid (n % gr.lr.gx) (n / gr.lr.gx % gr.lr.gy) (n / (gr.lr.gx * gr.lr.gy)) n .placed sp.origin s.dev.clk
          (List.replicate 4 ⟨none, false, 0⟩) []
        t.dev.clusters = s.dev.clusters ++ [cl]) ∧
       (t.grid? grid).map (fun x => (x.nextCl, x.st, x.lr)) = some (gr.nextCl + 1, if gr.st = .launched then .running else gr.st, gr.lr) ∧
       ∀ k tm gs core seats, ts[k]? = some tm → gss[k]? = some gs → sp.cores[k]? = some (core, seats) →
         tm.core = core ∧ tm.st = .resident ∧ tm.ctx = gr.ctx ∧ tm.grid = gr.id ∧ tm.cluster = s.dev.nextId ∧ tm.ri = k % gr.lr.clw ∧ tm.rj = k / gr.lr.clw ∧
         tm.handles = [] ∧ tm.banks = [] ∧ tm.window = none ∧ gs.length = seats.length ∧
         ∀ (j : Nat) (x : Group), gs[j]? = some x → x.slot = j ∧ x.team = tm.id ∧ x.core = core ∧ seats[j]? = some (x.reed, x.rslot) ∧ x.prio = gr.prio ∧
           (∀ r, mget x.g r = 0#32) ∧ x.sb = List.replicate 8 0 ∧ x.rb = List.replicate 16 none ∧ x.sq = [] ∧ x.ended = false ∧ x.threads.length = 32 ∧
           ∀ th ∈ x.threads, th.vpc = gr.lr.entry ∧ (∀ r, mget th.v r = 0#32) ∧ th.p = 0#7 ∧ th.ended = false ∧ th.inTrap = false)

/-- R133 to R135, R138, R169: a team's argument window is read once, while it is on a core, word by word; a save ends when
nothing of the team is outstanding, and leaves its groups' registers and threads as they are, but for the names of their
copies; a saved cluster that finds a place is resumed there; what arrives for a team that moved is delivered to it, and its
entry is freed with its last arrival. R98, R137, R138: a group whose threads have ended, with its counts at 0 and its stores
and gathered lines at home, ends; with its team's last group the team retires, and its handles, banks and tokens are
released; a grid that drains retires once no group of it has an access outstanding, and its teams are gone; a bin grid's
team is dropped once its groups have no remote access outstanding. A dying context's team ends without a save, at a clause
boundary, and keeps its handles and banks until the context has drained. -/
def Obligations.WindowSaveAndResume : Prop :=
  ((∀ (s s1 : State) (team pa : Nat) (t : Team) (gr : Grid) (e e2 : TlbEntry), s.team? team = some t → s.grid? t.grid = some gr →
     (t.window.isSome = true ∨ (t.st ≠ .resident ∧ t.st ≠ .saving) → exec (.argumentWindowLoad team) s = .next s) ∧
     (t.window = none → t.st = .resident ∨ t.st = .saving → gr.args % 4096 + 1024 ≤ 4096 →
       let pts := (s.groupsOf team).foldl (fun p g => max p g.pts) 0
       (s.engRange (some t.core) t.ctx team gr.args 1024 .load = (s1, .ok e, [(pa, 1024, e2)]) → e2.typ = 0 → ∃ W : List WinWord, W.length = 256 ∧
         (∀ i < 256, W[i]? = some (.ok (BitVec.ofNat 32 (natOfBytes (mgets s1.mem (pa + 4 * i) 4))))) ∧
         exec (.argumentWindowLoad team) s = .next (((s1.homeLoad pts pa 1024).1.endEng team).updTeam team fun t => { t with window := some W })) ∧
       (∀ c va l, s.engRange (some t.core) t.ctx team gr.args 1024 .load = (s1, .fault c va, l) → exec (.argumentWindowLoad team) s =
         .next ((s1.endEng team).updTeam team fun t => { t with window := some (List.replicate 256 (.bad c)) })) ∧
       ∀ v l, s.engRange (some t.core) t.ctx team gr.args 1024 .load = (s1, .wait v, l) → exec (.argumentWindowLoad team) s = .next s1)) ∧
   (∀ (s : State) (team : Nat) (t : Team), s.team? team = some t →
     (t.st ≠ .saving ∨ s.issuing team = true → exec (.teamSaveComplete team) s = .next s) ∧
     (t.st = .saving → s.issuing team = false → (s.flushTeam t).saveDone t = false → exec (.teamSaveComplete team) s = .next (s.flushTeam t)) ∧
     (t.st = .saving → s.issuing team = false → (s.flushTeam t).saveDone t = true → ∃ u : State, exec (.teamSaveComplete team) s = .next u ∧
       (u.team? team).map Team.st = some .saved ∧ ∀ g ∈ (s.flushTeam t).dev.groups, g.team = team →
         ((s.flushTeam t).dev.groups.filter fun x => x.id == g.id) = [g] →
         ∃ y, u.group? g.id = some y ∧ y.park = .none ∧ y.g = g.g ∧ y.sb = g.sb ∧ y.sq = g.sq ∧ y.remote = g.remote ∧
           y.pauseEnd = g.pauseEnd - s.dev.clk ∧
           (let plain := fun (t : Thread) => { t with copy := 0, park := none }
            y.threads.map plain = g.threads.map plain))) ∧
   (∀ (s : State) (cluster : Nat) (c : Cluster) (gr : Grid), s.cluster? cluster = some c → s.grid? c.grid = some gr → gr.lr.coop = false →
     let saved := s.dev.teams.filter fun t => t.cluster == cluster && t.st == .saved
     (s.mayRun gr = false ∨ c.st ≠ .saved ∨ saved = [] ∨ s.resumeSpot gr c.id = none → exec (.teamResume cluster) s = .next s) ∧
     ∀ tm sp core seats, s.mayRun gr = true → c.st = .saved → saved = [tm] → s.quotaOk gr.ctx 1 0 = true → s.resumeSpot gr c.id = some sp →
       sp.cores[s.rankOf tm]? = some (core, seats) → tm.keys = [] → tm.reown = none → (∀ x ∈ s.dev.teams, x.id = tm.id → x = tm) → tm.grid = c.grid → ∃ u : State,
         exec (.teamResume cluster) s = .next u ∧ u.dev.placePtr = (sp.origin + gr.lr.clw) % 192 ∧
         (u.team? tm.id).map (fun x => (x.st, x.core, x.handles, x.banks, x.tb, x.rings)) = some (.resident, core, if gr.lr.restart then tm.handles.map Handle.unsaved else tm.handles, tm.banks, tm.tb, tm.rings) ∧
         ∀ g ∈ s.dev.groups, g.team = tm.id → (s.dev.groups.filter fun x => x.id == g.id) = [g] → ∃ y, u.group? g.id = some y ∧ y.core = core ∧
           (y.reed, y.rslot) = seats.getD g.slot (0, 0) ∧ y.g = g.g ∧ y.sb = g.sb ∧ y.sq = g.sq ∧
           y.threads.map (fun x => (x.vpc, x.v, x.p, x.ended)) = g.threads.map fun x => (x.vpc, x.v, x.p, x.ended)) ∧
   ∀ (s : State) (core n : Nat),
     ((s.dev.fwds.find? fun f => f.id == n && f.core == core) = none → exec (.forwardedArrival core n) s = .next s) ∧
     ∀ (f : Fwd) (r : Pending) (ext : LoadExt) p tag d a, (s.dev.fwds.find? fun f => f.id == n && f.core == core) = some f → f.res = [r.id] → (∀ x ∈ s.dev.fwds, x.id = n → x = f) → s.pending? r.id = some r →
       r.ready = true → r.fault = none → r.kind = .remote p tag ext d a → (∀ k ∈ (s.core core).cmds, k.team ≠ f.team) →
       exec (.forwardedArrival core n) s = .next (((((s.updGroup r.grp fun g => wrN g r.thread (.v (BitVec.ofNat 6 d)) (ext.words r.val)).dropResult r).endEng r.id).onDev
         fun x => { x with fwds := x.fwds.filter fun f => f.id != n }))) ∧
  ((∀ (s : State) (id : Nat) (g : Group) (tm : Team), s.group? id = some g → s.team? g.team = some tm →
     let finished := (∀ t ∈ g.threads, t.ended = true) ∧ (∀ n ∈ g.sb, n = 0) ∧ g.sq = []
     let resident := tm.st = .resident ∨ tm.st = .saving
     let idle := ∀ x ∈ s.dev.streams, x.grp ≠ id
     let bin := ((s.grid? tm.grid).map fun x => x.src.isBin) = some true
     let acked := ∀ x ∈ s.dev.groups, x.team = g.team → x.remote = 0
     let dying := s.ctxState g.ctx = .dying
     (dying → tm.st = .retired ∨ s.issuing tm.id = true → exec (.groupEnd id) s = .next s) ∧
     (dying → tm.st ≠ .retired → s.issuing tm.id = false → ∃ u : State, exec (.groupEnd id) s = .next u ∧ (u.group? id).map Group.ended = some true ∧
       (u.team? tm.id).map Team.st = some .retired ∧ (tm.st ≠ .saved → (u.team? tm.id).map (fun x => (x.handles, x.banks)) = some (tm.handles, tm.banks)) ∧
       (tm.st = .saved → (u.team? tm.id).map Team.banks = some [])) ∧
     (¬ dying → g.ended = true → tm.st ≠ .retired ∨ ¬ bin ∨ ¬ acked → exec (.groupEnd id) s = .next s) ∧
     (¬ dying → g.ended = true → tm.st = .retired → bin → acked → ∃ u : State, exec (.groupEnd id) s = .next u ∧ (∀ x ∈ u.dev.teams, x.id ≠ tm.id) ∧
       ∀ x ∈ u.dev.groups, x.team ≠ tm.id) ∧
     (¬ dying → g.ended = false → ¬ finished ∨ ¬ resident ∨ ¬ idle → exec (.groupEnd id) s = .next s) ∧
     (¬ dying → g.ended = false → finished → resident → idle → ∃ u : State, exec (.groupEnd id) s = .next u ∧
       (∀ x ∈ (u.core g.core).comb, ∀ b ∈ x.bytes, b.grp = id → 32 ≤ b.thread) ∧ (id ∉ (s.core g.core).ownq → (u.core g.core).owner ≠ some id) ∧
       let last := ∀ x ∈ s.dev.groups, x.team = g.team → x.ended = true ∨ x.id = id
       (¬ last → (u.group? id).map Group.ended = some true ∧ (u.team? tm.id).map Team.st = some tm.st) ∧
       (last → ¬ bin ∨ ¬ acked → (u.group? id).map Group.ended = some true ∧
         (u.team? tm.id).map (fun x => (x.st, x.handles, x.banks)) = some (.retired, [], []) ∧
         ∀ x, u.team? tm.id = some x → ∀ o ∈ x.ot, o = .free) ∧
       (last → bin → acked → u.team? tm.id = none ∧ ((∀ x ∈ s.dev.groups, x.id = id → x = g) → u.group? id = none)))) ∧
   ∀ (s : State) (n : Nat) (gr : Grid), s.grid? n = some gr →
     let busy := ∃ g ∈ s.dev.groups, g.grid = n ∧ (g.remote ≠ 0 ∨ g.sq ≠ [])
     (gr.st ≠ .draining ∨ busy ∨ s.ctxState gr.ctx = .dying → exec (.gridRetire n) s = .next s) ∧
     (gr.st = .draining → ¬ busy → s.ctxState gr.ctx ≠ .dying → exec (.gridRetire n) s = .next ((s.updGrid n fun g => { g with st := .retired }).onDev fun d =>
       { d with teams := d.teams.filter fun t => t.grid != n, clusters := d.clusters.filter fun c => c.grid != n,
                groups := d.groups.filter fun g => g.grid != n })))

/-- R36, R45, R46, R140 to R144, R157, R160: a free reed begins a clause of the group R141 chooses: the longest-waiting of
those that have waited for the limit, else the highest issue priority, then the least recently issued, then the lowest
resident index. Its issue PC is the longest-waiting aged thread's, else the lowest; the stream is every runnable thread
there that is in the same copy of the overlay with the same start, which is the model's choice (log 25); the group's hold
and park end, and what the group has waited is counted from here; a clause not in a buffer begins 4 clk later. CLAUSE_ISSUE
does it, and AGE_EXPIRY where the group or a thread of it has aged. -/
def Obligations.ClauseIssue : Prop :=
  ∀ (s : State) (core reed : Nat),
    let clk := s.dev.clk
    let lim := max 64 (s.core core).age
    let old := fun (x : Group) => x.eligibleAt + lim ≤ clk
    let cand := fun (x : Group) => x ∈ s.dev.groups ∧ x.core = core ∧ x.reed = reed ∧ s.eligible x = true
    ((s.streamAt core reed).isSome = true ∨ (∀ x, ¬ cand x) → exec (.clauseIssue core reed) s = .next s ∧ exec (.ageExpiry core reed) s = .next s) ∧
    ∀ g, s.chooseGroup core reed = some g →
      (cand g ∧ ((old g ∧ ∀ x, cand x → old x → g.eligibleAt < x.eligibleAt ∨ (g.eligibleAt = x.eligibleAt ∧ g.rslot ≤ x.rslot)) ∨
        ((∀ x, cand x → ¬ old x) ∧ ∀ x, cand x → x.issuePrio clk < g.issuePrio clk ∨ (x.issuePrio clk = g.issuePrio clk ∧
          (g.lastIssue < x.lastIssue ∨ (g.lastIssue = x.lastIssue ∧ g.rslot ≤ x.rslot)))))) ∧
      ∀ t th, g.lead clk lim = some (t, th) →
        let runs := fun (n : Nat) (x : Thread) => g.threads[n]? = some x ∧ x.ended = false ∧ x.wait = none ∧ x.park = none ∧ x.trapPending = false
        let late := fun (x : Thread) => x.lastStreamed + lim ≤ clk
        (runs t th ∧ ((late th ∧ ∀ n x, runs n x → late x → th.lastStreamed < x.lastStreamed ∨ (th.lastStreamed = x.lastStreamed ∧ t ≤ n)) ∨
          ((∀ n x, runs n x → ¬ late x) ∧ ∀ n x, runs n x → th.key < x.key ∨ (th.key = x.key ∧ t ≤ n)))) ∧
        ∀ gr k hdr w, s.streamAt core reed = none → s.grid? g.grid = some gr → (∀ x ∈ g.threads, x.bad = none) → th.copy ≠ 0 →
          (s.core core).copy? th.copy = some k → s.clauseAt core th = some (k, hdr, w) → clauseDefect k th.start hdr w g.role gr.lr.regs gr.lr.fs = none →
          ∃ (u : State) (st : Stream), exec (.clauseIssue core reed) s = .next u ∧
            (old g ∨ (∃ n x, runs n x ∧ late x) → exec (.ageExpiry core reed) s = .next u) ∧ (¬ old g → (∀ n x, runs n x → ¬ late x) → exec (.ageExpiry core reed) s = .next s) ∧
            u.dev.streams = s.dev.streams ++ [st] ∧ u.dev.clk = clk ∧ u.mem = s.mem ∧
            st.core = core ∧ st.reed = reed ∧ st.grp = g.id ∧ st.copy = k.id ∧ st.hdr = hdr ∧ st.last = hdr + 4#32 * (BitVec.extractLsb' 0 4 w).zeroExtend 32 ∧
            st.next = (if th.vpc = hdr then hdr + 4#32 else unitStart k th.start 2 th.vpc) ∧ st.outcome = none ∧
            st.free = clk + (if s.buffered core reed (s.bufTag g th k hdr) = true then 0 else 4) ∧
            (∀ n < 32, st.mask.getLsbD n = true ↔ ∃ x, runs n x ∧ x.key = th.key ∧ x.copy = th.copy ∧ x.start = th.start) ∧
            (u.group? g.id).map (fun x => (x.hold, x.park, x.lastIssue, x.eligibleAt)) = some (none, GroupPark.none, clk, clk)

/-- R155, R270, R273, R274, R287, R288, R290 to R292: the oldest entry of a store queue takes its place in the order once
every access issued before it has: its bytes, or an atomic's new value (R308), are stored at a timestamp at or above the
group's and above every lease of their lines, and the group's timestamp is raised to it; a tick raises every resident
group's timestamp by the lease; a refill puts the leaf at the head of the L1 TLB, and a walk that finds none is left for the
accesses that wait; a pause ends when its clk has come. That a store's leaving counts one entry off what a full queue waits
for is the model's choice (log 15), and so are the place at the head of a TLB and that none takes what a running
invalidation names (log 4). -/
def Obligations.OrderEvents : Prop :=
  (∀ (s : State) (gid : Nat) (g : Group), s.group? gid = some g →
    (g.sq = [] → exec (.storeTimestamp gid) s = .next s) ∧
    ∀ e rest, g.sq = e :: rest →
      let waits := s.savedTeam g.team = true ∨ ∃ r ∈ s.dev.results, r.grp = gid ∧ r.id < e.id ∧ r.kind.isMem = true ∧ r.ready = false
      (waits → exec (.storeTimestamp gid) s = .next s) ∧
      (¬ waits → ∃ u : State, exec (.storeTimestamp gid) s = .next u ∧ (u.group? gid).map (fun x => (x.sq, x.left)) = some (rest, g.left - 1) ∧
        ((∀ r ∈ s.dev.results, r.grp = gid → r.kind.isMem = false) →
          let raised := fun (t : Nat) => ∃ x, u.group? gid = some x ∧ max g.pts t ≤ x.pts ∧ ((∀ th ∈ g.threads, th.wait = none) → x.pts = max g.pts t)
          (∀ pa data, e.loc = .mem pa → e.op = .bytes data → data.length ≤ 128 → pa / 128 = (pa + data.length - 1) / 128 → data ≠ [] →
            let t := max g.pts ((s.lineTs (pa / 128)).2 + 1)
            raised t ∧ u.lineTs (pa / 128) = (t, t) ∧ (∀ l, l ≠ pa / 128 → u.lineTs l = s.lineTs l) ∧
            ∀ a, mget u.mem a = if pa ≤ a ∧ a < pa + data.length then data.getD (a - pa) 0#8 else mget s.mem a) ∧
          (∀ pa op (x c : BitVec 64) (new : List Word), e.loc = .mem pa → e.op = .atom op x c →
            let o : Word := mget s.mem (pa + 3) ++ mget s.mem (pa + 2) ++ mget s.mem (pa + 1) ++ mget s.mem pa
            let o2 : BitVec 64 := (mget s.mem (pa + 7) ++ mget s.mem (pa + 6) ++ mget s.mem (pa + 5) ++ mget s.mem (pa + 4) : Word) ++ o
            let y : Word := x.setWidth 32
            let pair := fun (z : BitVec 64) => [z.extractLsb' 0 32, z.extractLsb' 32 32]
            (op, new) ∈ [(AtomOp.addS32, [o + y]), (.addF32, [roundF32 0#2 (exAdd 0#2 (fp32.decode o.toNat) (fp32.decode y.toNat)).1]),
              (.minS32, [BitVec.ofInt 32 (min o.toInt y.toInt)]), (.minN32, [BitVec.ofNat 32 (min o.toNat y.toNat)]),
              (.maxS32, [BitVec.ofInt 32 (max o.toInt y.toInt)]), (.maxN32, [BitVec.ofNat 32 (max o.toNat y.toNat)]),
              (.and32, [o &&& y]), (.or32, [o ||| y]), (.xor32, [o ^^^ y]), (.exch32, [y]), (.cas32, [if o = c.setWidth 32 then y else o]),
              (.addS64, pair (o2 + x)), (.exch64, pair x), (.cas64, pair (if o2 = c then x else o2))] →
            (∃ t, raised t) ∧ ∀ a, mget u.mem a = if pa ≤ a ∧ a < pa + 4 * new.length then (bytesOf new).getD (a - pa) 0#8 else mget s.mem a) ∧
          (∀ tm h off data, e.loc = .tile tm h off → e.op = .bytes data → (∃ t, raised t) ∧ u.mem = s.mem ∧
            ∀ (x : Handle), s.handleOf tm h = some x → off + data.length ≤ x.size → ∃ y, u.handleOf tm h = some y ∧
              ∀ a, mget y.data a = if off ≤ a ∧ a < off + data.length then data.getD (a - off) 0#8 else mget x.data a)))) ∧
  (∀ (s : State),
    (s.dev.clk < s.dev.nextTick → exec .ptsTick s = .next s) ∧
    (s.dev.nextTick ≤ s.dev.clk → ∃ u : State, exec .ptsTick s = .next u ∧ u.dev.nextTick = s.dev.nextTick + max 16 s.dev.mmu.tick ∧ u.mem = s.mem ∧
      u.dev.groups = s.dev.groups.map fun g => if g.ended = false ∧ s.residentTeam g.team = true then { g with pts := g.pts + max 1 s.dev.mmu.lease } else g)) ∧
  (∀ (s : State) (core ctx page : Nat),
    let asked := (core, ctx, page) ∈ s.dev.refills
    (¬ asked → exec (.tlbRefill core ctx page) s = .next s) ∧
    (asked → ∃ u : State, exec (.tlbRefill core ctx page) s = .next u ∧ (s.dev.mmu.run = none → (core, ctx, page) ∉ u.dev.refills) ∧
      (∀ r, s.dev.mmu.run = some r → ∀ e ∈ (u.core core).tlb, e ∈ (s.core core).tlb ∨ r.names e = false) ∧
      (∀ e, s.dev.l2tlb.find? (fun x => x.1 == s.homeTlb (page * 4096) (s.asnOf ctx) && x.2.covers (s.asnOf ctx) (page * 4096)) = some e →
        s.dev.mmu.run = none → ((u.core core).tlb).head? = some e.2 ∧ u.dev.l2tlb = s.dev.l2tlb ∧ u.mem = s.mem) ∧
      (∀ e, s.dev.l2tlb.find? (fun x => x.1 == s.homeTlb (page * 4096) (s.asnOf ctx) && x.2.covers (s.asnOf ctx) (page * 4096)) = none →
        s.walk ctx (page * 4096) = .leaf e → s.dev.mmu.run = none → ((u.core core).tlb).head? = some e ∧ u.dev.l2tlb.head? = some (s.homeTlb (page * 4096) (s.asnOf ctx), e)) ∧
      (s.dev.l2tlb.find? (fun x => x.1 == s.homeTlb (page * 4096) (s.asnOf ctx) && x.2.covers (s.asnOf ctx) (page * 4096)) = none →
        (∀ e, s.walk ctx (page * 4096) ≠ .leaf e) → (ctx, page) ∈ (u.core core).walks ∧ (u.core core).tlb = (s.core core).tlb))) ∧
  ∀ (s : State) (gid : Nat) (g : Group), s.group? gid = some g →
    (g.pauseEnd = 0 ∨ s.dev.clk < g.pauseEnd → exec (.pauseEnd gid) s = .next s) ∧
    (g.pauseEnd ≠ 0 → g.pauseEnd ≤ s.dev.clk → exec (.pauseEnd gid) s = .next (s.updGroup gid fun g => { g with pauseEnd := 0 }))

/-- R7 to R9, R416, R433: a register write that reaches a ready block sets the fields that its map calls RW and no others; a
read of the address then returns them, its reserved bits 0; a block that is read-only, or not ready, and an offset that no
map lists ignore it. R273: an invalidation command is ignored while one runs; otherwise every entry of the named pages
leaves every TLB and BUSY is 1 until every access that a named entry served has taken its place. -/
def Obligations.RegisterSpace : Prop :=
  (∀ (s : State) (w : Word),
     (∀ a m, (a, m) ∈ [(0x00010000, 0xFFF00000#32), (0x00010004, 0x000FFFFF#32), (0x0001000C, 0x000FFFFF#32), (0x00020004, 0x000FFFFF#32),
         (0x00030000, 0x0000FFFF#32), (0x00030004, 0x0000FFFF#32), (0x00040000, 0x0000FFFF#32), (0x00040004, 0xFFFFF000#32),
         (0x00040008, 0x01FFFFFF#32), (0x0004000C, 0xFFFFFFFF#32), (0x00050020, 0x00FFFFFF#32), (0x00050024, 0x000000FF#32),
         (0x00050028, 0xFFFFFFFF#32)] → s.answers a = true → ∃ u : State, exec (.registerWrite a w) s = .next u ∧ (u.regRead a).2 = w &&& m) ∧
     (∀ z < 12, s.answers (0x00100000 + 0x1000 * z) = true → ∃ u : State, exec (.registerWrite (0x00100000 + 0x1000 * z) w) s = .next u ∧
       (u.regRead (0x00100000 + 0x1000 * z)).2 = w &&& 0xFF#32 ∧ u.mem = s.mem ∧ u.dev.groups = s.dev.groups) ∧
     (∀ c < 192, ∀ o m, (o, m) ∈ [(0x0040, 0x0000FFFF#32), (0x1000, 0xFFFFFFFF#32), (0x2008, 0x0000FFFF#32), (0x3000, 0xFFFFFFFF#32)] →
       let a := 0x01000000 + 0x10000 * c + o
       s.answers a = true → ∃ u : State, exec (.registerWrite a w) s = .next u ∧ (u.regRead a).2 = w &&& m ∧ u.mem = s.mem ∧ u.dev.groups = s.dev.groups) ∧
     (∀ c < 192, ∀ n < 8, s.answers (0x01001010 + 0x10000 * c + 16 * n) = true → ∀ o m, (o, m) ∈ [(0x0, 0xFFFFFFFC#32), (0x4, 0xFFFFFFFF#32), (0x8, 0x0000FFF3#32)] →
       let a := 0x01001010 + 0x10000 * c + 16 * n + o
       ∃ u : State, exec (.registerWrite a w) s = .next u ∧ (u.regRead a).2 = w &&& m) ∧
     (∀ a, s.answers a = false ∨ a < 0x00010000 ∨ (0x00070000 ≤ a ∧ a < 0x00080000) ∨ (0x00090000 ≤ a ∧ a < 0x00100000) ∨
         (0x0010C000 ≤ a ∧ a < 0x01000000) ∨ 0x01C00000 ≤ a → exec (.registerWrite a w) s = .next s) ∧
     ∀ a, s.answers a = false ∨ (0x48 ≤ a ∧ a < 0x00010000) ∨ (0x00090000 ≤ a ∧ a < 0x00100000) ∨ 0x01C00000 ≤ a → s.regRead a = (s, 0#32)) ∧
  (∀ (s : State),
     let m := s.dev.mmu
     let none_ := fun (u : State) (named : TlbEntry → Prop) => (∀ e ∈ u.dev.l2tlb, ¬ named e.2) ∧ ∀ c ∈ u.dev.cores, (∀ e ∈ c.2.tlb, ¬ named e) ∧ ∀ e ∈ c.2.walkTlb, ¬ named e
     let kept := fun (u : State) (named : TlbEntry → Prop) => (∀ e ∈ s.dev.l2tlb, ¬ named e.2 → e ∈ u.dev.l2tlb) ∧ u.mem = s.mem ∧ u.dev.groups = s.dev.groups
     let va := m.valo * 4096 + m.vahi * 2 ^ 32
     let range := fun (e : TlbEntry) => e.asn = m.asn ∧ (m.count = 0#32 ∨ (e.page.1 < va + 4096 * m.count.toNat ∧ va < e.page.1 + e.page.2))
     let busy := fun (u : State) => (u.regRead 0x00040014).2 = 1#32
     (∀ r, m.run = some r → exec .invalidateAsnRange s = .next s ∧ exec .invalidateAll s = .next s) ∧
     (m.run = none → ∃ u : State, exec .invalidateAsnRange s = .next u ∧ none_ u range ∧ kept u range ∧ (s.answers 0x00040014 = true → busy u)) ∧
     (m.run = none → ∃ u : State, exec .invalidateAll s = .next u ∧ none_ u (fun _ => True) ∧ kept u (fun _ => True) ∧ (s.answers 0x00040014 = true → busy u)) ∧
     (m.run = none → exec .invalidationComplete s = .next s) ∧
     ∀ r, m.run = some r →
       (s.mmuSettled r = false → exec .invalidationComplete s = .next s) ∧
       (s.mmuSettled r = true → ∃ u : State, exec .invalidationComplete s = .next u ∧ u.mem = s.mem ∧ u.dev.groups = s.dev.groups ∧
         u.dev.l2tlb = s.dev.l2tlb ∧ u.dev.cores = s.dev.cores ∧ u.dev.mmu.run = none ∧ (u.regRead 0x00040014).2 = 0#32))

/-- R137 to R140, R157, R169, R273, R288, R290, R366, R371, R376, R379 to R382: the push, the pops and queries of bins, and
the events of bins, teams and groups, each where nothing holds it back: it completes, with the effect that it names. -/
def Obligations.BinAndTeamFormsComplete : Prop :=
  (∀ (s : State) (st : Stream) (g : Group) (k : Nat) (th : Thread) (gr : Grid) (d a : VReg) (o b : Opnd) (sb : BitVec 3) (x : Bin),
    s.IssuesOne st g k th → g.sb.getD sb.toNat 0 < 255 → th.helper = false → s.grid? g.grid = some gr →
    let B := rd g th b
    let sends := fun (i : Instr) (t : State) (core : Nat) (n : Option Nat) (key : Word) (res : Option Nat) (ends : State → State) =>
      exec i s = .next (ends (t.onDev fun y => { y with nextId := y.nextId + 1, pushes := y.pushes ++
        [Push.mk y.nextId g.core core n key (mgets th.v a.toNat 8) st.grp k g.ctx res g.pts y.clk] }))
    let token := (s.addResult st.grp k (some sb.toNat) st.unit .token false).2
    let goes := x.st ≠ .closing ∧ x.st ≠ .faulted ∧ s.onWay g.core x.n < x.room
    let named := ((s.ctxBins g.core g.ctx).find? fun x => x.key == B) = some x
    ((s.ctxBins g.core g.ctx).find? (fun x => x.kind != .continuation && x.key == B) = some x → goes →
      sends (.bpush a b sb) token g.core (some x.n) B (some s.dev.nextId) fun t => t.advance st [k]) ∧
    ((s.ctxBins g.core g.ctx).find? (fun x => x.kind == .node && x.key == (B.extractLsb' 0 24).setWidth 32) = none →
      sends (.wgpush a b sb) token (B.toNat / 2 ^ 24) none ((B.extractLsb' 0 24).setWidth 32) (some s.dev.nextId) fun t => t.advance st [k]) ∧
    (named → x.kind = .continuation → B.toNat % 4 = 0 → B ≠ 0#32 → goes →
      sends (.cont a b) s g.core (some x.n) B none fun t => ((t.endThread st.grp k).advance st []).recheck st.grp) ∧
    (named → x.count ≠ 0 → exec (.bflush b) s = .next ((s.updBin g.core x.n fun y => { y with flush := true }).advance st [k])) ∧
    (named → exec (.bquery o b sb) s = .next (((s.addResult st.grp k (some sb.toNat) st.unit
      (.words o [BitVec.ofNat 32 (x.count + x.st.code * 2 ^ 21 + 2 ^ 24)] 0#6) false).2.resultReady s.dev.nextId 0).advance st [k])) ∧
    (named → x.q ≠ [] → (∀ r ∈ s.dev.results, ∀ a d, r.kind ≠ .pop g.core x.n a d) → exec (.bpop d o b sb) s =
      .next (((s.addResult st.grp k (some sb.toNat) st.unit (.pop g.core x.n o (.v d)) false).2.takePop g.core x.n s.dev.nextId).advance st [k]))) ∧
  (∀ (s : State) (core n : Nat),
    let b := s.bin core n
    let unit := 2 ^ 60 + 64 * core + n
    (∀ p : Push, (s.dev.pushes.find? fun x => x.id == p.id && x.core == core) = some p → p.bin = some n → (∀ x ∈ s.dev.pushes, p.id ≤ x.id) →
      s.storesBefore p = false → s.accepted core = false → s.quadOn core = none → b.st = .holding → b.ringRecs = [] → b.q.length < 32 →
      let pts := max p.pts (((s.group? p.grp).map fun g => g.pts).getD 0)
      exec (.recordAccept core p.id) s = .next (((s.updBin core n fun b => { b with
        q := b.q ++ [⟨p.words, s.dev.clk, none, pts⟩], st := if b.st = .idle then .holding else b.st }).rebind core n p).endPush p none 0)) ∧
    (∀ r rest s1 e d p, b.ringRecs = r :: rest → b.q.length < 32 → b.st ≠ .faulted → b.st ≠ .off → b.decided ≠ some s.dev.clk →
      s.engReadAt (some core) b.ctx unit (b.ring + 32 * (b.head % b.ringSize)) 32 .unitRead r.pts = (s1, .ok e, d, p) →
      exec (.ringRefill core n) s =
        .next (((s1.updBin core n fun b => { b with q := b.q ++ [{ r with words := wordsOf d }], ringRecs := rest, head := b.head + 1 }).endEng
          unit).unpark (fun _ => true) (.bin core n) id)) ∧
    (∀ r, r = { launchOf (s.bytesAt b.lrec 256) with gx := 1, gy := 1, gz := 1 } → b.st = .off → b.en = true → b.lr = none → s.inMem b.lrec 256 = true →
      b.kind ≠ .off → b.rlog2 = 0 → s.gen b.ctx = b.gen → s.ctxState b.ctx = .active → (∀ x ∈ (s.core core).bins, x.n ≠ n → x.st = .off) →
      r.inRange = true → r.tdcount = 0 → s.binRecordOk b r = true → exec (.binEnable core n) s = .next ((s.updBin core n fun b =>
        { b with lr := some r, st := .idle, q := [], ringRecs := [], head := 0, tail := 0, flush := false }).endEng unit)) ∧
    (b.st = .idle → b.count = 0 → s.onWay core n = 0 → (∀ r ∈ s.dev.results, r.waitsPop core n = false) → exec (.binDisable core n) s = .next (((s.updBin core n fun b =>
      { b with en := false }).updBin core n fun b => { b with st := .closing }).updBin core n Bin.off)) ∧
    (b.st = .holding → b.timedOut s.dev.clk = true → s.binDue core b = true → exec (.btimeout core n) s =
      .next (s.updBin core n fun b => { b with st := if b.st = .holding then .launching else b.st })) ∧
    ∀ r seats, s.binDue core b = true → b.lr = some r → s.binSeats core b r = some seats → exec (.binLaunch core n) s = .next (s.binLaunch core b r seats)) ∧
  (∀ (s : State) (gid : Nat) (g : Group), s.group? gid = some g →
    (g.pauseEnd ≠ 0 → g.pauseEnd ≤ s.dev.clk → exec (.pauseEnd gid) s = .next (s.updGroup gid fun g => { g with pauseEnd := 0 })) ∧
    (∀ e rest, g.sq = e :: rest → s.savedTeam g.team = false → s.dev.results = [] → ∃ u : State, exec (.storeTimestamp gid) s = .next u ∧
      (u.group? gid).map (fun x => x.sq) = some rest) ∧
    ∀ tm, s.team? g.team = some tm → tm.st = .resident → s.ctxState g.ctx = .active → g.ended = false → (∀ t ∈ g.threads, t.ended = true) → (∀ n ∈ g.sb, n = 0) → g.sq = [] →
      s.dev.streams = [] → (∃ x ∈ s.dev.groups, x.team = g.team ∧ x.ended = false ∧ x.id ≠ gid) → ∃ u : State, exec (.groupEnd gid) s = .next u ∧
        (u.group? gid).map (fun x => x.ended) = some true) ∧
  (∀ (s : State) (n : Nat) (gr : Grid), s.grid? n = some gr → gr.st = .draining → (∀ g ∈ s.dev.groups, g.grid = n → g.remote = 0 ∧ g.sq = []) →
    s.ctxState gr.ctx = .active → exec (.gridRetire n) s = .next ((s.updGrid n fun g => { g with st := .retired }).onDev fun d =>
      { d with teams := d.teams.filter fun t => t.grid != n, clusters := d.clusters.filter fun c => c.grid != n,
               groups := d.groups.filter fun g => g.grid != n })) ∧
  (∀ (s : State) (owner n : Nat) (gr : Grid), s.grid? owner = some gr → (gr.gb.getD n ⟨none, false, 0⟩).releasing = true → ∃ u : State,
    exec (.barrierRelease true owner n) s = .next u ∧ (u.grid? owner).map (fun x => x.gb) = some (gr.gb.set n ⟨none, false, 0⟩)) ∧
  (∀ (s : State), s.dev.nextTick ≤ s.dev.clk → ∃ u : State, exec .ptsTick s = .next u ∧ u.dev.nextTick = s.dev.nextTick + max 16 s.dev.mmu.tick) ∧
  (∀ (s : State) (core ctx page : Nat), (core, ctx, page) ∈ s.dev.refills → s.dev.mmu.run = none → ∃ u : State, exec (.tlbRefill core ctx page) s = .next u ∧
    (core, ctx, page) ∉ u.dev.refills) ∧
  (∀ (s s1 : State) (team pa : Nat) (t : Team) (gr : Grid) (e e2 : TlbEntry), s.team? team = some t → s.grid? t.grid = some gr → t.window = none → t.st = .resident →
    gr.args % 4096 + 1024 ≤ 4096 → s.engRange (some t.core) t.ctx team gr.args 1024 .load = (s1, .ok e, [(pa, 1024, e2)]) → e2.typ = 0 →
    ∃ u : State, exec (.argumentWindowLoad team) s = .next u ∧ ∃ x W, u.team? team = some x ∧ x.window = some W ∧ W.length = 256) ∧
  (∀ (s : State) (team : Nat) (t : Team), s.team? team = some t → t.st = .saving → s.issuing team = false → (s.flushTeam t).saveDone t = true →
    ∃ u : State, exec (.teamSaveComplete team) s = .next u ∧ (u.team? team).map (fun x => x.st) = some .saved) ∧
  (∀ (s : State) (c : Cluster) (gr : Grid) (tm : Team) (sp : Spot) (core : Nat) (seats : List (Nat × Nat)), s.cluster? c.id = some c →
    s.grid? c.grid = some gr → gr.lr.coop = false → s.mayRun gr = true → c.st = .saved →
    (s.dev.teams.filter fun t => t.cluster == c.id && t.st == .saved) = [tm] → s.quotaOk gr.ctx 1 0 = true → s.resumeSpot gr c.id = some sp →
    sp.cores[s.rankOf tm]? = some (core, seats) → tm.keys = [] → tm.reown = none → (∀ x ∈ s.dev.teams, x.id = tm.id → x = tm) → tm.grid = c.grid →
    ∃ u : State, exec (.teamResume c.id) s = .next u ∧ (u.team? tm.id).map (fun x => (x.st, x.core)) = some (.resident, core)) ∧
  ∀ (s : State) (core n : Nat) (f : Fwd) (r : Pending) (ext : LoadExt) p tag d a, (s.dev.fwds.find? fun f => f.id == n && f.core == core) = some f →
    f.res = [r.id] → (∀ x ∈ s.dev.fwds, x.id = n → x = f) → s.pending? r.id = some r → r.ready = true → r.fault = none →
    r.kind = .remote p tag ext d a → (∀ k ∈ (s.core core).cmds, k.team ≠ f.team) → exec (.forwardedArrival core n) s =
      .next (((((s.updGroup r.grp fun g => wrN g r.thread (.v (BitVec.ofNat 6 d)) (ext.words r.val)).dropResult r).endEng r.id).onDev
        fun x => { x with fwds := x.fwds.filter fun f => f.id != n }))

/-- R47 to R51, R55: decoding and encoding agree on every word: a word decodes to an instruction exactly where it is that
instruction's encoding and the instruction is well-formed. A prefix and a header give back the fields that they were made
of. -/
def Obligations.EncodingRoundTrip : Prop :=
  (∀ (w : Word) (i : Instr), decodeWord w = .ok i ↔ encode i = some w ∧ wellFormed i = true) ∧
  (∀ m : Mod, modOfWord (wordOfMod m) = some m) ∧ (∀ x : BitVec 24, immOfWord (wordOfImm x) = some x) ∧
  ∀ h : Header, headerOfWord (wordOfHeader h) = h ∧ isHeaderWord (wordOfHeader h) = true

/-- R35, R47, R51, R55: a word of class 31 is a header, one of class 28 or 29 a prefix; a word of a reserved class, and a
word of class 0 with an unassigned sub-opcode, is no instruction. R34, R43, R44, R51, R52: the check of a clause. A header
whose fields or extent are not allowed is an illegal clause, at the header. Then the first defective word counts: a header
is an illegal clause; what is no instruction is an illegal instruction, and so is a prefix of either kind with a nonzero
zero field; a class that the ECLASS does not permit, or a transfer that another instruction follows, is an illegal clause; a
register beyond the allocation is a range fault; a prefix at the end, one that its instruction does not accept or whose bits
are out of its range, or the second of its kind before one instruction, is prefix misuse. -/
def Obligations.DecodeChecks : Prop :=
  (∀ (w : Word),
     let cls := w.toNat / 2 ^ 27
     (decodeWord w = .error .header ↔ cls = 31) ∧ (decodeWord w = .error .isPrefix ↔ cls = 28 ∨ cls = 29) ∧
     (cls = 19 ∨ cls = 27 ∨ cls = 30 → decodeWord w = .error .unassigned) ∧
     (cls = 0 → 9 ≤ w.toNat / 2 ^ 23 % 2 ^ 4 → decodeWord w = .error .unassigned) ∧
     (cls = 0 → w.toNat / 2 ^ 23 % 2 ^ 4 = 0 → w ≠ 0#32 → decodeWord w = .error .illegalField) ∧
     (∀ m, modOfWord w = some m ↔ w = wordOfMod m) ∧ ∀ x, immOfWord w = some x ↔ w = wordOfImm x) ∧
  (∀ (k : Copy) (start : Nat) (a w : Word) (role : Role) (regs : Nat) (fs : List FmtSlot),
     let eclass := w.toNat / 2 ^ 4 % 2 ^ 3
     let count := w.toNat % 2 ^ 4
     let permitted := match role with
       | .vector => eclass = 0 ∨ eclass = 1 ∨ eclass = 4
       | .matrix => eclass = 0 ∨ eclass = 2
       | .copy => eclass = 0 ∨ eclass = 3
     let header := w.toNat / 2 ^ 17 % 2 ^ 10 = 0 ∧ eclass ≤ 4 ∧ count ≠ 0 ∧ permitted ∧ a.toNat + 4 * count < start + k.slots * 4096
     let defect := clauseDefect k start a w role regs fs
     (¬ header → defect = some (0x02#8, a)) ∧
     ∀ pre x rest, header → k.words? start (a.toNat + 4) count = pre ++ x :: rest →
       (∀ p r, pre ++ x :: rest = p ++ r → p.length < pre.length → ∀ y q, r = y :: q → isPrefix y = false ∧ wordDefect eclass regs fs y (none, none) (unitWord q).isNone = none) →
       let at_ := fun (c : BitVec 8) => defect = some (c, a + 4#32 + 4#32 * BitVec.ofNat 32 pre.length)
       let cls := x.toNat / 2 ^ 27
       (cls = 31 → at_ 0x02#8) ∧
       (∀ e, decodeWord x = .error e → cls ≠ 28 → cls ≠ 29 → cls ≠ 31 → at_ 0x01#8) ∧
       (∀ i, decodeWord x = .ok i →
         ((accepts x).need = true ∨ operandsOk fs none i = false → at_ 0x01#8) ∧
         ((accepts x).need = false → operandsOk fs none i = true →
           (permits eclass cls = false ∨ (isTransfer i = true ∧ ∃ y ∈ rest, isPrefix y = false) → at_ 0x02#8) ∧
           (permits eclass cls = true → (isTransfer i = true → ∀ y ∈ rest, isPrefix y = true) → topReg i > regs → (unitTop none i = topReg i) → at_ 0x05#8))) ∧
       (cls = 28 → x.toNat / 2 ^ 24 % 2 ^ 3 ≠ 0 → at_ 0x01#8) ∧
       (cls = 28 → x.toNat / 2 ^ 24 % 2 ^ 3 = 0 →
         (rest = [] → at_ 0x03#8) ∧
         ∀ ps y q i, rest = ps ++ y :: q → (∀ p ∈ ps, isPrefix p = true) → decodeWord y = .ok i →
           (accepts y).imm = false ∨ immRange y (x.setWidth 24) = false → at_ 0x03#8) ∧
       (cls = 29 → x.toNat / 2 ^ 19 % 2 ^ 8 ≠ 0 ∨ x.toNat % 2 ^ 8 ≠ 0 → at_ 0x01#8) ∧
       (∀ m, x = wordOfMod m →
         (rest = [] → at_ 0x03#8) ∧
         ∀ ps y q i, rest = ps ++ y :: q → (∀ p ∈ ps, isPrefix p = true) → decodeWord y = .ok i → (accepts y).modOk m = false → at_ 0x03#8) ∧
       ∀ mid y ps z q i, rest = mid ++ y :: (ps ++ z :: q) → (∀ p ∈ ps, isPrefix p = true) → decodeWord z = .ok i →
         let second := defect = some (0x03#8, a + 4#32 + 4#32 * BitVec.ofNat 32 (pre.length + 1 + mid.length))
         let immOk := fun (u : BitVec 24) => (accepts z).imm = true ∧ immRange z u = true
         (∀ u v, x = wordOfImm u → y = wordOfImm v → immOk u → mid = [] ∨ (∃ m, mid = [wordOfMod m] ∧ (accepts z).modOk m = true) → second) ∧
         ∀ m n, x = wordOfMod m → y = wordOfMod n → (accepts z).modOk m = true → mid = [] ∨ (∃ u, mid = [wordOfImm u] ∧ immOk u) → second)

/-- R50, R51, R155, R156, R182, R197, R217, R314, R344, R363: words that the manual spells out, or that its encodings give.
-/
def Obligations.SampleWords : Prop :=
  decodeWord 0x00000000#32 = .ok .nop ∧
  decodeWord 0x03800040#32 = .ok (.pause 64#19) ∧
  decodeWord 0x0087FFF0#32 = .ok (.bra (BitVec.ofInt 19 (-16))) ∧
  decodeWord 0x28201083#32 = .ok (.fmaF32 8#6 1#6 2#6 3#6) ∧
  decodeWord 0x3D029046#32 = .ok (.tmovToRegister (.v 5#6) 0#1 0#1 1#1 1#6 3#5) ∧
  decodeWord 0x68000000#32 = .ok .fence ∧
  decodeWord 0x6B000009#32 = .ok (.wait 0x09#8) ∧
  decodeWord 0x88000000#32 = .ok .macq ∧
  decodeWord 0x88800000#32 = .ok .mrel ∧
  decodeWord 0x48080020#32 = .ok (.mfs (.v 4#6) 0x020#10) ∧
  decodeWord 0x52108080#32 = .ok (.ldB32 1#3 4#6 (.v 2#6) 0#6) ∧
  decodeWord 0x40004205#32 = .ok (.icmpEq 1#3 (.v 4#6) (.v 5#6)) ∧
  decodeWord 0x03000000#32 = .ok .exit ∧
  decodeWord 0x93080052#32 = .ok (.accld 8#6 0#5 1#1 2#2 1#3) ∧
  decodeWord 0xF8000016#32 = .error .header ∧ decodeWord 0xE8008000#32 = .error .isPrefix ∧
  modOfWord 0xE8008000#32 = some { Mod.plain with pred := 1#3 } ∧ immOfWord 0xE0048D15#32 = some 0x048D15#24

/-- R38, R44, R51, R53, R61, R142, R144, R157, R458: where a stream's turn has come, a step executes the unit at its next
address: where no thread of it has a fault to take first, its prefixes become the stream's, its decoded instruction has its
effect, and then the unit ends: the stream's next unit comes one clk later for a uniform unit, else one for each executing
thread and 4 at least, and the clause of a stream with no thread left, or past its last word, is over. A step given, and an
event of the clk, is executed alone. A word put by withFetchWord is what the next step executes. The parts of a clk, their
lists of what comes, and where a placed word stands are the model's choices (log 6). -/
def Obligations.StepRunsUnit : Prop :=
  (∀ (s : State) (i : Instr) (r : List Instr), s.agenda = i :: r → s.dev.die.powered = false ∨ s.dev.phase = .given →
    step s = exec i { s with agenda := r }) ∧
  (∀ (s : State) (i : Instr) (r : List Instr), s.dev.die.powered = true → s.dev.phase = .events ∨ s.dev.phase = .units → s.dev.todo = i :: r →
    step s = exec i (s.onDev fun d => { d with todo := r })) ∧
  (∀ (s : State) (x st : Stream) (g : Group) (k : Copy) (t0 : Nat) (th0 : Thread) (imm : Option (BitVec 24)) (mod : Option Mod) (w a : Word) (i : Instr),
    s.dev.die.powered = true → s.dev.phase = .units → s.dev.todo = [] → s.nextStream = some x →
    let b := s.onDev fun d => { d with focus := (x.core, x.reed) }
    b.Issues st g → st.threads.head? = some t0 → g.thread? t0 = some th0 → (b.core st.core).copy? st.copy = some k →
    unitFrom k th0.start 3 st.next (none, none) = some ((imm, mod), w, a) → decodeWord w = .ok i →
    (∀ t ∈ st.threads, ∃ th, g.thread? t = some th ∧ th.async = [] ∧ th.meets t g.ctx st.bps st.next a = none) →
    let m := mod.getD Mod.plain
    let fetched := b.updStream st.core st.reed fun x =>
      { x with mask := maskOf st.threads, due := none, unit := x.next, next := a + 4#32, imm := imm, neg := m.neg, pred := m.pred, ce := m.ce,
               pol := m.pol, re := m.re, rm := m.rm, sat := m.sat }
    (∀ t, exec i fetched = .next t → step s = .next (fetched.endUnit t i)) ∧
    (∀ f, exec i fetched = .fault f → step s = .fault f) ∧ ∀ r, exec i fetched = .refused r → step s = .refused r) ∧
  (∀ (b t : State) (st0 st : Stream) (g0 g : Group) (i : Instr), b.Issues st0 g0 → t.Issues st g → st.core = st0.core → st.reed = st0.reed → st.grp = st0.grp →
    st0.due = none →
    let ran := st0.threads.filter fun k => (g0.thread? k).any (predOn st0) && (g.thread? k).isSome
    (∀ k ∈ ran, k ∈ st.threads ∨ ∀ x y, g0.thread? k = some x → g.thread? k = some y → x.halted y = false) →
    let u := b.endUnit t i
    u.dev.clk = t.dev.clk ∧ u.mem = t.mem ∧ ∃ x, u.stream? = some x ∧
      x.free = t.dev.clk + (if uniformUnit i then 1 else max ran.length 4) + st.extra ∧
      (st.threads = [] ∨ st.last.toNat < st.next.toNat → x.outcome.isSome = true) ∧
      (st.threads ≠ [] → st.next.toNat ≤ st.last.toNat → x.outcome = st.outcome)) ∧
  ∀ (s : State) (w : Word) (i : Instr), decodeWord w = .ok i → s.dev.die.powered = true →
    let s0 := s.withFetchWord 32 w.toNat
    ∃ s1, s0.fetchUnit = (s1, some i) ∧ ∀ t, exec i s1 = .next t → step s0 = .next (s1.endUnit t i)

/-- The parts of a clk, in their order, where no stream's unit is executed: the model's choice of what comes when (log 6).
Clauses that are over leave; reed by reed, trap entries go on and a clause is chosen; banks are granted, bins refill and
launch, and pops are served; core by core in ascending number, once the last unit has issued, the core's events are set
down, then those of no one core; when they have come, and the steps given, the Fife launches and places, or makes room; then
the clk ends. A part without power only waits. -/
def Obligations.StepWithoutStream : Prop :=
  ∀ (s : State),
    let idle := fun (l : List Instr) => ∀ i ∈ l, exec i s = .next s
    let first := fun (l : List Instr) => ∀ pre i rest t, l = pre ++ i :: rest → idle pre → exec i s = .next t → t ≠ s → step s = .next t
    let goes := fun (p : Phase) => step s = .next (s.onDev fun d => { d with phase := p })
    (s.nextClk.dev.clk = s.dev.clk + 1 ∧ s.nextClk.dev.phase = .issue) ∧
    (s.dev.die.powered = false → s.agenda = [] → step s = .next s.nextClk) ∧
    (s.dev.die.powered = true →
      (s.dev.phase = .issue →
        (∀ x, s.overStream = some x → step s = .next (s.finishClause x (x.outcome.getD false))) ∧
        (s.overStream = none →
          let kept := fun (r : Nat × Nat) => ∀ x ∈ s.trapEntries r.1 r.2, s.completeTrap x.1 x.2 = s
          let calm := fun (r : Nat × Nat) => kept r ∧ idle (s.issues r.1 r.2)
          (∀ pre r rest, s.reeds = pre ++ r :: rest → (∀ q ∈ pre, calm q) → (kept r → first (s.issues r.1 r.2)) ∧
            ∀ a x b, s.trapEntries r.1 r.2 = a ++ x :: b → (∀ y ∈ a, s.completeTrap y.1 y.2 = s) → s.completeTrap x.1 x.2 ≠ s →
              step s = .next (s.completeTrap x.1 x.2)) ∧
          ((∀ r ∈ s.reeds, calm r) → goes .bins))) ∧
      (s.dev.phase = .bins →
        let l := s.bankEvents ++ s.binEvents ++ s.placements.takeWhile isBinLaunch
        first l ∧ (idle l → step s = .next (s.delayBins.servePops.onDev fun d => { d with phase := .units }))) ∧
      (s.dev.phase = .units → s.dev.todo = [] → s.nextStream = none →
        (∀ c, s.turn? = some c → (c ∈ s.coreList ∧ s.dev.part ≤ c ∧ ∀ x ∈ s.coreList, s.dev.part ≤ x → c ≤ x) ∧ ∃ l n,
          step s = .next (s.onDev fun d => { d with freeCtr := n, todo := l, part := c + 1 }) ∧
          ∀ i ∈ coreEvents c (s.core c) ++ s.forwardedTo c ++ s.accepts c ++ s.drawn c ++ s.teamEvents c, i ∈ l) ∧
        (s.turn? = none → (∀ x ∈ s.coreList, x < s.dev.part) ∧
          step s = .next (s.onDev fun d => { d with phase := .events, part := 0, todo := s.clocked ++ s.sealed ++ s.orphans ++ s.managed }))) ∧
      (s.dev.phase = .events → s.dev.todo = [] → goes .given) ∧
      (s.dev.phase = .given → s.agenda = [] → goes .place) ∧
      (s.dev.phase = .place →
        let l := s.launches ++ s.placements.filter fun i => !isBinLaunch i
        first l ∧ (idle l → s.preempt ≠ s → step s = .next s.preempt) ∧
        (idle l → s.preempt = s → first s.booting ∧ (idle s.booting → step s = .next s.nextClk))))

/-- Device memory keeps its canonical form, addresses strictly rising and no entry 0, in every step of every kind. The
fuses, which give a part's stepping, cores, reeds, stacks, ports, keys and identity, change in no step (R31): a part keeps
its feature registers. -/
def Obligations.StepInvariants : Prop :=
  ((∀ (s t : State) (i : Instr), Memory.wf s.mem = true → exec i s = .next t → Memory.wf t.mem = true) ∧
   ∀ (s t : State), Memory.wf s.mem = true → step s = .next t → Memory.wf t.mem = true) ∧
  (∀ (s t : State), step s = .next t → t.fuse = s.fuse ∧ ∀ n, t.fuse.devWord n = s.fuse.devWord n)

/-- R31, R32, R143, R239, R260, R273, R289, R336, R343, R416, R428, R433, R459: the reset values that the register maps
give, read through the register space once the blocks are ready; memory is in canonical form. R31: the feature registers of
the DEV block, in the register space of a part whose fuses are in range. -/
def Obligations.ResetValues : Prop :=
  (let r := State.reset
   let on : State := { r with dev := { r.dev with die := { r.dev.die with zonesRdy := BitVec.allOnes 12, front := true, shengRdy := BitVec.allOnes 192 } } }
   let reads := fun (a : Nat) (w : Word) => (on.regRead a).2 = w
   Memory.wf r.mem = true ∧ r.dev.clk = 0 ∧ r.dev.ctxs = [] ∧ r.dev.grids = [] ∧ r.dev.streams = [] ∧
   reads 0x00030000 64#32 ∧ reads 0x00030004 256#32 ∧ reads 0x00040000 0#32 ∧ reads 0x00040014 0#32 ∧ reads 0x00050000 0#32 ∧
   reads 0x00050020 47150#32 ∧ reads 0x00050024 8#32 ∧ reads 0x00050028 20000#32 ∧ reads 0x00010010 0#32 ∧ reads 0x00010014 0#32 ∧
   (∀ n < 64, reads (0x00051010 + 32 * n) 0#32) ∧
   (∀ z < 12, reads (0x00100000 + 0x1000 * z) 16#32 ∧ reads (0x00100004 + 0x1000 * z) 0#32 ∧ reads (0x00100048 + 0x1000 * z) 0#32) ∧
   ∀ c < 192, let a := 0x01000000 + 0x10000 * c
     reads (a + 0x0040) 4096#32 ∧ reads (a + 0x1000) 0x00124F80#32 ∧ reads (a + 0x1004) 64#32 ∧ reads (a + 0x2000) 8192#32 ∧
     reads (a + 0x2004) 1024#32 ∧ reads (a + 0x2008) 4096#32 ∧ reads (a + 0x200C) 0#32 ∧ reads (a + 0x3000) 0x00124F80#32 ∧
     reads (a + 0x3004) 32#32 ∧ reads (a + 0x3008) 0#32 ∧ ∀ n < 64, reads (a + 0x4100 + 32 * n) 0x00002000#32 ∧ reads (a + 0x410C + 32 * n) 4096#32) ∧
  (∀ (s : State), s.answers 0x00000000 = true → s.fuse.step < 2 ^ 8 → s.fuse.reeds < 2 ^ 8 →
     let reads := fun (a : Nat) (x : Nat) => (s.regRead a).2.toNat = x
     reads 0x00 (0x1920 + 2 ^ 16 * s.fuse.step) ∧
     reads 0x04 (s.fuse.reeds + 2 ^ 8 * s.fuse.hbm.toNat + 2 ^ 16 * s.fuse.ports.toNat +
       2 ^ 24 * ((List.range 192).filter fun c => s.fuse.coremask.getLsbD c).length) ∧
     reads 0x08 (64 + 2 ^ 8 * 32 + 2 ^ 16 * 64) ∧ reads 0x0C 48 ∧
     ∀ w < 6, ∀ b < 32, (s.regRead (0x10 + 4 * w)).2.getLsbD b = s.fuse.coremask.getLsbD (32 * w + b) ∧
       (s.regRead (0x30 + 4 * w)).2.getLsbD b = s.fuse.l2mask.getLsbD (32 * w + b))

/-- What the instructions of the register classes leave alone: all of memory, everything outside the stream's group, and in
the group every register but the destination's, every predicate, flag, token, barrier and stack entry, and every register of
a thread that does not execute the unit (R53, R170 to R176, R218); a compare, a predicate operation and a vote leave every
register and flag, and every predicate but the destination. What the floating-point and conversion instructions leave alone,
where no thread of the group has a trap enabled: all but the destination and FPFLAGS of the threads that execute the unit
(R53, R190, R194). -/
def Obligations.RegisterFrame : Prop :=
  (∀ (s t : State) (st : Stream) (g : Group) (d a b : Opnd) (dg ag : GReg) (gs : GSrc) (imm : BitVec 10), s.Issues st g →
     (∀ i n, (i, n) ∈ [(Instr.add d a b, 1), (.sub d a b, 1), (.mul d a b, 1), (.mad d a b, 1), (.mulhS32 d a b, 1), (.mulhN32 d a b, 1), (.minS32 d a b, 1),
         (.minN32 d a b, 1), (.maxS32 d a b, 1), (.maxN32 d a b, 1), (.abs d a, 1), (.neg d a, 1), (.and d a b, 1), (.or d a b, 1), (.xor d a b, 1),
         (.not d a, 1), (.shl d a b, 1), (.shr d a b, 1), (.sha d a b, 1), (.rot d a b, 1), (.bfeS32 d a b, 1), (.bfeN32 d a b, 1), (.bfi d a b, 1),
         (.popc d a, 1), (.clz d a, 1), (.brev d a, 1), (.mov d a, 1), (.addImm d a imm, 1), (.mulImm d a imm, 1), (.andImm d a imm, 1),
         (.orImm d a imm, 1), (.xorImm d a imm, 1), (.shlImm d a imm, 1), (.shrImm d a imm, 1), (.add64 d a b, 2), (.sub64 d a b, 2),
         (.mul64 d a b, 2), (.sextS8 d a, 2), (.sextS16 d a, 2), (.sextS32 d a, 2), (.zextN8 d a, 2), (.zextN16 d a, 2), (.zextN32 d a, 2),
         (.packB8 d a b, 1), (.packB16 d a b, 1), (.pmovPv d, 1), (.clk d, 2)] → wellFormed i = true → exec i s = .next t →
       ∃ y, t.group? st.grp = some y ∧ s.Elsewhere t st ∧ g.KeepsBut y st (d.vRegs n) (d.gRegs n) (fun _ => False) False) ∧
     (∀ i, i ∈ [Instr.gmov dg gs, .gadd dg ag gs, .gsub dg ag gs, .gmul dg ag gs, .gand dg ag gs, .gor dg ag gs, .gxor dg ag gs, .gshl dg ag gs,
         .gshr dg ag gs, .gsel dg ag gs, .gcmpS32 dg ag gs, .gcmpN32 dg ag gs] → exec i s = .next t →
       ∃ y, t.group? st.grp = some y ∧ s.Elsewhere t st ∧ g.KeepsBut y st (fun _ => False) (fun r => r = dg.toNat) (fun _ => False) False) ∧
     ∀ pd pa pb i, i ∈ [Instr.icmpEq pd a b, .icmpNe pd a b, .icmpLtS32 pd a b, .icmpLeS32 pd a b, .icmpGtS32 pd a b, .icmpGeS32 pd a b, .icmpLtN32 pd a b,
         .icmpLeN32 pd a b, .icmpGtN32 pd a b, .icmpGeN32 pd a b, .fcmpEqF32 pd a b, .fcmpNeF32 pd a b, .fcmpLtF32 pd a b, .fcmpLeF32 pd a b,
         .fcmpGtF32 pd a b, .fcmpGeF32 pd a b, .fcmpUnF32 pd a b, .fcmpOrdF32 pd a b, .pand pd pa pb, .por pd pa pb, .pxor pd pa pb, .pnot pd pa,
         .voteAny pd pa, .voteAll pd pa] → exec i s = .next t →
       ∃ y, t.group? st.grp = some y ∧ s.Elsewhere t st ∧ g.KeepsBut y st (fun _ => False) (fun _ => False) (fun n => n = pd.toNat) False) ∧
  (∀ (s t : State) (st : Stream) (g : Group) (d a b : Opnd) (dv av bv cv : VReg), s.Issues st g → (∀ th ∈ g.threads, th.fptraps = 0#2) →
     (∀ i n, (i, n) ∈ [(Instr.faddF32 d a b, 1), (.faddF16x2 d a b, 1), (.faddBf16x2 d a b, 1), (.fsubF32 d a b, 1), (.fsubF16x2 d a b, 1),
         (.fsubBf16x2 d a b, 1), (.fmulF32 d a b, 1), (.fmulF16x2 d a b, 1), (.fmulBf16x2 d a b, 1), (.fminF32 d a b, 1), (.fminF16x2 d a b, 1),
         (.fminBf16x2 d a b, 1), (.fmaxF32 d a b, 1), (.fmaxF16x2 d a b, 1), (.fmaxBf16x2 d a b, 1), (.fabsF32 d a, 1), (.fabsF16x2 d a, 1),
         (.fabsBf16x2 d a, 1), (.fnegF32 d a, 1), (.fnegF16x2 d a, 1), (.fnegBf16x2 d a, 1), (.fdivF32 d a b, 1), (.fsqrtF32 d a, 1),
         (.frndF32 d a, 1), (.ffractF32 d a, 1), (.cvtF32S32 d a, 1), (.cvtF32N32 d a, 1), (.cvtS32F32 d a, 1), (.cvtN32F32 d a, 1),
         (.cvtF16F32 d a, 1), (.cvtBf16F32 d a, 1), (.cvtF16x2F32 d a b, 1), (.cvtBf16x2F32 d a b, 1), (.cvtF32S64 d a, 1), (.cvtS64F32 d a, 2)] →
       wellFormed i = true → exec i s = .next t →
       ∃ y, t.group? st.grp = some y ∧ s.Elsewhere t st ∧ g.KeepsBut y st (d.vRegs n) (d.gRegs n) (fun _ => False) True) ∧
     ∀ i, i ∈ [Instr.fmaF32 dv av bv cv, .fmsF32 dv av bv cv, .fnmaF32 dv av bv cv, .fclampF32 dv av bv cv, .fmaF16x2 dv av bv cv, .fmaBf16x2 dv av bv cv,
         .fmsF16x2 dv av bv cv, .fmsBf16x2 dv av bv cv] → exec i s = .next t →
       ∃ y, t.group? st.grp = some y ∧ s.Elsewhere t st ∧ g.KeepsBut y st (fun r => r = dv.toNat) (fun _ => False) (fun _ => False) True)

/-- What the issue of a load, a store and an atomic whose checks pass leaves alone: every byte of memory, which a store
reaches only with its place in the order, every register, predicate and flag of every thread, every other group, and of its
group all but the count of its token, or its store queue (R36, R290, R305 to R308). -/
def Obligations.AccessFrame : Prop :=
  ∀ (s t : State) (st : Stream) (g : Group) (k : Nat) (th : Thread) (d : VReg) (o base : Opnd) (data : VReg) (x : BitVec 6) (sb : BitVec 3) (e : TlbEntry),
    s.IssuesOne st g k th →
    let quiet := (∀ a, mget t.mem a = mget s.mem a) ∧ t.fuse = s.fuse ∧
      ∀ (i : Nat) (y : Group), s.dev.groups[i]? = some y → y.id ≠ st.grp → t.dev.groups[i]? = some y
    let threads := fun (y : Group) => y.g = g.g ∧ y.threads.length = g.threads.length ∧ ∀ (j : Nat) (u : Thread), g.threads[j]? = some u →
      ∃ v : Thread, y.threads[j]? = some v ∧ (v.v, v.p, v.fpflags, v.ended, v.wait, v.park, v.inTrap) = (u.v, u.p, u.fpflags, u.ended, u.wait, u.park, u.inTrap)
    (∀ i n, (i, n) ∈ [(Instr.ldS8 sb d base x, 1), (.ldN8 sb d base x, 1), (.ldS16 sb d base x, 2), (.ldN16 sb d base x, 2), (.ldB32 sb d base x, 4),
        (.ldB64 sb d base x, 8), (.ldB128 sb d base x, 16)] → s.Reaches g (addrM g th base x st.imm n) n [0, 1] true false e → exec i s = .next t →
      quiet ∧ ∃ y, t.group? st.grp = some y ∧ threads y ∧ y.sq = g.sq ∧ y.rb = g.rb ∧ y.rstack = g.rstack ∧ y.pts = g.pts ∧
        ∀ m < 8, m ≠ sb.toNat → y.sb.getD m 0 = g.sb.getD m 0) ∧
    (∀ i n, (i, n) ∈ [(Instr.stB8 o base x, 1), (.stB16 o base x, 2), (.stB32 o base x, 4), (.stB64 o base x, 8), (.stB128 o base x, 16)] →
      s.Reaches g (addrM g th base x st.imm n) n [0] false true e → exec i s = .next t →
      quiet ∧ t.dev.results = s.dev.results ∧ ∃ y, t.group? st.grp = some y ∧ threads y ∧ y.sb = g.sb ∧ y.rb = g.rb ∧ y.rstack = g.rstack ∧ y.pts = g.pts ∧
        (y.sq = g.sq ∨ ∃ q, y.sq = g.sq ++ [q] ∧ q.loc = .mem (e.pbase + ((addrM g th base x st.imm n).toNat - e.vbase)))) ∧
    ∀ i, i ∈ [Instr.atomAddS32 sb d data base, .atomAddF32 sb d data base, .atomMinS32 sb d data base, .atomMinN32 sb d data base, .atomMaxS32 sb d data base,
        .atomMaxN32 sb d data base, .atomAndB32 sb d data base, .atomOrB32 sb d data base, .atomXorB32 sb d data base, .atomExchB32 sb d data base,
        .atomCasB32 sb d data base] → s.Reaches g (addrN g th base st.imm) 4 [0] true true e → exec i s = .next t →
      quiet ∧ ∃ y, t.group? st.grp = some y ∧ threads y ∧ y.sq = g.sq ∧ y.rb = g.rb ∧ y.rstack = g.rstack ∧ y.pts = g.pts ∧
        ∀ m < 8, m ≠ sb.toNat → y.sb.getD m 0 = g.sb.getD m 0
end

