-- ==== Sys2Proof/Laws/Maps.lean ====
section
/-! SUPPORT. Sparse maps: reads after writes, the canonical form, and that it is canonical (log 1). -/

namespace Sys2Proof.Machine

variable {n : Nat}

theorem mget_mdrop (m : List (Nat × BitVec n)) (i j : Nat) : mget (mdrop i m) j = if j = i then 0#n else mget m j := by
  induction m with
  | nil => simp [mdrop, mget]
  | cons a r ih =>
    obtain ⟨k, x⟩ := a
    by_cases hk : k = i
    · subst hk
      simp only [mdrop, if_pos, ih, mget]
      by_cases hj : j = k
      · simp [hj]
      · simp [hj, Ne.symm hj]
    · simp only [mdrop, if_neg hk, mget, ih]
      by_cases hj : k = j
      · subst hj; simp [hk]
      · simp [hj]

theorem mget_mput_other (m : List (Nat × BitVec n)) (i j : Nat) (y : BitVec n) (h : j ≠ i) :
    mget (mput i y m) j = mget m j := by
  induction m with
  | nil => simp [mput, mget, Ne.symm h]
  | cons a r ih =>
    obtain ⟨k, x⟩ := a
    simp only [mput]
    split
    · simp [mget, Ne.symm h]
    · simp [mget, ih]

/-- No entry for a key. -/
theorem mget_mput_same (m : List (Nat × BitVec n)) (i : Nat) (y : BitVec n) (h : ∀ a ∈ m, a.1 ≠ i) :
    mget (mput i y m) i = y := by
  induction m with
  | nil => simp [mput, mget]
  | cons a r ih =>
    obtain ⟨k, x⟩ := a
    have hk : k ≠ i := h _ (List.mem_cons_self ..)
    simp only [mput]
    split
    · simp [mget]
    · simp only [mget, if_neg hk]
      exact ih fun a ha => h a (List.mem_cons_of_mem _ ha)

theorem mdrop_absent (m : List (Nat × BitVec n)) (i : Nat) : ∀ a ∈ mdrop i m, a.1 ≠ i := by
  induction m with
  | nil => simp [mdrop]
  | cons a r ih =>
    obtain ⟨k, x⟩ := a
    by_cases hk : k = i
    · simpa [mdrop, hk] using ih
    · intro b hb
      simp only [mdrop, if_neg hk, List.mem_cons] at hb
      obtain rfl | hb := hb
      · exact hk
      · exact ih b hb

/-- Reading after a write: the value written at its key, and what was there at every other. -/
theorem mget_mset (m : List (Nat × BitVec n)) (i j : Nat) (y : BitVec n) :
    mget (mset m i y) j = if j = i then y else mget m j := by
  unfold mset
  by_cases hy : y = 0#n
  · simp only [if_pos hy, mget_mdrop]
    split <;> simp_all
  · simp only [if_neg hy]
    by_cases hj : j = i
    · subst hj
      simp [mget_mput_same _ _ _ (mdrop_absent m j)]
    · rw [mget_mput_other _ _ _ _ hj, mget_mdrop, if_neg hj, if_neg hj]

/-- The lower bound of the keys, for the canonical form. -/
def below (b : Option Nat) (k : Nat) : Prop :=
  match b with
  | none => True
  | some i => i < k

theorem mwfFrom_cons (b : Option Nat) (k : Nat) (x : BitVec n) (r : List (Nat × BitVec n)) :
    mwfFrom b ((k, x) :: r) = true ↔ below b k ∧ x ≠ 0#n ∧ mwfFrom (some k) r = true := by
  cases b <;> simp [mwfFrom, below, and_assoc]

theorem mwfFrom_weaken {b : Option Nat} {i : Nat} {m : List (Nat × BitVec n)} (hb : below b i) (h : mwfFrom (some i) m = true) :
    mwfFrom b m = true := by
  cases m with
  | nil => cases b <;> rfl
  | cons a r =>
    obtain ⟨k, x⟩ := a
    rw [mwfFrom_cons] at h ⊢
    refine ⟨?_, h.2⟩
    cases b with
    | none => trivial
    | some j => exact Nat.lt_trans hb h.1

theorem mwfFrom_mdrop (m : List (Nat × BitVec n)) (i : Nat) (b : Option Nat) (h : mwfFrom b m = true) :
    mwfFrom b (mdrop i m) = true := by
  induction m generalizing b with
  | nil => exact h
  | cons a r ih =>
    obtain ⟨k, x⟩ := a
    rw [mwfFrom_cons] at h
    by_cases hk : k = i
    · simp only [mdrop, if_pos hk]
      exact ih _ (mwfFrom_weaken h.1 h.2.2)
    · simp only [mdrop, if_neg hk, mwfFrom_cons]
      exact ⟨h.1, h.2.1, ih _ h.2.2⟩

theorem mwfFrom_mput (m : List (Nat × BitVec n)) (i : Nat) (y : BitVec n) (b : Option Nat) (hb : below b i) (hy : y ≠ 0#n)
    (ha : ∀ a ∈ m, a.1 ≠ i) (h : mwfFrom b m = true) : mwfFrom b (mput i y m) = true := by
  induction m generalizing b with
  | nil =>
    simp only [mput, mwfFrom_cons]
    exact ⟨hb, hy, rfl⟩
  | cons a r ih =>
    obtain ⟨k, x⟩ := a
    rw [mwfFrom_cons] at h
    simp only [mput]
    split
    · simp only [mwfFrom_cons]
      exact ⟨hb, hy, by assumption, h.2.1, h.2.2⟩
    · have hk : k ≠ i := ha _ (List.mem_cons_self ..)
      rw [mwfFrom_cons]
      refine ⟨h.1, h.2.1, ih _ ?_ (fun a h => ha a (List.mem_cons_of_mem _ h)) h.2.2⟩
      show k < i
      omega

/-- A write keeps the canonical form. -/
theorem mset_wf (m : List (Nat × BitVec n)) (i : Nat) (y : BitVec n) (h : Memory.wf m = true) : Memory.wf (mset m i y) = true := by
  unfold Memory.wf mset at *
  split
  · exact mwfFrom_mdrop m i none h
  · exact mwfFrom_mput _ i y none trivial (by assumption) (mdrop_absent m i) (mwfFrom_mdrop m i none h)

/-- Writes of consecutive keys keep the canonical form. -/
theorem msets_wf (l : List (BitVec n)) (m : List (Nat × BitVec n)) (i : Nat) (h : Memory.wf m = true) :
    Memory.wf (msets m i l) = true := by
  induction l generalizing m i with
  | nil => exact h
  | cons y r ih => exact ih _ _ (mset_wf m i y h)

/-- Reading after consecutive writes. -/
theorem mget_msets (l : List (BitVec n)) (m : List (Nat × BitVec n)) (i j : Nat) :
    mget (msets m i l) j = if i ≤ j ∧ j < i + l.length then l.getD (j - i) 0#n else mget m j := by
  induction l generalizing m i with
  | nil =>
    rw [if_neg]
    · rfl
    · simp only [List.length_nil]; omega
  | cons y r ih =>
    simp only [msets, ih, mget_mset, List.length_cons]
    by_cases hj : j = i
    · subst hj
      have h1 : ¬ (j + 1 ≤ j ∧ j < j + 1 + r.length) := by omega
      have h2 : j ≤ j ∧ j < j + (r.length + 1) := by omega
      simp [h2]
    · by_cases h : i + 1 ≤ j ∧ j < i + 1 + r.length
      · have h2 : i ≤ j ∧ j < i + (r.length + 1) := by omega
        have h3 : j - i = (j - (i + 1)) + 1 := by omega
        rw [if_pos h, if_pos h2, h3, List.getD_cons_succ]
      · have h2 : ¬ (i ≤ j ∧ j < i + (r.length + 1)) := by omega
        rw [if_neg h, if_neg hj, if_neg h2]

theorem mget_of_below {b : Option Nat} {m : List (Nat × BitVec n)} (h : mwfFrom b m = true) {j : Nat} (hj : ¬ below b j) :
    mget m j = 0#n := by
  induction m generalizing b with
  | nil => rfl
  | cons a r ih =>
    obtain ⟨k, x⟩ := a
    rw [mwfFrom_cons] at h
    have hk : k ≠ j := by
      rintro rfl
      exact hj h.1
    simp only [mget, if_neg hk]
    refine ih h.2.2 ?_
    cases b with
    | none => exact (hj trivial).elim
    | some i =>
      simp only [below] at hj ⊢
      have := h.1
      simp only [below] at this
      omega

theorem mwfFrom_ext {b : Option Nat} {m m' : List (Nat × BitVec n)} (h : mwfFrom b m = true) (h' : mwfFrom b m' = true)
    (e : ∀ j, mget m j = mget m' j) : m = m' := by
  induction m generalizing b m' with
  | nil =>
    cases m' with
    | nil => rfl
    | cons a r =>
      obtain ⟨k, x⟩ := a
      rw [mwfFrom_cons] at h'
      have := e k
      simp only [mget, if_pos] at this
      exact absurd this.symm h'.2.1
  | cons a r ih =>
    obtain ⟨k, x⟩ := a
    rw [mwfFrom_cons] at h
    cases m' with
    | nil =>
      have := e k
      simp only [mget, if_pos] at this
      exact absurd this h.2.1
    | cons a' r' =>
      obtain ⟨k', x'⟩ := a'
      rw [mwfFrom_cons] at h'
      have hk : k = k' := by
        apply Decidable.byContradiction
        intro hne
        have e1 := e k
        have e2 := e k'
        simp only [mget, if_pos, if_neg hne, if_neg (Ne.symm hne)] at e1 e2
        by_cases hlt : k < k'
        · rw [mget_of_below h'.2.2 (by simp only [below]; omega)] at e1
          exact h.2.1 e1
        · rw [mget_of_below h.2.2 (by simp only [below]; omega)] at e2
          exact h'.2.1 e2.symm
      subst hk
      have hx : x = x' := by
        have := e k
        simpa [mget] using this
      subst hx
      rw [ih h.2.2 h'.2.2]
      intro j
      by_cases hj : k = j
      · subst hj
        rw [mget_of_below h.2.2 (by simp [below]), mget_of_below h'.2.2 (by simp [below])]
      · have := e j
        simpa [mget, hj] using this

/-- Canonical maps that read the same everywhere are equal. -/
theorem wf_ext {m m' : List (Nat × BitVec n)} (h : Memory.wf m = true) (h' : Memory.wf m' = true)
    (e : ∀ j, mget m j = mget m' j) : m = m' := mwfFrom_ext h h' e

end Sys2Proof.Machine
end

