-- ==== Sys2Proof/Laws/Memory.lean ====
section
/-! SUPPORT. What the operations over device memory can do: each keeps the canonical form, and changes the bytes it stores
and no other. -/

namespace Sys2Proof.Machine

/-- Memory after reset is in canonical form. -/
theorem reset_wf : Memory.wf State.reset.mem = true := rfl

/-! ## Stores at their home -/

@[simp] theorem State.homeStore_mem (s : State) (pts pa : Nat) (data : List Byte) :
    (s.homeStore pts pa data).1.mem = msets s.mem pa data := rfl

theorem State.homeStore_wf {s : State} (pts pa : Nat) (data : List Byte) (h : Memory.wf s.mem = true) :
    Memory.wf (s.homeStore pts pa data).1.mem = true := msets_wf data s.mem pa h

theorem State.mget_homeStore (s : State) (pts pa : Nat) (data : List Byte) (a : Nat) :
    mget (s.homeStore pts pa data).1.mem a = if pa ≤ a ∧ a < pa + data.length then data.getD (a - pa) 0#8 else mget s.mem a :=
  mget_msets data s.mem pa a

@[simp] theorem State.homeStore_fuse (s : State) (pts pa : Nat) (data : List Byte) : (s.homeStore pts pa data).1.fuse = s.fuse := rfl

@[simp] theorem State.homeStore_agenda (s : State) (pts pa : Nat) (data : List Byte) :
    (s.homeStore pts pa data).1.agenda = s.agenda := rfl

/-- A device's own store: its bytes, where they lie in enabled memory; else nothing. -/
theorem State.put_mem (s : State) (pa : Nat) (data : List Byte) :
    (s.put pa data).mem = if s.inMem pa data.length = true then msets s.mem pa data else s.mem := by
  unfold State.put
  split <;> rfl

theorem State.put_wf {s : State} (pa : Nat) (data : List Byte) (h : Memory.wf s.mem = true) : Memory.wf (s.put pa data).mem = true := by
  rw [State.put_mem]
  split
  · exact msets_wf data s.mem pa h
  · exact h

/-- A bit set in a page-table entry changes at most the entry's eight bytes. -/
theorem State.orPte_wf {s : State} (pa bit : Nat) (h : Memory.wf s.mem = true) : Memory.wf (s.orPte pa bit).mem = true := by
  unfold State.orPte
  dsimp only
  split
  · exact h
  · exact State.put_wf pa _ h

theorem length_bytesOfNat (v n : Nat) : (bytesOfNat v n).length = n := by
  induction n generalizing v with
  | zero => rfl
  | succ n ih => simp [bytesOfNat, ih]

theorem State.mget_orPte (s : State) (pa bit a : Nat) (h : a < pa ∨ pa + 8 ≤ a) : mget (s.orPte pa bit).mem a = mget s.mem a := by
  unfold State.orPte
  dsimp only
  split
  · rfl
  · rw [State.put_mem]
    split
    · rw [mget_msets, if_neg]
      simp only [length_bytesOfNat]
      omega
    · rfl

/-! ## Reads, atomics and flushed lines -/

/-- A read changes no byte. -/
@[simp] theorem State.homeLoad_mem (s : State) (pts pa n : Nat) : (s.homeLoad pts pa n).1.mem = s.mem := rfl

/-- A read answers the bytes that memory holds. -/
@[simp] theorem State.homeLoad_bytes (s : State) (pts pa n : Nat) : (s.homeLoad pts pa n).2.1 = s.bytesAt pa n := rfl

theorem State.homeAtomic_wf {s : State} (pts pa : Nat) (op : AtomOp) (b c : BitVec 64) (h : Memory.wf s.mem = true) :
    Memory.wf (s.homeAtomic pts pa op b c).1.mem = true := msets_wf _ s.mem pa h

/-- An atomic answers the value that was there, and changes its own bytes alone. -/
theorem State.homeAtomic_old (s : State) (pts pa : Nat) (op : AtomOp) (b c : BitVec 64) :
    (s.homeAtomic pts pa op b c).2.1 = BitVec.ofNat 64 (s.natAt pa op.size) := rfl

theorem State.mget_homeAtomic (s : State) (pts pa : Nat) (op : AtomOp) (b c : BitVec 64) (a : Nat) (h : a < pa ∨ pa + op.size ≤ a) :
    mget (s.homeAtomic pts pa op b c).1.mem a = mget s.mem a := by
  show mget (msets s.mem pa _) a = _
  rw [mget_msets, if_neg]
  simp only [length_bytesOfNat]
  omega

/-- Bytes set in turn keep the canonical form. -/
theorem foldl_mset_wf (l : List CombByte) (m : Mem) (h : Memory.wf m = true) :
    Memory.wf (l.foldl (fun m b => mset m b.addr b.byte) m) = true := by
  induction l generalizing m with
  | nil => exact h
  | cons x r ih => exact ih _ (mset_wf m x.addr x.byte h)

/-- Bytes set in turn change their own addresses alone. -/
theorem foldl_mset_other (l : List CombByte) (m : Mem) (a : Nat) (h : ∀ x ∈ l, x.addr ≠ a) :
    mget (l.foldl (fun m b => mset m b.addr b.byte) m) a = mget m a := by
  induction l generalizing m with
  | nil => rfl
  | cons x r ih =>
    rw [List.foldl_cons, ih _ fun y hy => h y (List.mem_cons_of_mem _ hy), mget_mset, if_neg]
    exact fun e => h x (List.mem_cons_self ..) e.symm

theorem State.flushLine_wf {s : State} (gid : Nat) (x : CombLine) (h : Memory.wf s.mem = true) :
    Memory.wf (s.flushLine gid x).mem = true := foldl_mset_wf x.bytes s.mem h

/-- A flushed line changes the bytes it gathered and no other. -/
theorem State.flushLine_other (s : State) (gid : Nat) (x : CombLine) (a : Nat) (h : ∀ b ∈ x.bytes, b.addr ≠ a) :
    mget (s.flushLine gid x).mem a = mget s.mem a := foldl_mset_other x.bytes s.mem a h

@[simp] theorem State.flushLine_fuse (s : State) (gid : Nat) (x : CombLine) : (s.flushLine gid x).fuse = s.fuse := rfl

/-! ## Bytes stored line by line -/

/-- Cells set in turn keep the canonical form. -/
theorem foldl_cells_wf (l : List Host.Cell) (m : Mem) (h : Memory.wf m = true) :
    Memory.wf (l.foldl (fun m c => mset m c.1 c.2) m) = true := by
  induction l generalizing m with
  | nil => exact h
  | cons x r ih => exact ih _ (mset_wf m x.1 x.2 h)

/-- Cells set in turn change their own addresses alone. -/
theorem foldl_cells_other (l : List Host.Cell) (m : Mem) (a : Nat) (h : ∀ x ∈ l, x.1 ≠ a) :
    mget (l.foldl (fun m c => mset m c.1 c.2) m) a = mget m a := by
  induction l generalizing m with
  | nil => rfl
  | cons x r ih =>
    rw [List.foldl_cons, ih _ fun y hy => h y (List.mem_cons_of_mem _ hy), mget_mset, if_neg]
    exact fun e => h x (List.mem_cons_self ..) e.symm

/-- Bytes stored line by line: what holds of memory and is kept by each line's cells holds after. -/
theorem State.storeLines_mem {P : Mem → Prop} {s : State} (pts : Nat) (cells : List Host.Cell) (h : P s.mem)
    (hs : ∀ m l, P m → P ((cells.filter fun c => c.1 / 128 == l).foldl (fun m c => mset m c.1 c.2) m)) :
    P (s.storeLines pts cells).1.mem := by
  unfold State.storeLines
  generalize distinct (cells.map fun c => c.1 / 128) = ls
  suffices ∀ acc : State × Nat, P acc.1.mem → P (ls.foldl _ acc).1.mem from this (s, pts) h
  induction ls with
  | nil => exact fun acc ha => ha
  | cons l r ih => exact fun acc ha => ih _ (hs acc.1.mem l ha)

theorem State.storeLines_wf {s : State} (pts : Nat) (cells : List Host.Cell) (h : Memory.wf s.mem = true) :
    Memory.wf (s.storeLines pts cells).1.mem = true :=
  State.storeLines_mem (P := fun m => Memory.wf m = true) pts cells h fun _ _ hm => foldl_cells_wf _ _ hm

/-- Bytes stored line by line change their own addresses alone. -/
theorem State.storeLines_other (s : State) (pts : Nat) (cells : List Host.Cell) (a : Nat) (h : ∀ x ∈ cells, x.1 ≠ a) :
    mget (s.storeLines pts cells).1.mem a = mget s.mem a :=
  State.storeLines_mem (P := fun m => mget m a = mget s.mem a) pts cells rfl fun m _ hm =>
    (foldl_cells_other _ m a fun x hx => h x (List.mem_filter.mp hx).1).trans hm

/-! ## Bytes read -/

theorem length_mgets {n : Nat} (m : List (Nat × BitVec n)) (i c : Nat) : (mgets m i c).length = c := by
  induction c generalizing i with
  | zero => rfl
  | succ c ih => simp [mgets, ih]

end Sys2Proof.Machine
end

