-- ==== Sys2Proof/Laws/State.lean ====
section
/-! SUPPORT. What each update of the state leaves and what it changes: one lemma per field per update. -/

namespace Sys2Proof.Machine

@[simp] theorem State.onDev_fuse (s : State) (f : Dev → Dev) : (s.onDev f).fuse = s.fuse := rfl
@[simp] theorem State.onDev_mem (s : State) (f : Dev → Dev) : (s.onDev f).mem = s.mem := rfl
@[simp] theorem State.onDev_agenda (s : State) (f : Dev → Dev) : (s.onDev f).agenda = s.agenda := rfl
@[simp] theorem State.onDev_dev (s : State) (f : Dev → Dev) : (s.onDev f).dev = f s.dev := rfl

@[simp] theorem State.updGroup_fuse (s : State) (i : Nat) (f : Group → Group) : (s.updGroup i f).fuse = s.fuse := rfl
@[simp] theorem State.updGroup_mem (s : State) (i : Nat) (f : Group → Group) : (s.updGroup i f).mem = s.mem := rfl
@[simp] theorem State.updGroup_agenda (s : State) (i : Nat) (f : Group → Group) : (s.updGroup i f).agenda = s.agenda := rfl
@[simp] theorem State.updGroup_dev (s : State) (i : Nat) (f : Group → Group) :
    (s.updGroup i f).dev = { s.dev with groups := updIf (fun g => g.id == i) f s.dev.groups } := rfl

@[simp] theorem State.updTeam_fuse (s : State) (i : Nat) (f : Team → Team) : (s.updTeam i f).fuse = s.fuse := rfl
@[simp] theorem State.updTeam_mem (s : State) (i : Nat) (f : Team → Team) : (s.updTeam i f).mem = s.mem := rfl
@[simp] theorem State.updTeam_agenda (s : State) (i : Nat) (f : Team → Team) : (s.updTeam i f).agenda = s.agenda := rfl
@[simp] theorem State.updTeam_dev (s : State) (i : Nat) (f : Team → Team) :
    (s.updTeam i f).dev = { s.dev with teams := updIf (fun t => t.id == i) f s.dev.teams } := rfl

@[simp] theorem State.updCluster_fuse (s : State) (i : Nat) (f : Cluster → Cluster) : (s.updCluster i f).fuse = s.fuse := rfl
@[simp] theorem State.updCluster_mem (s : State) (i : Nat) (f : Cluster → Cluster) : (s.updCluster i f).mem = s.mem := rfl
@[simp] theorem State.updCluster_agenda (s : State) (i : Nat) (f : Cluster → Cluster) : (s.updCluster i f).agenda = s.agenda := rfl
@[simp] theorem State.updCluster_dev (s : State) (i : Nat) (f : Cluster → Cluster) :
    (s.updCluster i f).dev = { s.dev with clusters := updIf (fun c => c.id == i) f s.dev.clusters } := rfl

@[simp] theorem State.updGrid_fuse (s : State) (i : Nat) (f : Grid → Grid) : (s.updGrid i f).fuse = s.fuse := rfl
@[simp] theorem State.updGrid_mem (s : State) (i : Nat) (f : Grid → Grid) : (s.updGrid i f).mem = s.mem := rfl
@[simp] theorem State.updGrid_agenda (s : State) (i : Nat) (f : Grid → Grid) : (s.updGrid i f).agenda = s.agenda := rfl
@[simp] theorem State.updGrid_dev (s : State) (i : Nat) (f : Grid → Grid) :
    (s.updGrid i f).dev = { s.dev with grids := updIf (fun g => g.id == i) f s.dev.grids } := rfl

@[simp] theorem State.updCtx_fuse (s : State) (i : Nat) (f : Ctx → Ctx) : (s.updCtx i f).fuse = s.fuse := rfl
@[simp] theorem State.updCtx_mem (s : State) (i : Nat) (f : Ctx → Ctx) : (s.updCtx i f).mem = s.mem := rfl
@[simp] theorem State.updCtx_agenda (s : State) (i : Nat) (f : Ctx → Ctx) : (s.updCtx i f).agenda = s.agenda := rfl
@[simp] theorem State.updCtx_dev (s : State) (i : Nat) (f : Ctx → Ctx) :
    (s.updCtx i f).dev = { s.dev with ctxs := updIf (fun c => c.id == i) f s.dev.ctxs } := rfl

@[simp] theorem State.updPending_fuse (s : State) (i : Nat) (f : Pending → Pending) : (s.updPending i f).fuse = s.fuse := rfl
@[simp] theorem State.updPending_mem (s : State) (i : Nat) (f : Pending → Pending) : (s.updPending i f).mem = s.mem := rfl
@[simp] theorem State.updPending_agenda (s : State) (i : Nat) (f : Pending → Pending) : (s.updPending i f).agenda = s.agenda := rfl
@[simp] theorem State.updPending_dev (s : State) (i : Nat) (f : Pending → Pending) :
    (s.updPending i f).dev = { s.dev with results := updIf (fun r => r.id == i) f s.dev.results } := rfl

@[simp] theorem State.updFrame_fuse (s : State) (i : Nat) (f : Frame → Frame) : (s.updFrame i f).fuse = s.fuse := rfl
@[simp] theorem State.updFrame_mem (s : State) (i : Nat) (f : Frame → Frame) : (s.updFrame i f).mem = s.mem := rfl
@[simp] theorem State.updFrame_agenda (s : State) (i : Nat) (f : Frame → Frame) : (s.updFrame i f).agenda = s.agenda := rfl
@[simp] theorem State.updFrame_dev (s : State) (i : Nat) (f : Frame → Frame) :
    (s.updFrame i f).dev = { s.dev with frames := updIf (fun x => x.id == i) f s.dev.frames } := rfl

@[simp] theorem State.updPeer_fuse (s : State) (i : Nat) (f : Peer → Peer) : (s.updPeer i f).fuse = s.fuse := rfl
@[simp] theorem State.updPeer_mem (s : State) (i : Nat) (f : Peer → Peer) : (s.updPeer i f).mem = s.mem := rfl
@[simp] theorem State.updPeer_agenda (s : State) (i : Nat) (f : Peer → Peer) : (s.updPeer i f).agenda = s.agenda := rfl
@[simp] theorem State.updPeer_dev (s : State) (i : Nat) (f : Peer → Peer) :
    (s.updPeer i f).dev = { s.dev with link := { s.dev.link with peers := updIf (fun p => p.n == i) f s.dev.link.peers } } := rfl

@[simp] theorem State.updCore_fuse (s : State) (i : Nat) (f : Core → Core) : (s.updCore i f).fuse = s.fuse := rfl
@[simp] theorem State.updCore_mem (s : State) (i : Nat) (f : Core → Core) : (s.updCore i f).mem = s.mem := rfl
@[simp] theorem State.updCore_agenda (s : State) (i : Nat) (f : Core → Core) : (s.updCore i f).agenda = s.agenda := rfl
@[simp] theorem State.updCore_dev (s : State) (i : Nat) (f : Core → Core) :
    (s.updCore i f).dev = { s.dev with cores := assocSet s.dev.cores i (f (s.core i)) } := rfl

@[simp] theorem State.updZone_fuse (s : State) (i : Nat) (f : Zone → Zone) : (s.updZone i f).fuse = s.fuse := rfl
@[simp] theorem State.updZone_mem (s : State) (i : Nat) (f : Zone → Zone) : (s.updZone i f).mem = s.mem := rfl
@[simp] theorem State.updZone_agenda (s : State) (i : Nat) (f : Zone → Zone) : (s.updZone i f).agenda = s.agenda := rfl
@[simp] theorem State.updZone_dev (s : State) (i : Nat) (f : Zone → Zone) :
    (s.updZone i f).dev = { s.dev with zones := assocSet s.dev.zones i (f (s.zone i)) } := rfl

@[simp] theorem State.updLink_fuse (s : State) (f : Link → Link) : (s.updLink f).fuse = s.fuse := rfl
@[simp] theorem State.updLink_mem (s : State) (f : Link → Link) : (s.updLink f).mem = s.mem := rfl
@[simp] theorem State.updLink_agenda (s : State) (f : Link → Link) : (s.updLink f).agenda = s.agenda := rfl
@[simp] theorem State.updLink_dev (s : State) (f : Link → Link) :
    (s.updLink f).dev = { s.dev with link := f s.dev.link } := rfl

@[simp] theorem State.updDie_fuse (s : State) (f : Die → Die) : (s.updDie f).fuse = s.fuse := rfl
@[simp] theorem State.updDie_mem (s : State) (f : Die → Die) : (s.updDie f).mem = s.mem := rfl
@[simp] theorem State.updDie_agenda (s : State) (f : Die → Die) : (s.updDie f).agenda = s.agenda := rfl
@[simp] theorem State.updDie_dev (s : State) (f : Die → Die) :
    (s.updDie f).dev = { s.dev with die := f s.dev.die } := rfl

@[simp] theorem State.updThread_fuse (s : State) (i k : Nat) (f : Thread → Thread) : (s.updThread i k f).fuse = s.fuse := rfl
@[simp] theorem State.updThread_mem (s : State) (i k : Nat) (f : Thread → Thread) : (s.updThread i k f).mem = s.mem := rfl
@[simp] theorem State.updThread_agenda (s : State) (i k : Nat) (f : Thread → Thread) : (s.updThread i k f).agenda = s.agenda := rfl
@[simp] theorem State.updThread_dev (s : State) (i k : Nat) (f : Thread → Thread) :
    (s.updThread i k f).dev = { s.dev with groups := updIf (fun g => g.id == i) (fun g => g.updThread k f) s.dev.groups } := rfl

@[simp] theorem State.updQueue_fuse (s : State) (i k : Nat) (f : Queue → Queue) : (s.updQueue i k f).fuse = s.fuse := rfl
@[simp] theorem State.updQueue_mem (s : State) (i k : Nat) (f : Queue → Queue) : (s.updQueue i k f).mem = s.mem := rfl
@[simp] theorem State.updQueue_agenda (s : State) (i k : Nat) (f : Queue → Queue) : (s.updQueue i k f).agenda = s.agenda := rfl
@[simp] theorem State.updQueue_dev (s : State) (i k : Nat) (f : Queue → Queue) :
    (s.updQueue i k f).dev = { s.dev with ctxs := updIf (fun c => c.id == i) (fun c => c.updQueue k f) s.dev.ctxs } := rfl

@[simp] theorem State.updStream_fuse (s : State) (i k : Nat) (f : Stream → Stream) : (s.updStream i k f).fuse = s.fuse := rfl
@[simp] theorem State.updStream_mem (s : State) (i k : Nat) (f : Stream → Stream) : (s.updStream i k f).mem = s.mem := rfl
@[simp] theorem State.updStream_agenda (s : State) (i k : Nat) (f : Stream → Stream) : (s.updStream i k f).agenda = s.agenda := rfl
@[simp] theorem State.updStream_dev (s : State) (i k : Nat) (f : Stream → Stream) :
    (s.updStream i k f).dev = { s.dev with streams := updIf (fun x => x.core == i && x.reed == k) f s.dev.streams } := rfl

end Sys2Proof.Machine
end

