-- ==== Sys2Proof/Laws/Run.lean ====
section
/-! SUPPORT. What one step is in each part of a clk: one lemma for each case of the step (log 6). -/

namespace Sys2Proof.Machine

@[simp] theorem State.toPhase_mem (s : State) (p : Phase) : (s.toPhase p).mem = s.mem := rfl
@[simp] theorem State.toPhase_fuse (s : State) (p : Phase) : (s.toPhase p).fuse = s.fuse := rfl
@[simp] theorem State.toPhase_dev (s : State) (p : Phase) : (s.toPhase p).dev = { s.dev with phase := p } := rfl

/-- A list of events none of which changes the state has no first one that is due. -/
theorem State.firstDue_idle {s : State} {l : List Instr} (h : ∀ i ∈ l, exec i s = .next s) : s.firstDue l = none := by
  induction l with
  | nil => rfl
  | cons i r ih =>
    rw [State.firstDue, h i (List.mem_cons_self ..)]
    simpa using ih fun j hj => h j (List.mem_cons_of_mem _ hj)

/-- The first event that changes the state is what comes of the list. -/
theorem State.firstDue_first {s t : State} {pre rest : List Instr} {i : Instr} (hp : ∀ j ∈ pre, exec j s = .next s) (hi : exec i s = .next t)
    (ht : t ≠ s) : s.firstDue (pre ++ i :: rest) = some (.next t) := by
  induction pre with
  | nil => simp [State.firstDue, hi, ht]
  | cons j r ih =>
    rw [List.cons_append, State.firstDue, hp j (List.mem_cons_self ..)]
    simpa using ih fun k hk => hp k (List.mem_cons_of_mem _ hk)

/-- A step given is executed alone, in a part without power at any time. -/
theorem step_given {s : State} {i : Instr} {r : List Instr} (ha : s.agenda = i :: r) (h : s.dev.die.powered = false ∨ s.dev.phase = .given) :
    step s = exec i { s with agenda := r } := by
  rcases h with h | h <;> simp [step, State.stepOnce, State.stepGiven, h, ha]

/-- An event of the clk is executed alone, of a core or of the device. -/
theorem step_event {s : State} {i : Instr} {r : List Instr} (hw : s.dev.die.powered = true)
    (hp : s.dev.phase = .units ∨ s.dev.phase = .events) (h : s.dev.todo = i :: r) :
    step s = exec i (s.onDev fun d => { d with todo := r }) := by
  rcases hp with hp | hp <;> simp [step, State.stepOnce, State.stepUnits, State.stepTodo, hw, hp, h]

theorem step_events_over {s : State} (hw : s.dev.die.powered = true) (hp : s.dev.phase = .events) (h : s.dev.todo = []) :
    step s = .next (s.toPhase .given) := by
  simp [step, State.stepOnce, State.stepTodo, hw, hp, h]

theorem step_given_over {s : State} (hw : s.dev.die.powered = true) (hp : s.dev.phase = .given) (h : s.agenda = []) :
    step s = .next (s.toPhase .place) := by
  simp [step, State.stepOnce, State.stepGiven, hw, hp, h]

theorem step_unpowered {s : State} (hw : s.dev.die.powered = false) (h : s.agenda = []) : step s = .next s.nextClk := by
  simp [step, State.stepOnce, State.stepGiven, hw, h]

/-- A clause that is over leaves its reed. -/
theorem step_over {s : State} {x : Stream} (hw : s.dev.die.powered = true) (hp : s.dev.phase = .issue) (h : s.overStream = some x) :
    step s = .next (s.finishClause x (x.outcome.getD false)) := by
  simp [step, State.stepOnce, State.stepIssue, hw, hp, h]

/-- The unit of the next stream is executed, and then the unit ends. -/
theorem step_unit {s s' t : State} {x : Stream} {i : Instr} (hw : s.dev.die.powered = true) (hp : s.dev.phase = .units)
    (ht : s.dev.todo = []) (hx : s.nextStream = some x)
    (hf : (s.onDev fun d => { d with focus := (x.core, x.reed) }).fetchUnit = (s', some i)) (hi : exec i s' = .next t) :
    step s = .next (s'.endUnit t i) := by
  simp [step, State.stepOnce, State.stepUnits, State.stepTodo, State.stepStream, hw, hp, ht, hx, hf, hi]

/-- Where no unit of the core whose part it is is left, its events come next; after the last core's, those of the device. -/
theorem step_units_over {s : State} (hw : s.dev.die.powered = true) (hp : s.dev.phase = .units) (ht : s.dev.todo = [])
    (hx : s.nextStream = none) :
    step s = .next (match s.turn? with
      | some c => s.planCore c
      | none => s.planRest) := by
  cases hc : s.turn? <;> simp [step, State.stepOnce, State.stepUnits, State.stepTodo, hw, hp, ht, hx, hc]

end Sys2Proof.Machine
end

