-- ==== Sys2Proof/Laws/Streams.lean ====
section
/-! SUPPORT. What the shared operations over the threads of a stream can do. -/

namespace Sys2Proof.Machine

/-! ## Lookups after updates -/

theorem find?_updIf_same {α : Type} (p : α → Bool) (f : α → α) (hf : ∀ a, p a = true → p (f a) = true) (l : List α) :
    (updIf p f l).find? p = (l.find? p).map f := by
  induction l with
  | nil => rfl
  | cons a r ih =>
    simp only [updIf, List.map_cons] at *
    by_cases h : p a = true
    · simp [h, hf a h]
    · simp [h, ih]

theorem find?_updIf_other {α : Type} (p q : α → Bool) (f : α → α) (hpq : ∀ a, p a = true → q a = false ∧ q (f a) = false)
    (l : List α) : (updIf p f l).find? q = l.find? q := by
  induction l with
  | nil => rfl
  | cons a r ih =>
    simp only [updIf, List.map_cons] at *
    by_cases h : p a = true
    · simp [h, hpq a h, ih]
    · simp only [h]
      by_cases h2 : q a = true <;> simp [h2, ih]

theorem State.group?_id {s : State} {id : Nat} {g : Group} (h : s.group? id = some g) : g.id = id := by
  have := List.find?_some h
  simpa using this

/-- The group looked up after it was updated. -/
theorem State.group?_updGroup (s : State) (id : Nat) (f : Group → Group) (hf : ∀ g, g.id = id → (f g).id = id) :
    (s.updGroup id f).group? id = (s.group? id).map f := by
  unfold State.group?
  simp only [State.updGroup_dev]
  exact find?_updIf_same _ f (by simpa using hf) _

/-- Another group is as it was. -/
theorem State.group?_updGroup_other (s : State) (id id' : Nat) (f : Group → Group) (hf : ∀ g, g.id = id → (f g).id = id)
    (h : id' ≠ id) : (s.updGroup id f).group? id' = s.group? id' := by
  unfold State.group?
  simp only [State.updGroup_dev]
  refine find?_updIf_other _ _ f ?_ _
  intro a ha
  simp only [beq_iff_eq] at ha
  constructor
  · simpa [ha] using Ne.symm h
  · simpa [hf a ha] using Ne.symm h

/-! ## Units of a register class -/

/-- The effect on the threads in turn, where none can fault: every thread is kept. -/
theorem runRegs_ok (st : Stream) (act : Group → Nat → Thread → Group) (l : List Nat) (g : Group) :
    runRegs st (fun g k th => .ok (act g k th)) l g = (inTurn st act l g, l, none) := by
  induction l generalizing g with
  | nil => rfl
  | cons k r ih =>
    cases h : g.thread? k with
    | none => simp [runRegs, inTurn, h, ih]
    | some th => by_cases hp : predOn st th = true <;> simp [runRegs, inTurn, h, hp, ih]

theorem State.settle_ok (s : State) (st : Stream) (g : Group) : s.settle st (g, st.threads, none) = s.after st g := rfl

theorem State.onStream_issues {s : State} {st : Stream} {g : Group} (h : s.Issues st g) (f : Stream → Group → State) :
    s.onStream f = .next (f st g) := by
  simp [State.onStream, h.1, h.2]

theorem State.regsUnit_ok {s : State} {st : Stream} {g : Group} (h : s.Issues st g) (act : Stream → Group → Nat → Thread → Group) :
    s.regsUnit (fun st g k th => .ok (act st g k th)) = .next (s.after st (inTurn st (act st) st.threads g)) := by
  simp only [State.regsUnit, State.onStream_issues h, runRegs_ok, State.settle_ok]

theorem State.regsUniform_ok {s : State} {st : Stream} {g : Group} (h : s.Issues st g) (act : Stream → Group → Nat → Thread → Group) :
    s.regsUniform (fun st g k th => .ok (act st g k th)) = .next (s.after st (atFirst st (act st) g)) := by
  simp only [State.regsUniform, State.onStream_issues h, atFirst]
  cases h1 : firstOn st g st.threads with
  | none => simp [State.settle_ok]
  | some k => cases h2 : g.thread? k <;> simp [h2, State.settle_ok]

/-- A unit that writes words, where none can fault. -/
theorem State.valueUnit_ok {s : State} {st : Stream} {g : Group} (h : s.Issues st g) (u : Bool) (d : Opnd)
    (val : Stream → Group → Thread → List Word) :
    s.valueUnit u d (fun st g th => .ok (val st g th)) = .next (s.after st (written st u d (val st) g)) := by
  unfold State.valueUnit written
  cases u
  · simpa using State.regsUnit_ok h fun st g k th => wrN g k d (val st g th)
  · simpa using State.regsUniform_ok h fun st g k th => wrN g k d (val st g th)

theorem State.predUnit_ok {s : State} {st : Stream} {g : Group} (h : s.Issues st g) (pd : BitVec 3)
    (f : Stream → Group → Thread → Bool) :
    s.predUnit pd f = .next (s.after st (inTurn st (fun g k th => g.updThread k fun x => wrP x pd (f st g th)) st.threads g)) :=
  State.regsUnit_ok h fun st g k th => g.updThread k fun x => wrP x pd (f st g th)

/-- The same where each thread meets the condition under which it does not fault. -/
theorem runRegs_met {st : Stream} {act : Group → Nat → Thread → Group} {p : Group → Thread → Prop}
    {f : Group → Nat → Thread → GRes} (hf : ∀ g k th, p g th → f g k th = .ok (act g k th)) (l : List Nat) (g : Group)
    (h : eachInTurn st act p l g) : runRegs st f l g = (inTurn st act l g, l, none) := by
  induction l generalizing g with
  | nil => rfl
  | cons k r ih =>
    cases ht : g.thread? k with
    | none =>
      simp only [eachInTurn, ht] at h
      simp [runRegs, inTurn, ht, ih _ h]
    | some th =>
      by_cases hp : predOn st th = true
      · simp only [eachInTurn, ht, hp, if_true] at h
        simp [runRegs, inTurn, ht, hp, hf _ _ _ h.1, ih _ h.2]
      · simp only [eachInTurn, ht, hp] at h
        simp only [Bool.false_eq_true, if_false] at h
        simp [runRegs, inTurn, ht, hp, ih _ h]

/-- A unit that writes words, where each thread meets the condition under which it does not fault. -/
theorem State.valueUnit_met {s : State} {st : Stream} {g : Group} (h : s.Issues st g) (u : Bool) (d : Opnd)
    (f : Stream → Group → Thread → Except (BitVec 8) (List Word)) (val : Group → Thread → List Word) (p : Group → Thread → Prop)
    (hf : ∀ g th, p g th → f st g th = .ok (val g th)) (hp : Sys2Proof.Machine.Finds st u d val p g) :
    s.valueUnit u d f = .next (s.after st (written st u d val g)) := by
  unfold State.valueUnit written
  unfold Sys2Proof.Machine.Finds at hp
  cases u
  · simp only [Bool.false_eq_true, if_false] at hp ⊢
    unfold State.regsUnit
    rw [State.onStream_issues h, runRegs_met (act := fun g k th => wrN g k d (val g th)) _ _ _ hp]
    · rfl
    · intro g k th hk
      simp [hf g th hk]
  · simp only [if_true] at hp ⊢
    unfold State.regsUniform
    rw [State.onStream_issues h]
    cases h1 : firstOn st g st.threads with
    | none => simp [atFirst, h1, State.settle_ok]
    | some k => cases h2 : g.thread? k with
      | none => simp [atFirst, h1, h2, State.settle_ok]
      | some th => simp [atFirst, h1, h2, hf g th (hp k th h1 h2), State.settle_ok]

/-! ## Units that reach beyond the registers, on a stream of one executing thread -/

/-- What follows the unit of the one thread. -/
def SRes.settled (r : SRes) (st : Stream) (k : Nat) : State :=
  match r with
  | .ok s => s.advance st [k]
  | .leave s => s.advance st []
  | .stop s => s.advance st []
  | .fault s code num va after =>
    (s.takeFault st.grp k ⟨code, num, st.unit, va⟩ false (if after then st.unit + 4#32 else st.unit)).advance st []

theorem firstOn_one {s : State} {st : Stream} {g : Group} {k : Nat} {th : Thread} (h : s.IssuesOne st g k th) :
    firstOn st g st.threads = some k := by
  rw [h.2.1]; simp [firstOn, h.2.2.1, h.2.2.2]

theorem runEach_one {s : State} {st : Stream} {g : Group} {k : Nat} {th : Thread} (h : s.IssuesOne st g k th)
    (f : State → Nat → Thread → SRes) :
    (let (s', kept) := runEach st f st.threads s; s'.advance st kept) = (f s k th).settled st k := by
  obtain ⟨⟨_, h2⟩, h3, h4, h5⟩ := h
  rw [h3]
  cases hf : f s k th <;> simp [runEach, h2, h4, h5, hf, SRes.settled]

theorem runEach_one_parts {s : State} {st : Stream} {g : Group} {k : Nat} {th : Thread} (h : s.IssuesOne st g k th)
    (f : State → Nat → Thread → SRes) :
    (runEach st f st.threads s).1.advance st (runEach st f st.threads s).2 = (f s k th).settled st k := runEach_one h f

theorem State.perThread_one {s : State} {st : Stream} {g : Group} {k : Nat} {th : Thread} (h : s.IssuesOne st g k th)
    (f : Stream → State → Nat → Thread → SRes) : s.perThread f = .next ((f st s k th).settled st k) := by
  rw [State.perThread, State.onStream_issues h.1]
  exact congrArg _ (runEach_one h (f st))

theorem State.perGroup_one {s : State} {st : Stream} {g : Group} {k : Nat} {th : Thread} (h : s.IssuesOne st g k th)
    (f : Stream → State → Group → Nat → SRes) : s.perGroup f = .next ((f st s g k).settled st k) := by
  rw [State.perGroup, State.onStream_issues h.1]
  simp only [firstOn_one h]
  rw [h.2.1]
  cases hf : f st s g k <;> simp [SRes.settled]

/-- A unit of which no thread executes moves every thread on. -/
theorem runEach_ok (st : Stream) (f : State → Nat → Thread → SRes) (hf : ∀ s k th, f s k th = .ok s) (l : List Nat) (s : State) :
    runEach st f l s = (s, l) := by
  induction l generalizing s with
  | nil => rfl
  | cons k r ih =>
    cases ht : (s.group? st.grp).bind fun g => g.thread? k with
    | none => simp [runEach, ht, ih]
    | some th => by_cases hp : predOn st th = true <;> simp [runEach, ht, hp, hf, ih]

theorem State.perGroup_ok {s : State} {st : Stream} {g : Group} {k : Nat} (h : s.Issues st g) (hk : firstOn st g st.threads = some k)
    {f : Stream → State → Group → Nat → SRes} {t : State} (hf : f st s g k = .ok t) :
    s.perGroup f = .next (t.advance st st.threads) := by
  rw [State.perGroup, State.onStream_issues h]
  simp [hk, hf]

end Sys2Proof.Machine
end

