-- ==== Sys2Proof/Tests/Slice0.lean ====
section
/-! SUPPORT. Tests: ill-formed terms that the checks refuse, words decoded, single steps, and for each statement with
hypotheses a state that meets them. -/

namespace Sys2Proof.Tests

open Sys2Proof Sys2Proof.Machine

set_option maxRecDepth 20000

/-! ## Ill-formed instructions (R44 item 2.2, R48) -/

theorem smoke_integer : ([
  .sel 7#3 (.v 0#6) (.v 0#6) (.v 0#6), .shlImm (.v 0#6) (.v 0#6) 32#10, .shrImm (.v 0#6) (.v 0#6) 32#10,
  .add64 (.v 1#6) (.v 0#6) (.v 0#6), .add64 (.v 0#6) (.v 1#6) (.v 0#6), .add64 (.v 0#6) (.v 0#6) (.v 1#6),
  .sub64 (.v 1#6) (.v 0#6) (.v 0#6), .sub64 (.v 0#6) (.v 1#6) (.v 0#6), .sub64 (.v 0#6) (.v 0#6) (.v 1#6),
  .mul64 (.v 1#6) (.v 0#6) (.v 0#6), .mul64 (.v 0#6) (.v 1#6) (.v 0#6), .mul64 (.v 0#6) (.v 0#6) (.v 1#6),
  .lea 0#2 (.v 1#6) (.v 0#6) (.v 0#6), .lea 0#2 (.v 0#6) (.v 1#6) (.v 0#6), .sextS8 (.v 1#6) (.v 0#6),
  .sextS16 (.v 1#6) (.v 0#6), .sextS32 (.v 1#6) (.v 0#6), .zextN8 (.v 1#6) (.v 0#6), .zextN16 (.v 1#6) (.v 0#6),
  .zextN32 (.v 1#6) (.v 0#6)] :
  List Instr).all (fun i => !wellFormed i) = true := by decide

theorem smoke_predicate : ([
  .icmpEq 7#3 (.v 0#6) (.v 0#6), .icmpNe 7#3 (.v 0#6) (.v 0#6), .icmpLtS32 7#3 (.v 0#6) (.v 0#6),
  .icmpLeS32 7#3 (.v 0#6) (.v 0#6), .icmpGtS32 7#3 (.v 0#6) (.v 0#6), .icmpGeS32 7#3 (.v 0#6) (.v 0#6),
  .icmpLtN32 7#3 (.v 0#6) (.v 0#6), .icmpLeN32 7#3 (.v 0#6) (.v 0#6), .icmpGtN32 7#3 (.v 0#6) (.v 0#6),
  .icmpGeN32 7#3 (.v 0#6) (.v 0#6), .fcmpEqF32 7#3 (.v 0#6) (.v 0#6), .fcmpNeF32 7#3 (.v 0#6) (.v 0#6),
  .fcmpLtF32 7#3 (.v 0#6) (.v 0#6), .fcmpLeF32 7#3 (.v 0#6) (.v 0#6), .fcmpGtF32 7#3 (.v 0#6) (.v 0#6),
  .fcmpGeF32 7#3 (.v 0#6) (.v 0#6), .fcmpUnF32 7#3 (.v 0#6) (.v 0#6), .fcmpOrdF32 7#3 (.v 0#6) (.v 0#6),
  .pand 7#3 ⟨false, 0#3⟩ ⟨false, 0#3⟩, .por 7#3 ⟨false, 0#3⟩ ⟨false, 0#3⟩, .pxor 7#3 ⟨false, 0#3⟩ ⟨false, 0#3⟩,
  .pnot 7#3 ⟨false, 0#3⟩, .voteAny 7#3 ⟨false, 0#3⟩, .voteAll 7#3 ⟨false, 0#3⟩] :
  List Instr).all (fun i => !wellFormed i) = true := by decide

theorem smoke_system : ([
  .mfs (.v 0#6) 0x012#10, .mfs (.v 0#6) 0x025#10, .mfs (.v 0#6) 0x045#10, .mfs (.v 0#6) 0x051#10, .mfs (.v 0#6) 0x072#10,
  .mts 0x020#10 (.v 0#6), .mts 0x041#10 (.v 0#6), .mts 0x050#10 (.v 0#6), .clk (.v 1#6), .cvtF32S64 (.v 0#6) (.v 1#6),
  .cvtS64F32 (.v 1#6) (.v 0#6), .qntK8 (.v 0#6) (.v 1#6) 0#3 0#2, .qntS8 (.v 0#6) (.v 1#6) 0#3 0#2,
  .tmovToRegister (.v 0#6) 0#1 0#1 0#1 1#6 0#5, .tmovToSlice (.v 0#6) 0#1 0#1 0#1 1#6 0#5] :
  List Instr).all (fun i => !wellFormed i) = true := by decide

theorem smoke_loads : ([
  .ldS8 0#3 0#6 (.v 1#6) 0#6, .ldN8 0#3 0#6 (.v 1#6) 0#6, .ldS16 0#3 0#6 (.v 1#6) 0#6, .ldN16 0#3 0#6 (.v 1#6) 0#6,
  .ldB32 0#3 0#6 (.v 1#6) 0#6, .ldB64 0#3 0#6 (.v 1#6) 0#6, .ldB64 0#3 1#6 (.v 0#6) 0#6, .ldB128 0#3 0#6 (.v 1#6) 0#6,
  .ldB128 0#3 2#6 (.v 0#6) 0#6, .ldtB64 0#3 1#6 (.v 0#6) 0#6, .ldtB128 0#3 2#6 (.v 0#6) 0#6, .vmvK8 0#3 0#6 (.v 1#6) 0#6,
  .vmvBf16 0#3 0#6 (.v 1#6) 0#6, .vmvF32 0#3 0#6 (.v 1#6) 0#6, .stB8 (.v 0#6) (.v 1#6) 0#6, .stB16 (.v 0#6) (.v 1#6) 0#6,
  .stB32 (.v 0#6) (.v 1#6) 0#6, .stB64 (.v 0#6) (.v 1#6) 0#6, .stB64 (.v 1#6) (.v 0#6) 0#6, .stB128 (.v 0#6) (.v 1#6) 0#6,
  .stB128 (.g 2#6) (.v 0#6) 0#6, .sttB64 (.v 1#6) (.v 0#6) 0#6, .sttB128 (.g 2#6) (.v 0#6) 0#6] :
  List Instr).all (fun i => !wellFormed i) = true := by decide

theorem smoke_atomics : ([
  .atomAddS32 0#3 0#6 0#6 (.v 1#6), .atomAddF32 0#3 0#6 0#6 (.v 1#6), .atomMinS32 0#3 0#6 0#6 (.v 1#6),
  .atomMinN32 0#3 0#6 0#6 (.v 1#6), .atomMaxS32 0#3 0#6 0#6 (.v 1#6), .atomMaxN32 0#3 0#6 0#6 (.v 1#6),
  .atomAndB32 0#3 0#6 0#6 (.v 1#6), .atomOrB32 0#3 0#6 0#6 (.v 1#6), .atomXorB32 0#3 0#6 0#6 (.v 1#6),
  .atomExchB32 0#3 0#6 0#6 (.v 1#6), .atomCasB32 0#3 0#6 0#6 (.v 1#6), .atomCasB32 0#3 0#6 1#6 (.v 0#6),
  .atomAddS64 0#3 0#6 0#6 (.v 1#6), .atomAddS64 0#3 0#6 1#6 (.v 0#6), .atomAddS64 0#3 1#6 0#6 (.v 0#6),
  .atomExchB64 0#3 0#6 0#6 (.v 1#6), .atomExchB64 0#3 0#6 1#6 (.v 0#6), .atomExchB64 0#3 1#6 0#6 (.v 0#6),
  .atomCasB64 0#3 0#6 0#6 (.v 1#6), .atomCasB64 0#3 0#6 2#6 (.v 0#6), .atomCasB64 0#3 1#6 0#6 (.v 0#6),
  .atomAddS32Noret 0#6 (.v 1#6), .atomAddF32Noret 0#6 (.v 1#6), .atomMinS32Noret 0#6 (.v 1#6), .atomMinN32Noret 0#6 (.v 1#6),
  .atomMaxS32Noret 0#6 (.v 1#6), .atomMaxN32Noret 0#6 (.v 1#6), .atomAndB32Noret 0#6 (.v 1#6), .atomOrB32Noret 0#6 (.v 1#6),
  .atomXorB32Noret 0#6 (.v 1#6), .atomAddS64Noret 0#6 (.v 1#6), .atomAddS64Noret 1#6 (.v 0#6), .atomtCasB32 0#3 0#6 1#6 (.v 0#6)] :
  List Instr).all (fun i => !wellFormed i) = true := by decide

theorem smoke_synchronization : ([
  .wait 0#8, .tbar 8#4 (.v 0#6), .cbar 4#4 (.v 0#6), .gbar 2#4 (.v 0#6), .cvsign 0#4 (.v 0#6) 7#3,
  .ringwait 8#4 0#3 0#1 (.v 0#6), .ringpass 8#4 0#3 0#1 (.v 0#6)] :
  List Instr).all (fun i => !wellFormed i) = true := by decide

theorem smoke_tiles : ([
  .talloc 0#8 (.v 0#6) 3#2, .cpy 0#8 (.g 2#6) 0#3 0#5, .cpyg 0#8 (.g 2#6) 0#3, .cpst 0#8 (.g 2#6) 0#3 0#5] :
  List Instr).all (fun i => !wellFormed i) = true := by decide

theorem smoke_matrix : ([
  .mbindR 0#4 0#5 1#6 0#3 0#3, .msignReg 0#4 33#6, .msignSlice 0#4 0#1 0#1 1#6 0#5, .msignReReg 0#4 33#6,
  .msignReSlice 0#4 0#1 0#1 1#6 0#5, .mmac 2#5 0#6 0#3, .mmac 0#5 1#6 0#3, .accalloc 0#5 0#6, .accalloc 0#5 33#6,
  .accfree 0#5 0#6, .accfree 0#5 33#6, .mdrainMemory 0#5 2#6 0#3 0#3, .mdrainTMemory 0#5 2#6 0#3 0#3,
  .accld 49#6 0#5 0#1 0#2 0#3, .accst 49#6 0#5 0#1 0#2] :
  List Instr).all (fun i => !wellFormed i) = true := by decide

theorem smoke_units : ([
  .bpush 4#6 (.v 0#6) 0#3, .bpop 4#6 (.v 0#6) (.v 0#6) 0#3, .cont 4#6 (.v 0#6), .wgpush 4#6 (.v 0#6) 0#3,
  .mesh (.v 1#6) (.v 0#6) (.v 0#6) 0#3, .mesh (.v 0#6) (.v 0#6) (.v 1#6) 0#3, .fseal (.v 1#6) 0#3, .fwait (.v 1#6) (.v 0#6),
  .attr 0#6 4#6 (.v 0#6) 0#3, .attrD 0#6 4#6 (.v 0#6) 0#3, .bary 0#6 4#6 0#3, .smp 0#6 0#6 (.v 1#6) 0#3,
  .rldB32 0#3 0#6 (.v 1#6) 0#6, .rldB64 0#3 0#6 (.v 1#6) 0#6, .rldB64 0#3 1#6 (.v 0#6) 0#6, .rldB128 0#3 0#6 (.v 1#6) 0#6,
  .rldB128 0#3 2#6 (.v 0#6) 0#6, .rstB32 (.v 0#6) (.v 1#6) 0#6, .rstB64 (.v 0#6) (.v 1#6) 0#6, .rstB64 (.v 1#6) (.v 0#6) 0#6,
  .rstB128 (.v 0#6) (.v 1#6) 0#6, .rstB128 (.g 2#6) (.v 0#6) 0#6, .ratomAddS32 0#3 0#6 (.v 1#6) 0#6,
  .ratomAddS64 0#3 0#6 (.v 1#6) 0#6, .ratomAddS64 0#3 1#6 (.v 0#6) 0#6, .ratomExchB64 0#3 0#6 (.v 1#6) 0#6,
  .ratomExchB64 0#3 1#6 (.v 0#6) 0#6, .ratomCasB64 0#3 0#6 (.v 1#6) 0#6, .ratomCasB64 0#3 2#6 (.v 0#6) 0#6, .coll 1#6 0#3,
  .cwait 1#6 (.v 0#6)] :
  List Instr).all (fun i => !wellFormed i) = true := by decide
/-! ## Words that the spec spells out -/

-- R155 and the programs of 22_histogram, 25_queue_spill, 26_random_walk
theorem decode_control : decodeWord 0x00800012#32 = .ok (.bra 18#19) ∧
    decodeWord 0x0087FFFC#32 = .ok (.bra (BitVec.ofInt 19 (-4))) ∧ decodeWord 0x03800040#32 = .ok (.pause 64#19) ∧
    decodeWord 0x03000000#32 = .ok (.exit) :=
  ⟨rfl, rfl, rfl, rfl⟩

-- 23_barrier_ramp, 24_raster
theorem decode_uniform : decodeWord 0x08160400#32 = .ok (.gmov 11#6 (.imm 0#10)) ∧
    decodeWord 0x081007FF#32 = .ok (.gmov 8#6 (.imm 0x3FF#10)) :=
  ⟨rfl, rfl⟩

-- 22_histogram, 24_raster, 26_random_walk
theorem decode_integer : decodeWord 0x1000C1CD#32 = .ok (.add (.v 3#6) (.v 3#6) (.g 13#6)) ∧
    decodeWord 0x12A4048B#32 = .ok (.shr (.v 16#6) (.v 9#6) (.v 11#6)) ∧
    decodeWord 0x13644800#32 = .ok (.popc (.v 17#6) (.v 16#6)) ∧ decodeWord 0x11C44500#32 = .ok (.abs (.v 17#6) (.v 10#6)) ∧
    decodeWord 0x13C3E200#32 = .ok (.mov (.v 15#6) (.g 4#6)) ∧
    decodeWord 0x1D24100A#32 = .ok (.shlImm (.v 18#6) (.v 4#6) 10#10) ∧
    decodeWord 0x18142BFF#32 = .ok (.addImm (.v 10#6) (.v 10#6) 0x3FF#10) ∧
    decodeWord 0x1F060003#32 = .ok (.movi (.v 3#6) 3#10) :=
  ⟨rfl, rfl, rfl, rfl, rfl, rfl, rfl, rfl⟩

-- R197, R206
theorem decode_float : decodeWord 0x28201083#32 = .ok (.fmaF32 8#6 1#6 2#6 3#6) ∧
    decodeWord 0x31C50712#32 = .ok (.qntK8 (.v 20#6) (.v 14#6) 2#3 2#2) :=
  ⟨rfl, rfl⟩

-- 10_exchange
theorem decode_exchange : decodeWord 0x3BC18200#32 = .ok (.xmatch (.v 3#6) (.v 2#6)) ∧
    decodeWord 0x38838280#32 = .ok (.xshiftDn (.v 7#6) (.v 2#6) (.g 0#6)) ∧
    decodeWord 0x3D029046#32 = .ok (.tmovToRegister (.v 5#6) 0#1 0#1 1#1 1#6 3#5) ∧
    decodeWord 0x3D41600E#32 = .ok (.tmovToSlice (.v 2#6) 1#1 1#1 0#1 0#6 7#5) ∧ decodeWord 0x3D800000#32 = .ok (.ttr 0#1) :=
  ⟨rfl, rfl, rfl, rfl, rfl⟩

-- 22_histogram, 26_random_walk
theorem decode_compare : decodeWord 0x40008A93#32 = .ok (.icmpEq 2#3 (.v 21#6) (.v 19#6)) ∧
    decodeWord 0x404088C8#32 = .ok (.icmpLtS32 2#3 (.v 17#6) (.g 8#6)) ∧
    decodeWord 0x40C08083#32 = .ok (.icmpLtN32 2#3 (.v 1#6) (.v 3#6)) :=
  ⟨rfl, rfl, rfl⟩

-- R104, R132
theorem decode_system : decodeWord 0x48080020#32 = .ok (.mfs (.v 4#6) 0x020#10) ∧
    decodeWord 0x48840039#32 = .ok (.mfs (.g 2#6) 0x039#10) :=
  ⟨rfl, rfl⟩

-- 22_histogram, 24_raster
theorem decode_memory : decodeWord 0x660AC892#32 = .ok (.atomtAddS32 1#3 22#6 17#6 (.v 18#6)) ∧
    decodeWord 0x5B808200#32 = .ok (.sttB128 (.v 4#6) (.v 8#6) 0#6) :=
  ⟨rfl, rfl⟩

-- R242
theorem decode_barrier : decodeWord 0x7028A000#32 = .ok (.rbset 2#4 (.g 5#6)) ∧
    decodeWord 0x7208C000#32 = .ok (.tbar 0#4 (.g 6#6)) ∧ decodeWord 0x75308800#32 = .ok (.cvsign 3#4 (.v 4#6) 2#3) ∧
    decodeWord 0x76190200#32 = .ok (.ringwait 1#4 0#3 1#1 (.g 8#6)) ∧
    decodeWord 0x770B0000#32 = .ok (.ringpass 0#4 0#3 0#1 (.g 24#6)) :=
  ⟨rfl, rfl, rfl, rfl, rfl⟩

-- R228
theorem decode_overlay : decodeWord 0x78300015#32 = .ok (.ovload 3#4 21#12) ∧ decodeWord 0x79300000#32 = .ok (.ovdrop 3#4) ∧
    decodeWord 0x7A000015#32 = .ok (.ovinv 21#12) ∧ decodeWord 0x7B308000#32 = .ok (.ovq (.v 4#6) 3#4) :=
  ⟨rfl, rfl, rfl, rfl⟩

-- 16_tile, 27_patch_embed
theorem decode_tile : decodeWord 0x81A03100#32 = .ok (.cpy 3#8 (.v 8#6) 2#3 0#5) ∧
    decodeWord 0x81800B80#32 = .ok (.cpy 0#8 (.g 28#6) 0#3 0#5) :=
  ⟨rfl, rfl⟩

-- R340, 23_barrier_ramp, 27_patch_embed
theorem decode_matrix : decodeWord 0x8900004A#32 = .ok (.mbind 0#4 0#5 1#8 1#3 2#3) ∧
    decodeWord 0x8980008A#32 = .ok (.mbindR 0#4 0#5 2#6 1#3 2#3) ∧ decodeWord 0x8A000000#32 = .ok (.msignReg 0#4 0#6) ∧
    decodeWord 0x8B000000#32 = .ok (.msignReReg 0#4 0#6) ∧ decodeWord 0x8C080000#32 = .ok (.msignReNone 1#4) ∧
    decodeWord 0x90000040#32 = .ok (.accalloc 0#5 4#6) ∧ decodeWord 0x90800040#32 = .ok (.accfree 0#5 4#6) ∧
    decodeWord 0x92480026#32 = .ok (.mdrainMemory 0#5 8#6 2#3 3#3) ∧
    decodeWord 0x92CC0836#32 = .ok (.mdrainTMemory 1#5 12#6 3#3 3#3) :=
  ⟨rfl, rfl, rfl, rfl, rfl, rfl, rfl, rfl, rfl⟩

-- 24_raster, 25_queue_spill, 26_random_walk, 27_patch_embed, R422
theorem decode_units : decodeWord 0xA5200442#32 = .ok (.wgpush 8#6 (.g 2#6) 1#3) ∧
    decodeWord 0xA200044D#32 = .ok (.cont 8#6 (.g 13#6)) ∧
    decodeWord 0xA830848A#32 = .ok (.mesh (.g 2#6) (.v 9#6) (.v 10#6) 1#3) ∧
    decodeWord 0xA9508000#32 = .ok (.fseal (.g 2#6) 2#3) ∧ decodeWord 0xAA10A200#32 = .ok (.fwait (.g 2#6) (.g 4#6)) ∧
    decodeWord 0xB0040040#32 = .ok (.attr 16#6 0#6 (.g 0#6) 0#3) ∧ decodeWord 0xBD301100#32 = .ok (.coll 4#6 3#3) ∧
    decodeWord 0xBD813180#32 = .ok (.cwait 6#6 (.v 9#6)) :=
  ⟨rfl, rfl, rfl, rfl, rfl, rfl, rfl, rfl⟩

-- R34, R50, R51: headers and prefixes of 23_barrier_ramp, 24_raster, 27_patch_embed
theorem decode_prefixes : decodeWord 0xF8000623#32 = .error .header ∧ decodeWord 0xE8050000#32 = .error .isPrefix ∧
    modOfWord 0xE8050000#32 = some { Mod.plain with neg := true, pred := 2#3 } ∧ immOfWord 0xE0000C8F#32 = some 0x000C8F#24 ∧
    headerOfWord 0xF8000623#32 = { headerOfWord 0xF8000000#32 with wait := 0x0C#8, eclass := 2#3, count := 3#4 } :=
  ⟨rfl, rfl, rfl, rfl, rfl⟩
/-! ## One step on a small state

`one v g` has one thread, home thread 0 of group 4, at a unit; `many ts vs g` has the threads `ts`, v2 of the i-th being the
i-th of `vs`. -/

def base : State := State.reset.withFetchWord 32 0

def one (v g : WordMap) : State :=
  base.updGroup 4 fun x => { x with g := g, threads := x.threads.map fun th => { th with v := v } }

def setV2 (g : Group) : List (Nat × Word) → Group
  | [] => g
  | (t, w) :: r => setV2 (g.updThread t fun th => { th with v := [(2, w)] }) r

def many (l : List (Nat × Word)) (g : WordMap) : State :=
  (base.updGroup 4 fun x => setV2 { x with g := g } l).onDev fun d =>
    { d with streams := d.streams.map fun x => { x with mask := l.foldl (fun m t => m ||| 1#32 <<< t.1) 0#32 } }

noncomputable def after (i : Instr) (s : State) : Option State :=
  match exec i s with
  | .next t => some t
  | _ => none

noncomputable def thread (i : Instr) (s : State) (k : Nat) : Option Thread := (after i s).bind fun t => (t.group? 4).bind fun g => g.thread? k
noncomputable def vReg (i : Instr) (s : State) (r : Nat) : Option Word := (thread i s 0).map fun th => mget th.v r
noncomputable def gReg (i : Instr) (s : State) (r : Nat) : Option Word := ((after i s).bind fun t => t.group? 4).map fun g => mget g.g r
noncomputable def preds (i : Instr) (s : State) : Option (BitVec 7) := (thread i s 0).map fun th => th.p
noncomputable def flags (i : Instr) (s : State) : Option (BitVec 6) := (thread i s 0).map fun th => th.fpflags
noncomputable def column (i : Instr) (s : State) (ts : List Nat) (r : Nat) : List (Option Word) := ts.map fun k => (thread i s k).map fun th => mget th.v r

-- R170, R172, R71: a sum wraps; a saturated one does not
theorem test_add_wraps : vReg (.add (.v 3#6) (.v 1#6) (.v 2#6)) (one [(1, 0x7FFFFFFF#32), (2, 1#32)] []) 3 = some 0x80000000#32 := rfl
-- R171
theorem test_div_truncates : vReg (.divS32 (.v 3#6) (.v 1#6) (.v 2#6)) (one [(1, BitVec.ofInt 32 (-7)), (2, 2#32)] []) 3 = some (BitVec.ofInt 32 (-3)) := rfl
theorem test_rem_sign : vReg (.remS32 (.v 3#6) (.v 1#6) (.v 2#6)) (one [(1, BitVec.ofInt 32 (-7)), (2, 2#32)] []) 3 = some (BitVec.ofInt 32 (-1)) := rfl
-- R172: the amount is operand b modulo 32
theorem test_sha : vReg (.sha (.v 3#6) (.v 1#6) (.v 2#6)) (one [(1, 0x80000000#32), (2, 33#32)] []) 3 = some 0xC0000000#32 := rfl
-- R168: a source that is also the destination
theorem test_gsub_in_place : gReg (.gsub 1#6 1#6 (.reg 1#6)) (one [] [(1, 5#32)]) 1 = some 0#32 := rfl
-- R174: imm10 is sign-extended
theorem test_addImm : vReg (.addImm (.v 10#6) (.v 10#6) 0x3FF#10) (one [(10, 5#32)] []) 10 = some 4#32 := rfl
-- R175: the carry reaches the odd register
theorem test_add64_carry : vReg (.add64 (.v 4#6) (.v 0#6) (.v 2#6)) (one [(0, 0xFFFFFFFF#32), (2, 1#32)] []) 5 = some 1#32 := rfl
-- R177: signed and unsigned order differ
theorem test_icmp_signed : preds (.icmpLtS32 1#3 (.v 1#6) (.v 2#6)) (one [(1, 0xFFFFFFFF#32), (2, 0#32)] []) = some 0b0000010#7 := rfl
theorem test_icmp_unsigned : preds (.icmpLtN32 1#3 (.v 1#6) (.v 2#6)) (one [(1, 0xFFFFFFFF#32), (2, 0#32)] []) = some 0#7 := rfl
-- R177: −0 equals +0
theorem test_fcmp_zeros : preds (.fcmpEqF32 0#3 (.v 1#6) (.v 2#6)) (one [(1, 0x80000000#32)] []) = some 1#7 := rfl
-- the table of 10_exchange, "A divergent stream worked"
def seven : State := many [(0, 7#32), (1, 3#32), (2, 7#32), (3, 3#32), (5, 7#32), (6, 8#32), (9, 3#32)] [(0, 1#32)]
def sevenThreads : List Nat := [0, 1, 2, 3, 5, 6, 9]
theorem test_xmatch : column (.xmatch (.v 3#6) (.v 2#6)) seven sevenThreads 3 =
    [some 0x25#32, some 0x20A#32, some 0x25#32, some 0x20A#32, some 0x25#32, some 0x40#32, some 0x20A#32] := rfl
theorem test_xscan : column (.xscanAddS32 (.v 3#6) (.v 2#6)) seven sevenThreads 3 =
    [some 7#32, some 10#32, some 17#32, some 20#32, some 27#32, some 35#32, some 38#32] := rfl
theorem test_xred : column (.xredAddS32 (.v 3#6) (.v 2#6)) seven sevenThreads 3 = List.replicate 7 (some 38#32) := rfl
theorem test_xquadH : column (.xquadH (.v 2#6) (.v 2#6)) seven sevenThreads 2 =
    [some 3#32, some 7#32, some 3#32, some 7#32, some 7#32, some 8#32, some 3#32] := rfl
theorem test_xshiftDn : column (.xshiftDn (.v 3#6) (.v 2#6) (.g 0#6)) seven sevenThreads 3 =
    [some 3#32, some 7#32, some 3#32, some 3#32, some 8#32, some 8#32, some 3#32] := rfl
theorem test_xbcast : column (.xbcast (.v 3#6) (.v 2#6)) seven sevenThreads 3 = List.replicate 7 (some 7#32) := rfl
-- the packed example of 09_float, with saturation and without
def packedRegs : State := one [(1, 0x7F003F80#32), (2, 0x40803F81#32), (3, 0x00003B80#32)] []
def saturated (s : State) : State := s.onDev fun d => { d with streams := d.streams.map fun x => { x with sat := true } }
theorem test_fma_sat : vReg (.fmaBf16x2 4#6 1#6 2#6 3#6) (saturated packedRegs) 4 = some 0x7F7F3F82#32 := rfl
theorem test_fma : vReg (.fmaBf16x2 4#6 1#6 2#6 3#6) packedRegs 4 = some 0x7F803F82#32 := rfl
theorem test_fma_flags : flags (.fmaBf16x2 4#6 1#6 2#6 3#6) packedRegs = some (flagOF ||| flagNX) ∧
    flags (.fmaBf16x2 4#6 1#6 2#6 3#6) (saturated packedRegs) = some (flagST ||| flagNX) := ⟨rfl, rfl⟩
-- the quantising example of 09_float, lanes 0, 1 and 3
def quantising (x : Word) : State :=
  (one [(10, x), (11, 0x00080005#32)] []).onDev fun d => { d with grids := d.grids.map fun g =>
    { g with lr := { g.lr with fs := [⟨3, 1, 0, 1, 0, 16, 0, 0x40000000⟩] } } }
theorem test_qnt_inexact : vReg (.qntK8 (.v 20#6) (.v 10#6) 0#3 0#2) (quantising 0x3DCCCCCD#32) 20 = some 0x0D#32 := rfl

theorem test_qnt_negative : vReg (.qntK8 (.v 20#6) (.v 10#6) 0#3 1#2) (quantising 0xC0400000#32) 20 = some 0xF400#32 := rfl
theorem test_qnt_exact : vReg (.qntK8 (.v 20#6) (.v 10#6) 0#3 3#2) (quantising 0x3CC00000#32) 20 = some 0x03000000#32 := rfl
-- R170, R207: packing and the byte lanes
theorem test_pack : vReg (.packB16 (.v 3#6) (.v 1#6) (.v 2#6)) (one [(1, 0x11112222#32), (2, 0x33334444#32)] []) 3 = some 0x44442222#32 := rfl
-- R99, R183: a fault with no handler freezes the context, cause 1
theorem test_trap_without_handler : ((after (.trap 5#10) base).bind fun t => t.ctx? 0).map (fun c => (c.st, c.fault.cause)) = some (.frozen, 1) := rfl
-- R166
theorem test_exit : (thread .exit base 0).map (fun th => th.ended) = some true := rfl
-- R304: a store to virtual page 0 takes access violation, and the context freezes
theorem test_store_page_zero : ((after (.stB32 (.v 1#6) (.v 2#6) 0#6) base).bind fun t => t.ctx? 0).map (fun c => (c.st, c.fault.w)) =
    some (.frozen, 0x11#32) := rfl
-- R262 to R265: the walk of 13_page, "A worked translation"
def tables : State :=
  (base.onDev fun d => { d with ctxs := d.ctxs.map fun c => { c with e := { c.e with root := 0x004000000000, asn := 7 } } })
    |>.put 0x004000000090 (bytesOf [0x00001001#32, 0x00000040#32]) |>.put 0x004000001340 (bytesOf [0x00002001#32, 0x00000040#32])
    |>.put 0x004000002AC8 (bytesOf [0x00003001#32, 0x00000040#32]) |>.put 0x004000003EA8 (bytesOf [0x0040002F#32, 0x00000012#32])
theorem test_walk : (match tables.walk 0 0x0012_3456_7ABC_D123 with
    | .leaf e => some (e.pa 0x0012_3456_7ABC_D123, e.size, e.typ)
    | _ => none) = some (0x0012_005C_D123, 2 ^ 21, 0) := rfl

/-! ## The hypotheses of the statements are met

One theorem or more for each statement that has hypotheses: a state, and operands, that meet all of them together. -/

theorem met_issues : ∃ st g, base.Issues st g := ⟨_, _, rfl, rfl⟩
theorem met_issuesOne : ∃ st g k th, base.IssuesOne st g k th := ⟨_, _, _, _, ⟨rfl, rfl⟩, rfl, rfl, rfl⟩

theorem met_UniformAluResults : ∃ st g, base.Issues st g := met_issues

def offset (a : Nat) (imm : BitVec 10) (g : Group) : Nat := ((mget g.g a).toNat + (imm.signExtend 32).toNat) % 2 ^ 32
def argument (g1 : Word) (w : WinWord) : State :=
  (one [] [(1, g1)]).onDev fun d => { d with teams := d.teams.map fun t => { t with window := some (w :: List.replicate 255 (.ok 0#32)) } }
/-- What the part about `GLD` asks, with `G[1]` and the window's first word given. -/
def GldMet (g1 : Word) (w : WinWord) (p : Nat → List WinWord → Prop) : Prop :=
  let s := argument g1 w
  ∃ st g k th tm win, s.Issues st g ∧ firstOn st g st.threads = some k ∧ g.thread? k = some th ∧ s.team? g.team = some tm ∧
    tm.window = some win ∧ win.length = 256 ∧ p (offset 1 0#10 g) win
theorem met_UniformAluResults_odd : GldMet 2#32 (.ok 7#32) fun o _ => o % 4 ≠ 0 :=
  ⟨_, _, _, _, _, _, ⟨rfl, rfl⟩, rfl, rfl, rfl, rfl, rfl, by decide⟩
theorem met_UniformAluResults_past : GldMet 1024#32 (.ok 7#32) fun o _ => o % 4 = 0 ∧ 1024 ≤ o :=
  ⟨_, _, _, _, _, _, ⟨rfl, rfl⟩, rfl, rfl, rfl, rfl, rfl, by decide⟩
theorem met_UniformAluResults_last : GldMet 1020#32 (.ok 7#32) fun o win => o % 4 = 0 ∧ o < 1024 ∧ ∃ w, win[o / 4]? = some (.ok w) :=
  ⟨_, _, _, _, _, _, ⟨rfl, rfl⟩, rfl, rfl, rfl, rfl, rfl, by decide, by decide, _, rfl⟩
theorem met_UniformAluResults_bad : GldMet 0#32 (.bad 0x10#8) fun o win => o % 4 = 0 ∧ o < 1024 ∧ ∃ c, win[o / 4]? = some (.bad c) :=
  ⟨_, _, _, _, _, _, ⟨rfl, rfl⟩, rfl, rfl, rfl, rfl, rfl, by decide, by decide, _, rfl⟩

theorem met_IntegerResults : ∃ st g, base.Issues st g := met_issues
theorem met_IntegerResults_clz (A : Word) (h : A = 0x80000000#32) : A.getLsbD 31 = true ∧ ∀ j, 31 < j → A.getLsbD j = false := by
  subst h; exact ⟨rfl, fun j hj => BitVec.getLsbD_of_ge _ _ hj⟩

theorem met_DivisionResults_divides : ∃ st g, (one [(1, 7#32), (2, 1#32)] []).Issues st g ∧
    Finds st false (.v 3#6) (fun g th => [rd g th (.v 1#6)]) (fun g th => rd g th (.v 2#6) ≠ 0#32) g :=
  ⟨_, _, ⟨rfl, rfl⟩, by show _ ≠ _; decide, trivial⟩
theorem met_DivisionResults_zero : ∃ st g pre k post th, base.Issues st g ∧ st.threads = pre ++ k :: post ∧
    eachInTurn st (fun g _ _ => g) (fun g th => rd g th (.v 2#6) ≠ 0#32) pre g ∧
    (inTurn st (fun g _ _ => g) pre g).thread? k = some th ∧ predOn st th = true ∧
    ¬ rd (inTurn st (fun g _ _ => g) pre g) th (.v 2#6) ≠ 0#32 :=
  ⟨_, _, [], 0, [], _, ⟨rfl, rfl⟩, rfl, trivial, rfl, rfl, by decide⟩
theorem met_DivisionResults_uniform : ∃ st g k th, base.Issues st g ∧ firstOn st g st.threads = some k ∧ g.thread? k = some th ∧
    ¬ rd g th (.g 2#6) ≠ 0#32 := ⟨_, _, _, _, ⟨rfl, rfl⟩, rfl, rfl, by decide⟩

theorem met_ImmediateAndPairResults : ∃ st g, base.Issues st g ∧ st.imm = none ∧ ((31#10).signExtend 32).toNat < 32 :=
  ⟨_, _, ⟨rfl, rfl⟩, rfl, by decide⟩

theorem met_CompareAndPredicateResults : ∃ st g, base.Issues st g := met_issues

theorem met_SystemRegisters : ∃ st g k th c gr tm cl, base.IssuesOne st g k th ∧ base.ctx? g.ctx = some c ∧
    base.grid? g.grid = some gr ∧ base.team? g.team = some tm ∧ base.cluster? tm.cluster = some cl :=
  ⟨_, _, _, _, _, _, _, _, ⟨⟨rfl, rfl⟩, rfl, rfl, rfl⟩, rfl, rfl, rfl, rfl⟩

theorem met_BranchesAndThreadEnds_lands : ∃ st g k th kp, base.IssuesOne st g k th ∧ (base.core st.core).copy? th.copy = some kp ∧
    kp.Lands th.start (st.jump 0#19) ∧ ¬ kp.Inside th.start (st.jump 1024#19) ∧ kp.Inside th.start (st.jump 1#19) ∧
    kp.Inside th.start (st.jump 1023#19) ∧ ¬ kp.Lands th.start (st.jump 1#19) :=
  ⟨_, _, _, _, _, ⟨⟨rfl, rfl⟩, rfl, rfl, rfl⟩, rfl, by unfold Copy.Lands Copy.Inside; decide, by unfold Copy.Inside; decide,
    by unfold Copy.Inside; decide, by unfold Copy.Inside; decide, by unfold Copy.Lands Copy.Inside; decide⟩
theorem met_BranchesAndThreadEnds_pause : ∃ st g k, base.Issues st g ∧ firstOn st g st.threads = some k := ⟨_, _, _, ⟨rfl, rfl⟩, rfl⟩
def shading (helper : Bool) : State := base.updThread 4 0 fun th => { th with pixel := some ⟨6, 0, 1, 1, helper⟩ }
theorem met_BranchesAndThreadEnds_ends : ∃ st g k th tm, base.IssuesOne st g k th ∧ base.team? g.team = some tm ∧
    (∀ c ∈ tm.cv, c = .free) ∧ th.pixel = none := ⟨_, _, _, _, _, ⟨⟨rfl, rfl⟩, rfl, rfl, rfl⟩, rfl, by decide, rfl⟩
theorem met_BranchesAndThreadEnds_kill : ∃ st g k th tm p, (shading false).IssuesOne st g k th ∧ (shading false).team? g.team = some tm ∧
    (∀ c ∈ tm.cv, c = .free) ∧ th.pixel = some p ∧ p.helper = false := ⟨_, _, _, _, _, _, ⟨⟨rfl, rfl⟩, rfl, rfl, rfl⟩, rfl, by decide, rfl, rfl⟩
theorem met_BranchesAndThreadEnds_helper : ∃ st g k th, (shading true).IssuesOne st g k th ∧ ∃ p, th.pixel = some p ∧ p.helper = true :=
  ⟨_, _, _, _, ⟨⟨rfl, rfl⟩, rfl, rfl, rfl⟩, _, rfl, rfl⟩

/-- A leaf that maps the first 2 MiB of the address space, in both of core 0's TLBs. -/
def leaf2M (typ : Nat) : TlbEntry := ⟨0, 0, 2 ^ 21, 0x200000, typ, true, true, true, true, 0, 0, false⟩
def mapped (s : State) : State := s.updCore 0 fun c => { c with tlb := [leaf2M 0], walkTlb := [leaf2M 0] }
/-- An overlay table of one entry, of overlay 0, at virtual address 0x10000. -/
def tabled : State :=
  ((mapped base).put 0x210000 [0#8, 0#8, 1#8]).onDev fun d => { d with grids := d.grids.map fun g =>
    { g with lr := { g.lr with ovtable := 0x10000, ovcount := 1 } } }
def calls (n : Nat) (s : State) : State := s.updGroup 4 fun g => { g with rstack := List.replicate n ⟨0#32, 0, 0, 5, 0, 1#32⟩ }
theorem met_CallsAndReturns_call : ∃ st g k th kp own, (calls 7 base).IssuesOne st g k th ∧ ((calls 7 base).core st.core).copy? th.copy = some kp ∧
    (calls 7 base).bindOf g th = some own ∧ kp.Lands th.start (st.jump 0#19) ∧ g.rstack.length < 8 :=
  ⟨_, _, _, _, _, _, ⟨⟨rfl, rfl⟩, rfl, rfl, rfl⟩, rfl, rfl, by unfold Copy.Lands Copy.Inside; decide, by decide⟩
theorem met_CallsAndReturns_full : ∃ st g k th kp own, (calls 8 base).IssuesOne st g k th ∧ ((calls 8 base).core st.core).copy? th.copy = some kp ∧
    (calls 8 base).bindOf g th = some own ∧ kp.Lands th.start (st.jump 0#19) ∧ 8 ≤ g.rstack.length :=
  ⟨_, _, _, _, _, _, ⟨⟨rfl, rfl⟩, rfl, rfl, rfl⟩, rfl, rfl, by unfold Copy.Lands Copy.Inside; decide, by decide⟩
theorem met_CallsAndReturns_callx : ∃ s1 st g k th gr img e kp b own, tabled.IssuesOne st g k th ∧ tabled.grid? g.grid = some gr ∧
    tabled.imageOf gr th.inTrap = some img ∧
    tabled.searchTable g.core g.ctx 0 (fun x => x.holds (st.jump 0#19).toNat) img.count img.table = (s1, .found e) ∧
    s1.group? st.grp = some g ∧ (s1.core g.core).bound? g.ctx img.base e.id = some (kp, b) ∧
    kp.Lands b.start (st.jump 0#19) ∧ g.rstack.length < 8 ∧ s1.bindOf g th = some own :=
  ⟨_, _, _, _, _, _, _, _, _, _, _, ⟨⟨rfl, rfl⟩, rfl, rfl, rfl⟩, rfl, rfl, rfl, rfl, rfl, by unfold Copy.Lands Copy.Inside; decide, by decide, rfl⟩
theorem met_CallsAndReturns_none : ∃ st g k th, base.IssuesOne st g k th ∧ ∀ x ∈ g.rstack, x.mask.getLsbD k = false :=
  ⟨_, _, _, _, ⟨⟨rfl, rfl⟩, rfl, rfl, rfl⟩, by decide⟩
theorem met_CallsAndReturns_ret : ∃ st g k th below above e kp, (calls 1 base).IssuesOne st g k th ∧ g.rstack = below ++ e :: above ∧
    e.mask.getLsbD k = true ∧ (∀ x ∈ above, x.mask.getLsbD k = false) ∧ ((calls 1 base).core st.core).copy? e.copy = some kp ∧
    kp.Lands e.start e.ret :=
  ⟨_, _, _, _, [], [], _, _, ⟨⟨rfl, rfl⟩, rfl, rfl, rfl⟩, rfl, rfl, by decide, rfl, by unfold Copy.Lands Copy.Inside; decide⟩

/-- The trap handler of grid 1: overlay 9 of the image at 0x100, whose entry is the header at 0 of the resident copy. -/
def handled (s : State) : State :=
  (s.onDev fun d => { d with grids := d.grids.map fun g =>
    { g with trap := .ok 0 0, lr := { g.lr with trapimg := 0x100, trapov := 9 } } }).updCore 0 fun c =>
      { c with copies := c.copies.map fun k => { k with binds := k.binds ++ [⟨0, 0x100, 9, 0, 0, false, false⟩] } }
def inTrap (xpc : Word) (s : State) : State := s.updThread 4 0 fun th => { th with inTrap := true, xpc := xpc }
theorem met_TrapEntryAndFreeze_handler : ∃ g k th gr entry kp b, (handled base).group? g.id = some g ∧ g.thread? k = some th ∧
    (handled base).HandlerReady g gr entry kp b ∧ th.inTrap = false :=
  ⟨(handled base).dev.groups.head (List.cons_ne_nil _ _), 0, _, _, _, _, _, rfl, rfl, ⟨rfl, by decide, ⟨_, _, rfl⟩, _, _, rfl, rfl, by unfold Copy.Lands Copy.Inside; decide⟩, rfl⟩
theorem met_TrapEntryAndFreeze_none : ∃ g k th gr c, base.group? g.id = some g ∧ g.thread? k = some th ∧ base.grid? g.grid = some gr ∧
    base.ctx? g.ctx = some c ∧ c.st = .active ∧ (base.handler gr = none ∨ th.inTrap = true) :=
  ⟨base.dev.groups.head (List.cons_ne_nil _ _), 0, _, _, _, rfl, rfl, rfl, rfl, rfl, .inl rfl⟩
/-- Context 0, frozen at this clk by a fault of group slot 3, which comes after one of slot 0. -/
def froze (place : Word) (s : State) : State := s.updCtx 0 fun c => { c with st := .frozen, froze := some (s.dev.clk, c.fault), fault := ⟨place, 0#32, 1, 0#64⟩ }
theorem met_TrapEntryAndFreeze_later : let s := froze 0#32 base; ∃ g k th gr c, s.group? g.id = some g ∧ g.thread? k = some th ∧
    s.grid? g.grid = some gr ∧ s.ctx? g.ctx = some c ∧ s.handler gr = none ∧ c.st = .frozen ∧
    ∀ f, c.froze = some f → f.1 = s.dev.clk → faultPlace c.fault.w ≤ faultPlace (BitVec.ofNat 32 (1 + g.core * 2 ^ 8 + g.reed * 2 ^ 16 + g.rslot * 2 ^ 23 + k * 2 ^ 25)) :=
  ⟨(froze 0#32 base).dev.groups.head (List.cons_ne_nil _ _), 0, _, _, _, rfl, rfl, rfl, rfl, rfl, rfl, fun _ _ _ => by decide⟩
theorem met_TrapEntryAndFreeze_earlier : let s := froze 0x01800000#32 base; ∃ g k th gr c f, s.group? g.id = some g ∧ g.thread? k = some th ∧
    s.grid? g.grid = some gr ∧ s.ctx? g.ctx = some c ∧ s.handler gr = none ∧ c.st = .frozen ∧ c.froze = some f ∧ f.1 = s.dev.clk ∧
    faultPlace (BitVec.ofNat 32 (1 + g.core * 2 ^ 8 + g.reed * 2 ^ 16 + g.rslot * 2 ^ 23 + k * 2 ^ 25)) < faultPlace c.fault.w :=
  ⟨(froze 0x01800000#32 base).dev.groups.head (List.cons_ne_nil _ _), 0, _, _, _, _, rfl, rfl, rfl, rfl, rfl, rfl, rfl, rfl, by decide⟩
theorem met_TrapEntryAndFreeze_inside : let s := inTrap 0#32 (handled base); ∃ g k th gr c, s.group? g.id = some g ∧ g.thread? k = some th ∧
    s.grid? g.grid = some gr ∧ s.ctx? g.ctx = some c ∧ c.st = .active ∧ (s.handler gr = none ∨ th.inTrap = true) :=
  ⟨(inTrap 0#32 (handled base)).dev.groups.head (List.cons_ne_nil _ _), 0, _, _, _, rfl, rfl, rfl, rfl, rfl, .inr rfl⟩

theorem met_TrapInstructions_trap : ∃ st g k th gr entry kp b, (handled base).IssuesOne st g k th ∧
    (handled base).HandlerReady g gr entry kp b ∧ th.inTrap = false :=
  ⟨_, _, _, _, _, _, _, _, ⟨⟨rfl, rfl⟩, rfl, rfl, rfl⟩, ⟨rfl, by decide, ⟨_, _, rfl⟩, _, _, rfl, rfl, by unfold Copy.Lands Copy.Inside; decide⟩, rfl⟩
theorem met_TrapInstructions_misaligned : ∃ st g k th gr, (inTrap 2#32 base).IssuesOne st g k th ∧ (inTrap 2#32 base).grid? g.grid = some gr ∧
    th.inTrap = true ∧ th.xpc.toNat % 4 ≠ 0 := ⟨_, _, _, _, _, ⟨⟨rfl, rfl⟩, rfl, rfl, rfl⟩, rfl, rfl, by decide⟩
theorem met_TrapInstructions_rti : let s := inTrap 4#32 tabled; ∃ s1 st g k th gr img e kp b, s.IssuesOne st g k th ∧
    s.grid? g.grid = some gr ∧ th.inTrap = true ∧ th.xpc.toNat % 4 = 0 ∧ s.imageOf gr false = some img ∧
    s.searchTable g.core g.ctx 0 (fun x => x.holds th.xpc.toNat) img.count img.table = (s1, .found e) ∧
    (s1.core g.core).bound? g.ctx img.base e.id = some (kp, b) :=
  ⟨_, _, _, _, _, _, _, _, _, _, ⟨⟨rfl, rfl⟩, rfl, rfl, rfl⟩, rfl, rfl, rfl, rfl, rfl, rfl⟩

/-- Every enabled exception of the thread would fault. -/
def trapping (v : WordMap) : State := (one v []).updThread 4 0 fun th => { th with fptraps := 3#2 }
theorem met_FloatVectorResults : ∃ st g, base.Issues st g ∧
    eachInTurn st (fpAct (.v 3#6) fun _ _ => ([0#32], flagIV)) (fun _ th => Untrapped th flagIV) st.threads g :=
  ⟨_, _, ⟨rfl, rfl⟩, by unfold Untrapped; decide, trivial⟩
theorem met_FloatVectorResults_trapped : ∃ st g k th, (trapping []).Issues st g ∧ st.threads = [k] ∧ g.thread? k = some th ∧
    predOn st th = true ∧ ¬ Untrapped th flagIV := ⟨_, _, _, _, ⟨rfl, rfl⟩, rfl, rfl, rfl, by unfold Untrapped; decide⟩

theorem met_FusedAndTranscendental : ∃ st g k th, base.IssuesOne st g k th ∧ base.hasRoom st.grp 7 = true ∧ Untrapped th flagIV :=
  ⟨_, _, _, _, ⟨⟨rfl, rfl⟩, rfl, rfl, rfl⟩, rfl, by unfold Untrapped; decide⟩
theorem met_FusedAndTranscendental_trapped : ∃ st g k th, (trapping []).IssuesOne st g k th ∧ (trapping []).hasRoom st.grp 7 = true ∧
    ¬ Untrapped th flagDZ := ⟨_, _, _, _, ⟨⟨rfl, rfl⟩, rfl, rfl, rfl⟩, rfl, by unfold Untrapped; decide⟩

theorem met_ConversionResults : let s := quantising 0x3CC00000#32; ∃ st g k th gr f, s.IssuesOne st g k th ∧ s.grid? g.grid = some gr ∧
    gr.lr.fs[0]? = some f ∧ f.fmt = 3 ∧ f.scale ≤ 1 ∧ f.fmt ≠ 4 ∧
    (f.encode (exMul (fp32.decode (rd g th (.v 10#6)).toNat) (fp32.decode f.scaleref)).1).out = none ∧
    (f.encode (exMul (fp32.decode (rd g th (.v 10#6)).toNat) (fp32.decode f.scaleref)).1).flags = 0 :=
  ⟨_, _, _, _, _, _, ⟨⟨rfl, rfl⟩, rfl, rfl, rfl⟩, rfl, rfl, rfl, by decide, by decide, rfl, rfl⟩

def unpredicated (s : State) : Prop := ∃ (st : Stream) (g : Group) (th : Nat → Thread), s.Issues st g ∧ st.pred = 7#3 ∧ st.neg = false ∧
  ∀ k ∈ st.threads, g.thread? k = some (th k)
theorem met_ExchangeResults : unpredicated seven :=
  ⟨_, _, fun k => ((seven.group? 4).bind fun g => g.thread? k).getD (Thread.fresh 0#32 0), ⟨rfl, rfl⟩, rfl, rfl, by decide⟩
theorem met_ExchangeResults_slices : ∃ (st : Stream) (g : Group) (th : Nat → Thread), base.Issues st g ∧ st.pred = 7#3 ∧ st.neg = false ∧ ∀ k < 32, g.thread? k = some (th k) :=
  ⟨_, _, fun k => ((base.group? 4).bind fun g => g.thread? k).getD (Thread.fresh 0#32 0), ⟨rfl, rfl⟩, rfl, rfl, by decide⟩

/-- v2 and v3 hold an address; `tokens` counts token 0, `queued` stores wait. -/
def reaching (a : Nat) (typ : Nat) : State :=
  (one [(2, BitVec.ofNat 32 a), (3, BitVec.ofNat 32 (a / 2 ^ 32))] []).updCore 0 fun c => { c with tlb := [leaf2M typ] }
def tokens (n : Nat) (s : State) : State := s.updGroup 4 fun g => { g with sb := g.sb.set 0 n }
def queued (n : Nat) (s : State) : State :=
  s.updGroup 4 fun g => { g with sq := List.replicate n ⟨90, 0, .mem 0x200000, .bytes [1#8]⟩ }
def withImm (p : BitVec 24) (s : State) : State := s.onDev fun d => { d with streams := d.streams.map fun x => { x with imm := some p } }
def asHelper (s : State) : State := s.updThread 4 0 fun th => { th with helper := true }

theorem met_TokenAccessIssue_load : let s := reaching 0x8000 0; ∃ st g k th e, s.IssuesOne st g k th ∧ g.sb.getD 0 0 < 255 ∧
    s.Reaches g (addrM g th (.v 2#6) 0#6 st.imm 4) 4 [0, 1] true false e :=
  ⟨_, _, _, _, leaf2M 0, ⟨⟨rfl, rfl⟩, rfl, rfl, rfl⟩, by decide, by decide, by decide, by decide, rfl, by decide, by decide, by decide⟩
theorem met_TokenAccessIssue_full : let s := tokens 255 (reaching 0x1FFFF0 0); ∃ st g k th e, s.IssuesOne st g k th ∧ ¬ g.sb.getD 0 0 < 255 ∧
    s.Reaches g (addrM g th (.v 2#6) 0#6 st.imm 16) 16 [0, 1] true false e :=
  ⟨_, _, _, _, leaf2M 0, ⟨⟨rfl, rfl⟩, rfl, rfl, rfl⟩, by decide, by decide, by decide, by decide, rfl, by decide, by decide, by decide⟩
theorem met_TokenAccessIssue_atomic : let s := reaching 4096 0; ∃ st g k th e, s.IssuesOne st g k th ∧ th.helper = false ∧
    s.Reaches g (addrN g th (.v 2#6) st.imm) 8 [0] true true e :=
  ⟨_, _, _, _, leaf2M 0, ⟨⟨rfl, rfl⟩, rfl, rfl, rfl⟩, rfl, by decide, by decide, by decide, rfl, by decide, by decide, by decide⟩
theorem met_TokenAccessIssue_helper : ∃ st g k th, (asHelper base).IssuesOne st g k th ∧ th.helper = true :=
  ⟨_, _, _, _, ⟨⟨rfl, rfl⟩, rfl, rfl, rfl⟩, rfl⟩
theorem met_TokenAccessIssue_vmv : let s := withImm 0#24 (reaching 0x8000 0); ∃ st g k th, s.IssuesOne st g k th ∧ st.imm = some 0#24 ∧
    s.Reaches g (addrM g th (.v 2#6) 0#6 none 1) 1 [0, 1] true false (leaf2M 0) ∧
    ∀ va ∈ pagesOf (addrM g th (.v 2#6) 0#6 none 1).toNat 1, va < 2 ^ 57 ∧ s.Translates g va (leaf2M 0) ∧ (leaf2M 0).typ = 0 ∧ (leaf2M 0).r = true :=
  ⟨_, _, _, _, ⟨⟨rfl, rfl⟩, rfl, rfl, rfl⟩, rfl, ⟨by decide, by decide, by decide, rfl, by decide, by decide, by decide⟩,
    by intro va h; obtain rfl : va = 0x8000 := List.mem_singleton.mp h; exact ⟨by decide, rfl, rfl, rfl⟩⟩

theorem met_TokenAccessIssue_gathered : let s := reaching 0x8000 1; ∃ st g k th e, s.IssuesOne st g k th ∧ g.sb.getD 0 0 < 255 ∧ e.typ = 1 ∧
    s.Reaches g (addrM g th (.v 2#6) 0#6 st.imm 2) 2 [0, 1] true false e :=
  ⟨_, _, _, _, leaf2M 1, ⟨⟨rfl, rfl⟩, rfl, rfl, rfl⟩, by decide, rfl, by decide, by decide, by decide, rfl, by decide, by decide, by decide⟩

theorem met_StoreIssue_queue : let s := queued 15 (reaching 0x8000 0); ∃ st g k th e, s.IssuesOne st g k th ∧ th.helper = false ∧
    s.Reaches g (addrM g th (.v 2#6) 0#6 st.imm 4) 4 [0, 1] false true e ∧ e.typ = 0 ∧ g.sq.length < 16 + g.left :=
  ⟨_, _, _, _, leaf2M 0, ⟨⟨rfl, rfl⟩, rfl, rfl, rfl⟩, rfl, ⟨by decide, by decide, by decide, rfl, by decide, by decide, by decide⟩, rfl, by decide⟩
theorem met_StoreIssue_full : let s := queued 16 (reaching 0x8000 0); ∃ st g k th e, s.IssuesOne st g k th ∧ th.helper = false ∧
    s.Reaches g (addrM g th (.v 2#6) 0#6 st.imm 4) 4 [0, 1] false true e ∧ e.typ = 0 ∧ 16 + g.left ≤ g.sq.length :=
  ⟨_, _, _, _, leaf2M 0, ⟨⟨rfl, rfl⟩, rfl, rfl, rfl⟩, rfl, ⟨by decide, by decide, by decide, rfl, by decide, by decide, by decide⟩, rfl, by decide⟩
theorem met_StoreIssue_gathered : let s := reaching 0x8000 1; ∃ st g k th e, s.IssuesOne st g k th ∧ th.helper = false ∧
    s.Reaches g (addrM g th (.v 2#6) 0#6 st.imm 1) 1 [0, 1] false true e ∧ e.typ = 1 ∧ e.pbase % 4096 = 0 ∧ e.vbase % 4096 = 0 :=
  ⟨_, _, _, _, leaf2M 1, ⟨⟨rfl, rfl⟩, rfl, rfl, rfl⟩, rfl, ⟨by decide, by decide, by decide, rfl, by decide, by decide, by decide⟩, rfl, rfl, rfl⟩
theorem met_StoreIssue_data (th : Thread) (g : Group) : ∃ data : List Byte, data.length = 1 ∧
    ∀ j < 1, data[j]? = some ((rdN g th (.v 1#6) 1).getD (j / 4) 0#32 |>.extractLsb' (8 * (j % 4)) 8) :=
  ⟨[(rdN g th (.v 1#6) 1).getD 0 0#32 |>.extractLsb' 0 8], rfl, fun j h => match j, h with | 0, _ => rfl⟩

theorem met_AccessChecks_range : let s := reaching 4095 0; ∃ st g k th, s.IssuesOne st g k th ∧ th.helper = false ∧
    (addrM g th (.v 2#6) 0#6 st.imm 4).toNat < 4096 := ⟨_, _, _, _, ⟨⟨rfl, rfl⟩, rfl, rfl, rfl⟩, rfl, by decide⟩
theorem met_AccessChecks_above : let s := reaching (2 ^ 57) 0; ∃ st g k th, s.IssuesOne st g k th ∧ th.helper = false ∧
    2 ^ 57 ≤ (addrM g th (.v 2#6) 0#6 st.imm 4).toNat := ⟨_, _, _, _, ⟨⟨rfl, rfl⟩, rfl, rfl, rfl⟩, rfl, by decide⟩
theorem met_AccessChecks_refused : let s := reaching 4096 3; ∃ st g k th e, s.IssuesOne st g k th ∧ th.helper = false ∧
    s.Translates g (addrM g th (.v 2#6) 0#6 st.imm 4).toNat e ∧ ¬ (e.typ ∈ [0, 1] ∧ e.r = true) :=
  ⟨_, _, _, _, leaf2M 3, ⟨⟨rfl, rfl⟩, rfl, rfl, rfl⟩, rfl, rfl, by decide⟩
theorem met_AccessChecks_aligned : let s := reaching 4098 0; ∃ st g k th e, s.IssuesOne st g k th ∧ th.helper = false ∧
    s.Translates g (addrM g th (.v 2#6) 0#6 st.imm 4).toNat e ∧ e.typ ∈ [0, 1] ∧ e.r = true ∧ e.w = true ∧
    (addrM g th (.v 2#6) 0#6 st.imm 4).toNat % 4 ≠ 0 := ⟨_, _, _, _, leaf2M 0, ⟨⟨rfl, rfl⟩, rfl, rfl, rfl⟩, rfl, rfl, by decide, rfl, rfl, by decide⟩
theorem met_AccessChecks_miss : let s := reaching (2 ^ 57 - 4) 0; ∃ st g k th, s.IssuesOne st g k th ∧ th.helper = false ∧
    (addrM g th (.v 2#6) 0#6 st.imm 4).toNat < 2 ^ 57 ∧
    (∀ e ∈ (s.core g.core).tlb, ¬ (e.asn = s.asnOf g.ctx ∧ e.vbase ≤ (addrM g th (.v 2#6) 0#6 st.imm 4).toNat ∧
      (addrM g th (.v 2#6) 0#6 st.imm 4).toNat < e.vbase + e.size)) ∧
    s.requested g.ctx ((addrM g th (.v 2#6) 0#6 st.imm 4).toNat / 4096) = false ∧
    (g.ctx, (addrM g th (.v 2#6) 0#6 st.imm 4).toNat / 4096) ∉ (s.core g.core).walks :=
  ⟨_, _, _, _, ⟨⟨rfl, rfl⟩, rfl, rfl, rfl⟩, rfl, by decide, by decide, rfl, by decide⟩

def awaited (kind : ResKind) : State := base.onDev fun d => { d with results := [⟨7, 4, 0, some 0, 4#32, kind, false, [], 0, none, false, []⟩] }
def CompletionMet (kind : ResKind) (p : State → Group → Prop) : Prop := let s := awaited kind
  ∃ g th r tm, s.pending? r.id = some r ∧ s.group? r.grp = some g ∧ g.thread? r.thread = some th ∧ s.team? g.team = some tm ∧
    tm.st ≠ .saved ∧ r.ready = false ∧ r.fault = none ∧ (∀ e ∈ g.sq, r.id < e.id) ∧ (∀ x ∈ s.dev.results, x.grp = r.grp → r.id ≤ x.id) ∧ r.kind = kind ∧ p s g
def agreeing (s : State) (g : Group) : Prop := ∀ x ∈ (s.core g.core).l1, ∀ a, a / 128 = x.line → mget x.data a = mget s.mem a
theorem met_AccessCompletion_load : CompletionMet (.load (.mem 0x200010) .b128 5 1 [(0x20001F, 7#8)]) fun s g => agreeing s g ∧ 0x200010 % 16 = 0 ∧
    mgets s.mem 0x200010 15 ++ [7#8] = List.replicate 15 0#8 ++ [7#8] :=
  ⟨_, _, ⟨7, 4, 0, some 0, 4#32, _, false, [], 0, none, false, []⟩, _, rfl, rfl, rfl, rfl, by decide, rfl, rfl, by decide, by decide, rfl, nofun, rfl, rfl⟩
theorem met_AccessCompletion_atomic : CompletionMet (.atom (.mem 0x200000) .cas64 1#64 0#64 5) fun _ _ => True :=
  ⟨_, _, ⟨7, 4, 0, some 0, 4#32, _, false, [], 0, none, false, []⟩, _, rfl, rfl, rfl, rfl, by decide, rfl, rfl, by decide, by decide, rfl, trivial⟩
theorem met_AccessCompletion_vmv : CompletionMet (.vmv .bf16 [0x200000, 0x200002] [] 2 1 [0#32, 0#32] 5) fun s g => agreeing s g ∧
    [0x200000, 0x200002].length = 2 * 1 ∧ ∀ a ∈ [0x200000, 0x200002], a % 2 = 0 :=
  ⟨_, _, ⟨7, 4, 0, some 0, 4#32, _, false, [], 0, none, false, []⟩, _, rfl, rfl, rfl, rfl, by decide, rfl, rfl, by decide, by decide, rfl, nofun, rfl, by decide⟩
theorem met_AccessCompletion_home : Memory.wf base.mem = true ∧ ∃ i < 1, (127 + i) / 128 = 0 := ⟨rfl, 0, by decide, rfl⟩

theorem met_OrderAndWait : ∃ st g k th, base.IssuesOne st g k th ∧ g.sq = [] ∧ g.remote = 0 ∧
    (∀ r ∈ base.dev.results, r.grp = st.grp → r.kind.isRemote = false ∧ (r.kind.isMem = true → r.ready = true)) ∧
    (∀ n < 8, (0xFF#8).getLsbD n = true → g.sb.getD n 0 = 0) ∧
    ((base.core g.core).comb.filter fun x => x.bytes.any fun b => b.grp == st.grp && b.thread == k) = [] ∧
    ¬ ∃ e ∈ g.sq, e.thread = k ∧ ∃ l, e.op = .line l :=
  ⟨_, _, _, _, ⟨⟨rfl, rfl⟩, rfl, rfl, rfl⟩, rfl, rfl, by decide, by decide, rfl, nofun⟩
theorem met_OrderAndWait_held : let s := queued 1 (tokens 1 base); ∃ st g k th, s.IssuesOne st g k th ∧ g.sq ≠ [] ∧
    ¬ (∀ n < 8, (1#8).getLsbD n = true → g.sb.getD n 0 = 0) ∧ ∀ e ∈ g.sq, ∀ l, e.op ≠ .line l :=
  ⟨_, _, _, _, ⟨⟨rfl, rfl⟩, rfl, rfl, rfl⟩, by decide, by decide, by
    intro e h l; obtain rfl : e = _ := List.mem_singleton.mp h; exact SqOp.noConfusion⟩
def combLine : CombLine := ⟨0, 16384, [⟨0x200000, 1#8, 4, 0, 0, 0, 2 ^ 21⟩], 0⟩
theorem met_StoreIssue_lines : let comb := [combLine]; (comb.map fun x => x.line).Nodup ∧ (comb.map fun x => x.slot).Nodup ∧
    ∀ x ∈ comb, (x.bytes.map fun b => b.addr).Nodup ∧ ∀ b ∈ x.bytes, b.addr / 128 = x.line := by decide
def gatheredLine : State := base.updCore 0 fun c => { c with comb := [combLine] }
theorem met_OrderAndWait_flush : ∃ st g k th, gatheredLine.IssuesOne st g k th ∧
    let held := (gatheredLine.core g.core).comb.filter fun x => x.bytes.any fun b => b.grp == st.grp && b.thread == k
    held ≠ [] ∧ g.sq.length + held.length ≤ 16 + g.left :=
  ⟨_, _, _, _, ⟨⟨rfl, rfl⟩, rfl, rfl, rfl⟩, by decide, by decide⟩
def flushing : State := base.updGroup 4 fun g => { g with sq := [⟨90, 0, .mem 0x200000, .line combLine⟩] }
theorem met_OrderAndWait_flushing : ∃ st g k th, flushing.IssuesOne st g k th ∧
    ((flushing.core g.core).comb.filter fun x => x.bytes.any fun b => b.grp == st.grp && b.thread == k) = [] ∧
    ∃ e ∈ g.sq, e.thread = k ∧ ∃ l, e.op = .line l :=
  ⟨_, _, _, _, ⟨⟨rfl, rfl⟩, rfl, rfl, rfl⟩, rfl, _, List.mem_singleton.mpr rfl, rfl, _, rfl⟩

/-- The team has handle 3, two rows of 128 bytes; with a line absent or a consumer where said. v2 holds the handle's number. -/
def handled3 (absent : List Nat) (cons : Nat) : State :=
  (one [(2, 3#32)] []).onDev fun d => { d with teams := d.teams.map fun t => { t with handles := [⟨3, 2, 128, 0, absent, [], cons⟩] } }
theorem met_TileStoreAccess_meets : let s := handled3 [] 0; ∃ st g k th tm y, s.IssuesOne st g k th ∧ s.team? g.team = some tm ∧
    tm.handle? ((rd g th (.v 2#6)).toNat % 256) = some y ∧ 252 + 4 ≤ y.rows * pitchOf y.rowb ∧ 252 / 128 ∉ y.absent ∧ y.cons = 0 ∧
    g.sb.getD 0 0 < 255 ∧ g.sq.length < 16 + g.left ∧ th.helper = false :=
  ⟨_, _, _, _, _, _, ⟨⟨rfl, rfl⟩, rfl, rfl, rfl⟩, rfl, rfl, by decide, by decide, rfl, by decide, by decide, rfl⟩
theorem met_TileStoreAccess_past : let s := handled3 [] 0; ∃ st g k th tm y, s.IssuesOne st g k th ∧ s.team? g.team = some tm ∧
    tm.handle? ((rd g th (.v 2#6)).toNat % 256) = some y ∧ y.rows * pitchOf y.rowb < 256 + 4 ∧ tm.handle? 4 = none :=
  ⟨_, _, _, _, _, _, ⟨⟨rfl, rfl⟩, rfl, rfl, rfl⟩, rfl, rfl, by decide, rfl⟩
theorem met_TileStoreAccess_absent : let s := handled3 [1] 0; ∃ st g k th tm y t, s.IssuesOne st g k th ∧ s.team? g.team = some tm ∧
    tm.handle? ((rd g th (.v 2#6)).toNat % 256) = some y ∧ 128 / 128 ∈ y.absent ∧ s.park st.grp k (.line g.team 3 1) = some t :=
  ⟨_, _, _, _, _, _, _, ⟨⟨rfl, rfl⟩, rfl, rfl, rfl⟩, rfl, rfl, by decide, rfl⟩
def roomFor (s : State) (n : Nat) : State := s.onDev fun d => { d with grids := d.grids.map fun g => { g with lr := { g.lr with handles := n, tlines := n } } }
theorem met_TileStoreAccess_talloc : let s := roomFor base 1; ∃ st g k th tm gr, s.IssuesOne st g k th ∧ s.team? g.team = some tm ∧
    s.grid? tm.grid = some gr ∧ tm.handle? 5 = none ∧ tm.handles.length < gr.lr.handles ∧ s.canSupply tm 0 1 = true :=
  ⟨_, _, _, _, _, _, ⟨⟨rfl, rfl⟩, rfl, rfl, rfl⟩, rfl, rfl, rfl, by decide, by decide⟩
theorem met_TileStoreAccess_taken : let s := handled3 [] 1; ∃ st g k th tm gr y, s.IssuesOne st g k th ∧ s.team? g.team = some tm ∧
    s.grid? tm.grid = some gr ∧ tm.handle? 3 = some y ∧ y.cons ≠ 0 := ⟨_, _, _, _, _, _, _, ⟨⟨rfl, rfl⟩, rfl, rfl, rfl⟩, rfl, rfl, rfl, by decide⟩
theorem met_TileStoreAccess_free : let s := handled3 [] 0; ∃ st g k th tm y, s.IssuesOne st g k th ∧ s.team? g.team = some tm ∧
    tm.handle? 3 = some y ∧ ¬ (y.cons ≠ 0 ∨ ∃ c ∈ s.dev.cores, ∃ z ∈ c.2.cmds, z.team = g.team ∧ z.h = 3) :=
  ⟨_, _, _, _, _, _, ⟨⟨rfl, rfl⟩, rfl, rfl, rfl⟩, rfl, rfl, by decide⟩

/-! A copy command of handle 3 at the head of core 0's queue; its record, at virtual address 0x10000, is a matrix of 2 rows of 32
elements. -/

def record : List Byte := bytesOf [0x12000#32, 0#32, 32#32, 2#32, 1#32, 1#32, 1#32, 0x80#32, 0#32, 0#32, 0#32, 0#32, 0x00020020#32,
  0x00010001#32, 0x00020001#32, 0#32]
def copyCmd (op : CopyOp) (va : Nat) (q2 : Word) : CopyCmd :=
  { id := 8, op := op, grp := 4, team := 3, h := 3, recVa := va, q2 := q2, q3 := 0#32, b4 := 0, pol := 1, pts := 0, res := 7, cleared := some [0, 1],
    started := false, trec := none, idx := [], lines := [], rx := [] }
def copying (c : CopyCmd) (s : State) : State :=
  ((s.updTeam 3 fun t => { t with handles := [⟨3, 2, 128, 0, if c.op = .cpst then [] else [0, 1], [], 0⟩] }).updCore 0 fun x => { x with cmds := [c] }).onDev
    fun d => { d with results := [⟨7, 4, 0, some 0, 4#32, .token, false, [], 0, none, true, []⟩] }
def recorded : State := (mapped base).put 0x210000 record
/-- A page that the host may be asked for, in place of the leaf. -/
def requestable : State := base.put 0 [2#8]
def HeadIs (s : State) (p : CopyCmd → Group → Handle → Prop) : Prop :=
  ∃ k rest g x, (s.core 0).cmds = k :: rest ∧ s.group? k.grp = some g ∧ s.handleOf k.team k.h = some x ∧ p k g x

theorem met_CopyCommands_ready : let s := handled3 [] 0; ∃ st g k th tm y, s.IssuesOne st g k th ∧ s.team? g.team = some tm ∧
    tm.handle? 3 = some y ∧ g.sq = [] ∧ (s.core g.core).cmds.length < 256 ∧ g.sb.getD 0 0 < 255 ∧ y.cons = 0 :=
  ⟨_, _, _, _, _, _, ⟨⟨rfl, rfl⟩, rfl, rfl, rfl⟩, rfl, rfl, rfl, by decide, by decide, rfl⟩
theorem met_CopyCommands_stops : let s := queued 1 (handled3 [] 1); ∃ st g k th tm y, s.IssuesOne st g k th ∧ s.team? g.team = some tm ∧
    tm.handle? 3 = some y ∧ ¬ g.sq = [] ∧ y.cons ≠ 0 := ⟨_, _, _, _, _, _, ⟨⟨rfl, rfl⟩, rfl, rfl, rfl⟩, rfl, rfl, by decide, by decide⟩
theorem met_CopyCommands_none : (base.core 0).cmds = [] := rfl
theorem met_CopyCommands_fill : HeadIs (copying (copyCmd .cpfill 0 0#32) base) fun k _ _ => k.cleared = some [0, 1] ∧ k.started = false ∧ k.op = .cpfill :=
  ⟨_, _, _, _, rfl, rfl, rfl, rfl, rfl, rfl⟩
theorem met_CopyCommands_waiting : HeadIs (copying { copyCmd .cpy 0x10000 0#32 with cleared := none } base) fun k _ _ => k.cleared = none :=
  ⟨_, _, _, _, rfl, rfl, rfl, rfl⟩
theorem met_CopyCommands_record : HeadIs (copying (copyCmd .cpy 0x10020 0#32) base) fun k _ _ => k.op ≠ .cpfill ∧ k.recVa % 64 ≠ 0 :=
  ⟨_, _, _, _, rfl, rfl, rfl, by decide, by decide⟩
theorem met_CopyCommands_page : let s := copying (copyCmd .cpy 0x10000 0#32) requestable
    HeadIs s fun k g _ => ∃ s1 v b, s.cmdRead 0 g k (2 ^ 32) k.recVa 64 = (s1, .wait v, b) :=
  ⟨_, _, _, _, rfl, rfl, rfl, _, _, _, rfl⟩
theorem met_CopyCommands_refused : let s := copying (copyCmd .cpy 0x10000 0#32) base
    HeadIs s fun k g _ => ∃ s1 c va b, s.cmdRead 0 g k (2 ^ 32) k.recVa 64 = (s1, .fault c va, b) :=
  ⟨_, _, _, _, rfl, rfl, rfl, _, _, _, _, rfl⟩
theorem met_CopyCommands_invalid : let s := copying (copyCmd .cpy 0x10000 0#32) (mapped base)
    HeadIs s fun k g _ => ∃ s1 z b, s.cmdRead 0 g k (2 ^ 32) k.recVa 64 = (s1, .ok z, b) ∧ tensorOf b = none :=
  ⟨_, _, _, _, rfl, rfl, rfl, _, _, _, rfl, rfl⟩
theorem met_CopyCommands_fits : let s := copying (copyCmd .cpy 0x10000 0#32) recorded
    HeadIs s fun k g x => ∃ s1 z b r, s.cmdRead 0 g k (2 ^ 32) k.recVa 64 = (s1, .ok z, b) ∧ tensorOf b = some r ∧
      r.box.length = 5 ∧ r.sized (s1.recBytes g.grid r) = true ∧ 0 + 2 ≤ x.rows ∧ r.box.getD 0 1 * s1.recBytes g.grid r ≤ x.rowb :=
  ⟨_, _, _, _, rfl, rfl, rfl, _, _, _, _, rfl, rfl, rfl, rfl, by decide, by decide⟩
theorem met_CopyCommands_gather : let s := copying (copyCmd .cpyg 0x10000 0x11000#32) recorded
    HeadIs s fun k g _ => ∃ s1 z b s2 z2 b2, s.cmdRead 0 g k (2 ^ 32) k.recVa 64 = (s1, .ok z, b) ∧
      (k.q2.toNat + 2 ^ 32 * k.q3.toNat) % 4 = 0 ∧ s1.cmdRead 0 g k (2 ^ 32 + 1) (k.q2.toNat + 2 ^ 32 * k.q3.toNat) 8 = (s2, .ok z2, b2) :=
  ⟨_, _, _, _, rfl, rfl, rfl, _, _, _, _, _, _, rfl, by decide, rfl⟩

def tensor : TensorRec := ⟨0x12000, [32, 2, 1, 1, 1], [0, 128, 0, 0, 0], [32, 2, 1, 1, 1], 2, 0⟩
def moving (op : CopyOp) (s : State) : State :=
  copying { copyCmd op 0x10000 0#32 with started := true, trec := some tensor, lines := [0, 1] } s
theorem met_CopyLines_fill : HeadIs (moving .cpfill base) fun k _ _ => k.rx = [] ∧ k.started = true ∧ 1 ∈ k.lines ∧
    (moving .cpfill base).movedFrom 0 k.team = false ∧ k.op = .cpfill := ⟨_, _, _, _, rfl, rfl, rfl, rfl, rfl, by decide, rfl, rfl⟩
theorem met_CopyLines_other : HeadIs (moving .cpy base) fun k _ _ => k.rx = [] ∧ (k.started = false ∨ 2 ∉ k.lines ∨
    (moving .cpy base).movedFrom 0 k.team = true) := ⟨_, _, _, _, rfl, rfl, rfl, rfl, .inr (.inl (by decide))⟩
def LineMet (op : CopyOp) (a : Access) (from_ : State) (line : Nat) (p : Handle → EngRes → List (Nat × Nat × Option (Nat × TlbEntry)) → Prop) : Prop :=
  HeadIs (moving op from_) fun k g x => k.rx = [] ∧ k.started = true ∧ line ∈ k.lines ∧ (moving op from_).movedFrom 0 k.team = false ∧
    ∃ r s1 res l, k.trec = some r ∧ (moving op from_).physPieces 0 g.ctx k.id a (k.pieces r x ((moving op from_).recBytes g.grid r) line) = (s1, res, l) ∧ p x res l
theorem met_CopyLines_read : LineMet .cpy .copyRead (mapped base) 1 fun x res l => (∃ z, res = .ok z) ∧ (∀ q ∈ l, ∀ pa t, q.2.2 = some (pa, t) → t.typ ≠ 3) ∧
    (∀ q ∈ l, q.1 / 128 = 1 ∧ q.1 + q.2.1 ≤ x.size) ∧ l.Pairwise (fun q r => q.1 + q.2.1 ≤ r.1) :=
  ⟨_, _, _, _, rfl, rfl, rfl, rfl, rfl, by decide, rfl, _, _, _, _, rfl, rfl, ⟨_, rfl⟩, by
    intro q h pa t e; obtain rfl := List.mem_singleton.mp h; cases e; decide, by decide, by decide⟩
theorem met_CopyLines_page : LineMet .cpy .copyRead requestable 0 fun _ res _ => ∃ v, res = .wait v :=
  ⟨_, _, _, _, rfl, rfl, rfl, rfl, rfl, by decide, rfl, _, _, _, _, rfl, rfl, _, rfl⟩
theorem met_CopyLines_refused : LineMet .cpy .copyRead base 0 fun _ res _ => ∃ c va, res = .fault c va :=
  ⟨_, _, _, _, rfl, rfl, rfl, rfl, rfl, by decide, rfl, _, _, _, _, rfl, rfl, _, _, rfl⟩
theorem met_CopyLines_write : LineMet .cpst .copyWrite (mapped base) 0 fun x res l => 0 ∉ x.absent ∧ (∃ z, res = .ok z) ∧
    (∀ q ∈ l, ∀ pa t, q.2.2 = some (pa, t) → t.typ ≠ 3) ∧
    l.Pairwise (fun q r => ∀ pa t qa v, q.2.2 = some (pa, t) → r.2.2 = some (qa, v) → pa + q.2.1 ≤ qa ∨ qa + r.2.1 ≤ pa) :=
  ⟨_, _, _, _, rfl, rfl, rfl, rfl, rfl, by decide, rfl, _, _, _, _, rfl, rfl, by decide, ⟨_, rfl⟩, by
    intro q h pa t e; obtain rfl := List.mem_singleton.mp h; cases e; decide, List.pairwise_singleton ..⟩
theorem met_CopyLines_rows : (copyCmd .cpy 0 0#32).op ≠ .cpyg ∧ tensor.dim.length = 5 ∧ 1 < tensor.box.getD 1 1 ∧ 0 < tensor.box.getD 4 1 := by decide

theorem met_OverlayInstructions : ∃ st g k th tm gr c b, base.IssuesOne st g k th ∧ base.team? g.team = some tm ∧ base.grid? g.grid = some gr ∧
    (base.core g.core).bound? g.ctx (base.imageBase gr th.inTrap) 0 = some (c, b) ∧
    (base.core g.core).bound? g.ctx (base.imageBase gr th.inTrap) 4095 = none ∧ base.memSettled g = true :=
  ⟨_, _, _, _, _, _, _, _, ⟨⟨rfl, rfl⟩, rfl, rfl, rfl⟩, rfl, rfl, rfl, rfl, rfl⟩
theorem met_OverlayInstructions_unsettled : ∃ st g k th, (queued 1 base).IssuesOne st g k th ∧ (queued 1 base).memSettled g = false :=
  ⟨_, _, _, _, ⟨⟨rfl, rfl⟩, rfl, rfl, rfl⟩, rfl⟩

def fetching (f : Fetch) (s : State) : State := s.updCore 0 fun c => { c with fetches := [f] }
def reading (digest : List Byte) : Fetch := ⟨9, 0, 0, 7, none, none, some ⟨7, 0, 0x4000, 1, 0, digest, false, false⟩, [1], false⟩
def seeking : Fetch := ⟨9, 0, 0, 0, none, none, none, [], false⟩
theorem met_OverlayFetches_none : base.fetch? 0 9 = none := rfl
theorem met_OverlayFetches_page : ∃ s1 v b, (fetching (reading []) requestable).fetch? 0 9 = some (reading []) ∧
    (fetching (reading []) requestable).engRead (some 0) 0 9 0x4000 4096 .code = (s1, .wait v, b) := ⟨_, _, _, rfl, rfl⟩
theorem met_OverlayFetches_refused : ∃ s1 c va b, (fetching (reading []) base).engRead (some 0) 0 9 0x4000 4096 .code = (s1, .fault c va, b) ∧
    ∀ c, (fetching (reading []) base).ctxState c ≠ .suspended := ⟨_, _, _, _, rfl, by intro c; rcases c with _ | c <;> exact nofun⟩
theorem met_OverlayFetches_search : let s := fetching seeking tabled; ∃ img s1 e, s.fetch? 0 9 = some seeking ∧ s.tableFor 0 0 = some img ∧
    s.searchTable 0 0 9 (fun e => e.id == 0) img.count img.table = (s1, .found e) := ⟨_, _, _, rfl, rfl, rfl⟩
theorem met_OverlayFetches_absent : let s := fetching { seeking with ident := 7 } tabled; ∃ img s1, s.tableFor 0 0 = some img ∧
    s.searchTable 0 0 9 (fun e => e.id == 7) img.count img.table = (s1, .none) := ⟨_, _, rfl, rfl⟩
theorem met_OverlayFetches_timeout : let s := (fetching { seeking with waitFrom := some 0 } base).onDev fun d => { d with clk := 0x124F80 }
    ∃ c, ({ seeking with waitFrom := some 0 } : Fetch).waitFrom = some c ∧ (s.core 0).ovwait.toNat ≠ 0 ∧ c + (s.core 0).ovwait.toNat ≤ s.dev.clk :=
  ⟨0, rfl, by decide, by decide⟩
def CodeMet (p : List Byte → List Byte → Prop) : Prop := ∃ digest s1 z b,
  (fetching (reading digest) (mapped base)).engRead (some 0) 0 9 0x4000 4096 .code = (s1, .ok z, b) ∧ b.length = 4096 ∧ p digest b
theorem met_OverlayFetches_read : CodeMet fun digest b => sm3 b = digest :=
  ⟨sm3 ([] ++ mgets (mapped base).mem 0x204000 4096), _, _, _, rfl, (congrArg List.length (List.nil_append _)).trans (length_mgets _ _ _), rfl⟩
theorem met_OverlayFetches_digest : CodeMet fun digest b => sm3 b ≠ digest :=
  ⟨0#8 :: sm3 ([] ++ mgets (mapped base).mem 0x204000 4096), _, _, _, rfl, (congrArg List.length (List.nil_append _)).trans (length_mgets _ _ _),
    (List.cons_ne_self _ _).symm⟩
/-- Overlay 0 shared in a domain, of a number of slots, with a resident copy of one slot and digest 0. -/
def shared (slots : Byte) : State :=
  (((fetching { seeking with ident := 1 } tabled).put 0x210000 [1#8, 0#8, slots, 1#8]).updCore 0 fun c =>
    { c with copies := c.copies.map fun k => { k with share := true, domain := 6, digest := List.replicate 32 0#8 } }).updCtx 0 fun c =>
      { c with e := { c.e with domain := 6 } }
def SearchMet (slots : Byte) (p : State → OvEntry → (Copy → Bool) → Prop) : Prop := let s := shared slots
  ∃ img s1 e, s.tableFor 0 0 = some img ∧ s.searchTable 0 0 9 (fun e => e.id == 1) img.count img.table = (s1, .found e) ∧
    p s1 e fun k => e.share && ((s1.ctx? 0).map fun c => c.e.domain).getD 0 != 0 && k.share &&
      k.domain == ((s1.ctx? 0).map fun c => c.e.domain).getD 0 && k.slots == e.slots && k.digest == e.digest
theorem met_OverlayFetches_shared : SearchMet 1#8 fun s1 _ same => (∃ k, (s1.core 0).copies.find? same = some k ∧
    ∀ x ∈ (s1.core 0).copies, x.id = k.id → x = k) ∧ ¬ ∃ x ∈ s1.dev.teams, x.core = 0 ∧ x.st ≠ .saved ∧ ∃ i w, OtTok.loading i 9 w ∈ x.ot :=
  ⟨_, _, _, rfl, rfl, ⟨_, rfl, fun _ h _ => List.mem_singleton.mp h⟩, fun ⟨x, h, _, _, i, w, hm⟩ => by
    cases List.mem_singleton.mp h; exact OtTok.noConfusion (List.eq_of_mem_replicate (show OtTok.loading i 9 w ∈ List.replicate 16 OtTok.free from hm))⟩
theorem met_OverlayFetches_waits : SearchMet 64#8 fun s1 e same => (s1.core 0).copies.find? same = none ∧ ∃ s2, s1.takeSlots 0 0 e.slots = (none, s2) :=
  ⟨_, _, _, rfl, rfl, rfl, _, rfl⟩

def inGroup (f : Group → Group) (s : State) : State := s.updGroup 4 f
def inTeam (f : Team → Team) (s : State) : State := s.updTeam 3 f
def inGrid (f : Grid → Grid) (s : State) : State := s.updGrid 1 f
def inCore (f : Core → Core) (s : State) : State := s.updCore 0 f
/-- Threads `l` of the group wait at an object. -/
def waiting (w : WaitOn) (l : List Nat) (s : State) : State := l.foldl (fun s k => s.updThread 4 k fun th => { th with wait := some w }) s

theorem met_BarrierUnits_empty : ∃ st g k th, base.IssuesOne st g k th ∧ rd g th (.v 1#6) = 0#32 ∧
    (g.rb.getD 0 none ≠ some (rd g th (.v 1#6)) ∨ (rd g th (.v 1#6)).getLsbD k = false) :=
  ⟨_, _, _, _, ⟨⟨rfl, rfl⟩, rfl, rfl, rfl⟩, rfl, .inr rfl⟩
theorem met_BarrierUnits_changed : let s := waiting (.rb 0) [1] (inGroup (fun g => { g with rb := g.rb.set 0 (some 2#32) }) (one [(1, 1#32)] []))
    ∃ st g k th, s.IssuesOne st g k th ∧ (∃ x ∈ g.threads, x.wait = some (.rb 0)) ∧ g.rb.getD 0 none ≠ some (rd g th (.v 1#6)) :=
  ⟨_, _, _, _, ⟨⟨rfl, rfl⟩, rfl, rfl, rfl⟩, by decide, by decide⟩
theorem met_BarrierUnits_set : ∃ st g k th, (one [(1, 1#32)] []).IssuesOne st g k th ∧ rd g th (.v 1#6) ≠ 0#32 ∧
    ((∃ x ∈ g.threads, x.wait = some (.rb 0)) → g.rb.getD 0 none = some (rd g th (.v 1#6))) :=
  ⟨_, _, _, _, ⟨⟨rfl, rfl⟩, rfl, rfl, rfl⟩, by decide, by decide⟩
theorem met_BarrierUnits_join : let s := inGroup (fun g => { g with rb := g.rb.set 15 (some 1#32) }) (one [(1, 1#32)] [])
    ∃ st g k th, s.IssuesOne st g k th ∧ g.rb.getD 15 none = some (rd g th (.v 1#6)) ∧ (rd g th (.v 1#6)).getLsbD k = true :=
  ⟨_, _, _, _, ⟨⟨rfl, rfl⟩, rfl, rfl, rfl⟩, rfl, rfl⟩
/-- The conditions of the three wider barriers, their phases not begun. -/
def WiderMet (s : State) (v : Word) (p : Group → Team → Cluster → Grid → Word → Prop) : Prop :=
  ∃ st g k th tm c gr, s.IssuesOne st g k th ∧ s.team? g.team = some tm ∧ s.cluster? tm.cluster = some c ∧ s.grid? g.grid = some gr ∧
    rd g th (.v 1#6) = v ∧ tm.tb.getD 7 ⟨none, false, 0⟩ = ⟨none, false, 0⟩ ∧ c.cb.getD 3 ⟨none, false, 0⟩ = ⟨none, false, 0⟩ ∧
    gr.gb.getD 1 ⟨none, false, 0⟩ = ⟨none, false, 0⟩ ∧ p g tm c gr v
theorem met_BarrierUnits_wider : WiderMet (inGrid (fun g => { g with lr := { g.lr with flags := 2 } }) (one [(1, 1#32)] [])) 1#32
    fun g tm _ gr v => gr.lr.flags / 2 % 2 = 1 ∧ v ≠ 0#32 ∧ v.toNat < 2 ^ gr.lr.teamGroups ∧ v.getLsbD g.slot = true ∧
      v.toNat < 2 ^ (gr.lr.clw * gr.lr.clh) ∧ v.getLsbD (tm.rj * gr.lr.clw + tm.ri) = true ∧
      State.otherAt (one [(1, 1#32)] []) g (.cb 3) = false ∧ State.otherAt (one [(1, 1#32)] []) g (.gb 1) = false :=
  ⟨_, _, _, _, _, _, _, ⟨⟨rfl, rfl⟩, rfl, rfl, rfl⟩, rfl, rfl, rfl, rfl, rfl, rfl, rfl, rfl, by decide, by decide, rfl, by decide, rfl, rfl, rfl⟩
theorem met_BarrierUnits_beyond : WiderMet (one [(1, 2#32)] []) 2#32 fun _ _ _ gr v => ¬ v.toNat < 2 ^ gr.lr.teamGroups ∧
    ¬ v.toNat < 2 ^ (gr.lr.clw * gr.lr.clh) ∧ ¬ gr.lr.flags / 2 % 2 = 1 :=
  ⟨_, _, _, _, _, _, _, ⟨⟨rfl, rfl⟩, rfl, rfl, rfl⟩, rfl, rfl, rfl, rfl, rfl, rfl, rfl, by decide, by decide, by decide⟩

def RbMet (m : Word) (l : List Nat) (p : Group → Prop) : Prop :=
  let s := waiting (.rb 0) l (inGroup (fun g => { g with rb := g.rb.set 0 (some m) }) base)
  ∃ g, s.group? g.id = some g ∧ g.rb.getD 0 none = some m ∧ p g
theorem met_BarrierOpening_all : RbMet 3#32 [0, 1] fun g => (∀ i < 32, (3#32).getLsbD i = true → (g.thread? i).all
    (fun th => th.ended || th.wait == some (.rb 0)) = true) ∧ ∃ th ∈ g.threads, th.wait = some (.rb 0) :=
  ⟨(waiting (.rb 0) [0, 1] (inGroup (fun g => { g with rb := g.rb.set 0 (some 3#32) }) base)).dev.groups.head (List.cons_ne_nil _ _),
    rfl, rfl, by decide, by decide⟩
theorem met_BarrierOpening_some : RbMet 3#32 [0] fun g => ∃ th, g.thread? 1 = some th ∧ th.ended = false ∧ th.wait ≠ some (.rb 0) :=
  ⟨(waiting (.rb 0) [0] (inGroup (fun g => { g with rb := g.rb.set 0 (some 3#32) }) base)).dev.groups.head (List.cons_ne_nil _ _),
    rfl, rfl, _, rfl, rfl, by decide⟩
def teamAt (l : List Nat) : State := waiting (.tb 0) l (inTeam (fun t => { t with tb := t.tb.set 0 ⟨some 1#32, false, 0⟩ }) base)
theorem met_BarrierOpening_team : ∃ tm b m x, (teamAt (List.range 32)).team? tm.id = some tm ∧ tm.tb[0]? = some b ∧ b.mask = some m ∧
    (teamAt (List.range 32)).dev.groups = [x] ∧ x.slot = 0 ∧ (teamAt (List.range 32)).groupAt x (.tb 0) = true :=
  ⟨(teamAt (List.range 32)).dev.teams.head (List.cons_ne_nil _ _), _, _, _, rfl, rfl, rfl, rfl, rfl, rfl⟩
theorem met_BarrierOpening_notYet : ∃ tm b x, (teamAt []).team? tm.id = some tm ∧ tm.tb[0]? = some b ∧ b.mask = some 1#32 ∧
    (teamAt []).dev.groups = [x] ∧ x.slot = 0 ∧ x.ended = false ∧ (teamAt []).groupAt x (.tb 0) = false :=
  ⟨(teamAt []).dev.teams.head (List.cons_ne_nil _ _), _, _, rfl, rfl, rfl, rfl, rfl, rfl, rfl⟩
def opened (r : Bool) : State :=
  (inGrid (fun g => { g with gb := g.gb.set 0 ⟨some 1#32, r, 0⟩ }) base).updCluster 2 fun c => { c with cb := c.cb.set 0 ⟨some 1#32, r, 0⟩ }
theorem met_BarrierOpening_release (r : Bool) : ∃ gr c, (opened r).grid? 1 = some gr ∧ (gr.gb.getD 0 ⟨none, false, 0⟩).releasing = r ∧
    (opened r).cluster? 2 = some c ∧ (c.cb.getD 0 ⟨none, false, 0⟩).releasing = r := ⟨_, _, rfl, rfl, rfl, rfl⟩

def bound (mask : Word) (buf : Option Nat) : Binding := ⟨mask, 0#32, 4, 0, .handle 3, 0, 0, 8, 0, 0, 7, none, buf, none, []⟩
def CvMet (v : Word) (cv : Cv) (p : Nat → Word → Prop) : Prop :=
  let s := inTeam (fun t => { t with cv := t.cv.set 0 cv }) (one [(1, v)] [])
  ∃ st g k th tm, s.IssuesOne st g k th ∧ s.team? g.team = some tm ∧ tm.cv[0]? = some cv ∧ p k (rd g th (.v 1#6))
theorem met_ConvergenceAndRings_bound : CvMet 0#32 (.bound (bound 1#32 none)) fun _ _ => True :=
  ⟨_, _, _, _, _, ⟨⟨rfl, rfl⟩, rfl, rfl, rfl⟩, rfl, rfl, trivial⟩
theorem met_ConvergenceAndRings_empty : CvMet 0#32 .free fun _ v => v = 0#32 := ⟨_, _, _, _, _, ⟨⟨rfl, rfl⟩, rfl, rfl, rfl⟩, rfl, rfl, rfl⟩
theorem met_ConvergenceAndRings_outside : CvMet 2#32 .free fun k v => v ≠ 0#32 ∧ v.getLsbD k = false :=
  ⟨_, _, _, _, _, ⟨⟨rfl, rfl⟩, rfl, rfl, rfl⟩, rfl, rfl, by decide, rfl⟩
theorem met_ConvergenceAndRings_signs : CvMet 0x80000001#32 .free fun k v => v ≠ 0#32 ∧ v.getLsbD k = true :=
  ⟨_, _, _, _, _, ⟨⟨rfl, rfl⟩, rfl, rfl, rfl⟩, rfl, rfl, by decide, rfl⟩
theorem met_ConvergenceAndRings_again : CvMet 3#32 (.signing 3#32 1#32 4) fun k _ => (1#32).getLsbD k = true :=
  ⟨_, _, _, _, _, ⟨⟨rfl, rfl⟩, rfl, rfl, rfl⟩, rfl, rfl, rfl⟩
theorem met_ConvergenceAndRings_last : CvMet 3#32 (.signing 3#32 2#32 4) fun k v => (3#32).getLsbD k = true ∧ (2#32).getLsbD k = false ∧ v = 3#32 :=
  ⟨_, _, _, _, _, ⟨⟨rfl, rfl⟩, rfl, rfl, rfl⟩, rfl, rfl, rfl, rfl, rfl⟩
/-- Ring 1 of a team of two groups, its word producer 0, consumer 1, one stage. -/
def RingMet (v : Word) (phase : BitVec 8) (p : State → Group → Grid → Word → Ring → Prop) : Prop :=
  let s := inGrid (fun g => { g with lr := { g.lr with teamGroups := 2 } }) (inTeam (fun t => { t with rings := t.rings.set 1 ⟨none, phase, [(0, 7)]⟩ }) (one [(1, v)] []))
  ∃ st g k th tm gr r, s.IssuesOne st g k th ∧ s.team? g.team = some tm ∧ s.grid? g.grid = some gr ∧ tm.rings[1]? = some r ∧ p s g gr (rd g th (.v 1#6)) r
def ringOk (g : Group) (gr : Grid) (v : Word) (r : Ring) : Prop :=
  (∀ x, r.desc = some x → x = v) ∧ v.toNat / 2 ^ 10 % 8 ≠ 0 ∧ v.toNat < 2 ^ 13 ∧ v.toNat % 32 ≠ v.toNat / 2 ^ 5 % 32 ∧
    v.toNat % 32 < gr.lr.teamGroups ∧ v.toNat / 2 ^ 5 % 32 < gr.lr.teamGroups ∧ (g.slot = v.toNat % 32 ∨ g.slot = v.toNat / 2 ^ 5 % 32)
theorem met_ConvergenceAndRings_turn : RingMet 1056#32 0#8 fun s g gr v r => ringOk g gr v r ∧ 1 ≤ v.toNat / 2 ^ 10 % 8 ∧ g.slot = v.toNat % 32 ∧
    r.phase.getLsbD 1 = false ∧ assoc r.passed 1 ≠ some s.dev.clk ∧ s.memSettled g = true :=
  ⟨_, _, _, _, _, _, _, ⟨⟨rfl, rfl⟩, rfl, rfl, rfl⟩, rfl, rfl, rfl, ⟨nofun, by decide, by decide, by decide, by decide, by decide, .inl rfl⟩, by decide,
    rfl, rfl, by decide, rfl⟩
theorem met_ConvergenceAndRings_passed : RingMet 1056#32 0#8 fun s g gr v r => ringOk g gr v r ∧ g.slot = v.toNat % 32 ∧ r.phase.getLsbD 0 = false ∧
    assoc r.passed 0 = some (s.onDev fun d => { d with clk := 7 }).dev.clk :=
  ⟨_, _, _, _, _, _, _, ⟨⟨rfl, rfl⟩, rfl, rfl, rfl⟩, rfl, rfl, rfl, ⟨nofun, by decide, by decide, by decide, by decide, by decide, .inl rfl⟩, rfl, rfl, rfl⟩
theorem met_ConvergenceAndRings_waits : RingMet 1056#32 2#8 fun _ g gr v r => ringOk g gr v r ∧ 1 ≤ v.toNat / 2 ^ 10 % 8 ∧ g.slot = v.toNat % 32 ∧
    r.phase.getLsbD 1 = true :=
  ⟨_, _, _, _, _, _, _, ⟨⟨rfl, rfl⟩, rfl, rfl, rfl⟩, rfl, rfl, rfl, ⟨nofun, by decide, by decide, by decide, by decide, by decide, .inl rfl⟩, by decide,
    rfl, rfl⟩
theorem met_ConvergenceAndRings_notTurn : RingMet 1056#32 0#8 fun _ g gr v r => ringOk g gr v r ∧ ¬ 2 ≤ v.toNat / 2 ^ 10 % 8 :=
  ⟨_, _, _, _, _, _, _, ⟨⟨rfl, rfl⟩, rfl, rfl, rfl⟩, rfl, rfl, rfl, ⟨nofun, by decide, by decide, by decide, by decide, by decide, .inl rfl⟩, by decide⟩
theorem met_ConvergenceAndRings_noMember : RingMet 0#32 0#8 fun _ g gr v r => ¬ ringOk g gr v r :=
  ⟨_, _, _, _, _, _, _, ⟨⟨rfl, rfl⟩, rfl, rfl, rfl⟩, rfl, rfl, rfl, fun h => absurd h.2.1 (by decide)⟩

/-- Core 0's engine with an owner and a queue. -/
def engine (owner : Option Nat) (q : List Nat) (s : State) : State := inCore (fun c => { c with owner := owner, ownq := q }) s
def EngineMet (s : State) (p : Group → Team → Core → Prop) : Prop :=
  ∃ st g k th tm, s.IssuesOne st g k th ∧ s.team? g.team = some tm ∧ st.grp = 4 ∧ p g tm (s.core g.core)
theorem met_EngineAndBanks_free : EngineMet base fun _ _ c => c.owner = none ∧ c.ownq = [] ∧ c.relAt ≠ some base.dev.clk :=
  ⟨_, _, _, _, _, ⟨⟨rfl, rfl⟩, rfl, rfl, rfl⟩, rfl, rfl, rfl, rfl, by decide⟩
theorem met_EngineAndBanks_released : EngineMet (inCore (fun c => { c with relAt := some base.dev.clk }) base) fun _ _ c =>
    c.owner = none ∧ c.ownq = [] ∧ c.relAt = some base.dev.clk :=
  ⟨_, _, _, _, _, ⟨⟨rfl, rfl⟩, rfl, rfl, rfl⟩, rfl, rfl, rfl, rfl, rfl⟩
theorem met_EngineAndBanks_taken : EngineMet (engine (some 9) [8] base) fun _ _ c => c.owner = some 9 ∧ 9 ≠ 4 ∧ 4 ∉ c.ownq ∧ c.owner ≠ some 4 :=
  ⟨_, _, _, _, _, ⟨⟨rfl, rfl⟩, rfl, rfl, rfl⟩, rfl, rfl, rfl, by decide, by decide, by decide⟩
theorem met_EngineAndBanks_owned : EngineMet (engine (some 4) [8] base) fun _ tm c => c.owner = some 4 ∧ ∀ x ∈ tm.cv, x = .free :=
  ⟨_, _, _, _, _, ⟨⟨rfl, rfl⟩, rfl, rfl, rfl⟩, rfl, rfl, rfl, by decide⟩
theorem met_EngineAndBanks_busy : EngineMet (engine (some 4) [] (inTeam (fun t => { t with cv := t.cv.set 0 (.bound (bound 1#32 none)) }) base))
    fun _ tm c => c.owner = some 4 ∧ ∃ b, Cv.bound b ∈ tm.cv ∧ b.owner = 4 :=
  ⟨_, _, _, _, _, ⟨⟨rfl, rfl⟩, rfl, rfl, rfl⟩, rfl, rfl, rfl, bound 1#32 none, by decide, rfl⟩
def withBank (n : Nat) (s : State) : State := inTeam (fun t => { t with banks := [⟨n, .unset, []⟩] }) s
theorem met_EngineAndBanks_accalloc : EngineMet base fun g tm _ => tm.ctx = g.ctx ∧ 31 + 1 ≤ 32 ∧ tm.banks = [] ∧ base.qacc g.ctx = 0 ∧ tm.bank? 31 = none :=
  ⟨_, _, _, _, _, ⟨⟨rfl, rfl⟩, rfl, rfl, rfl⟩, rfl, rfl, rfl, by decide, rfl, rfl, rfl⟩
theorem met_EngineAndBanks_accfree : EngineMet (withBank 31 base) fun g tm _ => tm.ctx = g.ctx ∧ (∀ i, 31 ≤ i → i < 32 → tm.bank? i ≠ none) ∧
    (withBank 31 base).bankBusy g.core g.team 31 1 = false :=
  ⟨_, _, _, _, _, ⟨⟨rfl, rfl⟩, rfl, rfl, rfl⟩, rfl, rfl, rfl,
    fun i h1 h2 => by obtain rfl : i = 31 := by omega
                      exact Option.some_ne_none _,
    rfl⟩
def request (n : Nat) : AccReq := ⟨4, 3, 0, n, [0], 4#32, 8#32, 0, true⟩
def requesting (n clk : Nat) (full : Bool) : State :=
  inTeam (fun t => { t with banks := if full then (List.range 32).map fun i => ⟨i, .unset, []⟩ else [] })
    ((inCore (fun c => { c with accq := [request n] }) base).onDev fun d => { d with clk := clk })
theorem met_EngineAndBanks_grant : let s := requesting 32 0 false; ∃ r tm g, (s.core 0).accq = [r] ∧ r.queued = true ∧ s.team? r.team = some tm ∧
    s.group? r.grp = some g ∧ s.underQuota 0 r = true ∧ r.n ≤ s.freeBanks 0 := ⟨request 32, _, _, rfl, rfl, rfl, rfl, rfl, by decide⟩
theorem met_EngineAndBanks_timeout : let s := requesting 1 0x124F80 true; (s.core 0).accq = [request 1] ∧ (s.core 0).accwait.toNat ≠ 0 ∧
    s.freeBanks 0 < (request 1).n ∧ (request 1).since + (s.core 0).accwait.toNat ≤ s.dev.clk := ⟨rfl, by decide, by decide, by decide⟩
theorem met_EngineAndBanks_notYet : let s := requesting 1 0x124F7F true; (s.core 0).accq = [request 1] ∧
    s.dev.clk < (request 1).since + (s.core 0).accwait.toNat := ⟨rfl, by decide⟩

def mk8 : FmtSlot := ⟨3, 0, 0, 0, 0, 0, 0, 0⟩
/-- The engine is the group's; bank 0 is the team's, and so is handle 3, of 8 rows of 64 bytes; every slot is MK8. -/
def matrix (cv : Cv) (latch : List LBuf) : State :=
  inCore (fun c => { c with latch := latch }) <| engine (some 4) [] <|
    inTeam (fun t => { t with handles := [⟨3, 8, 64, 0, [], [], 0⟩], banks := [⟨0, .unset, []⟩], cv := t.cv.set 0 cv }) <|
      inGrid (fun g => { g with lr := { g.lr with fs := List.replicate 8 mk8 } }) (withImm 2055#24 (one [] [(4, 1#32)]))
theorem met_MatrixUnits_bind : let s := matrix .free []; ∃ st g k th tm gr b y, s.IssuesOne st g k th ∧ s.team? g.team = some tm ∧
    s.grid? g.grid = some gr ∧ st.imm = some 2055#24 ∧ gr.lr.fs[0]? = some mk8 ∧ 0 < tm.cv.length ∧ (s.core g.core).owner = some st.grp ∧
    tm.cv[0]? = some .free ∧ tm.bank? 0 = some b ∧ b.mode = .unset ∧ mk8.bytes = 1 ∧ mget g.g 4 ≠ 0#32 ∧ tm.handle? 3 = some y ∧ 8 ≤ y.rows ∧
    64 * mk8.bytes ≤ y.rowb ∧ g.sq = [] ∧ g.sb.getD 0 0 < 255 :=
  ⟨_, _, _, _, _, _, _, _, ⟨⟨rfl, rfl⟩, rfl, rfl, rfl⟩, rfl, rfl, rfl, rfl, by decide, rfl, rfl, rfl, rfl, rfl, by decide, rfl, by decide, by decide, rfl,
    by decide⟩
theorem met_MatrixUnits_unowned : EngineMet base fun _ tm c => c.owner ≠ some 4 ∧ ∀ b, tm.cv[0]? ≠ some (.bound b) :=
  ⟨_, _, _, _, _, ⟨⟨rfl, rfl⟩, rfl, rfl, rfl⟩, rfl, rfl, by decide, nofun⟩
def SignMet (b : Binding) (latch : List LBuf) (p : State → Group → Nat → Prop) : Prop := let s := matrix (.bound b) latch
  ∃ st g k th tm, s.IssuesOne st g k th ∧ s.team? g.team = some tm ∧ (s.core g.core).owner = some st.grp ∧ tm.cv[0]? = some (.bound b) ∧
    b.owner = st.grp ∧ b.mask.getLsbD k = true ∧ b.signed.getLsbD k = false ∧ b.kind = none ∧ p s g k
theorem met_MatrixUnits_first : SignMet (bound 3#32 none) [] fun s g k => (∃ n, (s.core g.core).freeBuf = some n) ∧
    allSigned g 3#32 (0#32 ||| 1#32 <<< k) = false ∧ (s.core g.core).held? = none ∧ s.latchDue g.core = false :=
  ⟨_, _, _, _, _, ⟨⟨rfl, rfl⟩, rfl, rfl, rfl⟩, rfl, rfl, rfl, rfl, rfl, rfl, rfl, ⟨_, rfl⟩, rfl, rfl, rfl⟩
theorem met_MatrixUnits_last : SignMet (bound 1#32 (some 0)) [⟨.filling, []⟩] fun s g k => allSigned g 1#32 (0#32 ||| 1#32 <<< k) = true ∧
    (s.core g.core).eqRoom = true := ⟨_, _, _, _, _, ⟨⟨rfl, rfl⟩, rfl, rfl, rfl⟩, rfl, rfl, rfl, rfl, rfl, rfl, rfl, rfl, rfl⟩
theorem met_MatrixUnits_reuse : SignMet (bound 1#32 none) [⟨.held, [(0, 1#32)]⟩] fun s g _ => ∃ n rows, (s.core g.core).held? = some (n, rows) :=
  ⟨_, _, _, _, _, ⟨⟨rfl, rfl⟩, rfl, rfl, rfl⟩, rfl, rfl, rfl, rfl, rfl, rfl, rfl, _, _, rfl⟩
theorem met_MatrixUnits_queue : let s := matrix (.bound (bound 1#32 none)) []; ∃ g tm fb, s.team? g.team = some tm ∧
    (s.slotsOf g)[(bound 1#32 none).bfs]? = some fb ∧ fb.sidePath = false :=
  ⟨(matrix (.bound (bound 1#32 none)) []).dev.groups.head (List.cons_ne_nil _ _), _, _, rfl, rfl, rfl⟩

/-- The engine is the group's; bank 0 is the team's, and so is handle 3, of 64 rows of 64 bytes; g0 and g1 hold an address. -/
def draining (s : State) : State := inTeam (fun t => { t with handles := [⟨3, 64, 64, 0, [], [], 0⟩] }) <| engine (some 4) [] <|
  inTeam (fun t => { t with banks := [⟨0, .unset, []⟩] }) <| inGrid (fun g => { g with lr := { g.lr with fs := List.replicate 8 mk8 } }) s
def engEntry (kind : EqKind) (units need : Nat) : EqEntry := ⟨8, 4, 3, kind, units, need, [], 0, false, true, none, [], 7⟩
def engQueue (n : Nat) (s : State) : State := inCore (fun c => { c with eq := List.replicate n (engEntry (.mzero 0) 0 0) }) s
theorem met_EngineUnitsIssue_room : let s := engQueue 15 (draining base); ∃ st g k th tm b, s.IssuesOne st g k th ∧ s.team? g.team = some tm ∧
    (s.core g.core).owner = some st.grp ∧ tm.bank? 0 = some b ∧ (s.core g.core).eq.length < 16 ∧ (s.core g.core).due = [] ∧ g.sb.getD 0 0 < 255 ∧ g.sq = [] :=
  ⟨_, _, _, _, _, _, ⟨⟨rfl, rfl⟩, rfl, rfl, rfl⟩, rfl, rfl, rfl, by decide, rfl, by decide, rfl⟩
theorem met_EngineUnitsIssue_full : let s := engQueue 16 (draining base); ∃ st g k th tm, s.IssuesOne st g k th ∧ s.team? g.team = some tm ∧
    (s.core g.core).owner = some st.grp ∧ ¬ (s.core g.core).eq.length < 16 ∧ tm.bank? 31 = none :=
  ⟨_, _, _, _, _, ⟨⟨rfl, rfl⟩, rfl, rfl, rfl⟩, rfl, rfl, by decide, rfl⟩
theorem met_EngineUnitsIssue_unowned : ∃ st g k th tm, base.IssuesOne st g k th ∧ base.team? g.team = some tm ∧ (base.core g.core).owner ≠ some st.grp :=
  ⟨_, _, _, _, _, ⟨⟨rfl, rfl⟩, rfl, rfl, rfl⟩, rfl, by decide⟩
theorem met_EngineUnitsIssue_fits : let s := draining base; ∃ g tm x, s.team? 3 = some tm ∧ tm.handle? 3 = some x ∧ 64 ≤ x.rows ∧
    64 * (s.slotAt g 0).bytes ≤ x.rowb ∧ (mget g.g 0).toNat % (s.slotAt g 0).bytes = 0 ∧ (mget g.g 2).toNat % (s.slotAt g 0).bytes = 0 :=
  ⟨(draining base).dev.groups.head (List.cons_ne_nil _ _), _, _, rfl, rfl, by decide, by decide, rfl, rfl⟩

/-- Records at 0x10000 and 0x10040, named by g0 and g2; four banks; K 8, the second record's pair at g2. -/
def mmac (m : List MmacGive) : State :=
  let s := (mapped ((engine (some 4) [] (withImm 450#24 (one [] [(0, 0x10000#32), (2, 0x10040#32)]))))).put 0x210000 (record ++ record)
  (inTeam (fun t => { t with banks := (List.range 4).map fun i => ⟨i, .unset, []⟩ })
    (inGrid (fun g => { g with lr := { g.lr with fs := List.replicate 8 mk8 } }) s)).updCluster 2 fun c => { c with mmac := m }
def MmacMet (m : List MmacGive) : Prop := let s := mmac m
  let got := fun (s : State) (g : Group) (st : Stream) => (s.core g.core).recs.filter fun p => p.line == st.grp
  ∃ st g k th tm cl s1 s2 x y ea eb la lb, s.IssuesOne st g k th ∧ s.team? g.team = some tm ∧ s.cluster? tm.cluster = some cl ∧
    (s.core g.core).owner = some st.grp ∧ (st.imm.getD 0#24).toNat / 2 ^ 6 % 64 + 1 = 8 ∧ (st.imm.getD 0#24).toNat % 64 = 2 ∧
    s.readTensor g.core g.ctx 0 g.grid (mget g.g 1 ++ mget g.g 0).toNat g.pts (got s g st) = (s1, .ok ea, some x, la) ∧
    s1.readTensor g.core g.ctx 0 g.grid (mget g.g 3 ++ mget g.g 2).toNat g.pts (got s1 g st) = (s2, .ok eb, some y, lb) ∧
    ((List.range 4).all fun i => bankFits (tm.bank? i) (s2.slotAt g x.fs) (s2.slotAt g y.fs) 8) = true ∧ (s2.core g.core).eqRoom = true ∧
    s2.hasRoom st.grp 0 = true ∧ cl.mmac = m
theorem met_MatrixElements_agrees : MmacMet [] := ⟨_, _, _, _, _, _, _, _, _, _, _, _, _, _, ⟨⟨rfl, rfl⟩, rfl, rfl, rfl⟩, rfl, rfl, rfl, rfl, rfl, rfl, rfl, rfl, rfl, rfl, rfl⟩
theorem met_MatrixElements_differs : MmacMet [⟨9, 0, 0, 8, true⟩] ∧ ∀ m ∈ [(⟨9, 0, 0, 8, true⟩ : MmacGive)], m.team ≠ 3 :=
  ⟨⟨_, _, _, _, _, _, _, _, _, _, _, _, _, _, ⟨⟨rfl, rfl⟩, rfl, rfl, rfl⟩, rfl, rfl, rfl, rfl, rfl, rfl, rfl, rfl, rfl, rfl, rfl⟩, by decide⟩
theorem met_MatrixElements_begins : let s := mmac [⟨3, 0, 0, 8, true⟩]; ∃ c t, s.cluster? 2 = some c ∧ (s.dev.teams.filter fun t => t.cluster == 2) = [t] ∧
    ∃ m ∈ c.mmac, m.team = t.id := ⟨_, _, rfl, rfl, by decide⟩
theorem met_MatrixElements_waits : ∃ c t, (mmac []).cluster? 2 = some c ∧ (mmac []).dev.teams.filter (fun t => t.cluster == 2) = [t] ∧
    c.mmac = [] ∧ t.st ≠ .retired := ⟨_, _, rfl, rfl, rfl, by decide⟩
theorem met_MatrixElements_formats : (⟨4, 0, 0, 0, 0, 0, 0, 0⟩ : FmtSlot).fmt = 4 ∧ mk8.fmt ≠ 4 := by decide

def AtMet (e : EqEntry) (p : State → Prop) : Prop := let s := inCore (fun c => { c with eq := [e] }) (draining base)
  s.current 0 = some e ∧ (∃ g, s.group? e.grp = some g) ∧ p s
theorem met_EngineProgress_none : base.current 0 = none := rfl
theorem met_EngineProgress_mzero : AtMet (engEntry (.mzero 0) 0 0) fun _ => True := ⟨rfl, ⟨_, rfl⟩, trivial⟩
theorem met_EngineProgress_accst : AtMet (engEntry (.accst 0 1 3 [(31, [1#32])]) 0 0) fun _ => True := ⟨rfl, ⟨_, rfl⟩, trivial⟩
theorem met_EngineProgress_accld : AtMet (engEntry (.accld 0 [(0, 7)] 48 1 3) 0 0) fun s => ∃ tm b, s.team? 3 = some tm ∧ tm.bank? 0 = some b :=
  ⟨rfl, ⟨_, rfl⟩, _, _, rfl, rfl⟩
theorem met_EngineProgress_drain : AtMet (engEntry (.drain 0 (.memory 0x10000 64 0 0) 0 none) 0 0) fun s => ∃ g tm b, s.group? 4 = some g ∧
    s.team? 3 = some tm ∧ tm.bank? 0 = some b := ⟨rfl, ⟨_, rfl⟩, _, _, _, rfl, rfl, rfl⟩
def matrixOp (absent : List Nat) (units : Nat) : State := inTeam (fun t => { t with handles := [⟨3, 64, 64, 0, absent, [], 1⟩] })
  (inCore (fun c => { c with eq := [engEntry (.op (bound 1#32 (some 0))) units 8] }) (draining base))
theorem met_EngineProgress_op : let s := matrixOp [] 8; ∃ e g y, s.current 0 = some e ∧ s.group? e.grp = some g ∧ e.toRead = false ∧ e.need ≤ e.units ∧
    e.list.length ≤ e.added ∧ s.handleOf e.team 3 = some y ∧ (rowLines y 0 8 (64 * s.slotBytes e.team 0)).all (fun l => !y.absent.contains l) = true :=
  ⟨_, _, _, rfl, rfl, rfl, by decide, by decide, rfl, rfl⟩
theorem met_EngineProgress_absent : let s := matrixOp [0] 8; ∃ e y, s.current 0 = some e ∧ s.handleOf e.team 3 = some y ∧
    (rowLines y 0 8 (64 * s.slotBytes e.team 0)).any (fun l => y.absent.contains l) = true := ⟨_, _, rfl, rfl, rfl⟩
theorem met_EngineProgress_unready : let s := matrixOp [] 7; ∃ e, s.current 0 = some e ∧ ¬ (e.need ≤ e.units ∧ e.list.length ≤ e.added) :=
  ⟨_, rfl, by decide⟩
/-- A share of an operation whose records and bytes have been read: both operands 8-bit, in format slot 0. -/
def shareRec : TensorRec := ⟨0x20000, [64, 64, 1, 1, 1], [0, 64, 0, 0, 0], [64, 64, 1, 1, 1], 2, 0⟩
def shareEntry : EqEntry := { engEntry (.share 0 0x10000 0x10040 8 0 0) 8 8 with share := some ⟨9, [(0, 0)], some (some (shareRec, shareRec), none), some ([], none)⟩ }
theorem met_EngineProgress_share : AtMet shareEntry fun s => shareEntry.toRead = false ∧ shareEntry.need ≤ shareEntry.units ∧ shareEntry.list.length ≤ shareEntry.added ∧
    ∀ z ∈ s.opShares 9, z.2.id = shareEntry.id → z.2 = shareEntry :=
  ⟨rfl, ⟨_, rfl⟩, rfl, by decide, by decide, by decide⟩
/-- What the part about a drain's bytes asks: a memory target at 0x20000, and a bank of zeros. -/
def drained : DrainAcc := ⟨mapped base, [], 0, 0, []⟩
theorem met_EngineProgress_bytes : drained.cells = [] ∧ mk8.scale ≤ 1 ∧ (mk8.encode (exMul (fp32.decode 0) (Ex.num false 1 0)).1).out = none ∧
    (∀ r < 64, ∀ c < 64, (0x20000 + r * 64 + c * 1) % 2 ^ 64 < 2 ^ 21) ∧
    drained.s.Translates (drained.s.dev.groups.head (List.cons_ne_nil _ _)) 0x20000 (leaf2M 0) ∧ (leaf2M 0).typ ∈ [0, 1, 2] ∧ (leaf2M 0).w = true ∧
    (leaf2M 0).dty = true ∧ drained.s.dev.engFail = [] :=
  ⟨rfl, by decide, rfl, fun r hr c hc => by omega, rfl, by decide, rfl, rfl, rfl⟩
theorem met_EngineProgress_level : base.dev.clk % 4 = 0 ∧ base.dev.nextStep ≤ base.dev.clk := by decide

/-- Bin 5 of core 0, which the context has enabled. -/
def binned (f : Bin → Bin) (s : State) : State :=
  inCore (fun c => { c with bins := [f { Bin.reset 5 with kind := .material, en := true, key := 64#32, st := .idle, lr := some (hostLaunch .vector mk8) }] }) s
def BinMet (f : Bin → Bin) (v : Word) (p : State → Group → Thread → Option Bin → Prop) : Prop := let s := binned f (one [(1, v)] [])
  ∃ st g k th, s.IssuesOne st g k th ∧ g.sb.getD 0 0 < 255 ∧ th.helper = false ∧ p s g th ((s.ctxBins g.core g.ctx).find? fun x => x.key == rd g th (.v 1#6))
theorem met_BinUnits_none : BinMet id 8#32 fun _ _ _ b => b = none := ⟨_, _, _, _, ⟨⟨rfl, rfl⟩, rfl, rfl, rfl⟩, by decide, rfl, rfl⟩
theorem met_BinUnits_room : BinMet (fun b => { b with q := List.replicate 31 ⟨[], 0, none, 0⟩ }) 64#32 fun s g _ b => ∃ x, b = some x ∧
    x.kind ≠ .continuation ∧ ¬ (x.st = .closing ∨ x.st = .faulted) ∧ s.onWay g.core x.n < x.room ∧ x.q ≠ [] :=
  ⟨_, _, _, _, ⟨⟨rfl, rfl⟩, rfl, rfl, rfl⟩, by decide, rfl, _, rfl, by decide, by decide, by decide, by decide⟩
theorem met_BinUnits_full : BinMet (fun b => { b with q := List.replicate 32 ⟨[], 0, none, 0⟩ }) 64#32 fun s g _ b => ∃ x t, b = some x ∧
    ¬ (x.st = .closing ∨ x.st = .faulted) ∧ x.room ≤ s.onWay g.core x.n ∧ x.full = false ∧ s.park 4 0 (.bin g.core x.n) = some t :=
  ⟨_, _, _, _, ⟨⟨rfl, rfl⟩, rfl, rfl, rfl⟩, by decide, rfl, _, _, rfl, by decide, by decide, rfl, rfl⟩
theorem met_BinUnits_closing : BinMet (fun b => { b with st := .closing, full := true }) 64#32 fun _ _ _ b => ∃ x, b = some x ∧ x.st = .closing :=
  ⟨_, _, _, _, ⟨⟨rfl, rfl⟩, rfl, rfl, rfl⟩, by decide, rfl, _, rfl, rfl⟩
theorem met_BinUnits_continuation : BinMet (fun b => { b with kind := .continuation }) 64#32 fun _ _ _ b => ∃ x, b = some x ∧ x.kind = .continuation :=
  ⟨_, _, _, _, ⟨⟨rfl, rfl⟩, rfl, rfl, rfl⟩, by decide, rfl, _, rfl, rfl⟩
theorem met_BinUnits_node : let s := binned (fun b => { b with kind := .node }) (one [(1, 0x02000040#32)] []); ∃ st g k th x, s.IssuesOne st g k th ∧
    (s.ctxBins g.core g.ctx).find? (fun x => x.kind == .node && x.key == ((rd g th (.v 1#6)).extractLsb' 0 24).setWidth 32) = some x :=
  ⟨_, _, _, _, _, ⟨⟨rfl, rfl⟩, rfl, rfl, rfl⟩, rfl⟩
theorem met_BinUnits_ring : BinMet (fun b => { b with ringRecs := [⟨[], 0, none, 0⟩] }) 64#32 fun s _ _ b => ∃ x, b = some x ∧ x.q = [] ∧ x.ringRecs ≠ [] ∧
    x.st ≠ .faulted ∧ s.dev.results = [] := ⟨_, _, _, _, ⟨⟨rfl, rfl⟩, rfl, rfl, rfl⟩, by decide, rfl, _, rfl, rfl, by decide, by decide, rfl⟩
theorem met_BinUnits_waiting : let s := (binned (fun b => { b with q := [⟨[], 0, none, 0⟩] }) (one [(1, 64#32)] [])).onDev fun d =>
      { d with results := [⟨7, 4, 0, some 1, 4#32, .pop 0 5 (.v 8#6) (.v 9#6), false, [], 0, none, false, []⟩] }
    (∃ st g k th, s.IssuesOne st g k th ∧ g.sb.getD 0 0 < 255) ∧ ∃ r ∈ s.dev.results, ∃ a d, r.kind = .pop 0 5 a d ∧ r.ready = false :=
  ⟨⟨_, _, _, _, ⟨⟨rfl, rfl⟩, rfl, rfl, rfl⟩, by decide⟩, _, List.mem_singleton.mpr rfl, _, _, rfl, rfl⟩
theorem met_BinUnits_cont : BinMet (fun b => { b with kind := .continuation }) 64#32 fun s g th b => (rd g th (.v 1#6)).toNat % 4 = 0 ∧ rd g th (.v 1#6) ≠ 0#32 ∧
    ∃ x gr, b = some x ∧ x.kind = .continuation ∧ x.st ≠ .closing ∧ x.st ≠ .faulted ∧ s.onWay g.core x.n < x.room ∧ s.grid? g.grid = some gr :=
  ⟨_, _, _, _, ⟨⟨rfl, rfl⟩, rfl, rfl, rfl⟩, by decide, rfl, by decide, by decide, _, _, rfl, rfl, by decide, by decide, by decide, rfl⟩
theorem met_BinUnits_unbound : BinMet (fun b => { b with kind := .continuation, key := 0#32 }) 64#32 fun s g _ b => b = none ∧ ∃ x r gr,
    s.ctxBins g.core g.ctx = [] ++ x :: [] ∧ x.kind = .continuation ∧ x.key = 0#32 ∧ x.lr = some r ∧ s.grid? g.grid = some gr ∧ r.codebase = gr.lr.codebase ∧
    x.st ≠ .closing ∧ x.st ≠ .faulted ∧ s.onWay g.core x.n < x.room :=
  ⟨_, _, _, _, ⟨⟨rfl, rfl⟩, rfl, rfl, rfl⟩, by decide, rfl, rfl, _, _, _, rfl, rfl, rfl, rfl, rfl, rfl, by decide, by decide, by decide⟩
theorem met_BinUnits_misaligned : BinMet id 66#32 fun _ g th _ => (rd g th (.v 1#6)).toNat % 4 ≠ 0 ∨ rd g th (.v 1#6) = 0#32 :=
  ⟨_, _, _, _, ⟨⟨rfl, rfl⟩, rfl, rfl, rfl⟩, by decide, rfl, .inl (by decide)⟩

def push5 : Push := ⟨9, 0, 0, some 5, 64#32, [1#32], 4, 0, 0, none, 0, 0⟩
def expecting : State := (binned (fun b => { b with kind := .continuation, key := 0#32 }) (one [(1, 64#32)] [])).onDev fun d => { d with pushes := [push5] }
theorem met_BinUnits_expected : ∃ st g k th gr x, expecting.IssuesOne st g k th ∧ expecting.grid? g.grid = some gr ∧
    expecting.ctxBins g.core g.ctx = [] ++ x :: [] ∧ x.kind = .continuation ∧ x.key = 0#32 ∧ rd g th (.v 1#6) = 64#32 ∧
    (∃ p ∈ expecting.dev.pushes, p.core = g.core ∧ p.bin = some x.n ∧ p.key = 64#32) ∧ x.st = .idle ∧ expecting.onWay g.core x.n < x.room :=
  ⟨_, _, _, _, _, _, ⟨⟨rfl, rfl⟩, rfl, rfl, rfl⟩, rfl, rfl, rfl, rfl, rfl, ⟨push5, List.mem_singleton.mpr rfl, rfl, rfl, rfl⟩, rfl, by decide⟩
/-- The context has a save area. -/
def saving (s : State) : State := s.updCtx 0 fun c => { c with e := { c.e with savebase := 0x100000, savesize := 0x80000 } }
def EventMet (f : Bin → Bin) (p : State → Bin → Prop) : Prop :=
  let s := (binned f (saving (mapped base))).onDev fun d => { d with pushes := [push5], die := { d.die with zonesRdy := 1#12, shengRdy := 1#192, rastRdy := 1#192 } }
  p s (s.bin 0 5)
theorem met_BinEvents_accept : EventMet id fun s b => (s.dev.pushes.find? fun x => x.id == push5.id && x.core == 0) = some push5 ∧ push5.bin = some 5 ∧
    (∀ x ∈ s.dev.pushes, push5.id ≤ x.id) ∧ s.storesBefore push5 = false ∧ s.accepted 0 = false ∧ s.quadOn 0 = none ∧ b.st = .idle ∧ b.n = 5 ∧ b.ringRecs = [] ∧ b.q.length < 32 :=
  ⟨rfl, rfl, by decide, rfl, rfl, rfl, rfl, rfl, rfl, by decide⟩
theorem met_BinEvents_refused : EventMet (fun b => { b with st := .faulted }) fun s b => s.storesBefore push5 = false ∧ s.accepted 0 = false ∧ s.quadOn 0 = none ∧
    b.st = .faulted := ⟨rfl, rfl, rfl, rfl⟩
theorem met_BinEvents_waits : let s := queued 1 ((binned id base).onDev fun d => { d with pushes := [{ push5 with id := 91 }] })
    s.storesBefore { push5 with id := 91 } = true := rfl
theorem met_BinEvents_refill : EventMet (fun b =>
    { b with ringRecs := [⟨[], 0, none, 0⟩], st := .holding, ring := 0x10000, rlog2 := 4, head := 15, q := List.replicate 31 ⟨[], 0, none, 0⟩ }) fun s b => ∃ r rest s1 e d p, b.ringRecs = r :: rest ∧ b.q.length < 32 ∧ b.st ≠ .faulted ∧ b.st ≠ .off ∧ b.decided ≠ some s.dev.clk ∧
      s.engReadAt (some 0) b.ctx (2 ^ 60 + 64 * 0 + 5) (b.ring + 32 * (b.head % b.ringSize)) 32 .unitRead r.pts = (s1, .ok e, d, p) :=
  ⟨_, _, _, _, _, _, rfl, by decide, by decide, by decide, by decide, rfl⟩
theorem met_BinEvents_enableRefused : EventMet (fun b => { b with st := .off, rlog2 := 3 }) fun _ b => b.st = .off ∧ b.en = true ∧ 1 ≤ b.rlog2 ∧ b.rlog2 ≤ 3 :=
  ⟨rfl, rfl, by decide, by decide⟩
/-- A launch record of one group: its overlay table at 0x10000, one entry, 64 registers. -/
def launchBytes : List Byte := bytesOf [0#32, 0#32, 0x10000#32, 0#32, 1#32, 0#32, 0#32, 0x01010140#32, 1#32, 1#32, 1#32]
theorem met_BinEvents_enabled : let s := ((binned (fun b => { b with st := .off, lrec := 0x300000 }) (saving base)).put 0x300000 launchBytes)
    let b := s.bin 0 5
    let r := { launchOf (s.bytesAt b.lrec 256) with gx := 1, gy := 1, gz := 1 }
    b.st = .off ∧ b.en = true ∧ s.inMem b.lrec 256 = true ∧ b.kind ≠ .off ∧ b.rlog2 = 0 ∧ s.gen b.ctx = b.gen ∧ s.ctxState b.ctx = .active ∧
      ((s.core 0).bins.map fun x => x.n) = [5] ∧ r.inRange = true ∧ r.tdcount = 0 ∧ s.binRecordOk b r = true :=
  ⟨rfl, rfl, rfl, by decide, rfl, rfl, rfl, rfl, rfl, rfl, rfl⟩
theorem met_BinEvents_disabled : EventMet (fun b => { b with st := .closing }) fun s b => b.count = 0 ∧ (s.dev.pushes.map fun p => p.id).Nodup ∧
    ∃ p ∈ s.dev.pushes, p.core = 0 ∧ p.bin = some 5 := ⟨rfl, by decide, by decide⟩
theorem met_BinEvents_decided : EventMet (fun b => { b with st := .holding, q := List.replicate 32 ⟨[], 0, none, 0⟩, decided := some 0 }) fun s b =>
    b.decided = some s.dev.clk := rfl
theorem met_BinEvents_holding : EventMet (fun b => { b with st := .holding }) fun s b => b.st = .holding ∧ s.binDue 0 b = false := ⟨rfl, rfl⟩
theorem met_BinEvents_launch : EventMet (fun b => { b with st := .holding, q := List.replicate 32 ⟨[], 0, none, 0⟩ }) fun s b => ∃ r seats,
    s.binDue 0 b = true ∧ b.lr = some r ∧ s.binSeats 0 b r = some seats := ⟨_, _, rfl, rfl, rfl⟩
theorem met_BinEvents_delayed : let s := binned (fun b => { b with st := .holding, q := List.replicate 32 ⟨[], 0, none, 0⟩ }) base
    ∃ r, s.binDue 0 (s.bin 0 5) = true ∧ (s.bin 0 5).lr = some r ∧ s.binSeats 0 (s.bin 0 5) r = none := ⟨_, rfl, rfl, rfl⟩

/-- A frame record: 8 by 8 pixels, its surface at 0x20000, its seal word at 0x11000. -/
def frameBytes : List Byte :=
  bytesOf [0x20000#32, 0#32, 0x00080008#32, 0#32, 0#32, 0#32, 0#32, 0#32, 0#32, 0#32, 0#32, 0#32, 0x11000#32, 0#32, 0#32, 0#32]
def smallFrame : FrameRec := frameOf frameBytes
/-- v1: a meshlet word of handle 3, of one vertex and one triangle; v2, v3: the record's address; v5: a count. -/
def meshing (va : Nat) (frames : List Frame) : State :=
  ((inTeam (fun t => { t with handles := [⟨3, 16, 128, 0, [], [], 0⟩] })
    (mapped (one [(1, 3#32), (2, BitVec.ofNat 32 va), (5, 1#32)] []))).put 0x210000 frameBytes).onDev fun d => { d with frames := frames }
def theFrame (st : FrameState) : Frame := newFrame 6 0 0x10000 smallFrame st 0
def MeshMet (s : State) (p : State → Group → Thread → Team → Prop) : Prop :=
  ∃ st g k th tm, s.IssuesOne st g k th ∧ s.team? g.team = some tm ∧ th.helper = false ∧ g.sb.getD 0 0 < 255 ∧ p s g th tm
def isOpenAt (g : Group) (va : Nat) (f : Frame) : Bool := f.ctx == g.ctx && f.va == va && f.st == .open_
theorem met_MeshAndSeals_open : MeshMet (meshing 0x10000 [theFrame .open_]) fun s g th tm => g.sq = [] ∧ ∃ f y,
    s.dev.frames.find? (isOpenAt g (rd64 g th (.v 2#6)).toNat) = some f ∧ tm.handle? ((rd g th (.v 1#6)).toNat % 256) = some y ∧
    1024 + 4 ≤ y.rows * pitchOf y.rowb ∧ (rd g th (.v 1#6)).toNat < 2 ^ 21 ∧ ∀ l ∈ y.absent, 1028 ≤ l * 128 :=
  ⟨_, _, _, _, _, ⟨⟨rfl, rfl⟩, rfl, rfl, rfl⟩, rfl, rfl, by decide, rfl, _, _, rfl, rfl, by decide, by decide, by decide⟩
theorem met_MeshAndSeals_opens : MeshMet (meshing 0x10000 []) fun s g th _ => s.dev.frames.find? (isOpenAt g (rd64 g th (.v 2#6)).toNat) = none ∧
    (s.dev.frames.filter fun f => f.st == .open_).length < 4096 ∧ s.Finds g (rd64 g th (.v 2#6)).toNat 64 (leaf2M 0) ∧
    (frameOf (s.bytesAt ((leaf2M 0).pbase + ((rd64 g th (.v 2#6)).toNat - (leaf2M 0).vbase)) 64)).ok (s.qcount g.ctx) = true :=
  ⟨_, _, _, _, _, ⟨⟨rfl, rfl⟩, rfl, rfl, rfl⟩, rfl, rfl, by decide, rfl, by decide, ⟨by decide, by decide, rfl, rfl, rfl⟩, rfl⟩
theorem met_MeshAndSeals_malformed : MeshMet (meshing 0x12000 []) fun s g th _ => s.Finds g (rd64 g th (.v 2#6)).toNat 64 (leaf2M 0) ∧
    (frameOf (s.bytesAt ((leaf2M 0).pbase + ((rd64 g th (.v 2#6)).toNat - (leaf2M 0).vbase)) 64)).ok (s.qcount g.ctx) = false :=
  ⟨_, _, _, _, _, ⟨⟨rfl, rfl⟩, rfl, rfl, rfl⟩, rfl, rfl, by decide, ⟨by decide, by decide, rfl, rfl, rfl⟩, rfl⟩
theorem met_MeshAndSeals_misaligned : MeshMet (meshing 0x10020 []) fun s g th _ => s.dev.frames.find? (isOpenAt g (rd64 g th (.v 2#6)).toNat) = none ∧
    (rd64 g th (.v 2#6)).toNat % 64 ≠ 0 := ⟨_, _, _, _, _, ⟨⟨rfl, rfl⟩, rfl, rfl, rfl⟩, rfl, rfl, by decide, rfl, by decide⟩
theorem met_MeshAndSeals_frames (s : State) (h : s.dev.frames = List.replicate 4096 (theFrame .open_)) :
    4096 ≤ (s.dev.frames.filter fun f => f.st == .open_).length := by rw [h, List.filter_replicate]; simp [theFrame, newFrame]
theorem met_MeshAndSeals_full : ∃ st g k th, (tokens 255 base).IssuesOne st g k th ∧ 255 ≤ g.sb.getD 0 0 := ⟨_, _, _, _, ⟨⟨rfl, rfl⟩, rfl, rfl, rfl⟩, by decide⟩
theorem met_MeshAndSeals_seal : MeshMet (meshing 0x10000 [theFrame .sealing, { theFrame .open_ with id := 7 }]) fun s g th _ => ∃ f,
    s.dev.frames.find? (isOpenAt g (rd64 g th (.v 2#6)).toNat) = some f ∧ ∃ e ∈ s.dev.frames, e.ctx = g.ctx ∧ e.va = (rd64 g th (.v 2#6)).toNat ∧ e.st ≠ .open_ :=
  ⟨_, _, _, _, _, ⟨⟨rfl, rfl⟩, rfl, rfl, rfl⟩, rfl, rfl, by decide, _, rfl, by decide⟩
theorem met_MeshAndSeals_sealNone : MeshMet (meshing 0x10020 []) fun s g th _ => s.dev.frames.find? (isOpenAt g (rd64 g th (.v 2#6)).toNat) = none ∧
    (rd64 g th (.v 2#6)).toNat % 64 ≠ 0 ∧ (∀ f ∈ s.dev.frames, f.id ≠ s.dev.nextId + 1 ∧ f.st ≠ .waiting) ∧ ∀ r ∈ s.dev.results, r.id ≠ s.dev.nextId :=
  ⟨_, _, _, _, _, ⟨⟨rfl, rfl⟩, rfl, rfl, rfl⟩, rfl, rfl, by decide, rfl, by decide, by decide, by decide⟩
theorem met_MeshAndSeals_later : let s := queued 1 (base.onDev fun d => { d with nextId := 100 }); ∃ st g k th, s.IssuesOne st g k th ∧ g.sb.getD 0 0 < 255 ∧
    s.dev.frames = [] ∧ s.dev.results = [] ∧ ∃ e ∈ g.sq, e.id < s.dev.nextId :=
  ⟨_, _, _, _, ⟨⟨rfl, rfl⟩, rfl, rfl, rfl⟩, by decide, rfl, rfl, _, List.mem_singleton.mpr rfl, by decide⟩
theorem met_MeshAndSeals_unsettled : ∃ st g k th, (queued 1 base).IssuesOne st g k th ∧ (queued 1 base).memSettled g = false :=
  met_OverlayInstructions_unsettled
theorem met_MeshAndSeals_wait : MeshMet (meshing 0x10000 []) fun s g th _ => s.memSettled g = true ∧ (rd64 g th (.v 2#6)).toNat % 64 = 0 ∧
    s.Finds g ((rd64 g th (.v 2#6)).toNat + 0x30) 8 (leaf2M 0) ∧
    s.Finds g (natOfBytes (mgets s.mem 0x210030 8)) 4 (leaf2M 0) ∧
    (BitVec.ofNat 32 (natOfBytes (mgets s.mem 0x211000 4)) - rd g th (.v 4#6)).toNat < 2 ^ 31 ∧
    2 ^ 31 ≤ (BitVec.ofNat 32 (natOfBytes (mgets s.mem 0x211000 4)) - rd g th (.v 5#6)).toNat :=
  ⟨_, _, _, _, _, ⟨⟨rfl, rfl⟩, rfl, rfl, rfl⟩, rfl, rfl, by decide, rfl, by decide, ⟨by decide, by decide, rfl, rfl, rfl⟩,
    ⟨by decide, by decide, rfl, rfl, rfl⟩, by decide, by decide⟩

/-- Page tables that map the first 2 MiB, for units without a core. -/
def paged (s : State) : State := (((s.put 0 [0x01#8, 0x10#8]).put 0x1000 [0x01#8, 0x20#8]).put 0x2000 [0x01#8, 0x30#8]).put 0x3000 [0x6F#8, 0#8, 0x20#8]
def clearTile (st : TileState) : Tile := ⟨0, st, true, List.replicate 64 (BitVec.allOnes 64), List.replicate 64 0#32, 0, [], [], []⟩
def framing (f : Frame) (quads : List Quad) : State := (paged base).onDev fun d => { d with frames := [f], quads := quads }
def aQuad : Quad := ⟨9, 6, 0, 0, 15#4, 1#64, [], 7⟩
theorem met_FramePixels_quad : let s := framing (theFrame .open_) [aQuad]; ∃ f, s.dev.quads = [] ++ aQuad :: [] ∧ s.quadHeld aQuad = false ∧ s.frame? aQuad.frame = some f ∧
    ((f.tiles.find? fun t => t.idx == 0).getD (clearTile .open_)).ids.length = 64 := ⟨_, rfl, rfl, rfl, rfl⟩
theorem met_FramePixels_none : ∀ q ∈ base.dev.quads, q.owner = 9 → base.quadHeld q = true := by decide
theorem met_FramePixels_depth : fp32.decode 0x7FC00000 = .nan ∧ ¬ (fp32.decode 0 = .nan ∨ fp32.decode 0x3F800000 = .nan) := by decide
theorem met_FramePixels_write : let s := framing { theFrame .open_ with tiles := [clearTile .sealed] } []; ∃ f t s1 e p, s.frame? 6 = some f ∧
    (f.tiles.find? fun t => t.idx == 0) = some t ∧ t.inL2 = true ∧ t.st = .sealed ∧
    s.engWrite none f.ctx 0 (f.fr.surf + 768 * 0) t.bytes .unitWrite 0 = (s1, .ok e, p) := ⟨_, _, _, _, _, rfl, rfl, rfl, rfl, rfl⟩
theorem met_FramePixels_notYet : let s := framing (theFrame .open_) []; ∃ f, s.frame? 6 = some f ∧ f.st ≠ .unread ∧ f.st ≠ .sealing := ⟨_, rfl, by decide, by decide⟩
theorem met_FramePixels_classify : let s := framing (theFrame .sealing) []; ∃ f, s.frame? 6 = some f ∧ f.st = .sealing ∧ f.meshes = [] ∧ 0 < f.fr.tiles ∧
    f.done 0 = false ∧ (∀ i < 0, f.nextTile ≤ i → s.tileOwner f.fr i = s.tileOwner f.fr 0 → f.done i = true) ∧
    (f.tiles.find? fun t => t.idx == 0).getD (clearTile .open_) = clearTile .open_ := ⟨_, rfl, rfl, rfl, by decide, rfl, nofun, rfl⟩
theorem met_FramePixels_seal : let s := framing { theFrame .sealing with nextTile := 1, tiles := [clearTile .shaded] } []; ∃ f s1 s2 e e2 pa n rest f',
    s.frame? 6 = some f ∧ f.st = .sealing ∧ f.meshes = [] ∧ f.nextTile = f.fr.tiles ∧ (∀ t ∈ f.tiles, t.st = .shaded) ∧
    s.writeBack f s.topTs (sortBy (fun t => t.idx) f.tiles) = (s1, true) ∧ s1.engRange none f.ctx f.id f.fr.sealword 4 .list = (s2, .ok e, (pa, n, e2) :: rest) ∧
    (s2.homeStore s2.topTs pa (bytesOfNat (1#32).toNat 4)).1.frame? 6 = some f' := ⟨_, _, _, _, _, _, _, _, _, rfl, rfl, rfl, rfl, by decide, rfl, rfl, rfl⟩

theorem met_AttributeAndSample_fits : ∃ st g k th gr, base.IssuesOne st g k th ∧ base.grid? g.grid = some gr ∧ 63 + 1 ≤ gr.lr.regs ∧ ¬ 63 + 2 ≤ 64 ∧ 58 + 6 ≤ gr.lr.regs ∧
    59 + 5 ≤ gr.lr.regs ∧ g.sq = [] ∧ g.sb.getD 0 0 < 255 := ⟨_, _, _, _, _, ⟨⟨rfl, rfl⟩, rfl, rfl, rfl⟩, rfl, by decide, by decide, by decide, by decide, rfl, by decide⟩
theorem met_AttributeAndSample_record : ([0#32, 0xFFFFFFFF#32, 0xFFFFFFFF#32] : List Word).getD 1 0#32 = 0xFFFFFFFF#32 ∧ (0xF00#32).toNat < 2 ^ 12 ∧ 2 ^ 12 ≤ (0x1000#32).toNat := by decide
theorem met_AttributeAndSample_malformed : ∃ s1 e b p, (mapped base).engReadAt (some 0) 0 7 0x10000 64 .unitRead 0 = (s1, .ok e, b, p) ∧ fld b 8 2 = 0 :=
  ⟨_, _, _, _, rfl, rfl⟩
def ReturnMet (kind : ResKind) (p : State → Prop) : Prop := let s := mapped (awaited kind)
  ∃ r g tm, s.pending? r.id = some r ∧ s.group? r.grp = some g ∧ s.team? g.team = some tm ∧ tm.st ≠ .saved ∧ r.fault = none ∧ r.kind = kind ∧ p s
theorem met_AttributeAndSample_sample : ReturnMet (.sample 0x10000 (.v 5#6) []) fun s => ∃ x ws, s.sampleResult 0 0 0 7 0x10000 [] = (x, .ok ws) :=
  ⟨⟨7, 4, 0, some 0, 4#32, _, false, [], 0, none, false, []⟩, _, _, rfl, rfl, rfl, by decide, rfl, rfl, _, _, rfl⟩
theorem met_AttributeAndSample_attr : ReturnMet (.attr 0 [0#32, 0xFFFFFFFF#32, 0xFFFFFFFF#32] 0#32 (.v 5#6)) fun s => ∃ x ws,
    s.attrResult 0 0 0 7 0 [0#32, 0xFFFFFFFF#32, 0xFFFFFFFF#32] 0#32 = (x, .ok ws) :=
  ⟨⟨7, 4, 0, some 0, 4#32, _, false, [], 0, none, false, []⟩, _, _, rfl, rfl, rfl, by decide, rfl, rfl, _, _, rfl⟩
theorem met_AttributeAndSample_fault : ReturnMet (.attr 1 [] 0x1000#32 (.v 5#6)) fun s => ∃ x c va, s.attrResult 0 0 0 7 1 [] 0x1000#32 = (x, .fault c va) :=
  ⟨⟨7, 4, 0, some 0, 4#32, _, false, [], 0, none, false, []⟩, _, _, rfl, rfl, rfl, by decide, rfl, rfl, _, _, _, rfl⟩

/-- Peer 0 of the link, changed from its reset. -/
def peered (f : Peer → Peer) (s : State) : State := s.onDev fun d => { d with link := { d.link with peers := [f (Peer.reset 0)] } }
def up (p : Peer) : Peer := { p with st := .up }
theorem met_RemoteAccesses : let s := peered up (reaching 0x1FFFF0 3); ∃ st g k th, s.IssuesOne st g k th ∧ s.peerLive (leaf2M 3).peer = true ∧ g.sb.getD 7 0 < 255 ∧
    th.helper = false ∧ s.Reaches g (addrM g th (.v 2#6) 0#6 st.imm 16) 16 [3] true true (leaf2M 3) :=
  ⟨_, _, _, _, ⟨⟨rfl, rfl⟩, rfl, rfl, rfl⟩, rfl, by decide, rfl, by decide, by decide, by decide, rfl, by decide, by decide, by decide⟩
theorem met_RemoteAccesses_down : let s := reaching 0x8000 3; ∃ st g k th, s.IssuesOne st g k th ∧ s.peerLive (leaf2M 3).peer = false ∧
    s.Reaches g (addrM g th (.v 2#6) 0#6 st.imm 4) 4 [3] true false (leaf2M 3) :=
  ⟨_, _, _, _, ⟨⟨rfl, rfl⟩, rfl, rfl, rfl⟩, rfl, by decide, by decide, by decide, rfl, by decide, by decide, by decide⟩

/-- A collective's descriptor: a sum of one signed integer over two ranks, its done word at 0x11000. -/
def collDesc (rank : Nat) : List Byte := bytesOf [0x00020200#32, BitVec.ofNat 32 rank, 1#32, 5#32, 0x12000#32, 0#32, 0x13000#32, 0#32, 0#32, 0#32, 0x11000#32, 0#32]
def theColl : Coll := ⟨8, 0, 0, 7, 0x10000, collDesc 0, [], true, [(1, collDesc 1)], [(0, 0, [1#8, 0#8, 0#8, 0#8]), (1, 0, [2#8, 0#8, 0#8, 0#8])], [1], true, true, none⟩
theorem met_Collectives_issue : let s := mapped (one [(5, 1#32)] [(2, 0x10000#32)]); ∃ st g k th, s.IssuesOne st g k th ∧ s.memSettled g = true ∧ g.sb.getD 0 0 < 255 ∧
    s.Finds g (mget g.g 3 ++ mget g.g 2).toNat 64 (leaf2M 0) ∧ s.Finds g (mget g.g 3 ++ mget g.g 2).toNat 4 (leaf2M 0) ∧
    (BitVec.ofNat 32 (natOfBytes (mgets s.mem 0x210000 4)) - rd g th (.v 4#6)).toNat < 2 ^ 31 ∧
    2 ^ 31 ≤ (BitVec.ofNat 32 (natOfBytes (mgets s.mem 0x210000 4)) - rd g th (.v 5#6)).toNat :=
  ⟨_, _, _, _, ⟨⟨rfl, rfl⟩, rfl, rfl, rfl⟩, rfl, by decide, ⟨by decide, by decide, rfl, rfl, rfl⟩, ⟨by decide, by decide, rfl, rfl, rfl⟩, by decide, by decide⟩
theorem met_Collectives_elements : 2 ≤ theColl.npart ∧ theColl.root < theColl.npart ∧ theColl.op = 0 ∧ theColl.elem 0 0 = some 1 ∧ theColl.elem 1 0 = some 2 := by decide
theorem met_Collectives_done : let s := (paged (awaited .token)).onDev fun d => { d with link := { d.link with colls := [theColl] } }
    ∃ g r s1 e ts, s.pending? r.id = some r ∧ s.group? r.grp = some g ∧ r.kind = .token ∧ (s.dev.link.colls.find? fun c => c.res == r.id) = some theColl ∧
      r.ready = false ∧ (∀ q ∈ theColl.others, (assoc theColl.descs q).isSome = true ∧ q ∈ theColl.readDone) ∧ theColl.agree = true ∧
      s.engWrite none theColl.ctx theColl.id (fld theColl.desc 0x28 8) (bytesOfNat (fld theColl.desc 0x0C 4) 8) .unitWrite r.ts = (s1, .ok e, ts) :=
  ⟨_, ⟨7, 4, 0, some 0, 4#32, .token, false, [], 0, none, false, []⟩, _, _, _, rfl, rfl, rfl, rfl, rfl, by decide, rfl, rfl⟩

/-- A datagram of a TYPE, well formed, whose SEQ is `seq`. -/
def gram (typ : Nat) (seq : BitVec 32) (addr : Nat) (b : List Byte) : Datagram :=
  { dport := 47150#16, sumOk := true, ctrl := BitVec.ofNat 16 (16 * typ + 1), len := BitVec.ofNat 16 b.length, rsvd := 0#32, ctxgen := 0#32,
    tag := 3#32, seq := seq, ack := 0#32, addr := BitVec.ofNat 64 addr, payload := b }
theorem met_MessageOrder_down : (base.peerAt 0).st ≠ .up ∧ (base.peerAt 0).st ≠ .degraded := by decide
theorem met_MessageOrder_unheard : ¬ (({ gram 1 0#32 0 [] with sumOk := false } : Datagram).sumOk = true) ∧
    (gram 1 0#32 0 []).dport.toNat = base.dev.link.udpport ∧ (gram 1 0#32 0 []).ctrl.toNat % 16 = 1 := by decide
theorem met_MessageOrder_ahead : let p := (peered up base).peerAt 0; let d := gram 1 (BitVec.ofNat 32 (2 ^ 31 - 1)) 0 []
    d.sumOk = true ∧ d.dport.toNat = base.dev.link.udpport ∧ d.ctrl.toNat % 16 = 1 ∧ d.ctrl.toNat / 16 % 256 = 1 ∧ p.st = .up ∧ p.rxSeq < 2 ^ 32 ∧
    d.seq.toNat ≠ p.rxSeq ∧ (d.seq - BitVec.ofNat 32 p.rxSeq).toNat < 2 ^ 31 ∧ 2 ^ 31 ≤ (d.seq + 1#32 - BitVec.ofNat 32 p.rxSeq).toNat ∧
    ∀ x ∈ p.heldMsgs, x.seq ≠ d.seq := by decide
theorem met_MessageOrder_due : let d := gram 12 0#32 0 []; (peered up base).Due 0 12 d ∧ d.Formed ∧ d.payload = [] ∧ d.addr = 0#64 :=
  ⟨⟨rfl, rfl, rfl, rfl, rfl, rfl, rfl⟩, ⟨rfl, rfl, rfl⟩, rfl, rfl⟩
theorem met_MessageOrder_acked : ∃ p, (peered up base).peer? 0 = some p ∧ ∀ a ∈ (peered up base).dev.link.acks, a.peer ≠ 0 := ⟨_, rfl, by decide⟩

/-- Peer 0 is up, and one window of 16 pages from address 0 is open to every peer. -/
def window (f : Window → Window) (p : Peer → Peer) (s : State) : State :=
  (peered p s).onDev fun d => { d with link := { d.link with windows := [f ⟨0, 0, true, true, true, true, 0, true, 0x200000, 16⟩] } }
theorem met_InboundMessages_window : let s := window id up base; let d := fun (t : Nat) (b : List Byte) => gram t 0#32 65532 b
    s.Due 0 1 (d 1 (bytesOf [1#32])) ∧ (d 1 (bytesOf [1#32])).Formed ∧ s.Due 0 2 (d 2 (bytesOf [4#32])) ∧ (d 2 (bytesOf [4#32])).Formed ∧
    s.Due 0 4 (d 4 (List.replicate 24 0#8)) ∧ (d 4 (List.replicate 24 0#8)).Formed ∧ 65532 < 2 ^ 44 ∧
    s.InWindow 0 65532 4 ⟨0, 0, true, true, true, true, 0, true, 0x200000, 16⟩ ∧ s.inMem (0x200000 + (65532 - 0)) 4 = true :=
  ⟨⟨rfl, rfl, rfl, rfl, rfl, rfl, rfl⟩, ⟨rfl, rfl, rfl⟩, ⟨rfl, rfl, rfl, rfl, rfl, rfl, rfl⟩, ⟨rfl, rfl, rfl⟩, ⟨rfl, rfl, rfl, rfl, rfl, rfl, rfl⟩,
    ⟨rfl, rfl, rfl⟩, by decide, ⟨[], [], rfl, by decide, nofun⟩, rfl⟩
theorem met_InboundMessages_malformed : (window id up base).Due 0 1 { gram 1 0#32 0 [1#8] with rsvd := 1#32 } ∧
    ¬ ({ gram 1 0#32 0 [1#8] with rsvd := 1#32 } : Datagram).Formed := ⟨⟨rfl, rfl, rfl, rfl, rfl, rfl, rfl⟩, fun h => absurd h.2.1 (by decide)⟩
theorem met_InboundMessages_past : ∀ w ∈ (window id up base).dev.link.windows, ¬ (w.en = true ∧ (w.anypeer = true ∨ w.peer = 0) ∧ w.wa0 ≤ 65533 ∧ 65533 + 4 ≤ w.wa0 + 4096 * w.pages) := by
  decide
theorem met_InboundMessages_refused : let w : Window := ⟨0, 0, true, false, false, false, 0, true, 0x200000, 16⟩
    (window (fun _ => w) up base).InWindow 0 0 4096 w ∧ w.r = false ∧ w.wr = false := ⟨⟨[], [], rfl, by decide, nofun⟩, rfl, rfl⟩
def remoteRead : State := peered up (awaited (.remote 0 3#32 .b32 5 false))
theorem met_InboundMessages_answer : let d := gram 3 0#32 0 [1#8, 2#8, 3#8, 4#8]; let e := gram 5 0#32 0 (List.replicate 8 0#8)
    remoteRead.Due 0 3 d ∧ d.Formed ∧ remoteRead.Due 0 5 e ∧ e.Formed ∧ e.payload.length = 8 ∧
    ∃ q, (remoteRead.dev.results.find? fun x => x.awaitsTag 0 d.tag) = some q ∧ q.kind = .remote 0 3#32 .b32 5 false ∧ LoadExt.b32.size = d.payload.length :=
  ⟨⟨rfl, rfl, rfl, rfl, rfl, rfl, rfl⟩, ⟨rfl, rfl, rfl⟩, ⟨rfl, rfl, rfl, rfl, rfl, rfl, rfl⟩, ⟨rfl, rfl, rfl⟩, rfl, _, rfl, rfl, rfl⟩
def hosted : State := (peered (fun p => { up p with host := true }) base).onDev fun d => { d with die := { d.die with front := true } }
theorem met_InboundMessages_host : let bell := gram 6 0#32 0 []; let ans := gram 8 0#32 0 (List.replicate 16 0#8); let m := gram 11 0#32 0x10 []
    hosted.Due 0 6 bell ∧ bell.Formed ∧ hosted.Due 0 8 ans ∧ ans.Formed ∧ ans.payload.length = 16 ∧ hosted.Due 0 11 m ∧ m.Formed ∧ m.addr.toNat / 2 ^ 32 = 0 ∧
    (hosted.peerAt 0).host = true ∧ hosted.frontReady = true ∧ (((hosted.took 0 m).regRead 0x10).1.peerAt 0).live = true ∧
      (((hosted.took 0 m).regRead 0x10).1.peerAt 0).txSeq = (hosted.peerAt 0).txSeq :=
  ⟨⟨rfl, rfl, rfl, rfl, rfl, rfl, rfl⟩, ⟨rfl, rfl, rfl⟩, ⟨rfl, rfl, rfl, rfl, rfl, rfl, rfl⟩, ⟨rfl, rfl, rfl⟩, rfl, ⟨rfl, rfl, rfl, rfl, rfl, rfl, rfl⟩, ⟨rfl, rfl, rfl⟩, rfl, rfl, rfl, rfl, rfl⟩
theorem met_InboundMessages_stale : let d := { gram 3 0#32 0 [1#8] with ctxgen := 0x1000#32 }; remoteRead.Due 0 3 d ∧ d.Formed ∧
    ¬ remoteRead.gen (d.ctxgen.toNat % 4096) = d.ctxgen.toNat / 4096 ∧ d.payload.length = 1 :=
  ⟨⟨rfl, rfl, rfl, rfl, rfl, rfl, rfl⟩, ⟨rfl, rfl, rfl⟩, by decide, rfl⟩
theorem met_InboundMessages_peer : let s := peered up base; s.Due 0 6 (gram 6 0#32 0 []) ∧ s.Due 0 11 (gram 11 0#32 0 []) ∧ ¬ (s.peerAt 0).host = true :=
  ⟨⟨rfl, rfl, rfl, rfl, rfl, rfl, rfl⟩, ⟨rfl, rfl, rfl, rfl, rfl, rfl, rfl⟩, by decide⟩
theorem met_InboundMessages_coll : let d := gram 10 0#32 0 (collDesc 0 ++ List.replicate 16 0#8); (peered up base).Due 0 10 d ∧ d.Formed ∧ d.payload.length = 64 :=
  ⟨⟨rfl, rfl, rfl, rfl, rfl, rfl, rfl⟩, ⟨rfl, rfl, rfl⟩, rfl⟩
theorem met_InboundMessages_nak : let a : AwaitAck := ⟨8, 0, 9, .rst 4 0 4#32⟩; let d := gram 13 0#32 0 (bytesOf [9#32, 1#32])
    let s := (peered up base).onDev fun d => { d with link := { d.link with acks := [a] } }
    s.Due 0 13 d ∧ d.Formed ∧ fld d.payload 0 4 = a.seq ∧ fld d.payload 4 4 < 8 ∧ a ∈ s.dev.link.acks ∧ (∀ x ∈ s.dev.link.acks, x.peer = 0 → x = a) ∧
      (s.peerAt 0).unacked = [] ∧ (s.peerAt 0).asked = [] :=
  ⟨⟨rfl, rfl, rfl, rfl, rfl, rfl, rfl⟩, ⟨rfl, rfl, rfl⟩, rfl, by decide, by decide, by decide, rfl, rfl⟩

def PeerMet (f : Peer → Peer) (p : State → Peer → Prop) : Prop := ∃ q, (peered f base).peer? 0 = some q ∧ p (peered f base) q
theorem met_PeerStates_down : PeerMet id fun _ p => p.st = .down := ⟨_, rfl, rfl⟩
theorem met_PeerStates_frozen : PeerMet (fun p => { p with st := .frozen }) fun _ p => p.st = .frozen := ⟨_, rfl, rfl⟩
/-- Port 3 is peer 0's, enabled, ready and up; the retransmission is due. -/
def ported (st : PeerState) (unacked : List Sent) : State :=
  (peered (fun p => { p with st := st, ports := 8#8, unacked := unacked }) base).onDev fun d =>
    { d with clk := 24000, die := { d.die with portsRdy := 8#8 },
             link := { d.link with hostpeer := 9, rate := [0, 0, 0, 1, 0, 0, 0, 0], pstate := [0, 0, 0, 2, 0, 0, 0, 0] } }
theorem met_PeerStates_handshake : let s := ported .training []; ∃ p, s.peer? 0 = some p ∧ p.st = .training ∧ p.unacked = [] ∧ 0 ≠ s.dev.link.hostpeer ∧
    3 ∈ (List.range 8).filter (fun k => p.ports.getLsbD k) ∧ 3 ∈ (List.range 8).filter fun k => s.dev.link.pstate.getD k 0 == 2 :=
  ⟨_, rfl, rfl, rfl, by decide, by decide, by decide⟩
theorem met_PeerStates_close : let s := remoteRead; ∃ p r, s.peer? 0 = some p ∧ r ∈ s.dev.results ∧ r.kind = .remote 0 3#32 .b32 5 false ∧ r.ready = false ∧ r.fault = none ∧
    ∀ x ∈ s.dev.results, x.id = r.id → x = r :=
  ⟨_, ⟨7, 4, 0, some 0, 4#32, .remote 0 3#32 .b32 5 false, false, [], 0, none, false, []⟩, rfl, List.mem_singleton.mpr rfl, rfl, rfl, rfl, fun _ h _ => List.mem_singleton.mp h⟩
theorem met_PeerStates_again : let x : Sent := ⟨0, .read 0 1#32 0 4, 7, 0⟩; let s := ported .up [x]; ∃ p, s.peer? 0 = some p ∧ p.st = .up ∧ x ∈ p.unacked ∧ x.at_ ≤ s.dev.clk ∧
    s.dev.link.rto.toNat * 6 ≤ 5 * (s.dev.clk - x.at_) ∧ x.msg ≠ .ack ∧ ∀ y ∈ p.unacked, ¬ s.dev.link.retry ≤ y.tries :=
  ⟨_, rfl, rfl, by decide, by decide, by decide, by decide, by decide⟩
theorem met_PeerStates_last : let x : Sent := ⟨0, .read 0 1#32 0 4, 8, 0⟩; let s := ported .up [x]; ∃ p, s.peer? 0 = some p ∧ p.st = .up ∧ x ∈ p.unacked ∧
    s.dev.link.rto.toNat * 6 ≤ 5 * (s.dev.clk - x.at_) ∧ s.dev.link.retry ≤ x.tries := ⟨_, rfl, rfl, by decide, by decide, by decide⟩
theorem met_PeerStates_port : let s := ported .up []; ∃ p, s.peer? 0 = some p ∧ s.dev.link.pstate.length = 8 ∧ (∀ x ∈ s.dev.link.peers, x.n = 0 → x = p) ∧
    s.fuse.ports.getLsbD 3 = true ∧ s.dev.die.portsRdy.getLsbD 3 = true ∧ s.notFresh 2 3 = true ∧ s.dev.link.rate.getD 3 0 ≠ 0 ∧ s.dev.die.portsRdy.getLsbD 7 = false :=
  ⟨_, rfl, rfl, fun _ h _ => List.mem_singleton.mp h, rfl, rfl, rfl, by decide, rfl⟩

def died (f : Die → Die) : State := State.reset.onDev fun d => { d with die := f d.die }
theorem met_PowerAndDie_empty : State.reset.dev.die.tripn = false ∧ State.reset.dev.die.flash = none ∧ (died fun d => { d with tripn := true }).dev.die.tripn = true := ⟨rfl, rfl, rfl⟩
theorem met_PowerAndDie_flash (b : List Byte) : let s := died fun d => { d with flash := some b }; s.dev.die.tripn = false ∧ s.dev.die.flash = some b := ⟨rfl, rfl⟩
/-- A firmware image of one body word, signed with the key pair of the example of GB/T 32918.5. -/
def image : List Byte := bytesOf [0x46574B50#32, 1#32, 4#32, 0#32, 0#32, 0#32, 0#32, 0#32] ++
  bytesBE 0x09F9DF311E5421A150DD7D161E4BC5C672179FAD1833FC076BB08FF356F35020 32 ++ bytesBE 0xCCEA490CE26775A52DC6EA718CC1AA600AED05FBF35E084A6632F6072DA9AD13 32 ++
  bytesBE 0x53D94D6543807C1B6F9F96FE73A894100C34B7340D4B804687DF81A5986AB1F2 32 ++ bytesBE 0xCF2CB076D855760EA3D33C650DA99CCBC8498C03DEBFD14909469FB9607F8893 32 ++
  List.replicate 100 0#8
def keyed : State := { died (fun d => { d with stage := 2 }) with fuse := { State.reset.fuse with keyHash := sm3 ((image.drop 0x20).take 64) } }
theorem met_PowerAndDie_image : keyed.dev.die.powered = true ∧ keyed.dev.die.stage = 2 ∧ keyed.imageFail image = 0 := by decide +kernel
theorem met_PowerAndDie_up : let s := keyed.onDev fun d => { d with link := { d.link with pstate := [2, 0, 0, 0, 0, 0, 0, 0] } }
    (∃ k, (List.range 8).find? (fun k => s.fuse.ports.getLsbD k) = some k ∧ s.dev.link.pstate.getD k 0 = 2) ∧ s.dev.die.powered = true ∧ s.dev.die.stage = 2 ∧ s.dev.die.tried = false :=
  ⟨⟨0, by decide, rfl⟩, rfl, rfl, rfl⟩
theorem met_PowerAndDie_retry : let s := keyed.onDev fun d => { d with clk := 1200000000 }
    s.dev.die.powered = true ∧ s.dev.die.stage = 2 ∧ 1200000000 * (s.dev.die.netRetries + 1) ≤ s.dev.clk := ⟨rfl, rfl, by decide⟩
theorem test_sm3 : natOfBE (sm3 [0x61#8, 0x62#8, 0x63#8]) = 0x66C7F0F462EEEDD9D1F2D46BDC10E4E24167C4875CF2F7A2297DA02B8F4BA8E0 := by decide +kernel
-- the key pair, the number and the signature of the example of GB/T 32918.5
theorem test_sm2_sign : natOfBE (sm2Sign 0x3945208F7B2144B13F36E38AC6D39F95889393692860B51A42FB81EF4DF7C5B8
    [0x6D#8, 0x65#8, 0x73#8, 0x73#8, 0x61#8, 0x67#8, 0x65#8, 0x20#8, 0x64#8, 0x69#8, 0x67#8, 0x65#8, 0x73#8, 0x74#8]
    (fun _ => 0x59276E27D506861A16680F3AD9C02DCCEF3CC1FA3CDBE4CE6D54B80DEAC1BC21 - 1) 0 4) =
    0xF5A03B0648D2C4630EEAC513E1BB81A15944DA3827D5B74143AC7EACEEE720B3 * 2 ^ 256 +
      0xB1B6AA29DF212FD8763182BC0D421CA1BB9038FD1F7F42D4840B69C485BBC1AA := by decide +kernel
theorem met_PowerAndDie_zone : State.reset.dev.die.zonesRdy.getLsbD 11 = false ∧ ∃ c < 192, zoneOf c = 11 ∧ State.reset.fuse.coremask.getLsbD c = true :=
  ⟨rfl, 191, by decide, by decide, rfl⟩
theorem met_PowerAndDie_ready : let s := died fun d => { d with stage := 3 }; s.dev.die.powered = true ∧ s.dev.die.stage ≠ 0 ∧ s.dev.die.heldBells = [] ∧
    s.fuse.coremask.getLsbD 191 = true ∧ s.fuse.hbm.getLsbD 7 = true ∧ (∃ c < 192, c / 16 / 4 * 4 + c % 16 / 4 = 11 ∧ s.fuse.coremask.getLsbD c = true) :=
  ⟨rfl, by decide, rfl, rfl, rfl, 191, by decide, by decide, rfl⟩
theorem met_PowerAndDie_held : (State.reset.zone 11).hold = false ∧
    ((State.reset.onDev fun d => { d with zones := [(11, { Zone.reset with hold := true })] }).zone 11).hold = true ∧
    (State.reset.zone 11).biasFrom ≤ State.reset.dev.clk ∧ (State.reset.zone 11).tempFrom ≤ State.reset.dev.clk ∧
    State.reset.dev.clk < ((State.reset.onDev fun d => { d with zones := [(0, { Zone.reset with biasFrom := 1200, tempFrom := 12000 })] }).zone 0).biasFrom :=
  ⟨rfl, rfl, by decide, by decide, by decide⟩
theorem met_PowerAndDie_energy : ∃ e, State.reset.dev.die.energy[21]? = some e := ⟨_, rfl⟩
theorem met_PowerAndDie_report : let s := died fun d => { d with fwDigest := List.replicate 32 0#8, nonce := List.replicate 8 0#32 }; let d := s.dev.die
    d.secBusy = false ∧ d.rptlo.toNat + 2 ^ 32 * d.rpthi.toNat + 256 ≤ s.memSize ∧ d.fwDigest.length = 32 ∧ d.nonce.length = 8 := ⟨rfl, by decide, rfl, rfl⟩
theorem met_PowerAndDie_outside : let s := died fun d => { d with rpthi := 0x80#32 }; s.dev.die.secBusy = false ∧
    s.memSize < s.dev.die.rptlo.toNat + 2 ^ 32 * s.dev.die.rpthi.toNat + 256 := ⟨rfl, by decide⟩
theorem met_PowerAndDie_written : let s := died fun d => { d with secBusy := true, secReport := List.replicate 256 0#8 }; s.dev.die.secBusy = true ∧
    s.dev.die.secAddr + s.dev.die.secReport.length ≤ s.memSize := ⟨rfl, by decide⟩

def stateOf (st : CtxState) (s : State) : State := s.updCtx 0 fun c => { c with st := st }
def commands (f : CmdRegs → CmdRegs) (s : State) : State := s.onDev fun d => { d with ctxRegs := f d.ctxRegs, queueRegs := f d.queueRegs }
theorem met_ContextStates_busy : (commands (fun r => { r with busy := true }) base).dev.ctxRegs.busy = true := rfl
theorem met_ContextStates_stale : let s := commands (fun r => { r with gen := 1 }) base; s.dev.ctxRegs.busy = false ∧ s.dev.ctxRegs.gen ≠ s.gen 0 := ⟨rfl, by decide⟩
theorem met_ContextStates_state : base.dev.ctxRegs.busy = false ∧ base.dev.ctxRegs.gen = base.gen 0 ∧ base.ctxState 0 ∉ [CtxState.free] ∧ base.ctxState 4095 ∉ [CtxState.active] := ⟨rfl, rfl, by decide, by decide⟩
theorem met_ContextStates_bind : let s := base; s.dev.ctxRegs.gen = s.gen 4095 ∧ s.ctx? 4095 = none ∧ s.dev.ctxRegs.base + 256 * 4095 + 256 ≤ s.memSize ∧
    s.entryOk 4095 (mgets s.mem (256 * 4095) 256) = true ∧ s.queuesOf 0 0 = some [] := ⟨rfl, rfl, by decide, rfl, rfl⟩
theorem met_ContextStates_refused : let s := base.put (256 * 4095 + 0x25) [1#8]; s.entryOk 4095 (mgets s.mem (256 * 4095) 256) = false := rfl
theorem met_ContextStates_rows (st : CtxState) : ∃ c, (stateOf st base).dev.ctxRegs.busy = false ∧ (stateOf st base).ctx? 0 = some c ∧ c.st = st ∧ (c.queues.map Queue.q).Nodup :=
  ⟨_, rfl, rfl, rfl, List.nodup_nil⟩
theorem met_ContextStates_held : ∃ x ∈ base.dev.teams, x.ctx = 0 ∧ (x.st = .resident ∨ x.st = .saving) := by decide
theorem met_ContextStates_drained : let s := inTeam (fun t => { t with st := .retired }) (stateOf .dying base); ∃ c, s.ctx? 0 = some c ∧ c.st = .dying ∧ s.drained 0 = true := ⟨_, rfl, rfl, rfl⟩
theorem met_ContextStates_undrained : let s := stateOf .dying base; s.drained 0 = false := rfl

/-- Context 0 has queue 0, of a ring of 16 packets at 0x20000, its tokens at 0x24000, with the packets `win`, `n` submitted. -/
def thePacket (typ : Nat) : Packet :=
  ⟨0#32, typ, false, false, false, 0, 0, 0#32, 0#64, 1#64, 0, 0#64, some (hostLaunch .vector (hostSlot 0#32)), false, false, false, 1⟩
def theQueue (st : QState) (win : List Packet) (n : Word) : Queue := ⟨0, 0x20000, 4, 0, true, 0x24000, 0#32, n, st, 0, 0#32, [], win, none⟩
def queueing (st : QState) (win : List Packet) (n : Word) : State :=
  (saving base).updCtx 0 fun c => { c with e := { c.e with qcount := 1, qdesc := 0x28000 }, queues := [theQueue st win n] }
theorem met_QueuesAndPackets_commands (st : QState) : ∃ a, (queueing st [] 0#32).dev.queueRegs.busy = false ∧ (queueing st [] 0#32).dev.queueRegs.gen = (queueing st [] 0#32).gen 0 ∧
    (queueing st [] 0#32).ctxState 0 ≠ .free ∧ (queueing st [] 0#32).queue? 0 0 = some a ∧ a.st = st := ⟨_, rfl, rfl, nofun, rfl, rfl⟩
theorem met_QueuesAndPackets_busy : (commands (fun r => { r with busy := true }) base).dev.queueRegs.busy = true ∧ base.queue? 0 0 = none ∧
    (commands (fun r => { r with gen := 1 }) base).dev.queueRegs.gen ≠ base.gen 0 := ⟨rfl, rfl, by decide⟩
theorem met_QueuesAndPackets_teams : let s := queueing .ready [] 0#32; (∃ x ∈ s.dev.teams, (x.ctx = 0 ∧ ∃ g c i, s.grid? x.grid = some g ∧ g.src = .packet c 0 i) ∧ x.st = .resident) ∧
    ∀ x ∈ (inTeam (fun t => { t with st := .saved }) s).dev.teams, x.st ≠ .resident ∧ x.st ≠ .saving :=
  ⟨⟨_, List.mem_singleton.mpr rfl, ⟨rfl, _, _, _, rfl, rfl⟩, rfl⟩, by decide⟩
theorem met_QueuesAndPackets_idle : ∃ c a, (queueing .ready [] 0#32).ctx? 0 = some c ∧ c.queue? 0 = some a ∧ c.st = .active ∧ a.st = .ready ∧
    (queueing .ready [] 0#32).declsReady a = none ∧ a.nextParse = none ∧ c.oldestReady a = none := ⟨_, _, rfl, rfl, rfl, rfl, rfl, rfl, rfl⟩
/-- The packet at index 0 as its 64 bytes in the ring. -/
def ParseMet (b : List Byte) (q : State → Option Packet → Prop) : Prop :=
  let s := (queueing .ready [] 1#32).put 0x20000 b
  ∃ c a, s.ctx? 0 = some c ∧ c.queue? 0 = some a ∧ c.st = .active ∧ a.st = .ready ∧ s.declsReady a = none ∧ a.nextParse = some 0#32 ∧
    q s (s.packetOf c.e.qcount 0#32 (mgets s.mem (a.ringbase + 64 * (0 % 2 ^ a.log2n)) 64))
theorem met_QueuesAndPackets_malformed : ParseMet [3#8] fun _ p => p = none := ⟨_, _, rfl, rfl, rfl, rfl, rfl, rfl, rfl⟩
theorem met_QueuesAndPackets_void : ParseMet [0#8] fun _ p => p.map Packet.typ = some 0 := ⟨_, _, rfl, rfl, rfl, rfl, rfl, rfl, rfl⟩
theorem met_QueuesAndPackets_signal : ParseMet [2#8] fun _ p => p.map Packet.typ = some 2 := ⟨_, _, rfl, rfl, rfl, rfl, rfl, rfl, rfl⟩
def launchPacket : List Byte := bytesOf [1#32, 0#32, 0#32, 0#32, 0#32, 0#32, 0#32, 0#32, 0x300000#32]
theorem met_QueuesAndPackets_record : ParseMet launchPacket fun s p => p.map Packet.typ = some 1 ∧ (launchOf (mgets s.mem 0x300000 256)).inRange = false :=
  ⟨_, _, rfl, rfl, rfl, rfl, rfl, rfl, rfl, rfl⟩
theorem met_QueuesAndPackets_recordOk : let r := launchOf (launchBytes ++ List.replicate 212 0#8)
    r.inRange = true ∧ r.tdcount = 0 ∧ (queueing .ready [] 1#32).recordOk 0 r = true := ⟨rfl, rfl, rfl⟩
def LaunchMet (typ : Nat) : Prop := ∃ c a p, (queueing .ready [thePacket typ] 1#32).ctx? 0 = some c ∧ c.queue? 0 = some a ∧
    c.oldestReady a = some p ∧ p.typ = typ ∧ p.lrec = some (hostLaunch .vector (hostSlot 0#32))
theorem met_QueuesAndPackets_launch : LaunchMet 1 ∧ LaunchMet 2 := ⟨⟨_, _, _, rfl, rfl, rfl, rfl, rfl⟩, _, _, _, rfl, rfl, rfl, rfl, rfl⟩
def flown : Packet := { thePacket 1 with launched := true }
theorem met_QueuesAndPackets_retire : let s := inGrid (fun g => { g with st := .retired }) (queueing .ready [flown] 1#32); ∃ c a p g, s.ctx? 0 = some c ∧ c.queue? 0 = some a ∧
    (a.win.find? fun x => x.idx == p.idx) = some p ∧ s.grid? p.grid = some g ∧ p.typ = 1 ∧ p.launched = true ∧ p.retired = false ∧ g.st = .retired ∧ c.st ≠ .dying :=
  ⟨_, _, flown, _, rfl, rfl, rfl, rfl, rfl, rfl, rfl, rfl, by decide⟩
theorem met_QueuesAndPackets_leads : let s := queueing .ready [flown] 1#32; ∃ c a p rest, s.ctx? 0 = some c ∧ c.queue? 0 = some a ∧ a.win = p :: rest ∧
    rest.length < 32 ∧ (∀ x ∈ rest, x.idx ≠ p.idx) ∧ p.idx = a.ridx ∧ p.notify = false := ⟨_, _, _, _, rfl, rfl, rfl, by decide, nofun, rfl, rfl⟩

/-- Every block is ready, and grid 1 has a cluster still to place. -/
def placing : State := (inGrid (fun g => { g with nextCl := 0, st := .launched }) (queueing .ready [] 0#32)).onDev fun d =>
  { d with die := { d.die with zonesRdy := BitVec.allOnes 12, shengRdy := BitVec.allOnes 192, rastRdy := BitVec.allOnes 192 } }
theorem met_Placement_place : ∃ gr sp, placing.grid? 1 = some gr ∧ gr.lr.coop = false ∧ gr.src.isBin = false ∧ placing.planGrid gr = some [sp] ∧ gr.lr.decls = [] :=
  ⟨_, _, rfl, rfl, rfl, rfl, rfl⟩
theorem met_Placement_none : ∃ gr, base.grid? 1 = some gr ∧ gr.lr.coop = false ∧ gr.src.isBin = false ∧ base.planGrid gr = none := ⟨_, rfl, rfl, rfl, rfl⟩
theorem met_Placement_seat : seatOne 1 512 [(0, 0, 512)] = some (0, 1) ∧ seatOne 1 2048 [(0, 0, 512)] = none := ⟨rfl, rfl⟩

def unwindowed (s : State) : State := inTeam (fun t => { t with window := none }) s
theorem met_WindowSaveAndResume_had : ∃ t gr, base.team? 3 = some t ∧ base.grid? t.grid = some gr ∧ t.window.isSome = true := ⟨_, _, rfl, rfl, rfl⟩
theorem met_WindowSaveAndResume_away : let s := unwindowed (inTeam (fun t => { t with st := .saved }) base); ∃ t, s.team? 3 = some t ∧ t.window = none ∧ t.st ≠ .resident ∧
    t.st ≠ .saving := ⟨_, rfl, rfl, by decide, by decide⟩
theorem met_WindowSaveAndResume_read : let s := unwindowed (mapped base); ∃ t gr s1 e pa e2, s.team? 3 = some t ∧ t.st = .resident ∧ s.grid? t.grid = some gr ∧ t.window = none ∧
    gr.args % 4096 + 1024 ≤ 4096 ∧ s.engRange (some t.core) t.ctx 3 gr.args 1024 .load = (s1, .ok e, [(pa, 1024, e2)]) ∧ e2.typ = 0 :=
  ⟨_, _, _, _, _, _, rfl, rfl, rfl, rfl, by decide, rfl, rfl⟩
theorem met_WindowSaveAndResume_fault : let s := unwindowed base; ∃ t gr s1 c va, s.team? 3 = some t ∧ s.grid? t.grid = some gr ∧
    s.engRange (some t.core) t.ctx 3 gr.args 1024 .load = (s1, .fault c va, []) := ⟨_, _, _, _, _, rfl, rfl, rfl⟩
theorem met_WindowSaveAndResume_wait : let s := unwindowed requestable; ∃ t gr s1 v, s.team? 3 = some t ∧ s.grid? t.grid = some gr ∧
    s.engRange (some t.core) t.ctx 3 gr.args 1024 .load = (s1, .wait v, []) := ⟨_, _, _, _, rfl, rfl, rfl⟩
def stopped (s : State) : State := s.onDev fun d => { d with streams := [] }
def leaving (s : State) : State := inTeam (fun t => { t with st := .saving }) (stopped s)
theorem met_WindowSaveAndResume_done : ∃ t, (leaving base).team? 3 = some t ∧ t.st = .saving ∧ (leaving base).issuing 3 = false ∧
    ((leaving base).flushTeam t).saveDone t = true ∧ ((leaving base).flushTeam t).dev.groups.length = 1 := ⟨_, rfl, rfl, rfl, rfl, rfl⟩
theorem met_WindowSaveAndResume_notYet : let s := leaving (inGroup (fun g => { g with left := 1 }) base); ∃ t, s.team? 3 = some t ∧ t.st = .saving ∧
    s.issuing 3 = false ∧ (s.flushTeam t).saveDone t = false ∧ base.issuing 3 = true := ⟨_, rfl, rfl, rfl, rfl, rfl⟩
def returning : State := (inTeam (fun t => { t with st := .saved }) (stopped placing)).updCluster 2 fun c => { c with st := .saved }
theorem met_WindowSaveAndResume_resume : let s := returning; ∃ c gr tm sp core seats, s.cluster? 2 = some c ∧ s.grid? c.grid = some gr ∧ gr.lr.coop = false ∧
    s.mayRun gr = true ∧ c.st = .saved ∧ (s.dev.teams.filter fun t => t.cluster == 2 && t.st == .saved) = [tm] ∧ s.quotaOk gr.ctx 1 0 = true ∧
    s.resumeSpot gr c.id = some sp ∧ sp.cores[s.rankOf tm]? = some (core, seats) ∧ tm.keys = [] ∧ tm.reown = none ∧ s.dev.teams.length = 1 ∧ tm.grid = c.grid :=
  ⟨_, _, _, _, _, _, rfl, rfl, rfl, rfl, rfl, rfl, rfl, rfl, rfl, rfl, rfl, rfl, rfl⟩
theorem met_WindowSaveAndResume_noPlace : let s := (inTeam (fun t => { t with st := .saved }) (queueing .ready [] 0#32)).updCluster 2 fun c => { c with st := .saved }
    ∃ c gr, s.cluster? 2 = some c ∧ s.grid? c.grid = some gr ∧ s.resumeSpot gr c.id = none := ⟨_, _, rfl, rfl, rfl⟩
def arriving : State := base.onDev fun d =>
  { d with results := [⟨7, 4, 0, none, 4#32, .remote 0 3#32 .b32 5 false, true, [1#8, 0#8, 0#8, 0#8], 0, none, false, []⟩], fwds := [⟨9, 1, 3, 0, [7]⟩] }
theorem met_WindowSaveAndResume_arrival : ∃ f r, (arriving.dev.fwds.find? fun f => f.id == 9 && f.core == 1) = some f ∧ f.res = [r.id] ∧
    (∀ x ∈ arriving.dev.fwds, x.id = 9 → x = f) ∧ arriving.pending? r.id = some r ∧ r.ready = true ∧ r.fault = none ∧
    r.kind = .remote 0 3#32 .b32 5 false ∧ (arriving.core 1).cmds = [] :=
  ⟨_, ⟨7, 4, 0, none, 4#32, .remote 0 3#32 .b32 5 false, true, [1#8, 0#8, 0#8, 0#8], 0, none, false, []⟩, rfl, rfl, fun _ h _ => List.mem_singleton.mp h, rfl, rfl, rfl, rfl, rfl⟩

/-- All threads of the group have ended, and nothing streams. -/
def ended (s : State) : State := stopped (inGroup (fun g => { g with threads := g.threads.map fun t => { t with ended := true } }) s)
theorem met_GroupAndGridEnd_last : let s := ended base; ∃ g tm, s.group? 4 = some g ∧ s.team? g.team = some tm ∧ g.ended = false ∧ (∀ t ∈ g.threads, t.ended = true) ∧
    (∀ n ∈ g.sb, n = 0) ∧ g.sq = [] ∧ tm.st = .resident ∧ s.ctxState g.ctx ≠ .dying ∧ (∀ x ∈ s.dev.streams, x.grp ≠ 4) ∧ 4 ∉ (s.core g.core).ownq ∧
    (∀ x ∈ s.dev.groups, x.team = g.team → x.ended = true ∨ x.id = 4) ∧ ((s.grid? tm.grid).map fun x => x.src.isBin) ≠ some true :=
  ⟨_, _, rfl, rfl, rfl, by decide, by decide, rfl, rfl, by decide, nofun, by decide, by decide, by decide⟩
def twoGroups : State := (ended base).onDev fun d => { d with groups := d.groups ++ d.groups.map fun g => { g with id := 8, slot := 1 } }
theorem met_GroupAndGridEnd_notLast : ∃ g, twoGroups.group? 4 = some g ∧ g.ended = false ∧ ∃ x ∈ twoGroups.dev.groups, x.team = g.team ∧ x.ended = false ∧ x.id ≠ 4 :=
  ⟨_, rfl, rfl, by decide⟩
theorem met_GroupAndGridEnd_bin : let s := inGrid (fun g => { g with src := .bin 0 0 }) (ended base); ∃ g tm, s.group? 4 = some g ∧ s.team? g.team = some tm ∧
    ((s.grid? tm.grid).map fun x => x.src.isBin) = some true ∧ s.dev.groups.length = 1 ∧ ∀ x ∈ s.dev.groups, x.team = g.team → x.remote = 0 :=
  ⟨_, _, rfl, rfl, rfl, rfl, by decide⟩
theorem met_GroupAndGridEnd_over : let s := inGroup (fun g => { g with ended := true, remote := 1 }) (inTeam (fun t => { t with st := .retired }) base)
    ∃ g tm, s.group? 4 = some g ∧ s.team? g.team = some tm ∧ s.ctxState g.ctx ≠ .dying ∧ g.ended = true ∧ tm.st = .retired ∧
    ¬ ∀ x ∈ s.dev.groups, x.team = g.team → x.remote = 0 := ⟨_, _, rfl, rfl, by decide, rfl, rfl, by decide⟩
theorem met_GroupAndGridEnd_dying : let s := (stopped base).updCtx 0 fun c => { c with st := .dying }; ∃ g tm, s.group? 4 = some g ∧ s.team? g.team = some tm ∧
    s.ctxState g.ctx = .dying ∧ tm.st ≠ .retired ∧ s.issuing tm.id = false := ⟨_, _, rfl, rfl, rfl, by decide, rfl⟩
theorem met_GroupAndGridEnd_not : ∃ g, base.group? 4 = some g ∧ ∃ t ∈ g.threads, t.ended = false := ⟨_, rfl, by decide⟩
theorem met_GroupAndGridEnd_drained : let s := inGrid (fun g => { g with st := .draining }) base; ∃ gr, s.grid? 1 = some gr ∧ gr.st = .draining ∧
    s.ctxState gr.ctx = .active ∧ ∀ g ∈ s.dev.groups, g.remote = 0 ∧ g.sq = [] := ⟨_, rfl, rfl, rfl, by decide⟩

theorem met_ClauseIssue : let s := stopped base; let lim := max 64 (s.core 0).age; ∃ g t th gr k hdr w, s.chooseGroup 0 0 = some g ∧ g.lead s.dev.clk lim = some (t, th) ∧
    s.streamAt 0 0 = none ∧ s.grid? g.grid = some gr ∧ (∀ x ∈ g.threads, x.bad = none) ∧ th.copy ≠ 0 ∧ (s.core 0).copy? th.copy = some k ∧
    s.clauseAt 0 th = some (k, hdr, w) ∧ clauseDefect k th.start hdr w g.role gr.lr.regs gr.lr.fs = none ∧ ¬ g.eligibleAt + lim ≤ s.dev.clk :=
  ⟨_, _, _, _, _, _, _, rfl, rfl, rfl, rfl, by decide, by decide, rfl, rfl, rfl, by decide⟩
theorem met_ClauseIssue_old : let s := (stopped base).onDev fun d => { d with clk := 4096 }; ∃ g t th, s.chooseGroup 0 0 = some g ∧
    g.lead s.dev.clk (max 64 (s.core 0).age) = some (t, th) ∧ g.eligibleAt + max 64 (s.core 0).age ≤ s.dev.clk := ⟨_, _, _, rfl, rfl, by decide⟩
theorem met_ClauseIssue_busy : (base.streamAt 0 0).isSome = true ∧ State.reset.dev.groups = [] := ⟨rfl, rfl⟩

def timestamping (e : SqEntry) (f : State → State) : State := f (inGroup (fun g => { g with sq := [e], left := 1 }) base)
def awaiting (s : State) : State := s.onDev fun d => { d with results := [⟨7, 4, 0, some 0, 4#32, .load (.mem 0) .b32 5 0 [], false, [], 0, none, false, []⟩] }
theorem met_OrderEvents_store : let s := timestamping ⟨9, 0, .mem 0x20007C, .bytes [1#8, 2#8, 3#8, 4#8]⟩ id; ∃ g e rest, s.group? 4 = some g ∧ g.sq = e :: rest ∧
    s.savedTeam g.team = false ∧ (∀ r ∈ s.dev.results, r.grp = 4 → r.kind.isMem = false) ∧ e.loc = .mem 0x20007C ∧
    0x20007C / 128 = (0x20007C + 4 - 1) / 128 := ⟨_, _, _, rfl, rfl, rfl, nofun, rfl, by decide⟩
theorem met_OrderEvents_atomic : let s := timestamping ⟨9, 0, .mem 0x200000, .atom .addS32 1#64 0#64⟩ id; ∃ g e rest, s.group? 4 = some g ∧ g.sq = e :: rest ∧
    s.savedTeam g.team = false ∧ e.op = .atom .addS32 1#64 0#64 := ⟨_, _, _, rfl, rfl, rfl, rfl⟩
theorem met_OrderEvents_tile : let s := timestamping ⟨9, 0, .tile 3 3 0, .bytes [1#8]⟩ (inTeam fun t => { t with handles := [⟨3, 16, 128, 0, [], [], 0⟩] })
    ∃ g e rest x, s.group? 4 = some g ∧ g.sq = e :: rest ∧ s.savedTeam g.team = false ∧ s.handleOf 3 3 = some x ∧ 0 + 1 ≤ x.size := ⟨_, _, _, _, rfl, rfl, rfl, rfl, by decide⟩
theorem met_OrderEvents_waits : let s := timestamping ⟨9, 0, .mem 0x200000, .bytes [1#8]⟩ awaiting
    ∃ g e rest, s.group? 4 = some g ∧ g.sq = e :: rest ∧ ∃ r ∈ s.dev.results, r.grp = 4 ∧ r.id < e.id ∧ r.kind.isMem = true ∧ r.ready = false :=
  ⟨_, _, _, rfl, rfl, by decide⟩
theorem met_OrderEvents_tick : let s := base.onDev fun d => { d with clk := d.nextTick }; s.dev.nextTick ≤ s.dev.clk ∧ base.dev.clk < base.dev.nextTick := by decide
def refilling (l : List TlbEntry) : State := let s := paged base; s.onDev fun d => { d with refills := [(0, 0, 1)], l2tlb := l.map fun e => (s.homeTlb 4096 0, e) }
theorem met_OrderEvents_refill : let s := refilling [leaf2M 0]; ∃ e, (0, 0, 1) ∈ s.dev.refills ∧
    s.dev.l2tlb.find? (fun x => x.1 == s.homeTlb (1 * 4096) (s.asnOf 0) && x.2.covers (s.asnOf 0) (1 * 4096)) = some e :=
  ⟨_, List.mem_singleton.mpr rfl, rfl⟩
theorem met_OrderEvents_walked : let s := refilling []; ∃ e, s.walk 0 (1 * 4096) = .leaf e := ⟨_, rfl⟩
theorem met_TranslationHome : (List.range 192).filter (fun n => base.fuse.l2mask.getLsbD n) ≠ [] ∧ (0x1FFFFF : Nat) / 2 ^ 21 = 0 / 2 ^ 21 ∧
    let s := refilling []; (0, 0, 1) ∈ s.dev.refills ∧ s.dev.mmu.run = none ∧ s.dev.l2tlb = [] ∧ ∃ e, s.walk 0 (1 * 4096) = .leaf e :=
  ⟨by decide, rfl, List.mem_singleton.mpr rfl, rfl, rfl, _, rfl⟩
-- R271: 0x0012_3456_7ABC_D123 and ASN 7, on a full part: f = 0xB3D5 xor 0x91A2 xor 0 xor 7 = 0x2270, and 8816 - 192 × 45 = 176
theorem test_homeTlb : base.homeTlb 0x001234567ABCD123 7 = 176 := rfl
theorem met_OrderEvents_running : ∃ r, (refilling [] |>.startMmu true).dev.mmu.run = some r ∧ (0, 0, 1) ∈ (refilling [] |>.startMmu true).dev.refills :=
  ⟨_, rfl, List.mem_singleton.mpr rfl⟩
theorem met_OrderEvents_pause : let s := inGroup (fun g => { g with pauseEnd := 64 }) base; (∃ g, s.group? 4 = some g ∧ g.pauseEnd ≠ 0 ∧ s.dev.clk < g.pauseEnd) ∧
    ∃ g, (s.onDev fun d => { d with clk := 64 }).group? 4 = some g ∧ g.pauseEnd ≤ 64 := ⟨⟨_, rfl, by decide, by decide⟩, _, rfl, by decide⟩

def answering : State := State.reset.onDev fun d =>
  { d with die := { d.die with zonesRdy := BitVec.allOnes 12, front := true, shengRdy := BitVec.allOnes 192, rastRdy := BitVec.allOnes 192 } }
theorem met_RegisterSpace_blocks : (∀ a ∈ [0x00010000, 0x00010004, 0x0001000C, 0x00020004, 0x00030000, 0x00030004, 0x00040000, 0x00040004, 0x00040008, 0x0004000C,
    0x00050020, 0x00050024, 0x00050028, 0x00040014, 0x00000000], answering.answers a = true) ∧ (∀ z < 12, answering.answers (0x00100000 + 0x1000 * z) = true) ∧
    ∀ c ∈ [0, 191], ∀ o ∈ [0x0040, 0x1000, 0x1010, 0x1080, 0x2008, 0x3000], answering.answers (0x01000000 + 0x10000 * c + o) = true := by decide
theorem met_RegisterSpace_dead : State.reset.answers 0x00010000 = false ∧ State.reset.answers 0x01000000 = false := ⟨rfl, rfl⟩
theorem met_RegisterSpace_runs : let s := State.reset.startMmu true; ∃ r, State.reset.dev.mmu.run = none ∧ s.dev.mmu.run = some r ∧ s.mmuSettled r = true ∧
    (awaiting s).mmuSettled { r with bound := 8 } = false := ⟨_, rfl, rfl, rfl, rfl⟩

theorem met_EncodingRoundTrip : decodeWord 0x52108080#32 = .ok (.ldB32 1#3 4#6 (.v 2#6) 0#6) := rfl
def code (ws : List Word) : Copy :=
  { id := 5, ctx := 0, domain := 0, ident := 0, gen := 0, start := 0, slots := 1, slotNos := [0], digest := [], share := false, words := wordMapOf ws, binds := [], entered := 0 }
def header2 : Word := wordOfHeader { drain := false, wait := 0#8, eclass := 0#3, count := 2#4 }
/-- A clause of two words whose first, or second, is defective. -/
def DefectMet (pre : List Word) (x : Word) (rest : List Word) : Prop :=
  let k := code (header2 :: pre ++ x :: rest)
  k.words? 0 4 2 = pre ++ x :: rest ∧ ∀ y ∈ pre, isPrefix y = false ∧ wordDefect 0 64 [] y (none, none) (unitWord (x :: rest)).isNone = none
theorem met_DecodeChecks_header : header2.toNat / 2 ^ 17 % 2 ^ 10 = 0 ∧ header2.toNat / 2 ^ 4 % 2 ^ 3 = 0 ∧ header2.toNat % 2 ^ 4 = 2 ∧ (0#32).toNat + 4 * 2 < 0 + 1 * 4096 := by decide
theorem met_DecodeChecks_headerBad : (0xF8000016#32).toNat / 2 ^ 4 % 2 ^ 3 = 1 ∧ (0xF8020016#32).toNat / 2 ^ 17 % 2 ^ 10 ≠ 0 := by decide
theorem met_DecodeChecks_second : DefectMet [0x00000000#32] 0xF8000016#32 [] := ⟨rfl, fun y h => by cases List.mem_singleton.mp h; exact ⟨rfl, rfl⟩⟩
theorem met_DecodeChecks_words : DefectMet [] 0x00000001#32 [0#32] ∧ DefectMet [] 0x0087FFF0#32 [0#32] ∧ DefectMet [] 0xE0048D15#32 [0#32] ∧
    DefectMet [] 0xE1000000#32 [0#32] ∧ DefectMet [] (wordOfMod Mod.plain) [0x03000000#32] := by
  refine ⟨⟨rfl, ?_⟩, ⟨rfl, ?_⟩, ⟨rfl, ?_⟩, ⟨rfl, ?_⟩, ⟨rfl, ?_⟩⟩ <;> exact fun _ h => nomatch h
theorem met_DecodeChecks_prefixes : DefectMet [] (wordOfMod Mod.plain) [wordOfMod Mod.plain] ∧ DefectMet [] (wordOfMod Mod.plain ||| 1#32) [0x03000000#32] ∧
    (wordOfMod Mod.plain ||| 1#32).toNat / 2 ^ 27 = 29 ∧ (wordOfMod Mod.plain ||| 1#32).toNat % 2 ^ 8 ≠ 0 := by
  refine ⟨⟨rfl, ?_⟩, ⟨rfl, ?_⟩, by decide, by decide⟩ <;> exact fun _ h => nomatch h
theorem met_DecodeChecks_twice : decodeWord 0x0087FFF0#32 = .ok (.bra (BitVec.ofInt 19 (-16))) ∧ (accepts 0x0087FFF0#32).imm = true ∧
    immRange 0x0087FFF0#32 8191#24 = true ∧ immRange 0x0087FFF0#32 8192#24 = false ∧ (accepts 0x0087FFF0#32).modOk Mod.plain = true := ⟨rfl, rfl, rfl, rfl, rfl⟩
-- R44, R52: two prefixes of a kind; EXIT before a prefix that ends the clause
theorem test_second_prefix : clauseDefect (code [wordOfHeader ⟨false, 0#8, 0#3, 3#4⟩, wordOfImm 1#24, wordOfImm 2#24, 0x0087FFF0#32]) 0 0#32
    (wordOfHeader ⟨false, 0#8, 0#3, 3#4⟩) .vector 64 [] = some (0x03#8, 8#32) := rfl
theorem test_transfer_before_prefix : clauseDefect (code [header2, 0x03000000#32, wordOfImm 1#24]) 0 0#32 header2 .vector 64 [] = some (0x03#8, 8#32) := rfl
theorem met_DecodeChecks_kinds : (0xE0048D15#32).toNat / 2 ^ 27 = 28 ∧ (0xE0048D15#32).toNat / 2 ^ 24 % 2 ^ 3 = 0 ∧ (0xE1000000#32).toNat / 2 ^ 24 % 2 ^ 3 ≠ 0 ∧
    (accepts 0#32).imm = false ∧ isTransfer (.bra (BitVec.ofInt 19 (-16))) = true ∧ (accepts 0x88000000#32).need = false ∧
    permits 0 ((0x88000000#32).toNat / 2 ^ 27) = false ∧ topReg (.fmaF32 8#6 1#6 2#6 3#6) > 8 ∧ unitTop none (.fmaF32 8#6 1#6 2#6 3#6) = topReg (.fmaF32 8#6 1#6 2#6 3#6) :=
  ⟨by decide, by decide, by decide, rfl, rfl, rfl, rfl, by decide, rfl⟩
theorem met_StepRunsUnit_agenda : (let s := { State.reset with agenda := [.registerWrite 0 0#32] }; s.dev.phase = .given ∧ ∃ i r, s.agenda = i :: r) ∧
    let s := base.onDev fun d => { d with phase := .events, todo := [.ptsTick] }; s.dev.die.powered = true ∧ s.dev.phase = .events ∧ ∃ i r, s.dev.todo = i :: r :=
  ⟨⟨rfl, _, _, rfl⟩, rfl, rfl, _, _, rfl⟩
theorem met_StepRunsUnit : ∃ x st g t0 th0 k imm mod w a i, base.dev.die.powered = true ∧ base.dev.phase = .units ∧ base.dev.todo = [] ∧ base.nextStream = some x ∧
    let b := base.onDev fun d => { d with focus := (x.core, x.reed) }
    b.Issues st g ∧ st.threads.head? = some t0 ∧ g.thread? t0 = some th0 ∧
    (b.core st.core).copy? st.copy = some k ∧ unitFrom k th0.start 3 st.next (none, none) = some ((imm, mod), w, a) ∧ decodeWord w = .ok i ∧
    ∀ t ∈ st.threads, ∃ th, g.thread? t = some th ∧ th.async = [] ∧ th.meets t g.ctx st.bps st.next a = none :=
  ⟨_, _, _, _, _, _, _, _, _, _, .nop, rfl, rfl, rfl, rfl, ⟨rfl, rfl⟩, rfl, rfl, rfl, rfl, rfl, fun t h => by
    cases List.mem_singleton.mp (show t ∈ [0] from h); exact ⟨_, rfl, rfl, rfl⟩⟩
theorem met_StepRunsUnit_ends : ∃ st g, base.Issues st g ∧ st.due = none ∧ st.threads ≠ [] ∧ st.next.toNat ≤ st.last.toNat ∧
    ∀ k ∈ (st.threads.filter fun k => (g.thread? k).any (predOn st) && (g.thread? k).isSome), k ∈ st.threads :=
  ⟨_, _, ⟨rfl, rfl⟩, rfl, by decide, by decide, by decide⟩
theorem met_StepRunsUnit_word : decodeWord (BitVec.ofNat 32 0x52108080) = .ok (.ldB32 1#3 4#6 (.v 2#6) 0#6) := rfl
def phased (p : Phase) (s : State) : State := s.onDev fun d => { d with phase := p }
theorem met_StepWithoutStream_off : let s := died fun d => { d with powered := false }; s.dev.die.powered = false ∧ s.agenda = [] := ⟨rfl, rfl⟩
theorem met_StepWithoutStream_over : let s := phased .issue (base.onDev fun d => { d with streams := d.streams.map fun x => { x with outcome := some true } })
    s.dev.die.powered = true ∧ s.dev.phase = .issue ∧ ∃ x, s.overStream = some x := ⟨rfl, rfl, _, rfl⟩
theorem met_StepWithoutStream_issue : let s := phased .issue (stopped base); s.dev.die.powered = true ∧ s.dev.phase = .issue ∧ s.overStream = none ∧
    s.reeds = [] ++ (0, 0) :: [] ∧ s.trapEntries 0 0 = [] := ⟨rfl, rfl, rfl, rfl, rfl⟩
theorem met_StepWithoutStream_units : let s := stopped base; s.dev.die.powered = true ∧ s.dev.phase = .units ∧ s.nextStream = none ∧ s.dev.todo = [] ∧ s.turn? = some 0 ∧
    (s.onDev fun d => { d with part := 1 }).turn? = none := ⟨rfl, rfl, rfl, rfl, rfl, rfl⟩
theorem met_StepWithoutStream_events : (phased .events base).dev.todo = [] ∧ (phased .given base).agenda = [] ∧ (phased .bins base).dev.phase = .bins ∧
    (phased .place base).dev.phase = .place := ⟨rfl, rfl, rfl, rfl⟩
theorem met_StepInvariants : Memory.wf State.reset.mem = true ∧ Memory.wf base.mem = true ∧ Memory.wf (paged base).mem = true := by decide
theorem met_ResetValues_fuses : State.reset.fuse.step < 2 ^ 8 ∧ State.reset.fuse.reeds < 2 ^ 8 ∧ answering.answers 0x00000000 = true := by decide
theorem met_RegisterFrame : ∃ st g, base.Issues st g ∧ (∀ th ∈ g.threads, th.fptraps = 0#2) ∧ wellFormed (.add64 (.v 4#6) (.v 0#6) (.g 2#6)) = true :=
  ⟨_, _, ⟨rfl, rfl⟩, by decide, rfl⟩
theorem met_AccessFrame : let s := reaching 0x1FFFFC 0; ∃ st g k th, s.IssuesOne st g k th ∧ s.Reaches g (addrM g th (.v 2#6) 0#6 st.imm 4) 4 [0, 1] true false (leaf2M 0) ∧
    s.Reaches g (addrM g th (.v 2#6) 0#6 st.imm 4) 4 [0] false true (leaf2M 0) ∧ s.Reaches g (addrN g th (.v 2#6) st.imm) 4 [0] true true (leaf2M 0) :=
  ⟨_, _, _, _, ⟨⟨rfl, rfl⟩, rfl, rfl, rfl⟩, ⟨by decide, by decide, by decide, rfl, by decide, by decide, by decide⟩,
    ⟨by decide, by decide, by decide, rfl, by decide, by decide, by decide⟩, ⟨by decide, by decide, by decide, rfl, by decide, by decide, by decide⟩⟩

theorem met_BinAndTeamFormsComplete_push : let s := binned (fun b => { b with q := [⟨[], 0, none, 0⟩] }) (one [(1, 64#32)] []); ∃ st g k th gr x, s.IssuesOne st g k th ∧
    g.sb.getD 0 0 < 255 ∧ th.helper = false ∧ s.grid? g.grid = some gr ∧ (s.ctxBins g.core g.ctx).find? (fun x => x.kind != .continuation && x.key == rd g th (.v 1#6)) = some x ∧
    x.st ≠ .closing ∧ x.st ≠ .faulted ∧ s.onWay g.core x.n < x.room ∧ ((s.ctxBins g.core g.ctx).find? fun x => x.key == rd g th (.v 1#6)) = some x ∧
    (s.ctxBins g.core g.ctx).find? (fun x => x.kind == .node && x.key == ((rd g th (.v 1#6)).extractLsb' 0 24).setWidth 32) = none ∧ x.count ≠ 0 ∧ x.q ≠ [] ∧ s.dev.results = [] :=
  ⟨_, _, _, _, _, _, ⟨⟨rfl, rfl⟩, rfl, rfl, rfl⟩, by decide, rfl, rfl, rfl, by decide, by decide, by decide, rfl, rfl, by decide, by decide, rfl⟩
theorem met_BinAndTeamFormsComplete_accept : EventMet (fun b => { b with st := .holding }) fun s b => (s.dev.pushes.find? fun x => x.id == push5.id && x.core == 0) = some push5 ∧
    push5.bin = some 5 ∧ (∀ x ∈ s.dev.pushes, push5.id ≤ x.id) ∧ s.storesBefore push5 = false ∧ s.accepted 0 = false ∧ s.quadOn 0 = none ∧ b.st = .holding ∧ b.ringRecs = [] :=
  ⟨rfl, rfl, by decide, rfl, rfl, rfl, rfl, rfl⟩
theorem met_BinAndTeamFormsComplete_bin : let s := (binned (fun b => { b with st := .holding, btimeout := 16, q := [⟨[], 0, none, 0⟩] }) base).onDev fun d => { d with clk := 4096 }
    (s.bin 0 5).st = .holding ∧ (s.bin 0 5).timedOut s.dev.clk = true ∧ s.binDue 0 (s.bin 0 5) = true ∧
    ((binned id base).bin 0 5).st = .idle ∧ ((binned id base).bin 0 5).count = 0 ∧ (binned id base).onWay 0 5 = 0 := ⟨rfl, rfl, rfl, rfl, rfl, rfl⟩
theorem met_BinAndTeamFormsComplete_group : let s := twoGroups; ∃ g tm, s.group? 4 = some g ∧ s.team? g.team = some tm ∧ tm.st = .resident ∧ s.ctxState g.ctx = .active ∧ g.ended = false ∧
    (∀ t ∈ g.threads, t.ended = true) ∧ (∀ n ∈ g.sb, n = 0) ∧ g.sq = [] ∧ s.dev.streams = [] ∧ ∃ x ∈ s.dev.groups, x.team = g.team ∧ x.ended = false ∧ x.id ≠ 4 :=
  ⟨_, _, rfl, rfl, rfl, rfl, rfl, by decide, by decide, rfl, rfl, by decide⟩
theorem met_BinAndTeamFormsComplete_store : let s := timestamping ⟨9, 0, .mem 0x200000, .bytes [1#8]⟩ id; ∃ g e rest, s.group? 4 = some g ∧ g.sq = e :: rest ∧
    s.savedTeam g.team = false ∧ s.dev.results = [] := ⟨_, _, _, rfl, rfl, rfl, rfl⟩
end Sys2Proof.Tests
end

section
/-! The register space (R416): what each block's register returns after a write, what ignores a write, and the invalidation
commands of the MMU block (R273). -/
namespace Sys2Proof.Machine

/-! ## Fields of words as masks -/

/-- A field in its place is the word under the field's mask. -/
theorem nw_wf_shifted (w : Word) (hi lo : Nat) : nw (2 ^ lo * wf w hi lo) = w &&& BitVec.ofNat 32 (2 ^ lo * (2 ^ (hi + 1 - lo) - 1)) := by
  refine BitVec.eq_of_getLsbD_eq fun i hi32 => ?_
  simp only [nw, wf, field, BitVec.getLsbD_ofNat, BitVec.getLsbD_and, Nat.testBit_two_pow_mul, Nat.testBit_mod_two_pow,
    Nat.testBit_shiftRight, Nat.testBit_two_pow_sub_one, BitVec.testBit_toNat, hi32]
  by_cases hl : lo ≤ i
  · simp [hl, Nat.add_sub_cancel' hl, Bool.and_comm]
  · simp [hl]

/-- A field at bit 0 is the word under the field's mask. -/
theorem nw_wf_low (w : Word) (hi : Nat) : nw (wf w hi 0) = w &&& BitVec.ofNat 32 (2 ^ (hi + 1) - 1) := by
  simpa using nw_wf_shifted w hi 0

/-- Two neighbouring fields, the lower one at bit 0, are one. -/
theorem wf_append (w : Word) {mid hi : Nat} (h : mid < hi) : wf w mid 0 + 2 ^ (mid + 1) * wf w hi (mid + 1) = wf w hi 0 := by
  have hs : hi + 1 = (mid + 1) + (hi + 1 - (mid + 1)) := by omega
  simp only [wf, field, Nat.shiftRight_eq_div_pow, pow_zero, Nat.div_one, Nat.sub_zero]
  rw [← Nat.mod_mul, ← pow_add, ← hs]

/-- A bit of a word is its field of one bit. -/
theorem bn_bitAt (w : Word) (i : Nat) : bn (bitAt w i) = wf w i i := by
  simp only [bn, bitAt, wf, field, Nat.add_sub_cancel_left, pow_one, BitVec.getLsbD, Nat.testBit, Nat.one_and_eq_mod_two]
  rcases Nat.mod_two_eq_zero_or_one (w.toNat >>> i) with h | h <;> simp [h]

/-- The three fields of BPCTL, put together, are the word under their mask (R239). -/
theorem nw_bpctl (w : Word) : nw (bn (bitAt w 0) + 2 * bn (bitAt w 1) + 2 ^ 4 * wf w 15 4) = w &&& 0x0000FFF3#32 := by
  have hlow : bn (bitAt w 0) + 2 * bn (bitAt w 1) = wf w 1 0 := by
    rw [bn_bitAt, bn_bitAt]
    exact wf_append w Nat.zero_lt_one
  have hdisjoint : (w &&& 0x3#32) &&& (w &&& 0xFFF0#32) = 0#32 := by
    rw [show (w &&& 0x3#32) &&& (w &&& 0xFFF0#32) = (w &&& w) &&& (0x3#32 &&& 0xFFF0#32) by ac_rfl]
    simp
  calc nw (bn (bitAt w 0) + 2 * bn (bitAt w 1) + 2 ^ 4 * wf w 15 4)
      = nw (wf w 1 0) + nw (2 ^ 4 * wf w 15 4) := by rw [hlow]; exact BitVec.ofNat_add ..
    _ = (w &&& 0x3#32) + (w &&& 0xFFF0#32) := by rw [nw_wf_low, nw_wf_shifted]; rfl
    _ = (w &&& 0x3#32) ||| (w &&& 0xFFF0#32) := BitVec.add_eq_or_of_and_eq_zero _ _ hdisjoint
    _ = w &&& 0x0000FFF3#32 := BitVec.and_or_distrib_left.symm

/-- UDPPORT and HOSTPEER, put together, are the word under their mask (R416). -/
theorem nw_udpport_hostpeer (w : Word) : nw (wf w 15 0 + 2 ^ 16 * wf w 23 16) = w &&& 0x00FFFFFF#32 :=
  (congrArg nw (wf_append w (show 15 < 23 by decide))).trans (nw_wf_low w 23)

/-- VALO holds bits 31 to 12 of the word (R273). -/
theorem nw_valo (w : Word) : nw (wf w 31 12 * 4096) = w &&& 0xFFFFF000#32 := by
  rw [Nat.mul_comm]
  exact nw_wf_shifted w 31 12

/-- A word is itself under the mask of a register that is RW in whole. -/
theorem eq_and_full (w : Word) : w = w &&& 0xFFFFFFFF#32 := (BitVec.and_allOnes (x := w)).symm

@[simp] theorem setLo_lo (x : Nat) (w : Word) : setLo x w % 2 ^ 32 = w.toNat := by
  unfold setLo
  omega

@[simp] theorem setHi_hi (x h : Nat) : setHi x h / 2 ^ 32 = h := by
  unfold setHi
  omega

@[simp] theorem nw_toNat (w : Word) : nw w.toNat = w := BitVec.ofNat_toNat ..

/-! ## Keyed lists -/

theorem assoc_assocSet_same {α : Type} (l : List (Nat × α)) (k : Nat) (a : α) : assoc (assocSet l k a) k = some a := by
  induction l with
  | nil => simp [assocSet, assoc]
  | cons x r ih =>
    obtain ⟨i, b⟩ := x
    by_cases h : i = k <;> simp [assocSet, assoc, h, ih]

@[simp] theorem State.core_updCore_same (s : State) (c : Nat) (f : Core → Core) : (s.updCore c f).core c = f (s.core c) := by
  simp [State.core, assoc_assocSet_same]

@[simp] theorem State.zone_updZone_same (s : State) (z : Nat) (f : Zone → Zone) : (s.updZone z f).zone z = f (s.zone z) := by
  simp [State.zone, assoc_assocSet_same]

/-! ## Which blocks answer (R433) -/

theorem coreOf_core {c o : Nat} (hc : c < 192) (ho : o < 0x10000) : coreOf (0x01000000 + 0x10000 * c + o) = some (c, o) := by
  have h : 0x01000000 ≤ 0x01000000 + 0x10000 * c + o ∧ 0x01000000 + 0x10000 * c + o < 0x01000000 + 0x10000 * 192 := by omega
  simp only [coreOf, h, decide_true, Bool.and_self, if_true, Option.some.injEq, Prod.mk.injEq]
  omega

theorem coreOf_eq_none {a : Nat} (h : a < 0x01000000 ∨ 0x01C00000 ≤ a) : coreOf a = none := by
  simp only [coreOf, Bool.and_eq_true, decide_eq_true_eq, ite_eq_right_iff, reduceCtorEq, imp_false]
  omega

theorem zoneAt_zone {z o : Nat} (hz : z < 12) (ho : o < 0x1000) : zoneAt (0x00100000 + 0x1000 * z + o) = some (z, o) := by
  have h : 0x00100000 ≤ 0x00100000 + 0x1000 * z + o ∧ 0x00100000 + 0x1000 * z + o < 0x00100000 + 0x1000 * 12 := by omega
  simp only [zoneAt, h, decide_true, Bool.and_self, if_true, Option.some.injEq, Prod.mk.injEq]
  omega

theorem zoneAt_eq_none {a : Nat} (h : a < 0x00100000 ∨ 0x0010C000 ≤ a) : zoneAt a = none := by
  simp only [zoneAt, Bool.and_eq_true, decide_eq_true_eq, ite_eq_right_iff, reduceCtorEq, imp_false]
  omega

/-- What of the state decides which blocks answer. -/
def State.gates (s : State) : Fuses × Die × Nat := (s.fuse, s.dev.die, s.dev.clk)

theorem State.answers_of_gates {s u : State} (h : u.gates = s.gates) (a : Nat) : u.answers a = s.answers a := by
  simp only [State.gates, Prod.mk.injEq] at h
  obtain ⟨hf, hd, hk⟩ := h
  simp only [State.answers, State.frontReady, State.zoneReady, State.shengReady, State.coreOn, State.notFresh, hf, hd, hk]

/-- A core's blocks below its SHENG block are ready with its zone. -/
theorem State.answers_core (s : State) {c o : Nat} (hc : c < 192) (ho : o < 0x4000) :
    s.answers (0x01000000 + 0x10000 * c + o) = (s.dev.die.powered && (s.coreOn c && s.zoneReady (zoneOf c))) := by
  simp (disch := omega) [State.answers, if_neg, zoneAt_eq_none, coreOf_core hc, ho]

/-! ## The register space by blocks (R416) -/

theorem exec_registerWrite (s : State) (a : Nat) (w : Word) : exec (.registerWrite a w) s = .next (s.regWrite a w) := rfl

/-- A write that leaves the blocks that answer is seen by a read of the address. -/
theorem State.readback {s u : State} {a : Nat} {w v : Word} (h : s.answers a = true) (hw : s.regWrite a w = u) (hg : u.gates = s.gates)
    (hr : u.answers a = true → (u.regRead a).2 = v) : exec (.registerWrite a w) s = .next u ∧ (u.regRead a).2 = v :=
  ⟨hw ▸ exec_registerWrite s a w, hr ((State.answers_of_gates hg a).trans h)⟩

section
variable {s : State} {a o : Nat} {w v : Word} (h : s.answers a = true) (ha : a % 4 = 0) (ho : o < 0x10000)
include h ha ho

theorem State.regWrite_ctx (hat : a = 0x10000 + o) : s.regWrite a w = s.writeCtx o w := by
  subst hat
  simp (disch := omega) [State.regWrite, h, ha, if_neg, if_pos]

theorem State.regRead_ctx (hat : a = 0x10000 + o) : (s.regRead a).2 = s.readCtx o := by
  subst hat
  simp (disch := omega) [State.regRead, h, ha, if_neg, if_pos]

theorem State.readback_ctx (hat : a = 0x10000 + o) (hg : (s.writeCtx o w).gates = s.gates) (hv : (s.writeCtx o w).readCtx o = v) :
    ∃ u : State, exec (.registerWrite a w) s = .next u ∧ (u.regRead a).2 = v :=
  ⟨_, State.readback h (State.regWrite_ctx h ha ho hat) hg fun hu => (State.regRead_ctx hu ha ho hat).trans hv⟩

theorem State.regWrite_queue (hat : a = 0x20000 + o) : s.regWrite a w = s.writeQueue o w := by
  subst hat
  simp (disch := omega) [State.regWrite, h, ha, if_neg, if_pos]

theorem State.regRead_queue (hat : a = 0x20000 + o) : (s.regRead a).2 = s.readQueue o := by
  subst hat
  simp (disch := omega) [State.regRead, h, ha, if_neg, if_pos]

theorem State.readback_queue (hat : a = 0x20000 + o) (hg : (s.writeQueue o w).gates = s.gates) (hv : (s.writeQueue o w).readQueue o = v) :
    ∃ u : State, exec (.registerWrite a w) s = .next u ∧ (u.regRead a).2 = v :=
  ⟨_, State.readback h (State.regWrite_queue h ha ho hat) hg fun hu => (State.regRead_queue hu ha ho hat).trans hv⟩

theorem State.regWrite_ord (hat : a = 0x30000 + o) : s.regWrite a w = s.writeOrd o w := by
  subst hat
  simp (disch := omega) [State.regWrite, h, ha, if_neg, if_pos]

theorem State.regRead_ord (hat : a = 0x30000 + o) : (s.regRead a).2 = s.readOrd o := by
  subst hat
  simp (disch := omega) [State.regRead, h, ha, if_neg, if_pos]

theorem State.readback_ord (hat : a = 0x30000 + o) (hg : (s.writeOrd o w).gates = s.gates) (hv : (s.writeOrd o w).readOrd o = v) :
    ∃ u : State, exec (.registerWrite a w) s = .next u ∧ (u.regRead a).2 = v :=
  ⟨_, State.readback h (State.regWrite_ord h ha ho hat) hg fun hu => (State.regRead_ord hu ha ho hat).trans hv⟩

theorem State.regWrite_mmu (hat : a = 0x40000 + o) : s.regWrite a w = s.writeMmu o w := by
  subst hat
  simp (disch := omega) [State.regWrite, h, ha, if_neg, if_pos]

theorem State.regRead_mmu (hat : a = 0x40000 + o) : (s.regRead a).2 = s.readMmu o := by
  subst hat
  simp (disch := omega) [State.regRead, h, ha, if_neg, if_pos]

theorem State.readback_mmu (hat : a = 0x40000 + o) (hg : (s.writeMmu o w).gates = s.gates) (hv : (s.writeMmu o w).readMmu o = v) :
    ∃ u : State, exec (.registerWrite a w) s = .next u ∧ (u.regRead a).2 = v :=
  ⟨_, State.readback h (State.regWrite_mmu h ha ho hat) hg fun hu => (State.regRead_mmu hu ha ho hat).trans hv⟩

theorem State.regWrite_link (hat : a = 0x50000 + o) : s.regWrite a w = s.writeLink o w := by
  subst hat
  simp (disch := omega) [State.regWrite, h, ha, if_neg, if_pos]

theorem State.regRead_link (hat : a = 0x50000 + o) : (s.regRead a).2 = s.readLink o := by
  subst hat
  simp (disch := omega) [State.regRead, h, ha, if_neg, if_pos]

theorem State.readback_link (hat : a = 0x50000 + o) (hg : (s.writeLink o w).gates = s.gates) (hv : (s.writeLink o w).readLink o = v) :
    ∃ u : State, exec (.registerWrite a w) s = .next u ∧ (u.regRead a).2 = v :=
  ⟨_, State.readback h (State.regWrite_link h ha ho hat) hg fun hu => (State.regRead_link hu ha ho hat).trans hv⟩

end

section
variable {s : State} {a : Nat}

theorem State.regWrite_zone {z o : Nat} (w : Word) (h : s.answers a = true) (ha : a % 4 = 0) (hz : z < 12) (ho : o < 0x1000)
    (hat : a = 0x00100000 + 0x1000 * z + o) : s.regWrite a w = s.writeZone z o w := by
  subst hat
  simp (disch := omega) [State.regWrite, h, ha, if_neg, zoneAt_zone hz ho]

theorem State.regRead_zone {z o : Nat} (h : s.answers a = true) (ha : a % 4 = 0) (hz : z < 12) (ho : o < 0x1000)
    (hat : a = 0x00100000 + 0x1000 * z + o) : (s.regRead a).2 = s.readZone z o := by
  subst hat
  simp (disch := omega) [State.regRead, h, ha, if_neg, zoneAt_zone hz ho]

theorem State.regWrite_age {c : Nat} (w : Word) (h : s.answers a = true) (hc : c < 192) (hat : a = 0x01000000 + 0x10000 * c + 0x40) :
    s.regWrite a w = s.updCore c fun k => { k with age := wf w 15 0 } := by
  have ha : a % 4 = 0 := by omega
  subst hat
  simp (disch := omega) [State.regWrite, h, ha, if_neg, zoneAt_eq_none, coreOf_core hc]

theorem State.regRead_age {c : Nat} (h : s.answers a = true) (hc : c < 192) (hat : a = 0x01000000 + 0x10000 * c + 0x40) :
    (s.regRead a).2 = nw (s.core c).age := by
  have ha : a % 4 = 0 := by omega
  subst hat
  simp (disch := omega) [State.regRead, h, ha, if_neg, zoneAt_eq_none, coreOf_core hc]

theorem State.regWrite_ovl {c o : Nat} (w : Word) (h : s.answers a = true) (ha : a % 4 = 0) (hc : c < 192)
    (ho : o < 0x1000) (hat : a = 0x01001000 + 0x10000 * c + o) : s.regWrite a w = s.writeOvl c o w := by
  obtain rfl : a = 0x01000000 + 0x10000 * c + (0x1000 + o) := by omega
  simp (disch := omega) [State.regWrite, h, ha, if_neg, if_pos, zoneAt_eq_none, coreOf_core hc]

theorem State.regRead_ovl {c o : Nat} (h : s.answers a = true) (ha : a % 4 = 0) (hc : c < 192)
    (ho : o < 0x1000) (hat : a = 0x01001000 + 0x10000 * c + o) : (s.regRead a).2 = s.readOvl c o := by
  obtain rfl : a = 0x01000000 + 0x10000 * c + (0x1000 + o) := by omega
  simp (disch := omega) [State.regRead, h, ha, if_neg, if_pos, zoneAt_eq_none, coreOf_core hc]

theorem State.regWrite_l2lines {c : Nat} (w : Word) (h : s.answers a = true) (hc : c < 192) (hat : a = 0x01000000 + 0x10000 * c + 0x2008) :
    s.regWrite a w = s.updCore c fun k => { k with l2lines := wf w 15 0 } := by
  have ha : a % 4 = 0 := by omega
  subst hat
  simp (disch := omega) [State.regWrite, h, ha, if_neg, zoneAt_eq_none, coreOf_core hc]

theorem State.regRead_tile {c o : Nat} (h : s.answers a = true) (ha : a % 4 = 0) (hc : c < 192)
    (ho : o < 0x1000) (hat : a = 0x01002000 + 0x10000 * c + o) : (s.regRead a).2 = s.readTile c o := by
  obtain rfl : a = 0x01000000 + 0x10000 * c + (0x2000 + o) := by omega
  simp (disch := omega) [State.regRead, h, ha, if_neg, if_pos, zoneAt_eq_none, coreOf_core hc]

theorem State.regWrite_accwait {c : Nat} (w : Word) (h : s.answers a = true) (hc : c < 192) (hat : a = 0x01000000 + 0x10000 * c + 0x3000) :
    s.regWrite a w = s.updCore c fun k => { k with accwait := w } := by
  have ha : a % 4 = 0 := by omega
  subst hat
  simp (disch := omega) [State.regWrite, h, ha, if_neg, zoneAt_eq_none, coreOf_core hc]

theorem State.regRead_acc {c o : Nat} (h : s.answers a = true) (ha : a % 4 = 0) (hc : c < 192)
    (ho : o < 0x1000) (hat : a = 0x01003000 + 0x10000 * c + o) : (s.regRead a).2 = s.readAcc c o := by
  obtain rfl : a = 0x01000000 + 0x10000 * c + (0x3000 + o) := by omega
  simp (disch := omega) [State.regRead, h, ha, if_neg, if_pos, zoneAt_eq_none, coreOf_core hc]

end

/-- A block that does not answer, one that is read-only, and an address that no block holds ignore a write. -/
theorem State.regWrite_ignored {s : State} {a : Nat} (w : Word)
    (h : s.answers a = false ∨ a < 0x00010000 ∨ (0x00070000 ≤ a ∧ a < 0x00080000) ∨ (0x00090000 ≤ a ∧ a < 0x00100000) ∨
      (0x0010C000 ≤ a ∧ a < 0x01000000) ∨ 0x01C00000 ≤ a) : s.regWrite a w = s := by
  rcases h with h | h | ⟨hlo, hhi⟩ | ⟨hlo, hhi⟩ | ⟨hlo, hhi⟩ | h
  · simp [State.regWrite, h]
  · simp [State.regWrite, h]
  · simp (disch := omega) [State.regWrite, if_neg]
  all_goals simp (disch := omega) [State.regWrite, if_neg, zoneAt_eq_none, coreOf_eq_none]

/-- A block that does not answer, and an address that no map lists, read 0. -/
theorem State.regRead_unlisted {s : State} {a : Nat}
    (h : s.answers a = false ∨ (0x48 ≤ a ∧ a < 0x00010000) ∨ (0x00090000 ≤ a ∧ a < 0x00100000) ∨ 0x01C00000 ≤ a) : s.regRead a = (s, 0#32) := by
  rcases h with h | ⟨hlo, hhi⟩ | ⟨hlo, hhi⟩ | h
  · simp [State.regRead, h]
  · simp (disch := omega) [State.regRead, if_neg]
  all_goals simp (disch := omega) [State.regRead, if_neg, zoneAt_eq_none, coreOf_eq_none]

/-! ## The host's messages and the LINK registers (R414) -/

/-- The LINK registers that a message to the host leaves alone, with what decides which blocks answer. -/
def State.hostRegs (s : State) : (Fuses × Die × Nat) × Nat × Nat := (s.gates, s.dev.link.udpport, s.dev.link.hostpeer)

theorem State.hostRegs_send (s : State) (n : Nat) (m : Msg) : (s.send n m).hostRegs = s.hostRegs := by
  unfold State.send
  split
  · rfl
  · split <;> rfl

theorem State.hostRegs_countPreq (s : State) (r : PageReq) : (s.countPreq r).hostRegs = s.hostRegs := by
  unfold State.countPreq
  split
  · rfl
  · split
    · simp only [State.writeCount, State.put]
      split <;> rfl
    · rfl

/-- What each step of a fold keeps, the fold keeps. -/
theorem State.hostRegs_foldl {α : Type} (f : State → α → State) (hf : ∀ s x, (f s x).hostRegs = s.hostRegs) (l : List α) (s : State) :
    (l.foldl f s).hostRegs = s.hostRegs := by
  induction l generalizing s with
  | nil => rfl
  | cons x r ih => rw [List.foldl_cons, ih, hf]

theorem State.hostRegs_sendPreqs (s : State) : s.sendPreqs.hostRegs = s.hostRegs := by
  unfold State.sendPreqs
  dsimp only
  split
  · exact State.hostRegs_foldl _ State.hostRegs_countPreq _ _
  · refine (State.hostRegs_foldl _ (fun s r => ?_) _ _).trans (State.hostRegs_foldl _ State.hostRegs_countPreq _ _)
    rw [State.hostRegs_send]
    rfl

theorem State.hostRegs_flushHost (s : State) : s.flushHost.hostRegs = s.hostRegs := by
  unfold State.flushHost
  split
  · rw [State.hostRegs_sendPreqs, State.hostRegs_foldl _ fun s x => State.hostRegs_send ..]
    rfl
  · rfl

/-! ## What a register returns after a write (R7 to R9) -/

/-- The word of UDPPORT and HOSTPEER holds both, whatever a host peer that is then UP is sent (R414). -/
theorem State.readLink_udpport_hostpeer (s : State) (w : Word) :
    (s.writeLink 0x20 w).gates = s.gates ∧ (s.writeLink 0x20 w).readLink 0x20 = w &&& 0x00FFFFFF#32 := by
  have h := State.hostRegs_flushHost (s.updLink fun l => { l with udpport := wf w 15 0, hostpeer := wf w 23 16 })
  simp only [State.hostRegs, Prod.mk.injEq] at h
  obtain ⟨hg, hport, hpeer⟩ := h
  exact ⟨hg, by simpa [State.readLink, State.writeLink, hport, hpeer] using nw_udpport_hostpeer w⟩

/-- The registers of CTX, QUEUE, ORD, MMU and LINK (R101, R119, R289, R273, R416). That the low bits of CTX.BASE are dropped is the
model's choice (log 42). -/
theorem frontRegister_readback (s : State) (w : Word) (a : Nat) (m : Word)
    (hm : (a, m) ∈ [(0x00010000, 0xFFF00000#32), (0x00010004, 0x000FFFFF#32), (0x0001000C, 0x000FFFFF#32), (0x00020004, 0x000FFFFF#32),
      (0x00030000, 0x0000FFFF#32), (0x00030004, 0x0000FFFF#32), (0x00040000, 0x0000FFFF#32), (0x00040004, 0xFFFFF000#32),
      (0x00040008, 0x01FFFFFF#32), (0x0004000C, 0xFFFFFFFF#32), (0x00050020, 0x00FFFFFF#32), (0x00050024, 0x000000FF#32),
      (0x00050028, 0xFFFFFFFF#32)])
    (h : s.answers a = true) : ∃ u : State, exec (.registerWrite a w) s = .next u ∧ (u.regRead a).2 = w &&& m := by
  simp only [List.mem_cons, Prod.mk.injEq, List.not_mem_nil, or_false] at hm
  rcases hm with ⟨rfl, rfl⟩ | ⟨rfl, rfl⟩ | ⟨rfl, rfl⟩ | ⟨rfl, rfl⟩ | ⟨rfl, rfl⟩ | ⟨rfl, rfl⟩ | ⟨rfl, rfl⟩ | ⟨rfl, rfl⟩ | ⟨rfl, rfl⟩ |
    ⟨rfl, rfl⟩ | ⟨rfl, rfl⟩ | ⟨rfl, rfl⟩ | ⟨rfl, rfl⟩
  · exact State.readback_ctx (o := 0x0) h rfl (by decide) rfl rfl ((congrArg nw (setLo_lo ..)).trans (nw_toNat _))
  · exact State.readback_ctx (o := 0x4) h rfl (by decide) rfl rfl ((congrArg nw (setHi_hi ..)).trans (nw_wf_low w 19))
  · exact State.readback_ctx (o := 0xC) h rfl (by decide) rfl rfl (nw_wf_low w 19)
  · exact State.readback_queue (o := 0x4) h rfl (by decide) rfl rfl (nw_wf_low w 19)
  · exact State.readback_ord (o := 0x0) h rfl (by decide) rfl rfl (nw_wf_low w 15)
  · exact State.readback_ord (o := 0x4) h rfl (by decide) rfl rfl (nw_wf_low w 15)
  · exact State.readback_mmu (o := 0x0) h rfl (by decide) rfl rfl (nw_wf_low w 15)
  · exact State.readback_mmu (o := 0x4) h rfl (by decide) rfl rfl (nw_valo w)
  · exact State.readback_mmu (o := 0x8) h rfl (by decide) rfl rfl (nw_wf_low w 24)
  · exact State.readback_mmu (o := 0xC) h rfl (by decide) rfl rfl (eq_and_full w)
  · obtain ⟨hg, hv⟩ := State.readLink_udpport_hostpeer s w
    exact State.readback_link (o := 0x20) h rfl (by decide) rfl hg hv
  · exact State.readback_link (o := 0x24) h rfl (by decide) rfl rfl (nw_wf_low w 7)
  · exact State.readback_link (o := 0x28) h rfl (by decide) rfl rfl (eq_and_full w)

/-- ZSLOPE of a zone (R260). -/
theorem zoneZslope_readback (s : State) (w : Word) {z : Nat} (hz : z < 12) (h : s.answers (0x00100000 + 0x1000 * z) = true) :
    ∃ u : State, exec (.registerWrite (0x00100000 + 0x1000 * z) w) s = .next u ∧ (u.regRead (0x00100000 + 0x1000 * z)).2 = w &&& 0xFF#32 ∧
      u.mem = s.mem ∧ u.dev.groups = s.dev.groups := by
  have ha : (0x00100000 + 0x1000 * z) % 4 = 0 := by omega
  have hv : (s.writeZone z 0x0 w).readZone z 0x0 = w &&& 0xFF#32 := by
    simpa [State.writeZone, State.readZone] using nw_wf_low w 7
  obtain ⟨he, hr⟩ := State.readback h (State.regWrite_zone w h ha hz (show 0x0 < 0x1000 by decide) rfl) rfl
    fun hu => (State.regRead_zone hu ha hz (show 0x0 < 0x1000 by decide) rfl).trans hv
  exact ⟨_, he, hr, rfl, rfl⟩

/-- A register of a core that a write sets through its core alone. -/
theorem coreRegister_readback {s : State} {w v : Word} {c a : Nat} {f : Core → Core} (h : s.answers a = true)
    (hw : s.regWrite a w = s.updCore c f) (hr : (s.updCore c f).answers a = true → ((s.updCore c f).regRead a).2 = v) :
    ∃ u : State, exec (.registerWrite a w) s = .next u ∧ (u.regRead a).2 = v ∧ u.mem = s.mem ∧ u.dev.groups = s.dev.groups := by
  obtain ⟨he, hv⟩ := State.readback h hw rfl hr
  exact ⟨_, he, hv, rfl, rfl⟩

theorem State.writeOvl_ovwait (s : State) (c : Nat) (w : Word) : s.writeOvl c 0x0 w = s.updCore c fun k => { k with ovwait := w } := rfl

/-- AGE, OVWAIT, L2LINES and ACCWAIT of a core (R142, R239, R336, R343). -/
theorem coreRegisters_readback (s : State) (w : Word) {c : Nat} (hc : c < 192) (o : Nat) (m : Word)
    (hm : (o, m) ∈ [(0x0040, 0x0000FFFF#32), (0x1000, 0xFFFFFFFF#32), (0x2008, 0x0000FFFF#32), (0x3000, 0xFFFFFFFF#32)])
    (h : s.answers (0x01000000 + 0x10000 * c + o) = true) :
    ∃ u : State, exec (.registerWrite (0x01000000 + 0x10000 * c + o) w) s = .next u ∧
      (u.regRead (0x01000000 + 0x10000 * c + o)).2 = w &&& m ∧ u.mem = s.mem ∧ u.dev.groups = s.dev.groups := by
  simp only [List.mem_cons, Prod.mk.injEq, List.not_mem_nil, or_false] at hm
  rcases hm with ⟨rfl, rfl⟩ | ⟨rfl, rfl⟩ | ⟨rfl, rfl⟩ | ⟨rfl, rfl⟩
  · refine coreRegister_readback h (State.regWrite_age w h hc rfl) (fun hu => (State.regRead_age hu hc rfl).trans ?_)
    simpa using nw_wf_low w 15
  · refine coreRegister_readback h ((State.regWrite_ovl w h (by omega) hc (by decide) (by omega)).trans (s.writeOvl_ovwait c w))
      (fun hu => (State.regRead_ovl (o := 0x0) hu (by omega) hc (by decide) (by omega)).trans ?_)
    simpa [State.readOvl] using eq_and_full w
  · refine coreRegister_readback h (State.regWrite_l2lines w h hc rfl)
      (fun hu => (State.regRead_tile (o := 0x8) hu (by omega) hc (by decide) (by omega)).trans ?_)
    simpa [State.readTile] using nw_wf_low w 15
  · refine coreRegister_readback h (State.regWrite_accwait w h hc rfl)
      (fun hu => (State.regRead_acc (o := 0x0) hu (by omega) hc (by decide) (by omega)).trans ?_)
    simpa [State.readAcc] using eq_and_full w

/-! ## Breakpoints (R239) -/

/-- A breakpoint changed is the one changed. -/
theorem Core.bp_modify (k : Core) (f : Bp → Bp) {n : Nat} (hn : n < 8) :
    Core.bp { k with bps := ((List.range 8).map k.bp).modify n f } n = f (k.bp n) := by
  simp [Core.bp, List.getD_eq_getElem?_getD, hn]

theorem State.gates_writeOvl (s : State) (c x : Nat) (w : Word) : (s.writeOvl c x w).gates = s.gates := by
  unfold State.writeOvl
  dsimp only
  split_ifs <;> rfl

/-- BPADDR, BPMASK and BPCTL of the breakpoint of an offset. That the low bits of BPADDR are dropped is the model's choice (log 42). -/
theorem State.readOvl_writeOvl_bp (s : State) (c : Nat) (w : Word) {x n : Nat} {m : Word} (hlo : 0x10 ≤ x) (hx : (x - 0x10) / 16 = n) (hn : n < 8)
    (hm : (x % 16, m) ∈ [(0x0, 0xFFFFFFFC#32), (0x4, 0xFFFFFFFF#32), (0x8, 0x0000FFF3#32)]) : (s.writeOvl c x w).readOvl c x = w &&& m := by
  have h0 : x ≠ 0x0 := by omega
  have h4 : x ≠ 0x4 := by omega
  have hhi : x < 0x90 := by omega
  simp only [List.mem_cons, Prod.mk.injEq, List.not_mem_nil, or_false] at hm
  rcases hm with ⟨hk, rfl⟩ | ⟨hk, rfl⟩ | ⟨hk, rfl⟩
  · simp [State.writeOvl, State.readOvl, h0, h4, hlo, hhi, hx, hk, Core.bp_modify _ _ hn]
  · simpa [State.writeOvl, State.readOvl, h0, h4, hlo, hhi, hx, hk, Core.bp_modify _ _ hn] using eq_and_full w
  · simpa [State.writeOvl, State.readOvl, h0, h4, hlo, hhi, hx, hk, Core.bp_modify _ _ hn] using nw_bpctl w

/-- The registers of a breakpoint of a core. -/
theorem breakpoint_readback (s : State) (w : Word) {c n : Nat} (hc : c < 192) (hn : n < 8) (o : Nat) (m : Word)
    (hm : (o, m) ∈ [(0x0, 0xFFFFFFFC#32), (0x4, 0xFFFFFFFF#32), (0x8, 0x0000FFF3#32)])
    (h : s.answers (0x01001010 + 0x10000 * c + 16 * n) = true) :
    ∃ u : State, exec (.registerWrite (0x01001010 + 0x10000 * c + 16 * n + o) w) s = .next u ∧
      (u.regRead (0x01001010 + 0x10000 * c + 16 * n + o)).2 = w &&& m := by
  obtain ⟨hlt, h4⟩ : o < 16 ∧ o % 4 = 0 := by
    simp only [List.mem_cons, Prod.mk.injEq, List.not_mem_nil, or_false] at hm
    omega
  have hk : (0x10 + 16 * n + o) % 16 = o := by omega
  have hv := s.readOvl_writeOvl_bp c w (x := 0x10 + 16 * n + o) (m := m) (by omega) (by omega) hn (by rwa [hk])
  have hat : 0x01001010 + 0x10000 * c + 16 * n + o = 0x01001000 + 0x10000 * c + (0x10 + 16 * n + o) := by omega
  have ha : (0x01001010 + 0x10000 * c + 16 * n + o) % 4 = 0 := by omega
  have hlive : s.answers (0x01001010 + 0x10000 * c + 16 * n + o) = true := by
    have hx : 0x01001010 + 0x10000 * c + 16 * n = 0x01000000 + 0x10000 * c + (0x1010 + 16 * n) := by omega
    rw [hx, State.answers_core s hc (by omega)] at h
    rw [hx, Nat.add_assoc, State.answers_core s hc (by omega), h]
  exact ⟨_, State.readback hlive (State.regWrite_ovl w hlive ha hc (by omega) hat) (s.gates_writeOvl ..)
    fun hu => (State.regRead_ovl hu ha hc (by omega) hat).trans hv⟩

/-! ## Invalidation (R273) -/

/-- What an invalidation command names, as the registers stand. -/
def State.mmuRun (s : State) (all : Bool) : MmuRun :=
  ⟨all, s.dev.mmu.asn, s.dev.mmu.valo * 4096 + s.dev.mmu.vahi * 2 ^ 32, s.dev.mmu.count.toNat, s.dev.nextId⟩

theorem State.startMmu_running {s : State} {r : MmuRun} (h : s.dev.mmu.run = some r) (all : Bool) : s.startMmu all = s := by
  simp [State.startMmu, h]

theorem State.startMmu_idle {s : State} (h : s.dev.mmu.run = none) (all : Bool) :
    s.startMmu all = (s.dropTlb (s.mmuRun all)).onDev fun d => { d with mmu := { d.mmu with run := some (s.mmuRun all) } } := by
  simp [State.startMmu, h, State.mmuRun]

theorem MmuRun.names_iff (r : MmuRun) (e : TlbEntry) : r.names e = true ↔
    r.all = true ∨ (e.asn = r.asn ∧ (r.count = 0 ∨ (e.page.1 < r.va + 4096 * r.count ∧ r.va < e.page.1 + e.page.2))) := by
  simp [MmuRun.names, MmuRun.namesPage]

theorem State.mmuRun_names_all (s : State) (e : TlbEntry) : (s.mmuRun true).names e = true := rfl

theorem State.mmuRun_names_range (s : State) (e : TlbEntry) :
    let m := s.dev.mmu
    let va := m.valo * 4096 + m.vahi * 2 ^ 32
    (s.mmuRun false).names e = true ↔
      e.asn = m.asn ∧ (m.count = 0#32 ∨ (e.page.1 < va + 4096 * m.count.toNat ∧ va < e.page.1 + e.page.2)) := by
  have hcount : s.dev.mmu.count.toNat = 0 ↔ s.dev.mmu.count = 0#32 := by rw [← BitVec.toNat_inj]; rfl
  simp [MmuRun.names_iff, State.mmuRun, hcount]

theorem State.mem_dropTlb_l2tlb (s : State) (r : MmuRun) (e : Nat × TlbEntry) :
    e ∈ (s.dropTlb r).dev.l2tlb ↔ e ∈ s.dev.l2tlb ∧ r.names e.2 = false := by
  simp [State.dropTlb]

theorem State.dropTlb_cores {s : State} {r : MmuRun} {c : Nat × Core} (hc : c ∈ (s.dropTlb r).dev.cores) :
    (∀ e ∈ c.2.tlb, r.names e = false) ∧ ∀ e ∈ c.2.walkTlb, r.names e = false := by
  simp only [State.dropTlb, State.onDev_dev, List.mem_map] at hc
  obtain ⟨x, -, rfl⟩ := hc
  simp

/-- A command given while none runs: what it names leaves every TLB, what it does not name stays, and BUSY is 1. -/
theorem State.startMmu_drops {s : State} (h : s.dev.mmu.run = none) (all : Bool) {named : TlbEntry → Prop}
    (hn : ∀ e, (s.mmuRun all).names e = true ↔ named e) :
    let u := s.startMmu all
    ((∀ e ∈ u.dev.l2tlb, ¬ named e.2) ∧ ∀ c ∈ u.dev.cores, (∀ e ∈ c.2.tlb, ¬ named e) ∧ ∀ e ∈ c.2.walkTlb, ¬ named e) ∧
    ((∀ e ∈ s.dev.l2tlb, ¬ named e.2 → e ∈ u.dev.l2tlb) ∧ u.mem = s.mem ∧ u.dev.groups = s.dev.groups) ∧
    (s.answers 0x00040014 = true → (u.regRead 0x00040014).2 = 1#32) := by
  have hnot : ∀ e, (s.mmuRun all).names e = false ↔ ¬ named e := fun e => by rw [← hn, Bool.not_eq_true]
  simp only [State.startMmu_idle h, ← hnot]
  refine ⟨⟨fun e he => ((s.mem_dropTlb_l2tlb _ e).mp he).2, fun c hc => State.dropTlb_cores hc⟩,
    ⟨fun e he hne => (s.mem_dropTlb_l2tlb _ e).mpr ⟨he, hne⟩, rfl, rfl⟩, fun ha => ?_⟩
  exact State.regRead_mmu (o := 0x14) ((State.answers_of_gates rfl _).trans ha) rfl (by decide) rfl

/-- BUSY reads 0 where no invalidation runs. -/
theorem State.regRead_busy_idle {s : State} (h : s.dev.mmu.run = none) : (s.regRead 0x00040014).2 = 0#32 := by
  cases ha : s.answers 0x00040014 with
  | false => rw [State.regRead_unlisted (.inl ha)]
  | true => rw [State.regRead_mmu (o := 0x14) ha rfl (by decide) rfl, State.readMmu, h]; rfl

theorem exec_invalidateAsnRange (s : State) : exec .invalidateAsnRange s = .next (s.startMmu false) := rfl
theorem exec_invalidateAll (s : State) : exec .invalidateAll s = .next (s.startMmu true) := rfl

theorem exec_invalidationComplete_idle {s : State} (h : s.dev.mmu.run = none) : exec .invalidationComplete s = .next s := by
  show execInvalidationComplete s = _
  simp [execInvalidationComplete, h]

theorem exec_invalidationComplete_running {s : State} {r : MmuRun} (h : s.dev.mmu.run = some r) :
    exec .invalidationComplete s = .next (if s.mmuSettled r = true then s.onDev fun d => { d with mmu := { d.mmu with run := none } } else s) := by
  show execInvalidationComplete s = _
  simp [execInvalidationComplete, h]

end Sys2Proof.Machine
end

section
/-! The obligation on the register space. -/
namespace Sys2Proof.Machine

/-- Settles O50, block by block: each register's write is the update of its field, and its read that field again. -/
theorem registerSpace : Obligations.RegisterSpace := by
  unfold Obligations.RegisterSpace
  refine ⟨fun s w => ⟨frontRegister_readback s w, fun z hz => zoneZslope_readback s w hz, fun c hc => coreRegisters_readback s w hc,
    fun c hc n hn h o m hm => breakpoint_readback s w hc hn o m hm h, fun a h => ?_, fun a h => State.regRead_unlisted h⟩, fun s => ?_⟩
  · rw [exec_registerWrite, State.regWrite_ignored w h]
  · refine ⟨fun r hr => ?_, fun hr => ?_, fun hr => ?_, exec_invalidationComplete_idle, fun r hr => ⟨fun hs => ?_, fun hs => ?_⟩⟩
    · rw [exec_invalidateAsnRange, exec_invalidateAll, State.startMmu_running hr, State.startMmu_running hr]
      exact ⟨rfl, rfl⟩
    · exact ⟨_, exec_invalidateAsnRange s, State.startMmu_drops hr false s.mmuRun_names_range⟩
    · exact ⟨_, exec_invalidateAll s, State.startMmu_drops hr true fun e => iff_true_intro (s.mmuRun_names_all e)⟩
    · rw [exec_invalidationComplete_running hr, hs]
      rfl
    · refine ⟨_, exec_invalidationComplete_running hr, ?_⟩
      rw [if_pos hs]
      exact ⟨rfl, rfl, rfl, rfl, rfl, State.regRead_busy_idle rfl⟩

end Sys2Proof.Machine
end

section
/-! What every step keeps (O57). Device memory is written in four places of the model, which keep its canonical form, and the fuses in none;
`State.Keeps` says so of two states, and each function of the model has one lemma, under its own name, that it leads from a state that is
kept to one that is kept. Here: the relation, how it goes through results and folds, and the places that write memory. -/

namespace Sys2Proof.Machine

/-- From one state to another the fuses are the same, and device memory stays canonical. -/
structure State.Keeps (s₀ s : State) : Prop where
  fuse : s.fuse = s₀.fuse
  wf : Memory.wf s₀.mem = true → Memory.wf s.mem = true

/-- The state that a unit leaves, however it comes out for the thread. -/
abbrev SRes.state : SRes → State
  | .ok s | .leave s | .stop s | .fault s .. => s

/-- The state that the checks of an access leave, passed or not. -/
abbrev AccRes.state : AccRes → State
  | .ok s _ _ => s
  | .out r => r.state

/-- The state that the opening of a frame leaves, opened or not. -/
abbrev OpenRes.state : OpenRes → State
  | .ok s _ => s
  | .out r => r.state

/-- The state that the checks of a tile access leave where they refuse it; `s` where they pass. -/
abbrev TileRes.state (s : State) : TileRes → State
  | .ok _ => s
  | .out r => r.state

/-- The state that a wait for the B operand leaves; `s` where the operand has come. -/
abbrev Operand.state (s : State) : Operand → State
  | .wait t => t
  | .bits .. => s

/-- The next state of an outcome; `s` where it has none. -/
abbrev outcomeOr (s : State) : Host.Outcome State Fault Refusal → State
  | .next t => t
  | .fault _ | .refused _ => s

/-- The state that a partial operation leaves; `s` where it leaves none. -/
abbrev optionOr (s : State) : Option State → State
  | .some t => t
  | .none => s

namespace State.Keeps

variable {s₀ s t : State}

theorem rfl : s₀.Keeps s₀ := ⟨Eq.refl _, id⟩

theorem ite {c : Prop} [Decidable c] {a b : State} (ha : s₀.Keeps a) (hb : s₀.Keeps b) : s₀.Keeps (if c then a else b) := by
  split <;> assumption

/-- Of a conditional whose value holds a state, at the place where `p` reads it. -/
theorem either {α : Type} (p : α → State) {c : Prop} [Decidable c] {a b : α} (ha : s₀.Keeps (p a)) (hb : s₀.Keeps (p b)) :
    s₀.Keeps (p (if c then a else b)) := by
  split <;> assumption

theorem fst {α : Type} {p : State × α} {a : α} (h : s₀.Keeps p.1) (e : p = (t, a)) : s₀.Keeps t := by subst e; exact h

theorem ofFst {α : Type} {p : State × α} {a : α} (e : p = (t, a)) (h : s₀.Keeps p.1) : s₀.Keeps t := h.fst e

theorem snd {α : Type} {p : α × State} {a : α} (h : s₀.Keeps p.2) (e : p = (a, t)) : s₀.Keeps t := by subst e; exact h

theorem some {o : Option State} (h : s₀.Keeps (optionOr s₀ o)) (e : o = .some t) : s₀.Keeps t := by subst e; exact h

theorem ok {r : SRes} (h : s₀.Keeps r.state) (e : r = .ok t) : s₀.Keeps t := by subst e; exact h

theorem leave {r : SRes} (h : s₀.Keeps r.state) (e : r = .leave t) : s₀.Keeps t := by subst e; exact h

theorem stop {r : SRes} (h : s₀.Keeps r.state) (e : r = .stop t) : s₀.Keeps t := by subst e; exact h

theorem fault {r : SRes} {c n v b} (h : s₀.Keeps r.state) (e : r = .fault t c n v b) : s₀.Keeps t := by subst e; exact h

theorem accOk {r : AccRes} {e a} (h : s₀.Keeps r.state) (q : r = .ok t e a) : s₀.Keeps t := by subst q; exact h

theorem out {r : SRes} (h : s₀.Keeps r.state) : s₀.Keeps (AccRes.out r).state := h

theorem accOut {r : AccRes} {x : SRes} (h : s₀.Keeps r.state) (e : r = .out x) : s₀.Keeps x.state := by subst e; exact h

theorem openOk {r : OpenRes} {f} (h : s₀.Keeps r.state) (q : r = .ok t f) : s₀.Keeps t := by subst q; exact h

theorem openOut {r : OpenRes} {x : SRes} (h : s₀.Keeps r.state) (e : r = .out x) : s₀.Keeps x.state := by subst e; exact h

theorem noFrame {r : SRes} (h : s₀.Keeps r.state) : s₀.Keeps (OpenRes.out r).state := h

theorem tileOut {r : TileRes} {x : SRes} (h : s₀.Keeps (r.state s₀)) (e : r = .out x) : s₀.Keeps x.state := by subst e; exact h

theorem noTile {r : SRes} (h : s₀.Keeps r.state) : s₀.Keeps ((TileRes.out r).state s₀) := h

theorem unitRun {α : Type} {p : UnitRun × α} {x : UnitRun} {a : α} (h : s₀.Keeps p.1.s) (e : p = (x, a)) : s₀.Keeps x.s := by subst e; exact h

theorem opWait {o : Operand} (h : s₀.Keeps (o.state s₀)) (e : o = .wait t) : s₀.Keeps t := by subst e; exact h

theorem next {o : Host.Outcome State Fault Refusal} (h : s₀.Keeps (outcomeOr s₀ o)) (e : o = .next t) : s₀.Keeps t := by subst e; exact h

theorem getD {o : Option State} (ho : s₀.Keeps (optionOr s₀ o)) (h : s₀.Keeps s) : s₀.Keeps (o.getD s) := by
  cases o
  · exact h
  · exact ho

theorem foldl {α β : Type} {p : β → State} {f : β → α → β} {l : List α} {b : β} (h : s₀.Keeps (p b))
    (hf : ∀ b x, s₀.Keeps (p b) → s₀.Keeps (p (f b x))) : s₀.Keeps (p (l.foldl f b)) := by
  induction l generalizing b with
  | nil => exact h
  | cons x r ih => exact ih (hf b x h)

theorem fold {α : Type} {f : State → α → State} {l : List α} (h : s₀.Keeps s) (hf : ∀ s x, s₀.Keeps s → s₀.Keeps (f s x)) :
    s₀.Keeps (l.foldl f s) := h.foldl (p := id) hf

theorem dev {m : List Instr} {d : Dev} (h : s₀.Keeps s) : s₀.Keeps { s with agenda := m, dev := d } := ⟨h.fuse, h.wf⟩
theorem onDev {f : Dev → Dev} (h : s₀.Keeps s) : s₀.Keeps (s.onDev f) := h.dev

theorem homeStore {p a d} (h : s₀.Keeps s) : s₀.Keeps (s.homeStore p a d).1 := ⟨h.fuse, fun hm => State.homeStore_wf p a d (h.wf hm)⟩
theorem put {a d p} (h : s₀.Keeps s) : s₀.Keeps (s.put a d p) := by
  unfold State.put
  split
  · exact h.homeStore
  · exact h
theorem storeLines {p c} (h : s₀.Keeps s) : s₀.Keeps (s.storeLines p c).1 := by
  refine ⟨?_, fun hm => State.storeLines_wf p c (h.wf hm)⟩
  unfold State.storeLines
  generalize distinct (c.map fun c => c.1 / 128) = l
  suffices ∀ acc : State × Nat, acc.1.fuse = s₀.fuse → (l.foldl _ acc).1.fuse = s₀.fuse from this (s, p) h.fuse
  induction l with
  | nil => exact fun acc ha => ha
  | cons l r ih => exact fun acc ha => ih _ ha
theorem flushLine {i x} (h : s₀.Keeps s) : s₀.Keeps (s.flushLine i x) := ⟨h.fuse, fun hm => State.flushLine_wf i x (h.wf hm)⟩
theorem homeAtomic {p a o b c} (h : s₀.Keeps s) : s₀.Keeps (s.homeAtomic p a o b c).1 := h.homeStore

end State.Keeps
end Sys2Proof.Machine
end

section
/-! What is kept (O57): pages, faults and overlays. -/

namespace Sys2Proof.Machine
namespace State.Keeps

variable {s₀ s t : State}

theorem updGroup {id f} (h : s₀.Keeps s) : s₀.Keeps (s.updGroup id f) := h.dev

theorem updTeam {id f} (h : s₀.Keeps s) : s₀.Keeps (s.updTeam id f) := h.dev

theorem updCluster {id f} (h : s₀.Keeps s) : s₀.Keeps (s.updCluster id f) := h.dev

theorem updGrid {id f} (h : s₀.Keeps s) : s₀.Keeps (s.updGrid id f) := h.dev

theorem updCtx {id f} (h : s₀.Keeps s) : s₀.Keeps (s.updCtx id f) := h.dev

theorem updPending {id f} (h : s₀.Keeps s) : s₀.Keeps (s.updPending id f) := h.dev

theorem updFrame {id f} (h : s₀.Keeps s) : s₀.Keeps (s.updFrame id f) := h.dev

theorem updPeer {n f} (h : s₀.Keeps s) : s₀.Keeps (s.updPeer n f) := h.dev

theorem updCore {c f} (h : s₀.Keeps s) : s₀.Keeps (s.updCore c f) := h.dev

theorem updZone {z f} (h : s₀.Keeps s) : s₀.Keeps (s.updZone z f) := h.dev

theorem updLink {f} (h : s₀.Keeps s) : s₀.Keeps (s.updLink f) := h.dev

theorem updDie {f} (h : s₀.Keeps s) : s₀.Keeps (s.updDie f) := h.dev

theorem updThread {g t f} (h : s₀.Keeps s) : s₀.Keeps (s.updThread g t f) := h.updGroup

theorem updQueue {c q f} (h : s₀.Keeps s) : s₀.Keeps (s.updQueue c q f) := h.updCtx

theorem fresh (h : s₀.Keeps s) : s₀.Keeps s.fresh.2 := by
  unfold State.fresh
  dsimp only
  exact h.onDev

theorem freeWord (h : s₀.Keeps s) : s₀.Keeps s.freeWord.2 := by
  unfold State.freeWord
  dsimp only
  exact h.onDev

theorem homeLoad {pts pa n} (h : s₀.Keeps s) : s₀.Keeps (s.homeLoad pts pa n).1 := by
  unfold State.homeLoad
  dsimp only
  exact h.onDev

theorem send {n m} (h : s₀.Keeps s) : s₀.Keeps (s.send n m) := by
  unfold State.send
  split
  · exact h
  · exact Keeps.ite h.updPeer.updLink h

theorem sendWrite {n cg wa data what} (h : s₀.Keeps s) : s₀.Keeps (s.sendWrite n cg wa data what) := by
  unfold State.sendWrite
  split
  · exact h
  · exact h.fresh.send.updLink

theorem orPte {pa bit} (h : s₀.Keeps s) : s₀.Keeps (s.orPte pa bit) := by
  unfold State.orPte
  exact Keeps.ite h h.put

theorem walkInstall {ctx va} (h : s₀.Keeps s) : s₀.Keeps (s.walkInstall ctx va).1 := by
  unfold State.walkInstall
  dsimp only
  split
  · exact h
  · split
    · dsimp only
      exact Keeps.ite h.orPte.onDev h.orPte
    · exact h

theorem dirty {core e} (h : s₀.Keeps s) : s₀.Keeps (optionOr s₀ (s.dirty core e)) := by
  unfold State.dirty
  split
  · exact h
  · split
    · exact Keeps.rfl
    · exact h.orPte.updCore.onDev

theorem forget {core e} (h : s₀.Keeps s) : s₀.Keeps (s.forget core e) := by
  unfold State.forget
  exact h.updCore.onDev

theorem writeCount {ctx off n} (h : s₀.Keeps s) : s₀.Keeps (s.writeCount ctx off n) := h.put

theorem updPreq {ctx vpage f} (h : s₀.Keeps s) : s₀.Keeps (s.updPreq ctx vpage f) := h.onDev

theorem countPreq {r} (h : s₀.Keeps s) : s₀.Keeps (s.countPreq r) := by
  unfold State.countPreq
  split
  · exact h
  · exact Keeps.ite h.updPreq.writeCount h

theorem sendPreqs (h : s₀.Keeps s) : s₀.Keeps s.sendPreqs := by
  unfold State.sendPreqs
  extract_lets s₁
  have hs₁ : s₀.Keeps s₁ := h.fold fun _ _ h₁ => h₁.countPreq
  exact Keeps.ite hs₁ (hs₁.fold fun _ _ h₁ => h₁.updPreq.send)

theorem requestPage {ctx vpage kind eng} (h : s₀.Keeps s) : s₀.Keeps (s.requestPage ctx vpage kind eng) := by
  unfold State.requestPage
  dsimp only
  split
  · exact h.updPreq
  · split
    · exact h
    · exact Keeps.ite h h.updCtx.onDev.sendPreqs

theorem askTlb {core ctx va} (h : s₀.Keeps s) : s₀.Keeps (s.askTlb core ctx va) := Keeps.ite h h.onDev

theorem useWalk {core ctx va} (h : s₀.Keeps s) : s₀.Keeps (s.useWalk core ctx va) := Keeps.ite h.updCore h

theorem engWait {ctx eng va a} (h : s₀.Keeps s) : s₀.Keeps (s.engWait ctx eng va a).1 := by
  unfold State.engWait
  split
  · exact h
  · exact h.requestPage

theorem engNoLeaf {ctx eng va a w} (h : s₀.Keeps s) : s₀.Keeps (s.engNoLeaf ctx eng va a w).1 := by
  unfold State.engNoLeaf
  split
  · exact h.engWait
  · exact h
  · exact h

theorem engUse {core ctx eng va a e} (h : s₀.Keeps s) : s₀.Keeps (s.engUse core ctx eng va a e).1 := by
  unfold State.engUse
  split
  · exact h
  · split
    · exact h
    · split
      · exact h.dirty.some ‹_›
      · split
        · split
          · exact h.forget.walkInstall.fst ‹_›
          · split
            · exact (h.forget.walkInstall.fst ‹_›).dirty.some ‹_›
            · exact h.forget.walkInstall.fst ‹_›
        · exact (h.forget.walkInstall.fst ‹_›).engNoLeaf

theorem engAccess {core ctx eng va a ahead} (h : s₀.Keeps s) : s₀.Keeps (s.engAccess core ctx eng va a ahead).1 := by
  unfold State.engAccess
  split
  · exact h
  · split
    · exact h
    · dsimp only
      split
      · exact h.engUse
      · split
        · exact h.engWait
        · split
          · refine Keeps.engUse ?_
            split
            · exact (h.walkInstall.fst ‹_›).updCore
            · exact h.walkInstall.fst ‹_›
          · exact (h.walkInstall.fst ‹_›).engNoLeaf

theorem endEng {eng} (h : s₀.Keeps s) : s₀.Keeps (s.endEng eng) := h.onDev

theorem engRange {core ctx eng va n a ahead} (h : s₀.Keeps s) : s₀.Keeps (s.engRange core ctx eng va n a ahead).1 := by
  unfold State.engRange
  refine Keeps.foldl (p := Prod.fst) h fun _ _ h₁ => ?_
  split
  · split <;> exact h₁.engAccess.fst ‹_›
  · exact h₁

theorem engReadAt {core ctx eng va n a pts ahead} (h : s₀.Keeps s) : s₀.Keeps (s.engReadAt core ctx eng va n a pts ahead).1 := by
  unfold State.engReadAt
  exact Keeps.foldl (p := Prod.fst) h.engRange fun _ _ h₁ => h₁.homeLoad

theorem engRead {core ctx eng va n a ahead} (h : s₀.Keeps s) : s₀.Keeps (s.engRead core ctx eng va n a ahead).1 := h.engReadAt

theorem engWrite {core ctx eng va data a pts} (h : s₀.Keeps s) : s₀.Keeps (s.engWrite core ctx eng va data a pts).1 := by
  unfold State.engWrite
  split
  · exact Keeps.foldl (p := Prod.fst) (h.engRange.fst ‹_›) fun _ _ h₁ => h₁.storeLines
  · exact h.engRange.fst ‹_›

theorem searchTable {core ctx eng want n va} (h : s₀.Keeps s) : s₀.Keeps (s.searchTable core ctx eng want n va).1 := by
  induction n generalizing s va with
  | zero => exact h
  | succ n ih =>
    unfold State.searchTable
    split
    · dsimp only
      split
      · exact h.engRead.fst ‹_›
      · exact ih (h.engRead.fst ‹_›)
    · exact h.engRead.fst ‹_›
    · exact h.engRead.fst ‹_›

theorem enterCopy {core id} (h : s₀.Keeps s) : s₀.Keeps (s.enterCopy core id) := h.updCore

theorem askFetch {core ctx image id key} (h : s₀.Keeps s) : s₀.Keeps (s.askFetch core ctx image id key).2 := by
  unfold State.askFetch
  split
  · exact h
  · split
    dsimp only
    exact (h.fresh.snd ‹_›).updCore

theorem resolve {core ctx k} (h : s₀.Keeps s) : s₀.Keeps (s.resolve core ctx k).1 := by
  unfold State.resolve
  split
  · exact Keeps.ite h h.updCore
  · split
    · split
      · exact h
      · exact h.askFetch
    · exact h.askFetch

theorem renameCopy {team id n} (h : s₀.Keeps s) : s₀.Keeps (s.renameCopy team id n) := by
  unfold State.renameCopy
  exact h.onDev

theorem park {gid t o key} (h : s₀.Keeps s) : s₀.Keeps (optionOr s₀ (s.park gid t o key)) := by
  unfold State.park
  split
  · exact Keeps.rfl
  · split
    · exact h.updGroup
    · exact Keeps.rfl

theorem parkPage {gid t ctx va} (h : s₀.Keeps s) : s₀.Keeps (optionOr s₀ (s.parkPage gid t ctx va)) := h.park

theorem parkOverlay {core gid t ctx image id} (h : s₀.Keeps s) :
    s₀.Keeps (optionOr s₀ (s.parkOverlay core gid t ctx image id)) := h.askFetch.park

theorem unparkIf {sel hit f} (h : s₀.Keeps s) : s₀.Keeps (s.unparkIf sel hit f) := h.onDev

theorem unpark {sel o f} (h : s₀.Keeps s) : s₀.Keeps (s.unpark sel o f) := h.unparkIf

end State.Keeps
end Sys2Proof.Machine
end

section
/-! What is kept (O57): units of a stream, results, barriers and format slots. -/

namespace Sys2Proof.Machine
namespace State.Keeps

variable {s₀ s t : State}

theorem requestSave {sel} (h : s₀.Keeps s) : s₀.Keeps (s.requestSave sel) := by
  unfold State.requestSave
  exact h.onDev

theorem writeStatus {ctx} (h : s₀.Keeps s) : s₀.Keeps (s.writeStatus ctx) := h.put

theorem writeFault {ctx} (h : s₀.Keeps s) : s₀.Keeps (s.writeFault ctx) := by
  unfold State.writeFault
  split
  · exact h
  · exact h.put

theorem setCtxState {ctx st} (h : s₀.Keeps s) : s₀.Keeps (s.setCtxState ctx st) := h.updCtx.writeStatus

theorem setFault {ctx r} (h : s₀.Keeps s) : s₀.Keeps (s.setFault ctx r) := h.updCtx.writeFault

theorem freeze {ctx gid t r cause} (h : s₀.Keeps s) : s₀.Keeps (s.freeze ctx gid t r cause) := by
  unfold State.freeze
  split
  · dsimp only
    split
    · exact h.updThread.updCtx.setCtxState.setFault.requestSave
    · exact h.updThread.updCtx.setCtxState.setFault.requestSave
    · exact Keeps.ite h.updThread.setFault h.updThread
    · exact h
  · exact h

theorem readTrapImage {gr core} (h : s₀.Keeps s) : s₀.Keeps (s.readTrapImage gr core).1 := by
  unfold State.readTrapImage
  split
  · exact h
  · split
    · dsimp only
      split <;> exact (h.engRead.fst ‹_›).updGrid
    · exact h.engRead.fst ‹_›

theorem completeTrap {gid t} (h : s₀.Keeps s) : s₀.Keeps (s.completeTrap gid t) := by
  unfold State.completeTrap
  split
  · exact h
  · split
    · extract_lets fail plain
      have hfail : ∀ s f, s₀.Keeps s → s₀.Keeps (fail s f) := fun _ _ h₁ => h₁.updThread.freeze
      clear_value fail
      split
      next hq =>
      have hs := Keeps.ofFst hq (by
        split
        · exact h
        · exact h
        · exact h
        · exact h.readTrapImage)
      split
      · exact Keeps.getD hs.parkPage hs
      · exact hfail _ _ hs
      · split
        · exact hfail _ _ hs
        · split
          · exact Keeps.getD hs.parkOverlay hs
          · split
            · exact hfail _ _ hs
            · exact Keeps.ite hs.updThread.enterCopy (hfail _ _ hs)
    · exact h

theorem takeFault {gid t r isAsync xpc} (h : s₀.Keeps s) : s₀.Keeps (s.takeFault gid t r isAsync xpc) := by
  unfold State.takeFault
  split
  · exact h
  · split
    · exact Keeps.ite h (Keeps.ite h.freeze (Keeps.ite h.freeze h.updThread.completeTrap))
    · exact h

theorem plain {code} (h : s₀.Keeps s) : s₀.Keeps (SRes.plain s code).state := h

theorem at_ {code va} (h : s₀.Keeps s) : s₀.Keeps (SRes.at_ s code va).state := h

theorem stopOr {parked : Option State} (h : s₀.Keeps s) (hparked : s₀.Keeps (optionOr s₀ parked)) : s₀.Keeps (s.stopOr parked).state := by
  unfold State.stopOr
  split
  · exact hparked
  · exact h

theorem goto {gid t a k b} (h : s₀.Keeps s) : s₀.Keeps (s.goto gid t a k b) := h.updThread

theorem reach {g gr t inTrap a go} (h : s₀.Keeps s) (hgo : ∀ s b c, s₀.Keeps s → s₀.Keeps (go s b c).state) :
    s₀.Keeps (s.reach g gr t inTrap a go).state := by
  unfold State.reach
  split
  · exact h.plain
  · split
    · exact (h.searchTable.fst ‹_›).plain
    · exact (h.searchTable.fst ‹_›).at_
    · exact (h.searchTable.fst ‹_›).stopOr ((h.searchTable.fst ‹_›).parkPage)
    · split
      · exact hgo _ _ _ (h.searchTable.fst ‹_›)
      · exact (h.searchTable.fst ‹_›).stopOr ((h.searchTable.fst ‹_›).parkOverlay)

theorem seekCopy {g t id go} (h : s₀.Keeps s) (hgo : ∀ s k, s₀.Keeps s → s₀.Keeps (go s k).state) :
    s₀.Keeps (s.seekCopy g t id go).state := by
  unfold State.seekCopy
  split
  · exact hgo _ _ h
  · split
    · exact h.plain
    · split
      extract_lets s₁
      have hs₁ : s₀.Keeps s₁ := Keeps.ite (h.resolve.fst ‹_›) (h.resolve.fst ‹_›).renameCopy
      clear_value s₁
      split
      · exact hgo _ _ hs₁
      · exact hs₁.stopOr hs₁.park

theorem returnTrap {gid t} (h : s₀.Keeps s) : s₀.Keeps (s.returnTrap gid t).state := by
  unfold State.returnTrap
  split
  · exact h
  · split
    · split
      · exact h
      · split
        · exact h.plain
        · exact h.reach fun _ _ _ h₁ => h₁.updThread.enterCopy
    · exact h

theorem updStream {core reed f} (h : s₀.Keeps s) : s₀.Keeps (s.updStream core reed f) := h.onDev

theorem advance {st kept} (h : s₀.Keeps s) : s₀.Keeps (s.advance st kept) := h.updGroup.updStream

theorem runEach {st f l} (h : s₀.Keeps s) (hf : ∀ s b c, s₀.Keeps s → s₀.Keeps (f s b c).state) : s₀.Keeps (runEach st f l s).1 := by
  induction l generalizing s with
  | nil => exact h
  | cons k r ih =>
    unfold Machine.runEach
    split
    · exact ih h
    · split
      · split
        · exact ih ((hf _ _ _ h).ok ‹_›)
        · exact ih ((hf _ _ _ h).leave ‹_›)
        · exact (hf _ _ _ h).stop ‹_›
        · exact ((hf _ _ _ h).fault ‹_›).takeFault
      · exact ih h

theorem onStream {f} (hf : ∀ st g, s₀.Keeps (f st g)) : s₀.Keeps (outcomeOr s₀ (s.onStream f)) := by
  unfold State.onStream
  split
  · exact Keeps.rfl
  · split
    · exact Keeps.rfl
    · exact hf _ _

theorem perThread {f} (h : s₀.Keeps s) (hf : ∀ a s c d, s₀.Keeps s → s₀.Keeps (f a s c d).state) :
    s₀.Keeps (outcomeOr s₀ (s.perThread f)) := Keeps.onStream fun _ _ => Keeps.advance (h.runEach fun _ _ _ h₁ => hf _ _ _ _ h₁)

theorem perGroup {f} (h : s₀.Keeps s) (hf : ∀ a s c d, s₀.Keeps s → s₀.Keeps (f a s c d).state) :
    s₀.Keeps (outcomeOr s₀ (s.perGroup f)) := by
  unfold State.perGroup
  refine Keeps.onStream fun _ _ => ?_
  split
  · exact h.advance
  · dsimp only
    split
    · exact ((hf _ _ _ _ h).ok ‹_›).advance
    · exact ((hf _ _ _ _ h).leave ‹_›).advance
    · exact ((hf _ _ _ _ h).stop ‹_›).advance
    · exact ((hf _ _ _ _ h).fault ‹_›).takeFault.advance

theorem settle {st r} (h : s₀.Keeps s) : s₀.Keeps (s.settle st r) := by
  unfold State.settle
  dsimp only
  refine Keeps.advance ?_
  split
  · exact h.updGroup
  · exact h.updGroup.takeFault

theorem regsUnit {f} (h : s₀.Keeps s) : s₀.Keeps (outcomeOr s₀ (s.regsUnit f)) := Keeps.onStream fun _ _ => h.settle

theorem regsUniform {f} (h : s₀.Keeps s) : s₀.Keeps (outcomeOr s₀ (s.regsUniform f)) := by
  unfold State.regsUniform
  refine Keeps.onStream fun _ _ => ?_
  split
  · exact h.settle
  · split
    · exact h.settle
    · split <;> exact h.settle

theorem valueUnit {uniform d f} (h : s₀.Keeps s) : s₀.Keeps (outcomeOr s₀ (s.valueUnit uniform d f)) := by
  unfold State.valueUnit
  dsimp only
  split
  · exact h.regsUniform
  · exact h.regsUnit

theorem predUnit {pd f} (h : s₀.Keeps s) : s₀.Keeps (outcomeOr s₀ (s.predUnit pd f)) := h.regsUnit

theorem addResult {gid t sb unit kind engine} (h : s₀.Keeps s) : s₀.Keeps (s.addResult gid t sb unit kind engine).2 := by
  unfold State.addResult
  split
  dsimp only
  split
  · exact (h.fresh.snd ‹_›).onDev.updGroup
  · exact (h.fresh.snd ‹_›).onDev

theorem issueResult {st t sb kind} (h : s₀.Keeps s) : s₀.Keeps (s.issueResult st t sb kind).state := by
  unfold State.issueResult
  split
  · exact h.addResult
  · exact h

theorem dropResult {r} (h : s₀.Keeps s) : s₀.Keeps (s.dropResult r) := by
  unfold State.dropResult
  dsimp only
  split
  · exact h.onDev
  · exact h.onDev.updGroup

theorem addAsync {gid t r} (h : s₀.Keeps s) : s₀.Keeps (s.addAsync gid t r) := by
  unfold State.addAsync
  split
  · exact h
  · exact Keeps.ite h.freeze h.updThread

theorem resultReady {id ts} (h : s₀.Keeps s) : s₀.Keeps (s.resultReady id ts) := h.updPending

theorem resultTs {id ts} (h : s₀.Keeps s) : s₀.Keeps (s.resultTs id ts) := h.updPending

theorem returnToken {id ts} (h : s₀.Keeps s) : s₀.Keeps (s.returnToken id ts) := by
  unfold State.returnToken
  split
  · exact h
  · refine Keeps.dropResult ?_
    split
    · exact h.addAsync
    · exact h

theorem advanceRptr {cores} (h : s₀.Keeps s) : s₀.Keeps (s.advanceRptr cores) := h.fold fun _ _ h₁ => h₁.updZone

theorem releaseAt {sel member w} (h : s₀.Keeps s) : s₀.Keeps (s.releaseAt sel member w) := by
  unfold State.releaseAt
  exact h.onDev

theorem checkRb {gid n} (h : s₀.Keeps s) : s₀.Keeps (s.checkRb gid n) := by
  unfold State.checkRb
  split
  · exact h
  · split
    · exact h
    · exact Keeps.ite h.releaseAt h

theorem checkTb {team n} (h : s₀.Keeps s) : s₀.Keeps (s.checkTb team n) := by
  unfold State.checkTb
  split
  · exact h
  · split
    · exact h
    · exact Keeps.ite h.advanceRptr.releaseAt.updTeam h

theorem checkCb {cl n} (h : s₀.Keeps s) : s₀.Keeps (s.checkCb cl n) := by
  unfold State.checkCb
  split
  · exact h
  · dsimp only
    split
    · exact Keeps.ite h.updCluster h
    · exact h

theorem checkGb {gid n} (h : s₀.Keeps s) : s₀.Keeps (s.checkGb gid n) := by
  unfold State.checkGb
  split
  · exact h
  · dsimp only
    split
    · exact h
    · exact Keeps.ite h.updGrid h

theorem checkBars {g} (h : s₀.Keeps s) : s₀.Keeps (s.checkBars g) := by
  unfold State.checkBars
  dsimp only
  refine Keeps.fold ?_ ?_
  · split
    · exact Keeps.fold (Keeps.fold (h.fold fun _ _ h₁ => h₁.checkRb) fun _ _ h₁ => h₁.checkTb) fun _ _ h₁ => h₁.checkCb
    · exact Keeps.fold (h.fold fun _ _ h₁ => h₁.checkRb) fun _ _ h₁ => h₁.checkTb
  · intro _ _ h₁
    exact h₁.checkGb

theorem execBarrierRelease {grid owner n} (h : s₀.Keeps s) : s₀.Keeps (outcomeOr s₀ (Machine.execBarrierRelease grid owner n s)) := by
  unfold Machine.execBarrierRelease
  split
  · split
    · exact h
    · exact Keeps.ite h.advanceRptr.releaseAt.updGrid h
  · split
    · exact h
    · exact Keeps.ite h.advanceRptr.releaseAt.updCluster h

theorem waitAt {st t w} (h : s₀.Keeps s) : s₀.Keeps (s.waitAt st t w).state := h.updThread

theorem memberUnit {m f} (h : s₀.Keeps s) (hf : ∀ a s c d e k, s₀.Keeps s → s₀.Keeps (f a s c d e k).state) :
    s₀.Keeps (outcomeOr s₀ (s.memberUnit m f)) := by
  unfold State.memberUnit
  refine Keeps.onStream fun _ _ => ?_
  dsimp only
  refine Keeps.checkBars ?_
  refine Keeps.advance ?_
  refine h.runEach fun _ _ _ h₁ => ?_
  split
  · exact h₁
  · split
    · exact h₁.plain
    · exact hf _ _ _ _ _ _ h₁

theorem execRbset {n m} (h : s₀.Keeps s) : s₀.Keeps (outcomeOr s₀ (Machine.execRbset n m s)) := by
  unfold Machine.execRbset
  refine h.memberUnit fun _ _ _ _ _ _ h₁ => ?_
  split
  · exact h₁
  · split
    · exact h₁.plain
    · split
      · exact h₁.plain
      · exact h₁.updGroup

theorem execRbjoin {n m} (h : s₀.Keeps s) : s₀.Keeps (outcomeOr s₀ (Machine.execRbjoin n m s)) := by
  unfold Machine.execRbjoin
  refine h.memberUnit fun _ _ _ _ _ _ h₁ => ?_
  split
  · exact h₁.plain
  · exact h₁.waitAt

theorem execTbar {n m} (h : s₀.Keeps s) : s₀.Keeps (outcomeOr s₀ (Machine.execTbar n m s)) := by
  unfold Machine.execTbar
  refine h.memberUnit fun _ _ _ _ _ _ h₁ => ?_
  split
  · dsimp only
    split
    · exact h₁.plain
    · exact h₁.updTeam.waitAt
  · exact h₁.plain

theorem execCbar {n m} (h : s₀.Keeps s) : s₀.Keeps (outcomeOr s₀ (Machine.execCbar n m s)) := by
  unfold Machine.execCbar
  refine h.memberUnit fun _ _ _ _ _ _ h₁ => ?_
  split
  · split
    · exact h₁.plain
    · dsimp only
      split
      · exact h₁.plain
      · exact h₁.updCluster.waitAt
  · exact h₁.plain

theorem execGbar {n m} (h : s₀.Keeps s) : s₀.Keeps (outcomeOr s₀ (Machine.execGbar n m s)) := by
  unfold Machine.execGbar
  refine h.memberUnit fun _ _ _ _ _ _ h₁ => ?_
  split
  · dsimp only
    split
    · exact h₁.plain
    · exact h₁.updGrid.waitAt
  · exact h₁.plain

theorem execCvsign {n m pd} (h : s₀.Keeps s) : s₀.Keeps (outcomeOr s₀ (Machine.execCvsign n m pd s)) := by
  unfold Machine.execCvsign
  refine h.memberUnit fun _ _ _ _ _ _ h₁ => ?_
  split
  · exact h₁.plain
  · dsimp only
    split
    · exact h₁.plain
    · split
      · exact h₁.plain
      · split
        · exact h₁.plain
        · split
          · exact h₁.plain
          · exact h₁.updTeam.updThread
    · split
      · exact h₁.plain
      · split
        · exact h₁.plain
        · exact h₁.updTeam.updThread

theorem execRingwait {n stage phase m} (h : s₀.Keeps s) : s₀.Keeps (outcomeOr s₀ (Machine.execRingwait n stage phase m s)) := by
  unfold Machine.execRingwait
  refine h.memberUnit fun _ _ _ _ _ _ h₁ => ?_
  split
  · exact h₁.plain
  · dsimp only
    split
    · exact h₁.updTeam
    · exact h₁.updTeam.waitAt

theorem execRingpass {n stage phase m} (h : s₀.Keeps s) : s₀.Keeps (outcomeOr s₀ (Machine.execRingpass n stage phase m s)) := by
  unfold Machine.execRingpass
  refine h.memberUnit fun _ _ _ _ _ _ h₁ => ?_
  split
  · exact h₁
  · split
    · exact h₁.plain
    · split
      · exact h₁.plain
      · split
        · exact h₁
        · exact h₁.updTeam.onDev.releaseAt

theorem pushSq {gid t loc op} (h : s₀.Keeps s) : s₀.Keeps (s.pushSq gid t loc op) := h.fresh.updGroup

theorem queueStore {gid t loc op} (h : s₀.Keeps s) : s₀.Keeps (s.queueStore gid t loc op) := h.pushSq.updGroup

theorem appendOutlier {core ctx eng f row col value pts} (h : s₀.Keeps s) :
    s₀.Keeps (s.appendOutlier core ctx eng f row col value pts).1 := by
  unfold State.appendOutlier
  split
  · exact h.engRange.fst ‹_›
  · exact h.engRange.fst ‹_›
  · dsimp only
    split
    · exact h.engRange.fst ‹_›
    · split
      · exact (h.engRange.fst ‹_›).engWrite.fst ‹_›
      · exact (h.engRange.fst ‹_›).engWrite.fst ‹_›
      · split <;> exact ((h.engRange.fst ‹_›).engWrite.fst ‹_›).engWrite.fst ‹_›

theorem orSlotFlags {core ctx eng f flags pts} (h : s₀.Keeps s) : s₀.Keeps (s.orSlotFlags core ctx eng f flags pts).1 := by
  unfold State.orSlotFlags
  split
  · exact h
  · split
    · exact (h.engRange.fst ‹_›).homeAtomic
    · exact h.engRange.fst ‹_›

end State.Keeps
end Sys2Proof.Machine
end

section
/-! What is kept (O57): tile memory, accesses to memory, and control. -/

namespace Sys2Proof.Machine
namespace State.Keeps

variable {s₀ s t : State}

theorem updHandle {team hd f} (h : s₀.Keeps s) : s₀.Keeps (s.updHandle team hd f) := h.updTeam

theorem allocHandle {team hd rows rowb level} (h : s₀.Keeps s) : s₀.Keeps (optionOr s₀ (s.allocHandle team hd rows rowb level)) := by
  unfold State.allocHandle
  split
  · exact Keeps.rfl
  · dsimp only
    split
    · exact Keeps.rfl
    · exact h.updTeam

theorem freeLine {team hd line} (h : s₀.Keeps s) : s₀.Keeps (s.freeLine team hd line) := h.unpark

theorem freeLines {team hd} (h : s₀.Keeps s) : s₀.Keeps (s.freeLines team hd) := h.fold fun _ _ h₁ => h₁.unpark

theorem linePresent {team hd line} (h : s₀.Keeps s) : s₀.Keeps (s.linePresent team hd line) := h.updHandle.freeLine

theorem linesAbsent {team hd lines} (h : s₀.Keeps s) : s₀.Keeps (s.linesAbsent team hd lines) := h.updHandle

theorem consUp {team hd} (h : s₀.Keeps s) : s₀.Keeps (s.consUp team hd) := h.updHandle

theorem consDown {team n} (h : s₀.Keeps s) : s₀.Keeps (s.consDown team n) := by
  unfold State.consDown
  extract_lets s₁
  have hs₁ : s₀.Keeps s₁ := h.updHandle
  clear_value s₁
  split
  · exact hs₁
  · refine Keeps.ite hs₁ (hs₁.freeLines.fold fun _ _ h₁ => ?_)
    refine Keeps.fold (h₁.fold fun _ _ h₂ => ?_) fun _ _ h₂ => ?_
    · exact Keeps.ite h₂.linesAbsent.updCore h₂
    · exact Keeps.ite h₂.linesAbsent.updCore h₂

theorem tileStore {pts team hd off data} (h : s₀.Keeps s) : s₀.Keeps (s.tileStore pts team hd off data).1 := by
  unfold State.tileStore
  split
  · exact h
  · dsimp only
    exact h.updHandle.onDev

theorem tileStoreLines {pts team hd cells} (h : s₀.Keeps s) : s₀.Keeps (s.tileStoreLines pts team hd cells).1 := by
  unfold State.tileStoreLines
  refine Keeps.foldl (p := Prod.fst) h fun _ _ h₁ => ?_
  dsimp only
  exact h₁.updHandle.onDev

theorem freeBytes {n} (h : s₀.Keeps s) : s₀.Keeps (s.freeBytes n).1 := by
  induction n generalizing s with
  | zero => exact h
  | succ n ih => exact ih h.freeWord

theorem tileLoad {pts team hd off n} (h : s₀.Keeps s) : s₀.Keeps (s.tileLoad pts team hd off n).1 := by
  unfold State.tileLoad
  split
  · exact h.freeBytes
  · dsimp only
    exact h.onDev

theorem tileAtomic {pts team hd off op b cmp} (h : s₀.Keeps s) : s₀.Keeps (s.tileAtomic pts team hd off op b cmp).1 := h.tileLoad.tileStore

theorem noLeaf {g t va a r eng} (h : s₀.Keeps s) : s₀.Keeps (s.noLeaf g t va a r eng).state := by
  unfold State.noLeaf
  split
  · exact h.stopOr h.requestPage.parkPage
  · exact h.at_
  · exact h.at_

theorem accessPage {g t va a eng} (h : s₀.Keeps s) : s₀.Keeps (s.accessPage g t va a eng).state := by
  unfold State.accessPage
  split
  · exact h.askTlb.out
  · exact h.useWalk.at_.out
  · exact h.useWalk.noLeaf.out
  · split
    · exact h.at_.out
    · split
      · split
        · exact h.dirty.some ‹_›
        · exact h.forget.askTlb.out
      · exact h

theorem misaligned {g va a} (h : s₀.Keeps s) : s₀.Keeps (s.misaligned g va a).state := by
  unfold State.misaligned
  split
  · exact h.askTlb
  · exact h.useWalk.at_
  · exact h.useWalk.at_
  · exact h.at_

theorem checkAccess {g t addr align a} (h : s₀.Keeps s) : s₀.Keeps (s.checkAccess g t addr align a).state := by
  unfold State.checkAccess
  dsimp only
  split
  · exact h.at_.out
  · split
    · exact h.at_.out
    · split
      · exact h.misaligned.out
      · exact h.accessPage

theorem unitAccess {g t va align a} (h : s₀.Keeps s) : s₀.Keeps (s.unitAccess g t va align a).state := by
  unfold State.unitAccess
  split
  · exact h.at_.out
  · split
    · exact h.misaligned.out
    · exact h.accessPage

theorem raisePts {gid p} (h : s₀.Keeps s) : s₀.Keeps (s.raisePts gid p) := h.updGroup

theorem gather {core gid t pa e data} (h : s₀.Keeps s) : s₀.Keeps (s.gather core gid t pa e data) := by
  unfold State.gather
  dsimp only
  split
  · exact h.updCore
  · split
    · exact h.updCore
    · split
      · exact h
      · exact h.flushLine.updCore

theorem loadThread {st t th d base x sb size ext} (h : s₀.Keeps s) : s₀.Keeps (s.loadThread st t th d base x sb size ext).state := by
  unfold State.loadThread
  split
  · exact h
  · dsimp only
    split
    · exact h.checkAccess.accOut ‹_›
    · exact (h.checkAccess.accOk ‹_›).issueResult

theorem load {d base x sb size ext} (h : s₀.Keeps s) :
    s₀.Keeps (outcomeOr s₀ (s.load d base x sb size ext)) := h.perThread fun _ _ _ _ h₁ => h₁.loadThread

theorem storeThread {st t th d base x size} (h : s₀.Keeps s) : s₀.Keeps (s.storeThread st t th d base x size).state := by
  unfold State.storeThread
  split
  · exact h
  · split
    · exact h
    · split
      · exact h.checkAccess.accOut ‹_›
      · dsimp only
        split
        · exact (h.checkAccess.accOk ‹_›).gather
        · split
          · exact (h.checkAccess.accOk ‹_›).queueStore
          · exact h.checkAccess.accOk ‹_›

theorem store {d base x size} (h : s₀.Keeps s) :
    s₀.Keeps (outcomeOr s₀ (s.store d base x size)) := h.perThread fun _ _ _ _ h₁ => h₁.storeThread

theorem atomThread {st t th op ret data base} (h : s₀.Keeps s) : s₀.Keeps (s.atomThread st t th op ret data base).state := by
  unfold State.atomThread
  split
  · exact h
  · split
    · exact h
    · split
      · exact h.checkAccess.accOut ‹_›
      · split
        split
        · exact (h.checkAccess.accOk ‹_›).issueResult
        · split
          · exact (h.checkAccess.accOk ‹_›).queueStore
          · exact h.checkAccess.accOk ‹_›

theorem atom {op d data base sb} (h : s₀.Keeps s) :
    s₀.Keeps (outcomeOr s₀ (s.atom op d data base sb)) := h.perThread fun _ _ _ _ h₁ => h₁.atomThread

theorem atomNoret {op data base} (h : s₀.Keeps s) :
    s₀.Keeps (outcomeOr s₀ (s.atomNoret op data base)) := h.perThread fun _ _ _ _ h₁ => h₁.atomThread

theorem vmvPages {g t l} (h : s₀.Keeps s) : s₀.Keeps (s.vmvPages g t l).1 := by
  induction l generalizing s with
  | nil => exact h
  | cons va r ih =>
    unfold State.vmvPages
    split
    · exact h
    · split
      · exact h
      · split
        · exact (ih (h.accessPage.accOk ‹_›)).fst ‹_›
        · exact ih (h.accessPage.accOk ‹_›)

theorem vmvPages_inr {g t l} {x : SRes} (h : s₀.Keeps s) (hx : (s.vmvPages g t l).2 = .inr x) : s₀.Keeps x.state := by
  induction l generalizing s with
  | nil => exact nomatch hx
  | cons va r ih =>
    unfold State.vmvPages at hx
    split at hx
    · cases hx
      exact h.at_
    · split at hx
      · cases hx
        exact h.accessPage.accOut ‹_›
      · split at hx
        · exact nomatch hx
        · exact ih (h.accessPage.accOk ‹_›) hx

theorem vmvThread {st t th fmt d base x sb} (h : s₀.Keeps s) : s₀.Keeps (s.vmvThread st t th fmt d base x sb).state := by
  unfold State.vmvThread
  split
  · exact h
  · split
    dsimp only
    split
    · exact h.checkAccess.accOut ‹_›
    · split
      · next he => exact (h.checkAccess.accOk ‹_›).vmvPages_inr (congrArg Prod.snd he)
      · exact ((h.checkAccess.accOk ‹_›).vmvPages.fst ‹_›).issueResult

theorem loadMem {core pts pa n pol} (h : s₀.Keeps s) : s₀.Keeps (s.loadMem core pts pa n pol).1 := by
  unfold State.loadMem
  split
  · exact h.homeLoad
  · dsimp only
    split
    · exact Keeps.ite h.updCore h
    · dsimp only
      exact h.homeLoad.updCore

theorem perform {r} (h : s₀.Keeps s) : s₀.Keeps (s.perform r) := by
  unfold State.perform
  split
  · exact h
  · split
    · exact h
    · split
      · exact h.loadMem.raisePts.updPending
      · exact h.tileLoad.raisePts.updPending
      · exact h.tileAtomic.raisePts.updPending
      · exact h.homeAtomic.raisePts.updPending
      · exact Keeps.updPending (Keeps.foldl (p := Prod.fst) h fun _ _ h₁ => h₁.loadMem.raisePts)
      · exact h

theorem performStore {g e} (h : s₀.Keeps s) : s₀.Keeps (s.performStore g e).1 := by
  unfold State.performStore
  split
  · exact h.homeStore
  · exact h.homeAtomic
  · exact h.flushLine
  · exact h.tileStore
  · exact h

theorem performLoads {gid sel} (h : s₀.Keeps s) : s₀.Keeps (s.performLoads gid sel) := by
  unfold State.performLoads
  refine h.fold fun _ _ h₁ => ?_
  split
  · exact h₁.perform
  · exact h₁

theorem leaveQueue {gid} (h : s₀.Keeps s) : s₀.Keeps (s.leaveQueue gid) := by
  unfold State.leaveQueue
  split
  · exact h
  · split
    · exact h
    · exact Keeps.ite h h.performStore.updGroup.onDev.performLoads

theorem settleGroup {gid n} (h : s₀.Keeps s) : s₀.Keeps (s.settleGroup gid n) := by
  induction n generalizing s with
  | zero => exact h.performLoads
  | succ n ih => exact ih h.performLoads.leaveQueue

theorem execStoreTimestamp {gid} (h : s₀.Keeps s) : s₀.Keeps (outcomeOr s₀ (Machine.execStoreTimestamp gid s)) := by
  unfold Machine.execStoreTimestamp
  split
  · exact h
  · exact Keeps.ite h (Keeps.ite h h.leaveQueue.checkBars)

theorem holdOn {gid w} (h : s₀.Keeps s) : s₀.Keeps (s.holdOn gid w).state := h.updGroup

theorem execFence (h : s₀.Keeps s) : s₀.Keeps (outcomeOr s₀ (Machine.execFence s)) := by
  unfold Machine.execFence
  refine h.perGroup fun _ _ _ _ h₁ => ?_
  split
  · exact h₁
  · exact h₁.holdOn

theorem execXfence (h : s₀.Keeps s) : s₀.Keeps (outcomeOr s₀ (Machine.execXfence s)) := by
  unfold Machine.execXfence
  refine h.perGroup fun _ _ _ _ h₁ => ?_
  split
  · exact h₁.raisePts
  · exact h₁.holdOn

theorem enterLines {core gid t l} (h : s₀.Keeps s) : s₀.Keeps (s.enterLines core gid t l) := by
  induction l generalizing s with
  | nil => exact h
  | cons x r ih =>
    unfold State.enterLines
    split
    · exact ih h.updCore.pushSq
    · exact h

theorem execWcflush (h : s₀.Keeps s) : s₀.Keeps (outcomeOr s₀ (Machine.execWcflush s)) := by
  unfold Machine.execWcflush
  refine h.perGroup fun _ _ _ _ h₁ => ?_
  dsimp only
  split
  · exact h₁.enterLines
  · split
    · exact h₁.enterLines.holdOn
    · exact h₁.enterLines

theorem execWait {m} (h : s₀.Keeps s) : s₀.Keeps (outcomeOr s₀ (Machine.execWait m s)) := by
  unfold Machine.execWait
  refine h.perGroup fun _ _ _ _ h₁ => ?_
  split
  · exact h₁.updGroup
  · exact h₁.holdOn

theorem branch {st t th a} (h : s₀.Keeps s) : s₀.Keeps (s.branch st t th a).state := by
  unfold State.branch
  split
  · exact h.plain
  · exact h.updThread

theorem execBrx {a} (h : s₀.Keeps s) : s₀.Keeps (outcomeOr s₀ (Machine.execBrx a s)) := by
  unfold Machine.execBrx
  refine h.perThread fun _ _ _ _ h₁ => ?_
  split
  · exact h₁
  · exact h₁.branch

theorem pushCall {st t n th} (h : s₀.Keeps s) : s₀.Keeps (optionOr s₀ (s.pushCall st t n th)) := by
  unfold State.pushCall
  split
  · exact Keeps.rfl
  · split
    · exact h.updGroup
    · split
      · exact Keeps.rfl
      · exact h.updGroup

theorem execCall {off} (h : s₀.Keeps s) : s₀.Keeps (outcomeOr s₀ (Machine.execCall off s)) := by
  unfold Machine.execCall
  refine Keeps.onStream fun _ _ => ?_
  dsimp only
  refine Keeps.advance ?_
  refine h.runEach fun _ _ _ h₁ => ?_
  split
  · exact h₁.plain
  · split
    · exact h₁.plain
    · exact (h₁.pushCall.some ‹_›).updThread

theorem execCallx {off} (h : s₀.Keeps s) : s₀.Keeps (outcomeOr s₀ (Machine.execCallx off s)) := by
  unfold Machine.execCallx
  refine Keeps.onStream fun _ _ => ?_
  dsimp only
  refine Keeps.advance ?_
  refine h.runEach fun _ _ _ h₁ => ?_
  split
  · exact h₁
  · split
    · exact h₁.plain
    · refine h₁.reach fun _ _ _ h₂ => ?_
      split
      · exact h₂.plain
      · split
        · exact h₂.plain
        · split
          · exact h₂.plain
          · exact (h₂.pushCall.some ‹_›).goto.enterCopy

theorem execRet (h : s₀.Keeps s) : s₀.Keeps (outcomeOr s₀ (Machine.execRet s)) := by
  unfold Machine.execRet
  refine h.perThread fun _ _ _ _ h₁ => ?_
  split
  · exact h₁
  · split
    · exact h₁.plain
    · refine h₁.seekCopy fun _ _ h₂ => ?_
      split
      · exact h₂.plain
      · split
        · exact h₂.plain
        · split
          · exact h₂.plain
          · exact h₂.updGroup.updThread.enterCopy

end State.Keeps
end Sys2Proof.Machine
end

section
/-! What is kept (O57): the copy engine. -/

namespace Sys2Proof.Machine
namespace State.Keeps

variable {s₀ s t : State}

theorem checkTile {g t hd o n write} (h : s₀.Keeps s) : s₀.Keeps ((s.checkTile g t hd o n write).state s₀) := by
  unfold State.checkTile
  split
  · exact h.plain.noTile
  · dsimp only
    split
    · exact h.plain.noTile
    · split
      · exact h.plain.noTile
      · split
        · exact (h.stopOr h.park).noTile
        · exact Keeps.rfl

theorem ldtThread {st t th d base x sb ext} (h : s₀.Keeps s) : s₀.Keeps (s.ldtThread st t th d base x sb ext).state := by
  unfold State.ldtThread
  split
  · exact h
  · dsimp only
    split
    · exact h.checkTile.tileOut ‹_›
    · exact h.issueResult

theorem sttThread {st t th d base x n} (h : s₀.Keeps s) : s₀.Keeps (s.sttThread st t th d base x n).state := by
  unfold State.sttThread
  split
  · exact h
  · split
    · exact h
    · dsimp only
      split
      · exact h.checkTile.tileOut ‹_›
      · split
        · exact h.queueStore
        · exact h

theorem atomtThread {st t th op d data base sb} (h : s₀.Keeps s) : s₀.Keeps (s.atomtThread st t th op d data base sb).state := by
  unfold State.atomtThread
  split
  · exact h
  · split
    · exact h
    · dsimp only
      split
      · exact h.checkTile.tileOut ‹_›
      · exact h.issueResult

theorem execTalloc {hd a level} (h : s₀.Keeps s) : s₀.Keeps (outcomeOr s₀ (Machine.execTalloc hd a level s)) := by
  unfold Machine.execTalloc
  refine h.perGroup fun _ _ _ _ h₁ => ?_
  split
  · exact h₁
  · dsimp only
    split
    · exact h₁.allocHandle.some ‹_›
    · exact h₁.plain

theorem execTfree {hd} (h : s₀.Keeps s) : s₀.Keeps (outcomeOr s₀ (Machine.execTfree hd s)) := by
  unfold Machine.execTfree
  refine h.perGroup fun _ _ _ _ h₁ => ?_
  split
  · exact h₁.plain
  · split
    · exact h₁.holdOn
    · exact h₁.updTeam.freeLines

theorem execTpres {d hd} (h : s₀.Keeps s) : s₀.Keeps (outcomeOr s₀ (Machine.execTpres d hd s)) := by
  unfold Machine.execTpres
  dsimp only
  split
  · refine h.perGroup fun _ _ _ _ h₁ => ?_
    split
    · exact h₁
    · split
      · exact h₁.plain
      · exact h₁.updGroup
  · refine h.perThread fun _ _ _ _ h₁ => ?_
    split
    · exact h₁
    · split
      · exact h₁.plain
      · exact h₁.updGroup

theorem copyIssue {st g t op hd q sb b4} (h : s₀.Keeps s) : s₀.Keeps (s.copyIssue st g t op hd q sb b4).state := by
  unfold State.copyIssue
  split
  · exact h.plain
  · split
    · exact h
    · split
      · exact h
      · dsimp only
        exact Keeps.updCore (Keeps.ite h.addResult.fresh h.addResult.fresh.linesAbsent)

theorem copyUnit {op hd q n sb b4} (h : s₀.Keeps s) : s₀.Keeps (outcomeOr s₀ (s.copyUnit op hd q n sb b4)) := by
  unfold State.copyUnit
  dsimp only
  split
  · refine h.perGroup fun _ _ _ _ h₁ => ?_
    split
    · exact h₁
    · split
      · exact h₁
      · exact h₁.copyIssue
  · refine h.perThread fun _ _ _ _ h₁ => ?_
    split
    · exact h₁
    · split
      · exact h₁
      · exact h₁.copyIssue

theorem updCmd {core id f} (h : s₀.Keeps s) : s₀.Keeps (s.updCmd core id f) := h.updCore

theorem copyDone {core k ts} (h : s₀.Keeps s) : s₀.Keeps (s.copyDone core k ts) := h.updCore.resultReady.endEng

theorem copyZeros {k lines} (h : s₀.Keeps s) : s₀.Keeps (s.copyZeros k lines).1 := by
  unfold State.copyZeros
  refine Keeps.foldl (p := Prod.fst) h fun _ _ h₁ => ?_
  split
  · exact h₁
  · exact h₁.tileStore.linePresent

theorem copyRefuse {core k code va} (h : s₀.Keeps s) : s₀.Keeps (s.copyRefuse core k code va) := h.copyZeros.updPending.copyDone

theorem physPieces {core ctx eng a l} (h : s₀.Keeps s) : s₀.Keeps (s.physPieces core ctx eng a l).1 := by
  induction l generalizing s with
  | nil => exact h
  | cons x r ih =>
    obtain ⟨off, n, va⟩ := x
    cases va with
    | none => exact ih h
    | some va =>
      unfold State.physPieces
      dsimp only
      split
      · exact ih (h.engRange.fst ‹_›)
      · exact h.engRange.fst ‹_›

theorem askPiece {core k line off n wa peer data} (h : s₀.Keeps s) : s₀.Keeps (s.askPiece core k line off n wa peer data) := by
  unfold State.askPiece
  dsimp only
  split
  · exact h.updCmd
  · split
    · exact h.updCmd
    · split
      · exact h.fresh.send.updCmd
      · exact h.sendWrite.updCmd

theorem cmdRead {core g k place va n} (h : s₀.Keeps s) : s₀.Keeps (s.cmdRead core g k place va n).1 := by
  unfold State.cmdRead
  split
  · dsimp only
    split
    · dsimp only
      refine (h.physPieces.fst ‹_›).fold fun _ _ h₁ => ?_
      split
      · exact h₁.askPiece
      · exact h₁
    · split
      · exact h.physPieces.fst ‹_›
      · split
        · exact h.physPieces.fst ‹_›
        · dsimp only
          refine Keeps.foldl (p := Prod.fst) (h.physPieces.fst ‹_›) fun _ _ h₁ => ?_
          split
          · split
            · exact h₁
            · exact h₁.homeLoad
          · exact h₁
  · exact h.physPieces.fst ‹_›

theorem walkAhead {core ctx k r x e lines} (h : s₀.Keeps s) :
    s₀.Keeps (s.walkAhead core ctx k r x e lines) := h.fold fun _ _ h₁ => h₁.fold fun _ _ h₂ => h₂.physPieces

theorem execCopyCommandStart {core} (h : s₀.Keeps s) : s₀.Keeps (outcomeOr s₀ (Machine.execCopyCommandStart core s)) := by
  unfold Machine.execCopyCommandStart
  split
  · exact h
  · split
    · refine Keeps.ite h (Keeps.ite h.updCmd (Keeps.ite h.copyRefuse ?_))
      split
      · exact h.cmdRead.fst ‹_›
      · exact (h.cmdRead.fst ‹_›).copyRefuse
      · have hr := h.cmdRead.fst ‹_›
        split
        · exact hr.copyRefuse
        · extract_lets e
          split
          refine Keeps.ite hr.copyRefuse ?_
          extract_lets lines go
          have hgo : ∀ s idx, s₀.Keeps s → s₀.Keeps (go s idx) := fun _ _ h₁ =>
            Keeps.walkAhead (Keeps.updCmd (h₁.fold fun _ _ h₂ => h₂.linePresent))
          clear_value go
          refine Keeps.ite (Keeps.ite hr.copyRefuse ?_) (hgo _ _ hr)
          split
          · exact hr.cmdRead.fst ‹_›
          · exact (hr.cmdRead.fst ‹_›).copyRefuse
          · exact hgo _ _ (hr.cmdRead.fst ‹_›)
    · exact h

theorem loadLines {core pts pa n pol} (h : s₀.Keeps s) :
    s₀.Keeps (s.loadLines core pts pa n pol).1 := Keeps.foldl (p := Prod.fst) h fun _ _ h₁ => h₁.loadMem

theorem copyLine {core line} (h : s₀.Keeps s) : s₀.Keeps (s.copyLine core line) := by
  unfold State.copyLine
  split
  · exact h
  · split
    · refine Keeps.ite h ?_
      extract_lets finish zero
      have hfinish : ∀ s ts, s₀.Keeps s → s₀.Keeps (finish s ts) := by
        intro s ts hs
        dsimp only [finish]
        split
        · exact Keeps.ite hs.updCmd.updPending.copyDone hs.updCmd.updPending
        · exact hs.updCmd.updPending
      have hzero : ∀ s c va, s₀.Keeps s → s₀.Keeps (zero s c va) := by
        intro s c va hs
        dsimp only [zero]
        split
        · exact hfinish _ _ hs.updPending
        · exact hfinish _ _ hs.updPending.copyZeros
      clear_value finish zero
      split
      · split
        exact hfinish _ _ (h.tileStore.fst ‹_›).linePresent
      · exact h
      · generalize (if _ = CopyOp.cpst then Access.copyWrite else Access.copyRead) = a
        refine Keeps.ite h ?_
        extract_lets ps
        split
        · exact h.physPieces.fst ‹_›
        · exact hzero _ _ _ (h.physPieces.fst ‹_›)
        · have hp := h.physPieces.fst ‹_›
          refine Keeps.ite ?_ (Keeps.ite hp (Keeps.ite (hzero _ _ _ hp) (Keeps.ite ?_ ?_)))
          · refine Keeps.fold hp fun s x hs => ?_
            split
            split
            · exact Keeps.ite hs.tileLoad.askPiece hs.askPiece
            · exact hs
          · refine hfinish _ _ (Keeps.storeLines (Keeps.foldl (p := Prod.fst) hp fun s x hs => ?_))
            split
            split
            · exact Keeps.either Prod.fst hs hs.tileLoad
            · exact hs
          · refine hfinish _ _ (Keeps.linePresent (Keeps.tileStoreLines (Keeps.foldl (p := Prod.fst) hp fun s x hs => ?_)))
            dsimp only
            split
            · exact hs
            · exact Keeps.either Prod.fst hs hs.loadLines
    · exact h

theorem execCopyLineWritten {core line} (h : s₀.Keeps s) : s₀.Keeps (outcomeOr s₀ (Machine.execCopyLineWritten core line s)) := by
  unfold Machine.execCopyLineWritten
  split
  · exact h
  · exact Keeps.ite h h.copyLine

end State.Keeps
end Sys2Proof.Machine
end

section
/-! What is kept (O57): the matrix engine. -/

namespace Sys2Proof.Machine
namespace State.Keeps

variable {s₀ s t : State}

theorem updBank {team n f} (h : s₀.Keeps s) : s₀.Keeps (s.updBank team n f) := h.updTeam

theorem execAccalloc {acc n} (h : s₀.Keeps s) : s₀.Keeps (outcomeOr s₀ (Machine.execAccalloc acc n s)) := by
  unfold Machine.execAccalloc
  refine h.perGroup fun _ _ _ _ h₁ => ?_
  dsimp only
  split
  · exact h₁.plain
  · split
    · exact h₁.plain
    · exact h₁.updCore.updGroup

theorem admitReqs {core} (h : s₀.Keeps s) :
    s₀.Keeps (s.admitReqs core) := h.fold fun _ _ h₁ => Keeps.ite h₁.updCore (Keeps.ite h₁.updCore h₁)

theorem execAccGrant {core} (h : s₀.Keeps s) : s₀.Keeps (outcomeOr s₀ (Machine.execAccGrant core s)) := by
  unfold Machine.execAccGrant
  dsimp only
  split
  · exact h.admitReqs
  · exact Keeps.ite h.admitReqs h.admitReqs.updTeam.updCore.updGroup.admitReqs

theorem execAccwaitTimeout {core} (h : s₀.Keeps s) : s₀.Keeps (outcomeOr s₀ (Machine.execAccwaitTimeout core s)) := by
  unfold Machine.execAccwaitTimeout
  dsimp only
  split
  · exact h
  · exact Keeps.ite h h.updCore.updGroup.takeFault

theorem execAccfree {acc n} (h : s₀.Keeps s) : s₀.Keeps (outcomeOr s₀ (Machine.execAccfree acc n s)) := by
  unfold Machine.execAccfree
  refine h.perGroup fun _ _ _ _ h₁ => ?_
  dsimp only
  split
  · exact h₁.plain
  · split
    · exact h₁.plain
    · split
      · exact h₁.holdOn
      · exact h₁.updTeam

theorem setBuf {core i b} (h : s₀.Keeps s) : s₀.Keeps (s.setBuf core i b) := h.updCore

theorem restoreLatch {core} (h : s₀.Keeps s) : s₀.Keeps (s.restoreLatch core) := by
  unfold State.restoreLatch
  extract_lets back s₁ s₂
  have hs₁ : s₀.Keeps s₁ := by
    dsimp only [s₁]
    split
    · exact h.updTeam
    · exact h
  have hs₂ : s₀.Keeps s₂ := by
    dsimp only [s₂]
    split
    · exact hs₁.setBuf.updTeam
    · exact hs₁
  clear_value s₂
  split
  · refine Keeps.fold hs₂ fun _ _ h₁ => ?_
    split
    split
    · exact Keeps.ite h₁.setBuf.updTeam h₁
    · exact h₁
  · exact hs₂

theorem releaseHeld {core} (h : s₀.Keeps s) : s₀.Keeps (s.releaseHeld core) := by
  unfold State.releaseHeld
  split
  · exact h
  · exact h.setBuf

theorem passOwner {core} (h : s₀.Keeps s) : s₀.Keeps (s.passOwner core) := by
  unfold State.passOwner
  extract_lets s₁ s₂
  have hs₁ : s₀.Keeps s₁ := by
    dsimp only [s₁]
    split
    · exact h.updTeam
    · exact h
  have hs₂ : s₀.Keeps s₂ := hs₁.releaseHeld
  clear_value s₂
  split
  · exact hs₂.updCore
  · exact hs₂.updCore.updGroup.restoreLatch

theorem joinOwner {core gid} (h : s₀.Keeps s) : s₀.Keeps (s.joinOwner core gid) := Keeps.ite h.updCore.updGroup.passOwner h.updCore.updGroup

theorem execMacq (h : s₀.Keeps s) : s₀.Keeps (outcomeOr s₀ (Machine.execMacq s)) := by
  unfold Machine.execMacq
  refine h.perGroup fun _ _ _ _ h₁ => ?_
  dsimp only
  split
  · exact h₁
  · split
    · exact h₁.updCore
    · exact h₁.joinOwner

theorem execMrel (h : s₀.Keeps s) : s₀.Keeps (outcomeOr s₀ (Machine.execMrel s)) := by
  unfold Machine.execMrel
  refine h.perGroup fun _ _ _ _ h₁ => ?_
  split
  · exact h₁.plain
  · split
    · exact h₁.plain
    · exact h₁.passOwner

theorem pushEq {core e} (h : s₀.Keeps s) : s₀.Keeps (s.pushEq core e) := h.updCore

theorem updEq {core id f} (h : s₀.Keeps s) : s₀.Keeps (s.updEq core id f) := h.updCore

theorem dropEq {core id} (h : s₀.Keeps s) : s₀.Keeps (s.dropEq core id) := h.updCore.endEng

theorem readRecords {core ctx eng pts va i n l} (h : s₀.Keeps s) : s₀.Keeps (s.readRecords core ctx eng pts va i n l).1 := by
  induction n generalizing s i l with
  | zero => exact h
  | succ n ih =>
    unfold State.readRecords
    dsimp only
    split
    · exact h.engReadAt.fst ‹_›
    · exact h.engReadAt.fst ‹_›
    · exact ih (h.engReadAt.fst ‹_›)

theorem readOutliers {core ctx eng pts f} (h : s₀.Keeps s) : s₀.Keeps (s.readOutliers core ctx eng pts f).1 := by
  unfold State.readOutliers
  split
  · exact h.engReadAt.fst ‹_›
  · exact h.engReadAt.fst ‹_›
  · exact (h.engReadAt.fst ‹_›).readRecords

theorem sideList {core ctx eng pts f q k orow ocol cols} (h : s₀.Keeps s) :
    s₀.Keeps (s.sideList core ctx eng pts f q k orow ocol cols).1 := by
  unfold State.sideList
  split
  · exact h
  · split <;> exact h.readOutliers.fst ‹_›

theorem meetFault {res f} (h : s₀.Keeps s) : s₀.Keeps (s.meetFault res f) := by
  unfold State.meetFault
  split
  · exact h.updPending
  · exact h

theorem readSide {core e g f q k orow ocol cols} (h : s₀.Keeps s) : s₀.Keeps (s.readSide core e g f q k orow ocol cols).1 := by
  unfold State.readSide
  split
  · exact h.sideList.fst ‹_›
  · exact (h.sideList.fst ‹_›).meetFault

theorem bind {st g t cv acc src fs sb} (h : s₀.Keeps s) : s₀.Keeps (s.bind st g t cv acc src fs sb).state := by
  unfold State.bind
  extract_lets p k afs mg mask org
  split
  · exact h.plain
  · refine Keeps.either SRes.state h.plain (Keeps.either SRes.state h.plain (Keeps.either SRes.state h.plain
      (Keeps.either SRes.state h.plain (Keeps.either SRes.state h.plain (Keeps.either SRes.state h ?_)))))
    split
    refine Keeps.updTeam ?_
    split
    · exact (h.addResult.snd ‹_›).updBank.consUp
    · exact (h.addResult.snd ‹_›).updBank

theorem queueOp {g cv b} (h : s₀.Keeps s) : s₀.Keeps (s.queueOp g cv b) := by
  unfold State.queueOp
  split
  extract_lets fa fb q e
  split
  extract_lets s₁ s₂
  have hs₁ : s₀.Keeps s₁ := ((h.fresh.snd ‹_›).readSide.fst ‹_›).updTeam
  have hs₂ : s₀.Keeps s₂ := by
    dsimp only [s₂]
    split
    · exact Keeps.ite hs₁.setBuf hs₁
    · exact hs₁
  exact Keeps.ite hs₂.pushEq hs₂.updCore

theorem signThread {st t th cv src reuse} (h : s₀.Keeps s) : s₀.Keeps (s.signThread st t th cv src reuse).state := by
  unfold State.signThread
  split
  · exact h
  · refine Keeps.either SRes.state h.plain ?_
    split
    · extract_lets source kind c done last go
      refine Keeps.either SRes.state h.plain ?_
      have hgo : ∀ s b, s₀.Keeps s → s₀.Keeps (go s b).state := fun _ _ h₁ => Keeps.either SRes.state h₁.queueOp h₁.updTeam
      clear_value go
      split
      · split
        · exact Keeps.either SRes.state h h.plain
        · exact Keeps.either SRes.state h (hgo _ _ h)
        · exact Keeps.either SRes.state h (hgo _ _ h)
      · extract_lets ws put
        split
        · exact Keeps.either SRes.state h (hgo _ _ h)
        · split
          · exact h
          · exact Keeps.either SRes.state h (hgo _ _ h.setBuf)
    · exact h.plain

theorem memberEnded {gid} (h : s₀.Keeps s) : s₀.Keeps (s.memberEnded gid) := by
  unfold State.memberEnded
  split
  · exact h
  · split
    · exact h
    · refine h.fold fun _ _ h₁ => ?_
      split
      split
      · exact Keeps.ite h₁.queueOp h₁
      · exact Keeps.ite h₁.updTeam h₁
      · exact h₁

theorem engineUnit {f} (h : s₀.Keeps s) (hf : ∀ a s c d e, s₀.Keeps s → s₀.Keeps (f a s c d e).state) :
    s₀.Keeps (outcomeOr s₀ (s.engineUnit f)) := by
  unfold State.engineUnit
  refine h.perGroup fun _ _ _ _ h₁ => ?_
  split
  · exact h₁.plain
  · split
    · exact h₁.plain
    · exact hf _ _ _ _ _ h₁

theorem execMzero {acc} (h : s₀.Keeps s) : s₀.Keeps (outcomeOr s₀ (Machine.execMzero acc s)) := by
  unfold Machine.execMzero
  refine h.engineUnit fun _ _ _ _ _ h₁ => ?_
  split
  · exact h₁.plain
  · split
    · exact h₁
    · exact h₁.fresh.pushEq

theorem readTensor {core ctx eng grid va pts rx} (h : s₀.Keeps s) : s₀.Keeps (s.readTensor core ctx eng grid va pts rx).1 := by
  unfold State.readTensor
  dsimp only
  split
  · exact h
  · split
    · split
      · split
        · exact h.engAccess.fst ‹_›
        · split
          · exact h.engAccess.fst ‹_›
          · split <;> exact h.engAccess.fst ‹_›
      · exact (h.engAccess.fst ‹_›).homeLoad
    · exact h.engAccess.fst ‹_›

theorem askReads {ctx line far} (h : s₀.Keeps s) : s₀.Keeps (s.askReads ctx line far).1 := by
  unfold State.askReads
  refine Keeps.foldl (p := Prod.fst) h fun _ _ h₁ => ?_
  split
  split
  · exact h₁.fresh.send
  · exact h₁

theorem updShares {op f} (h : s₀.Keeps s) : s₀.Keeps (s.updShares op f) := h.onDev

theorem meetShares {op f} (h : s₀.Keeps s) : s₀.Keeps (s.meetShares op f) := h.fold fun _ _ h₁ => h₁.meetFault

theorem askFor {core ctx e far} (h : s₀.Keeps s) : s₀.Keeps (s.askFor core ctx e far) := h.askReads.updEq

theorem readOp {core g e} (h : s₀.Keeps s) : s₀.Keeps (s.readOp core g e) := by
  unfold State.readOp
  split
  · split
    dsimp only
    split
    · exact (h.readTensor.fst ‹_›).askFor
    · split
      · exact ((h.readTensor.fst ‹_›).readTensor.fst ‹_›).askFor
      · split
        · split
          · exact ((h.readTensor.fst ‹_›).readTensor.fst ‹_›).sideList.fst ‹_›
          · exact (((h.readTensor.fst ‹_›).readTensor.fst ‹_›).sideList.fst ‹_›).meetShares.updShares
        · exact ((h.readTensor.fst ‹_›).readTensor.fst ‹_›).updShares
  · exact h

theorem beginMmac {cl} (h : s₀.Keeps s) : s₀.Keeps (s.beginMmac cl) := by
  unfold State.beginMmac
  split
  · exact h
  · split
    · dsimp only
      split
      · split
        · exact Keeps.readOp (h.updCluster.fresh.fold fun _ _ h₁ => h₁.updCore)
        · exact h.updCluster.fresh.fold fun _ _ h₁ => h₁.updCore
      · exact h.updCluster.fresh.fold fun _ _ h₁ => h₁.updCore
    · exact h

theorem execMmac {acc gA sb} (h : s₀.Keeps s) : s₀.Keeps (outcomeOr s₀ (Machine.execMmac acc gA sb s)) := by
  unfold Machine.execMmac
  refine h.engineUnit fun _ _ _ _ _ h₁ => ?_
  extract_lets p gB k a b read wait
  split
  · exact h₁.plain
  · have hread : ∀ s va, s₀.Keeps s → s₀.Keeps (read s va).1 := fun _ _ h₂ => h₂.readTensor
    have hwait : ∀ s va far, s₀.Keeps s → s₀.Keeps (wait s va far).state := fun _ _ _ h₂ =>
      Keeps.either SRes.state (h₂.stopOr h₂.parkPage) h₂.askReads.updCore
    clear_value read wait
    split
    · exact hwait _ _ _ ((hread _ _ h₁).fst ‹_›)
    · have ha := (hread _ _ h₁).fst ‹_›
      split
      · exact hwait _ _ _ ((hread _ _ ha).fst ‹_›)
      · have hb := ((hread _ _ ha).fst ‹_›)
        extract_lets s₁ fits
        have hs₁ : s₀.Keeps s₁ := hb.updCore
        clear_value s₁ fits
        refine Keeps.either SRes.state hs₁.plain (Keeps.either SRes.state hs₁ ?_)
        refine Keeps.either SRes.state hs₁.updCluster.beginMmac.plain ?_
        split
        split
        have hf := (hs₁.addResult.snd ‹_›).fresh.snd ‹_›
        refine Keeps.beginMmac (Keeps.updCluster (Keeps.pushEq ?_))
        split
        · exact hf.fold fun _ _ h₂ => h₂.updBank
        · exact hf

theorem drainClears {team f a} (h : s₀.Keeps s) : s₀.Keeps (s.drainClears team f a).1 := by
  unfold State.drainClears
  split
  · split
    · split
      · exact h.linesAbsent
      · exact h
    · exact h
  · exact h

theorem drainUnit {acc dst fs dst2 sb} (h : s₀.Keeps s) : s₀.Keeps (outcomeOr s₀ (s.drainUnit acc dst fs dst2 sb)) := by
  unfold State.drainUnit
  refine h.engineUnit fun _ _ _ _ _ h₁ => ?_
  dsimp only
  split
  · exact h₁.plain
  · split
    · exact h₁
    · refine Keeps.pushEq ?_
      split
      · exact h₁.addResult.fresh.drainClears
      · exact h₁.addResult.fresh.drainClears.drainClears

theorem accUnit {acc entry need sb} (h : s₀.Keeps s) (hentry : ∀ a s c d e, s₀.Keeps s → s₀.Keeps (entry a s c d e).1) :
    s₀.Keeps (outcomeOr s₀ (s.accUnit acc entry need sb)) := by
  unfold State.accUnit
  refine Keeps.onStream fun _ _ => ?_
  dsimp only
  split
  · exact h.advance
  · split
    · exact h.takeFault.advance
    · split
      · exact h.takeFault.advance
      · split
        · exact h.advance
        · split
          · exact (hentry _ _ _ _ _ h).fresh.pushEq.advance
          · exact Keeps.ite h.advance ((hentry _ _ _ _ _ h).fresh.pushEq.advance)

theorem execAccld {v acc hd c sb} (h : s₀.Keeps s) : s₀.Keeps (outcomeOr s₀ (Machine.execAccld v acc hd c sb s)) := by
  unfold Machine.execAccld
  refine h.accUnit fun _ _ _ _ _ h₁ => ?_
  refine Keeps.foldl (p := Prod.fst) h₁ fun _ _ h₂ => ?_
  split
  exact h₂.addResult.snd ‹_›

theorem fetchSegs {core ctx eng pts segs rx} (h : s₀.Keeps s) : s₀.Keeps (s.fetchSegs core ctx eng pts segs rx).1 := by
  unfold State.fetchSegs
  refine Keeps.foldl (p := Prod.fst) h fun _ _ h₁ => ?_
  refine Keeps.foldl (p := Prod.fst) h₁ fun _ _ h₂ => ?_
  split
  dsimp only
  split
  · exact h₂.engAccess.fst ‹_›
  · exact h₂.engAccess.fst ‹_›
  · split
    · split
      · split <;> exact h₂.engAccess.fst ‹_›
      · exact h₂.engAccess.fst ‹_›
    · exact (h₂.engAccess.fst ‹_›).homeLoad

theorem stepZone {z} (h : s₀.Keeps s) : s₀.Keeps (s.stepZone z) := Keeps.fold (h.fold fun _ _ h₁ => h₁.updCore) fun _ _ h₁ => h₁.updCore

theorem levelStep (h : s₀.Keeps s) : s₀.Keeps s.levelStep := Keeps.ite (Keeps.onDev (h.fold fun _ _ h₁ => h₁.stepZone)) h

theorem engineWork (h : s₀.Keeps s) : s₀.Keeps s.engineWork := by
  unfold State.engineWork
  refine h.fold fun _ _ h₁ => ?_
  dsimp only
  split
  · exact h₁
  · split
    · exact Keeps.ite h₁.updEq h₁
    · exact h₁

theorem latchDone {core b} (h : s₀.Keeps s) : s₀.Keeps (s.latchDone core b) := by
  unfold State.latchDone
  dsimp only
  refine Keeps.restoreLatch ?_
  split
  · split
    · exact h.releaseHeld.setBuf
    · split
      · exact h.setBuf
      · split
        · exact Keeps.ite h.setBuf h
        · exact h
  · split
    · split
      · exact h.releaseHeld.updTeam
      · exact h
    · exact h
  · exact h

theorem opDone {core e b} (h : s₀.Keeps s) : s₀.Keeps (s.opDone core e b) := by
  unfold State.opDone
  dsimp only
  refine Keeps.returnToken ?_
  split
  · exact h.dropEq.latchDone.consDown
  · exact h.dropEq.latchDone

theorem fetchB {core g e b} (h : s₀.Keeps s) : s₀.Keeps (s.fetchB core g e b).1 := by
  unfold State.fetchB
  dsimp only
  split
  · split <;> exact h
  · split
    · exact (h.readTensor.fst ‹_›).askReads
    · exact h.readTensor.fst ‹_›
    · exact h.readTensor.fst ‹_›
    · split
      · exact h.readTensor.fst ‹_›
      · split
        · exact (h.readTensor.fst ‹_›).fetchSegs
        · split
          · exact (h.readTensor.fst ‹_›).fetchSegs.askReads
          · split <;> exact (h.readTensor.fst ‹_›).fetchSegs

theorem fetchB_wait {core g e b} (h : s₀.Keeps s) : s₀.Keeps ((s.fetchB core g e b).2.state s₀) := by
  unfold State.fetchB
  dsimp only
  split
  · split <;> exact Keeps.rfl
  · split
    · exact (h.readTensor.fst ‹_›).askReads.updEq
    · exact Keeps.rfl
    · exact Keeps.rfl
    · split
      · exact Keeps.rfl
      · have hr := h.readTensor.fst ‹_›
        split
        · exact hr.fetchSegs
        · split
          · exact hr.fetchSegs.askReads.updEq
          · split
            · exact hr.fetchSegs
            · exact Keeps.rfl

theorem performOp {core g e b} (h : s₀.Keeps s) : s₀.Keeps (s.performOp core g e b) := by
  unfold State.performOp
  refine Keeps.ite ?_ (Keeps.ite h ?_)
  · exact h.readSide.updEq
  · split
    · next hq => exact Keeps.opWait (h.fetchB_wait) (congrArg Prod.snd hq)
    · exact (h.fetchB.fst ‹_›).meetFault.updBank.opDone

theorem fetchOp {core g e o x y k} (h : s₀.Keeps s) : s₀.Keeps (s.fetchOp core g e o x y k) := by
  unfold State.fetchOp
  split
  split
  have hf := h.fetchSegs.fst ‹_›
  exact Keeps.ite hf (Keeps.ite hf.askFor (Keeps.ite hf hf.meetShares.updShares))

theorem shareBanks {g e data x y acc k i j} (h : s₀.Keeps s) :
    s₀.Keeps (s.shareBanks g e data x y acc k i j) := h.fold fun _ _ h₁ => h₁.updBank

theorem performShare {core g e acc k i j} (h : s₀.Keeps s) : s₀.Keeps (s.performShare core g e acc k i j) := by
  unfold State.performShare
  dsimp only
  split
  · exact h
  · split
    · exact h.readOp
    · split
      · exact h
      · split
        · exact h
        · exact h.meetFault.dropEq.returnToken
        · split
          · exact Keeps.ite h.fetchOp h
          · exact Keeps.returnToken (Keeps.dropEq (Keeps.shareBanks (Keeps.ite h.fetchOp h)))

theorem performAccld {core e acc ts reg hd c} (h : s₀.Keeps s) :
    s₀.Keeps (s.performAccld core e acc ts reg hd c) := Keeps.dropEq (h.fold fun _ _ h₁ => h₁.updGroup.updPending)

theorem performAccst {core e acc hd c data} (h : s₀.Keeps s) : s₀.Keeps (s.performAccst core e acc hd c data) := h.updBank.dropEq

theorem completeEntry {core} (h : s₀.Keeps s) : s₀.Keeps (s.completeEntry core) := by
  unfold State.completeEntry
  split
  · exact h
  · split
    · exact h.dropEq
    · split
      · exact h.performOp
      · exact h.performShare
      · exact h.updBank.dropEq
      · exact h.performAccld
      · exact h.performAccst
      · exact h

theorem engineClk (h : s₀.Keeps s) : s₀.Keeps s.engineClk := h.levelStep.engineWork

theorem scaleOf {core ctx eng pts f row col} (h : s₀.Keeps s) : s₀.Keeps (s.scaleOf core ctx eng pts f row col).1 := by
  unfold State.scaleOf
  split
  · exact h
  · exact h.engReadAt

theorem drainElem {a : DrainAcc} {core g e f d x row col r c} (h : s₀.Keeps a.s) :
    s₀.Keeps (Machine.drainElem core g e f d a x row col r c).s := by
  unfold Machine.drainElem
  extract_lets n bad place
  have hbad : ∀ s k va, s₀.Keeps s → s₀.Keeps (bad s k va).s := fun _ _ _ h₁ => h₁.updPending
  have hplace : s₀.Keeps place.1 := by
    dsimp only [place]
    split
    · split
      · exact h.engAccess.fst ‹_›
      · exact h.engAccess.fst ‹_›
    · exact h
  clear_value bad place
  split
  · exact hplace
  · exact hbad _ _ _ hplace
  · split
    · exact hplace.scaleOf.fst ‹_›
    · exact hbad _ _ _ (hplace.scaleOf.fst ‹_›)
    · extract_lets y o put
      have hput : ∀ s b k t, s₀.Keeps s → s₀.Keeps (put s b k t).s := fun _ _ _ _ h₁ => h₁
      have hs := hplace.scaleOf.fst ‹_›
      clear_value put
      split
      · exact hput _ _ _ _ hs
      · split
        · exact hput _ _ _ _ (hs.appendOutlier.fst ‹_›)
        · exact Keeps.either DrainAcc.s (hput _ _ _ _ (hs.appendOutlier.fst ‹_›)) (hs.appendOutlier.fst ‹_›).updPending
        · exact hbad _ _ _ (hs.appendOutlier.fst ‹_›)
        · exact hs.appendOutlier.fst ‹_›

theorem drainTarget {a : DrainAcc} {core g e bank f d tr} (h : s₀.Keeps a.s) : s₀.Keeps (Machine.drainTarget core g e bank f d tr a).s := by
  unfold Machine.drainTarget
  split
  extract_lets a₁
  have ha : s₀.Keeps a₁.s := Keeps.foldl (p := DrainAcc.s) h fun _ _ h₁ => h₁.drainElem
  clear_value a₁
  split
  next hq =>
  have hs := Keeps.ofFst hq (by
    split
    · exact ha.storeLines
    · exact ha.tileStoreLines)
  extract_lets a₂
  split
  · exact hs.orSlotFlags.fst ‹_›
  · exact (hs.orSlotFlags.fst ‹_›).updPending
  · exact hs.orSlotFlags.fst ‹_›

theorem execDrainComplete {core entry} (h : s₀.Keeps s) : s₀.Keeps (outcomeOr s₀ (Machine.execDrainComplete core entry s)) := by
  unfold Machine.execDrainComplete
  dsimp -zeta only
  split
  · exact h
  · split
    · refine Keeps.ite h ?_
      split
      · exact h
      · extract_lets a₁ a₂ arrive s₁ s₂
        have ha₁ : s₀.Keeps a₁.s := h.drainTarget
        have ha₂ : s₀.Keeps a₂.s := by
          dsimp only [a₂]
          split
          · exact ha₁.drainTarget
          · exact ha₁
        refine Keeps.ite (h.fold fun _ _ h₁ => h₁.requestPage) ?_
        have harrive : ∀ s d n, s₀.Keeps s → s₀.Keeps (arrive s d n) := by
          intro s d n hs
          dsimp only [arrive]
          split
          · split
            · exact hs.fold fun _ _ h₁ => h₁.linePresent
            · exact hs
          · exact hs
        have hs₁ : s₀.Keeps s₁ := harrive _ _ _ ha₂
        have hs₂ : s₀.Keeps s₂ := by
          dsimp only [s₂]
          split
          · exact harrive _ _ _ hs₁
          · exact hs₁
        exact hs₂.dropEq.returnToken
    · exact h

theorem execMfs {d num} (h : s₀.Keeps s) : s₀.Keeps (outcomeOr s₀ (Machine.execMfs d num s)) := by
  unfold Machine.execMfs
  dsimp only
  split
  · exact h.regsUniform
  · exact h.regsUnit

theorem execClk {d} (h : s₀.Keeps s) : s₀.Keeps (outcomeOr s₀ (Machine.execClk d s)) := by
  unfold Machine.execClk
  split
  · exact h.regsUniform
  · exact h.regsUnit

end State.Keeps
end Sys2Proof.Machine
end

section
/-! What is kept (O57): launch, placement and the end of teams. -/

namespace Sys2Proof.Machine
namespace State.Keeps

variable {s₀ s t : State}

theorem writeTeams {ctx} (h : s₀.Keeps s) : s₀.Keeps (s.writeTeams ctx) := h.writeCount

theorem readDecls {ctx eng r} (h : s₀.Keeps s) : s₀.Keeps (s.readDecls ctx eng r).1 := h.engRead

theorem allocDecls {gr team first} (h : s₀.Keeps s) : s₀.Keeps (s.allocDecls gr team first) := by
  unfold State.allocDecls
  refine h.fold fun _ _ h₁ => ?_
  split
  · exact h₁.allocHandle.some ‹_›
  · exact h₁.updThread

theorem placeTeam {gr cluster ri rj core seats} (h : s₀.Keeps s) :
    s₀.Keeps (s.placeTeam gr cluster ri rj core seats) := h.fresh.onDev.allocDecls

theorem placeCluster {gid sp} (h : s₀.Keeps s) : s₀.Keeps (s.placeCluster gid sp) := by
  unfold State.placeCluster
  split
  · exact h
  · exact h.fresh.onDev.updGrid.fold fun _ _ h₁ => h₁.placeTeam

theorem execTeamPlace {grid} (h : s₀.Keeps s) : s₀.Keeps (outcomeOr s₀ (Machine.execTeamPlace grid s)) := by
  unfold Machine.execTeamPlace
  split
  · exact h
  · split
    · exact h
    · exact Keeps.writeTeams (h.fold fun _ _ h₁ => h₁.placeCluster)

theorem execArgumentWindowLoad {team} (h : s₀.Keeps s) : s₀.Keeps (outcomeOr s₀ (Machine.execArgumentWindowLoad team s)) := by
  unfold Machine.execArgumentWindowLoad
  split
  · exact h
  · split
    · exact h
    · split
      · exact h
      · dsimp only
        split
        · refine Keeps.foldl (p := Prod.fst) h fun _ _ h₁ => ?_
          split
          · exact Keeps.foldl (p := Prod.fst) (h₁.engRange.fst ‹_›) fun _ _ h₂ => h₂.homeLoad
          · exact h₁.engRange.fst ‹_›
          · exact h₁.engRange.fst ‹_›
        · refine Keeps.updTeam ?_
          refine Keeps.endEng ?_
          refine Keeps.foldl (p := Prod.fst) h fun _ _ h₁ => ?_
          split
          · exact Keeps.foldl (p := Prod.fst) (h₁.engRange.fst ‹_›) fun _ _ h₂ => h₂.homeLoad
          · exact h₁.engRange.fst ‹_›
          · exact h₁.engRange.fst ‹_›

theorem finishCmds (h : s₀.Keeps s) : s₀.Keeps s.finishCmds := by
  unfold State.finishCmds
  dsimp only
  split
  · split
    · exact Keeps.ite (Keeps.onDev (Keeps.ite h.onDev h)) (Keeps.ite h.onDev h)
    · exact Keeps.ite h.onDev h
  · split
    · exact Keeps.ite h.onDev h
    · exact h

theorem arrived {id} (h : s₀.Keeps s) : s₀.Keeps (s.arrived id) := h.onDev

theorem flushTeam {t} (h : s₀.Keeps s) : s₀.Keeps (s.flushTeam t) := h.fold fun _ _ h₁ => h₁.enterLines

theorem leaveEngine {t} (h : s₀.Keeps s) : s₀.Keeps (s.leaveEngine t) := by
  unfold State.leaveEngine
  dsimp only
  split
  · exact h.updCore
  · exact Keeps.updTeam (Keeps.passOwner (h.updCore.fold fun _ _ h₁ => h₁.setBuf))

theorem writeBanks {t} (h : s₀.Keeps s) : s₀.Keeps (s.writeBanks t) := Keeps.ite h h.updTeam.storeLines

theorem clusterSaved {cl} (h : s₀.Keeps s) : s₀.Keeps (s.clusterSaved cl) := Keeps.ite h.updCluster h

theorem saveTeam {t} (h : s₀.Keeps s) : s₀.Keeps (s.saveTeam t) := by
  unfold State.saveTeam
  extract_lets keys remote fwd restart thr ret obj tok s₁ s₂ s₃ s₄
  have hs₂ : s₀.Keeps s₂ := h.writeBanks.leaveEngine.onDev.updTeam
  have hs₃ : s₀.Keeps s₃ := hs₂.fold fun _ _ h₁ => h₁.updGroup
  have hs₄ : s₀.Keeps s₄ := Keeps.ite hs₃ hs₃.fresh.onDev
  exact hs₄.clusterSaved.writeTeams.finishCmds

theorem execTeamSaveComplete {team} (h : s₀.Keeps s) : s₀.Keeps (outcomeOr s₀ (Machine.execTeamSaveComplete team s)) := by
  unfold Machine.execTeamSaveComplete
  split
  · exact h
  · exact Keeps.ite h (Keeps.ite h.flushTeam.saveTeam h.flushTeam)

theorem parkAgain {g} (h : s₀.Keeps s) : s₀.Keeps (s.parkAgain g) := by
  unfold State.parkAgain
  refine h.fold fun _ _ h₁ => ?_
  dsimp only
  split
  · exact Keeps.ite h₁.unpark h₁.askFetch.updGroup
  · exact Keeps.ite h₁.unpark h₁.updGroup
  · exact h₁

theorem resumeTeam {t core seats} (h : s₀.Keeps s) : s₀.Keeps (s.resumeTeam t core seats) := by
  unfold State.resumeTeam
  split
  next hq =>
  have hr := Keeps.ofFst hq (Keeps.foldl (p := Prod.fst) h fun _ _ h₁ => h₁.resolve)
  extract_lets tok restart s₁ s₂ s₃ s₄
  have hs : s₀.Keeps s₄ := Keeps.onDev (Keeps.fold (Keeps.fold hr.updTeam fun _ _ h₁ => h₁.updGroup) fun _ _ h₁ => h₁.parkAgain)
  split
  · exact hs.joinOwner
  · exact hs

theorem resumeCluster {gr cl sp} (h : s₀.Keeps s) : s₀.Keeps (s.resumeCluster gr cl sp) := by
  unfold State.resumeCluster
  dsimp only
  refine Keeps.onDev ?_
  refine Keeps.updCluster ?_
  refine h.fold fun _ _ h₁ => ?_
  split
  · exact h₁.resumeTeam
  · exact h₁

theorem resumeAll {gr l} (h : s₀.Keeps s) : s₀.Keeps (optionOr s₀ (s.resumeAll gr l)) := by
  induction l generalizing s with
  | nil => exact h
  | cons c r ih =>
    unfold State.resumeAll
    split
    · exact Keeps.rfl
    · exact ih h.resumeCluster

theorem execTeamResume {cluster} (h : s₀.Keeps s) : s₀.Keeps (outcomeOr s₀ (Machine.execTeamResume cluster s)) := by
  unfold Machine.execTeamResume
  split
  · exact h
  · split
    · exact h
    · dsimp only
      split
      · exact h
      · split
        · exact h
        · exact (h.resumeAll.some ‹_›).writeTeams

theorem endThread {gid t} (h : s₀.Keeps s) : s₀.Keeps (s.endThread gid t) := h.updGroup.memberEnded

theorem recheck {gid} (h : s₀.Keeps s) : s₀.Keeps (s.recheck gid) := by
  unfold State.recheck
  split
  · exact h.checkBars
  · exact h

theorem updTile {frame tile f} (h : s₀.Keeps s) : s₀.Keeps (s.updTile frame tile f) := h.updFrame

theorem execKill (h : s₀.Keeps s) : s₀.Keeps (outcomeOr s₀ (Machine.execKill s)) := by
  unfold Machine.execKill
  refine Keeps.onStream fun _ _ => ?_
  refine Keeps.recheck ?_
  refine Keeps.advance ?_
  refine h.runEach fun _ _ _ h₁ => ?_
  dsimp only
  refine Keeps.endThread ?_
  split
  · exact Keeps.ite h₁ h₁.updTile
  · exact h₁

theorem pixelDone {p} (h : s₀.Keeps s) : s₀.Keeps (s.pixelDone p) := h.updTile

theorem flushGroup {g} (h : s₀.Keeps s) : s₀.Keeps (s.flushGroup g) := h.fold fun _ _ h₁ => h₁.flushLine.updCore

theorem leaveCore {t} (h : s₀.Keeps s) : s₀.Keeps (s.leaveCore t) := Keeps.ite h.updCore.passOwner h.updCore

theorem checkGrid {gid} (h : s₀.Keeps s) : s₀.Keeps (s.checkGrid gid) := by
  unfold State.checkGrid
  split
  · exact h
  · exact Keeps.ite h.updGrid h

theorem endGroups {gs} (h : s₀.Keeps s) : s₀.Keeps (s.endGroups gs) := h.fold fun _ _ h₁ => h₁.flushGroup.updGroup.memberEnded

theorem retireTeam {t dying} (h : s₀.Keeps s) : s₀.Keeps (s.retireTeam t dying) := by
  unfold State.retireTeam
  extract_lets gs keeps s₁ s₂ s₃ s₄ s₅ s₆ s₇ s₈
  have hs₁ : s₀.Keeps s₁ := Keeps.ite h.endGroups h
  have hs₂ : s₀.Keeps s₂ := Keeps.ite hs₁ hs₁.leaveCore
  have hs₄ : s₀.Keeps s₄ := hs₂.onDev.updTeam
  have hs₅ : s₀.Keeps s₅ := hs₄.fold fun _ _ h₁ => h₁.pixelDone
  have hs₆ : s₀.Keeps s₆ := Keeps.ite hs₅ hs₅.onDev
  have hs₇ : s₀.Keeps s₇ := Keeps.ite hs₆.updCluster hs₆.clusterSaved
  have hs₈ : s₀.Keeps s₈ := by
    clear_value s₇ gs
    dsimp only [s₈]
    split
    · exact hs₇.checkBars
    · exact hs₇
  exact hs₈.writeTeams.checkGrid.finishCmds

theorem dropBin {t} (h : s₀.Keeps s) : s₀.Keeps (s.dropBin t) := Keeps.ite h.onDev h

theorem execGroupEnd {gid} (h : s₀.Keeps s) : s₀.Keeps (outcomeOr s₀ (Machine.execGroupEnd gid s)) := by
  unfold Machine.execGroupEnd
  split
  · exact h
  · refine Keeps.ite ?_ (Keeps.ite ?_ (Keeps.ite h ?_))
    · split
      · exact Keeps.ite h h.retireTeam
      · exact h
    · split
      · exact Keeps.ite h.dropBin h
      · exact h
    · extract_lets s₁ s₂ s₃ s₄
      have hs₂ : s₀.Keeps s₂ := h.flushGroup.updGroup
      have hs₃ : s₀.Keeps s₃ := Keeps.ite hs₂.passOwner hs₂.updCore
      have hs₄ : s₀.Keeps s₄ := hs₃.checkBars
      clear_value s₄
      split
      · exact Keeps.ite hs₄.retireTeam.dropBin hs₄
      · exact hs₄

theorem execGridRetire {grid} (h : s₀.Keeps s) : s₀.Keeps (outcomeOr s₀ (Machine.execGridRetire grid s)) := by
  unfold Machine.execGridRetire
  split
  · exact h
  · exact Keeps.ite h h.updGrid.onDev

end State.Keeps
end Sys2Proof.Machine
end

section
/-! What is kept (O57): queues and contexts. -/

namespace Sys2Proof.Machine
namespace State.Keeps

variable {s₀ s t : State}

theorem setQueue {ctx q f} (h : s₀.Keeps s) : s₀.Keeps (s.setQueue ctx q f) := by
  unfold State.setQueue
  split
  · exact h
  · exact h.updQueue.fold fun _ _ h₁ => Keeps.ite h₁ h₁.put

theorem countToken {ctx q n} (h : s₀.Keeps s) : s₀.Keeps (s.countToken ctx q n) := by
  unfold State.countToken
  split
  · exact h
  · exact h.updQueue.put

theorem freezeQueue {ctx q cause idx} (h : s₀.Keeps s) : s₀.Keeps (s.freezeQueue ctx q cause idx) := h.setQueue

theorem overrun {ctx q a} (h : s₀.Keeps s) : s₀.Keeps (s.overrun ctx q a) := by
  unfold State.overrun
  dsimp only
  refine Keeps.freezeQueue ?_
  split
  · exact Keeps.ite h (Keeps.ite h.onDev h.onDev.requestSave)
  · exact h

theorem doorbell {ctxgen q w} (h : s₀.Keeps s) : s₀.Keeps (s.doorbell ctxgen q w) := by
  unfold State.doorbell
  dsimp only
  split
  · exact h
  · split
    · exact h
    · exact Keeps.ite h (Keeps.ite (Keeps.ite h.overrun h) h.setQueue)

theorem parseDecls {ctx q p r} (h : s₀.Keeps s) : s₀.Keeps (s.parseDecls ctx q p r) := by
  unfold State.parseDecls
  refine Keeps.ite h.updQueue.freezeQueue.endEng ?_
  split
  · next hq => exact (Keeps.ofFst hq (Keeps.either Prod.fst h h.readDecls)).updQueue.updQueue
  · next hq => exact (Keeps.ofFst hq (Keeps.either Prod.fst h h.readDecls)).updQueue.freezeQueue.endEng
  · next hq =>
    have hr := Keeps.ofFst hq (Keeps.either Prod.fst h h.readDecls)
    exact Keeps.ite hr.endEng.updQueue.updQueue hr.updQueue.freezeQueue.endEng

theorem execPacketParse {ctx queue} (h : s₀.Keeps s) : s₀.Keeps (outcomeOr s₀ (Machine.execPacketParse ctx queue s)) := by
  unfold Machine.execPacketParse
  split
  · split
    · exact h
    · split
      · split
        · exact h.parseDecls
        · exact h
      · split
        · exact h
        · split
          dsimp only
          split
          · exact h.freezeQueue
          · exact Keeps.ite h.setQueue (Keeps.ite h.updQueue ((h.fresh.snd ‹_›).parseDecls))
  · exact h

theorem sendCompletion {m} (h : s₀.Keeps s) : s₀.Keeps (s.sendCompletion m) := Keeps.ite h.send h.updLink

theorem retirePacket {ctx q p} (h : s₀.Keeps s) : s₀.Keeps (s.retirePacket ctx q p) := by
  unfold State.retirePacket
  extract_lets s₁ s₂
  have hs₁ : s₀.Keeps s₁ := h.fold fun _ _ h₁ => Keeps.ite h₁.countToken h₁
  have hs₂ : s₀.Keeps s₂ := Keeps.ite hs₁.sendCompletion hs₁
  exact hs₂.setQueue.onDev

theorem tookTurn {prio ctx q} (h : s₀.Keeps s) : s₀.Keeps (s.tookTurn prio ctx q) := h.onDev

theorem execPacketLaunch {ctx queue idx} (h : s₀.Keeps s) : s₀.Keeps (outcomeOr s₀ (Machine.execPacketLaunch ctx queue idx s)) := by
  unfold Machine.execPacketLaunch
  split
  · split
    · exact h
    · split
      · exact h
      · split
        · exact h.retirePacket.tookTurn
        · split
          · exact h
          · exact h.tookTurn.updQueue.onDev
  · exact h

theorem execPacketRetire {ctx queue idx} (h : s₀.Keeps s) : s₀.Keeps (outcomeOr s₀ (Machine.execPacketRetire ctx queue idx s)) := by
  unfold Machine.execPacketRetire
  split
  · exact h
  · exact Keeps.ite h.retirePacket h

theorem queueCmd {ctx q row} (h : s₀.Keeps s) (hrow : ∀ a f s, row a = .some f → s₀.Keeps s → s₀.Keeps (f s)) :
    s₀.Keeps (s.queueCmd ctx q row) := by
  unfold State.queueCmd
  dsimp only
  split
  · exact h.onDev
  · split
    · exact h.onDev
    · split
      · exact h.onDev
      · split
        · exact h.onDev
        · split
          · exact h.onDev
          · exact hrow _ _ _ ‹_› h.onDev

theorem execQueueEnable {ctx queue} (h : s₀.Keeps s) : s₀.Keeps (outcomeOr s₀ (Machine.execQueueEnable ctx queue s)) := by
  unfold Machine.execQueueEnable
  refine h.queueCmd fun _ _ s e h₁ => ?_
  split at e <;> cases e
  exact h₁.setQueue

theorem execQueuePreempt {ctx queue} (h : s₀.Keeps s) : s₀.Keeps (outcomeOr s₀ (Machine.execQueuePreempt ctx queue s)) := by
  unfold Machine.execQueuePreempt
  refine h.queueCmd fun _ _ s e h₁ => ?_
  split at e <;> cases e
  exact h₁.setQueue.requestSave.updQueue.onDev.finishCmds

theorem execQueueResume {ctx queue} (h : s₀.Keeps s) : s₀.Keeps (outcomeOr s₀ (Machine.execQueueResume ctx queue s)) := by
  unfold Machine.execQueueResume
  refine h.queueCmd fun _ _ s e h₁ => ?_
  split at e <;> cases e
  exact h₁.setQueue

theorem execQueueThaw {ctx queue} (h : s₀.Keeps s) : s₀.Keeps (outcomeOr s₀ (Machine.execQueueThaw ctx queue s)) := by
  unfold Machine.execQueueThaw
  refine h.queueCmd fun _ _ s e h₁ => ?_
  split at e <;> cases e
  exact h₁.setQueue

theorem execQueueReset {ctx queue} (h : s₀.Keeps s) : s₀.Keeps (outcomeOr s₀ (Machine.execQueueReset ctx queue s)) := by
  unfold Machine.execQueueReset
  refine h.queueCmd fun _ _ s e h₁ => ?_
  split at e <;> cases e
  exact h₁.setQueue

theorem ctxCmd {ctx row} (h : s₀.Keeps s) (hrow : ∀ c f s, row c = .some f → s₀.Keeps s → s₀.Keeps (f s)) :
    s₀.Keeps (s.ctxCmd ctx row) := by
  unfold State.ctxCmd
  dsimp only
  split
  · exact h.onDev
  · split
    · exact h.onDev
    · split
      · exact h.onDev
      · exact hrow _ _ _ ‹_› h.onDev

theorem execCtxBind {ctx} (h : s₀.Keeps s) : s₀.Keeps (outcomeOr s₀ (Machine.execCtxBind ctx s)) := by
  unfold Machine.execCtxBind
  refine h.ctxCmd fun _ _ s e h₁ => ?_
  split at e <;> cases e
  dsimp only
  split
  · exact h₁.onDev
  · split
    · exact h₁.onDev
    · split
      · exact h₁.onDev
      · exact Keeps.writeStatus (Keeps.put (Keeps.writeFault (Keeps.fold h₁.onDev fun _ _ h₂ => h₂.put.put)))

theorem execCtxStart {ctx} (h : s₀.Keeps s) : s₀.Keeps (outcomeOr s₀ (Machine.execCtxStart ctx s)) := by
  unfold Machine.execCtxStart
  refine h.ctxCmd fun _ _ s e h₁ => ?_
  split at e <;> cases e
  exact Keeps.fold h₁.setCtxState fun _ _ h₂ => h₂.setQueue

theorem execCtxSuspend {ctx} (h : s₀.Keeps s) : s₀.Keeps (outcomeOr s₀ (Machine.execCtxSuspend ctx s)) := by
  unfold Machine.execCtxSuspend
  refine h.ctxCmd fun _ _ s e h₁ => ?_
  split at e <;> cases e
  exact h₁.setCtxState.requestSave.onDev.finishCmds

theorem execCtxResume {ctx} (h : s₀.Keeps s) : s₀.Keeps (outcomeOr s₀ (Machine.execCtxResume ctx s)) := by
  unfold Machine.execCtxResume
  refine h.ctxCmd fun _ _ s e h₁ => ?_
  split at e <;> cases e
  exact h₁.setCtxState

theorem execCtxThaw {ctx} (h : s₀.Keeps s) : s₀.Keeps (outcomeOr s₀ (Machine.execCtxThaw ctx s)) := by
  unfold Machine.execCtxThaw
  refine h.ctxCmd fun _ _ s e h₁ => ?_
  split at e <;> cases e
  exact h₁.updCtx.put.setCtxState

theorem dropWork {ctx} (h : s₀.Keeps s) : s₀.Keeps (s.dropWork ctx) := h.onDev.writeCount

theorem unfreeze {ctx} (h : s₀.Keeps s) : s₀.Keeps (s.unfreeze ctx) := by
  unfold State.unfreeze
  split
  · exact Keeps.ite h.setFault h
  · exact h

theorem execCtxKill {ctx} (h : s₀.Keeps s) : s₀.Keeps (outcomeOr s₀ (Machine.execCtxKill ctx s)) := by
  unfold Machine.execCtxKill
  refine h.ctxCmd fun _ _ s e h₁ => ?_
  split at e <;> cases e
  exact h₁.onDev.unfreeze.setCtxState.dropWork

theorem execContextDrainComplete {ctx} (h : s₀.Keeps s) : s₀.Keeps (outcomeOr s₀ (Machine.execContextDrainComplete ctx s)) := by
  unfold Machine.execContextDrainComplete
  split
  · exact h
  · split
    · exact h
    · dsimp only
      split
      · exact Keeps.ite h.writeCount.onDev.writeStatus.onDev h.writeCount.onDev.writeStatus
      · exact h.writeCount.onDev.writeStatus

end State.Keeps
end Sys2Proof.Machine
end

section
/-! What is kept (O57): bins and frames. -/

namespace Sys2Proof.Machine
namespace State.Keeps

variable {s₀ s t : State}

theorem updBin {core n f} (h : s₀.Keeps s) : s₀.Keeps (s.updBin core n f) := h.updCore

theorem endPush {p f ts} (h : s₀.Keeps s) : s₀.Keeps (s.endPush p f ts) := by
  unfold State.endPush
  dsimp only
  split
  · exact h.onDev.endEng
  · refine Keeps.resultReady ?_
    split
    · exact h.onDev.endEng.updPending
    · exact h.onDev.endEng

theorem binOff {core n} (h : s₀.Keeps s) :
    s₀.Keeps (s.binOff core n) := Keeps.fold (h.updBin.fold fun _ _ h₁ => h₁.endPush) fun _ _ h₁ => h₁.updPending.resultReady

theorem closeBin {core n} (h : s₀.Keeps s) : s₀.Keeps (s.closeBin core n) := Keeps.ite h.binOff h

theorem afterLeave {core n} (h : s₀.Keeps s) : s₀.Keeps (s.afterLeave core n) := h.updBin.closeBin.unpark

theorem acceptRec {core n eng r} (h : s₀.Keeps s) : s₀.Keeps (s.acceptRec core n eng r).1 := by
  unfold State.acceptRec
  dsimp only
  split
  · dsimp only
    exact h.updBin
  · split
    · split
      · dsimp only
        exact (h.engWrite.fst ‹_›).updBin
      · dsimp only
        exact (h.engWrite.fst ‹_›).updBin
      · exact h.engWrite.fst ‹_›
    · exact h

theorem rebind {core n p} (h : s₀.Keeps s) : s₀.Keeps (s.rebind core n p) := h.updBin

theorem execRecordAccept {core push} (h : s₀.Keeps s) : s₀.Keeps (outcomeOr s₀ (Machine.execRecordAccept core push s)) := by
  unfold Machine.execRecordAccept
  split
  · exact h
  · refine Keeps.ite h ?_
    split
    · exact h.endPush
    · refine Keeps.ite h.endPush (Keeps.ite (Keeps.ite h.endPush h) ?_)
      extract_lets pts
      split
      · exact (h.acceptRec.fst ‹_›).rebind.endPush
      · exact (h.acceptRec.fst ‹_›).endPush
      · exact h.acceptRec.fst ‹_›
      · exact h.acceptRec.fst ‹_›

theorem takePop {core n rid} (h : s₀.Keeps s) : s₀.Keeps (s.takePop core n rid) := by
  unfold State.takePop
  split
  · exact h
  · dsimp only
    refine Keeps.afterLeave ?_
    refine Keeps.updPending ?_
    split
    · exact h.updBin.pixelDone
    · exact h.updBin

theorem servePop {core n} (h : s₀.Keeps s) : s₀.Keeps (s.servePop core n) := by
  unfold State.servePop
  split
  · exact h.takePop
  · exact h

theorem execRingRefill {core bin} (h : s₀.Keeps s) : s₀.Keeps (outcomeOr s₀ (Machine.execRingRefill core bin s)) := by
  unfold Machine.execRingRefill
  dsimp only
  split
  · exact h
  · split
    · exact h
    · split
      · exact h.engReadAt.fst ‹_›
      · exact (h.engReadAt.fst ‹_›).updBin.endEng
      · exact (h.engReadAt.fst ‹_›).updBin.endEng.unpark

theorem enableBin {core bin b r} (h : s₀.Keeps s) : s₀.Keeps (s.enableBin core bin b r) := by
  unfold State.enableBin
  refine Keeps.ite h.updBin.endEng ?_
  split
  · next hq => exact (Keeps.ofFst hq (Keeps.either Prod.fst h h.readDecls)).updBin
  · next hq => exact (Keeps.ofFst hq (Keeps.either Prod.fst h h.readDecls)).updBin.endEng
  · next hq =>
    have hr := Keeps.ofFst hq (Keeps.either Prod.fst h h.readDecls)
    exact Keeps.ite hr.updBin.endEng hr.updBin.endEng

theorem execBinEnable {core bin} (h : s₀.Keeps s) : s₀.Keeps (outcomeOr s₀ (Machine.execBinEnable core bin s)) := by
  unfold Machine.execBinEnable
  dsimp only
  split
  · exact h
  · split
    · exact h.enableBin
    · exact Keeps.ite h.updBin.endEng h.enableBin

theorem execBinDisable {core bin} (h : s₀.Keeps s) : s₀.Keeps (outcomeOr s₀ (Machine.execBinDisable core bin s)) := by
  unfold Machine.execBinDisable
  dsimp only
  split
  · exact h.updBin.updBin.endEng
  · exact h.updBin
  · exact Keeps.unpark (h.updBin.binOff.fold fun _ _ h₁ => h₁.pixelDone)
  · exact h.updBin.updBin.closeBin

theorem delayBin {core n} (h : s₀.Keeps s) : s₀.Keeps (s.delayBin core n) := h.updBin

theorem binGrid {b r prio} (h : s₀.Keeps s) : s₀.Keeps (s.binGrid b r prio).2 := by
  unfold State.binGrid
  split
  · exact h
  · split
    dsimp only
    exact (h.fresh.snd ‹_›).onDev

theorem binLaunch {core b r seats} (h : s₀.Keeps s) : s₀.Keeps (s.binLaunch core b r seats) := by
  unfold State.binLaunch
  dsimp only
  split
  · exact h.binGrid
  · exact h.binGrid.fresh.onDev.updGrid.placeTeam.updGroup.updCore.updBin.afterLeave.writeTeams

theorem execBinLaunch {core bin} (h : s₀.Keeps s) : s₀.Keeps (outcomeOr s₀ (Machine.execBinLaunch core bin s)) := by
  unfold Machine.execBinLaunch
  dsimp only
  split
  · exact h
  · split
    · exact h
    · split
      · exact h.delayBin
      · exact h.binLaunch

theorem addPush {st g t core bin key ws sb} (h : s₀.Keeps s) : s₀.Keeps (s.addPush st g t core bin key ws sb) := by
  unfold State.addPush
  refine Keeps.onDev ?_
  refine Keeps.onDev ?_
  split
  · split
    exact h.addResult.snd ‹_›
  · exact h

theorem localPush {st g t b go} (h : s₀.Keeps s) (hgo : ∀ s, s₀.Keeps s → s₀.Keeps (go s).state) :
    s₀.Keeps (s.localPush st g t b go).state := by
  unfold State.localPush
  split
  · exact h.plain
  · split
    · exact hgo _ h
    · split
      · exact h.plain
      · exact h.stopOr h.park

theorem pushUnit {sb f} (h : s₀.Keeps s) (hf : ∀ a s c d e, s₀.Keeps s → s₀.Keeps (f a s c d e).state) :
    s₀.Keeps (outcomeOr s₀ (s.pushUnit sb f)) := by
  unfold State.pushUnit
  refine h.perThread fun _ _ _ _ h₁ => ?_
  split
  · exact h₁
  · split
    · split
      · exact hf _ _ _ _ _ h₁
      · exact h₁
    · exact hf _ _ _ _ _ h₁

theorem execBpush {a b sb} (h : s₀.Keeps s) : s₀.Keeps (outcomeOr s₀ (Machine.execBpush a b sb s)) := by
  unfold Machine.execBpush
  refine h.pushUnit fun _ _ _ _ _ h₁ => ?_
  split
  · exact h₁
  · split
    · exact h₁.plain
    · exact h₁.localPush fun _ h₂ => h₂.addPush

theorem execWgpush {a b sb} (h : s₀.Keeps s) : s₀.Keeps (outcomeOr s₀ (Machine.execWgpush a b sb s)) := by
  unfold Machine.execWgpush
  refine h.pushUnit fun _ _ _ _ _ h₁ => ?_
  dsimp only
  split
  · exact h₁
  · split
    · exact h₁.localPush fun _ h₂ => h₂.addPush
    · exact h₁.addPush

theorem contBin {g pc x} (h : s₀.Keeps s) (e : s.contBin g pc = .some (x, t)) : s₀.Keeps t := by
  unfold State.contBin at e
  dsimp only at e
  split at e
  · split at e <;> cases e
    exact h
  · split at e
    · cases e
      exact h.updBin
    · obtain ⟨b, -, hb⟩ := Option.map_eq_some_iff.mp e
      cases hb
      exact h.updBin

theorem execCont {a b} (h : s₀.Keeps s) : s₀.Keeps (outcomeOr s₀ (Machine.execCont a b s)) := by
  unfold Machine.execCont
  refine Keeps.onStream fun _ _ => Keeps.recheck (Keeps.advance (h.runEach fun _ _ _ h₁ => ?_))
  split
  · exact h₁
  · split
    · exact h₁.endThread
    · dsimp only
      split
      · exact h₁.plain
      · split
        · exact h₁.plain
        · exact (h₁.contBin ‹_›).localPush fun _ h₂ => h₂.addPush.endThread

theorem execBpop {d a b sb} (h : s₀.Keeps s) : s₀.Keeps (outcomeOr s₀ (Machine.execBpop d a b sb s)) := by
  unfold Machine.execBpop
  refine h.perThread fun _ _ _ _ h₁ => ?_
  split
  · exact h₁
  · split
    · exact h₁
    · dsimp only
      split
      · exact h₁.addResult.resultReady
      · split
        · exact h₁.addResult.resultReady
        · split
          · exact h₁.addResult
          · exact h₁.addResult.takePop

theorem execBflush {b} (h : s₀.Keeps s) : s₀.Keeps (outcomeOr s₀ (Machine.execBflush b s)) := by
  unfold Machine.execBflush
  refine h.perThread fun _ _ _ _ h₁ => ?_
  split
  · exact h₁
  · split
    · exact h₁
    · exact Keeps.ite h₁ h₁.updBin

theorem execBquery {d b sb} (h : s₀.Keeps s) : s₀.Keeps (outcomeOr s₀ (Machine.execBquery d b sb s)) := by
  unfold Machine.execBquery
  refine h.perThread fun _ _ _ _ h₁ => ?_
  split
  · exact h₁
  · split
    · exact h₁
    · dsimp only
      exact h₁.addResult.resultReady

theorem fpUnit {d f} (h : s₀.Keeps s) : s₀.Keeps (outcomeOr s₀ (s.fpUnit d f)) := h.regsUnit

theorem fp2 {d a b e} (h : s₀.Keeps s) : s₀.Keeps (outcomeOr s₀ (s.fp2 d a b e)) := h.fpUnit

theorem fp1 {d a e} (h : s₀.Keeps s) : s₀.Keeps (outcomeOr s₀ (s.fp1 d a e)) := h.fpUnit

theorem fp3 {d a b c e} (h : s₀.Keeps s) : s₀.Keeps (outcomeOr s₀ (s.fp3 d a b c e)) := h.fpUnit

theorem snap {x} (h : s₀.Keeps s) : s₀.Keeps (s.snap x).1 := by
  unfold State.snap
  split
  · exact h
  · exact h.freeWord

theorem snapVtx {r v} (h : s₀.Keeps s) : s₀.Keeps (s.snapVtx r v).1 := h.snap.snap

theorem rasterTri {f res ident t} (h : s₀.Keeps s) : s₀.Keeps (s.rasterTri f res ident t) := by
  unfold State.rasterTri
  refine h.fold fun _ _ h₁ => ?_
  exact Keeps.onDev (Keeps.foldl (p := Prod.fst) h₁ fun _ _ h₂ => h₂.snapVtx)

theorem meshFrame {g t va} (h : s₀.Keeps s) : s₀.Keeps (s.meshFrame g t va).state := by
  unfold State.meshFrame
  split
  · exact h
  · split
    · exact h.noFrame
    · split
      · exact h.at_.noFrame
      · split
        · exact (h.unitAccess.accOut ‹_›).noFrame
        · split
          dsimp only
          split
          · exact ((h.unitAccess.accOk ‹_›).homeLoad.fst ‹_›).raisePts.fresh.onDev
          · exact ((h.unitAccess.accOk ‹_›).homeLoad.fst ‹_›).raisePts.at_.noFrame

theorem rasterMesh {f res inst cluster nv nt b} (h : s₀.Keeps s) : s₀.Keeps (s.rasterMesh f res inst cluster nv nt b) := by
  unfold State.rasterMesh
  dsimp only
  split
  · refine Keeps.updFrame ?_
    refine h.fold fun _ _ h₁ => ?_
    split
    · exact h₁.updPending
    · exact h₁.rasterTri
  · refine Keeps.resultReady ?_
    refine h.fold fun _ _ h₁ => ?_
    split
    · exact h₁.updPending
    · exact h₁.rasterTri

theorem execMesh {d a b sb} (h : s₀.Keeps s) : s₀.Keeps (outcomeOr s₀ (Machine.execMesh d a b sb s)) := by
  unfold Machine.execMesh
  refine h.perThread fun _ _ _ _ h₁ => ?_
  split
  · exact h₁
  · split
    · exact h₁
    · split
      · exact h₁
      · dsimp only
        split
        · exact h₁.meshFrame.openOut ‹_›
        · split
          · exact (h₁.meshFrame.openOk ‹_›).plain
          · split
            · exact (h₁.meshFrame.openOk ‹_›).plain
            · split
              · exact (h₁.meshFrame.openOk ‹_›).stopOr ((h₁.meshFrame.openOk ‹_›).park)
              · exact (h₁.meshFrame.openOk ‹_›).tileLoad.raisePts.addResult.rasterMesh

theorem putTile {frame t} (h : s₀.Keeps s) : s₀.Keeps (s.putTile frame t) := h.updFrame

theorem meshDone {res} (h : s₀.Keeps s) : s₀.Keeps (s.meshDone res) := Keeps.ite h h.onDev.resultReady

theorem execQuadTest {owner} (h : s₀.Keeps s) : s₀.Keeps (outcomeOr s₀ (Machine.execQuadTest owner s)) := by
  unfold Machine.execQuadTest
  split
  · exact h
  · dsimp only
    split
    · exact h.onDev.meshDone
    · exact h.onDev.putTile.meshDone

theorem execTileWriteOut {frame tile} (h : s₀.Keeps s) : s₀.Keeps (outcomeOr s₀ (Machine.execTileWriteOut frame tile s)) := by
  unfold Machine.execTileWriteOut
  split
  · exact h
  · split
    · exact h
    · split
      · exact h
      · split
        · exact (h.engWrite.fst ‹_›).putTile
        · exact h.engWrite.fst ‹_›

theorem dropFrame {f} (h : s₀.Keeps s) : s₀.Keeps (s.dropFrame f) := by
  unfold State.dropFrame
  extract_lets s₁ s₂ s₃
  have hs₁ : s₀.Keeps s₁ := by
    dsimp only [s₁]
    split
    · exact h.updPending
    · exact h
  have hs₃ : s₀.Keeps s₃ := hs₁.resultReady.endEng.onDev
  clear_value s₃
  split
  · exact Keeps.ite hs₃.updFrame hs₃
  · exact hs₃

theorem readFrame {f} (h : s₀.Keeps s) : s₀.Keeps (s.readFrame f) := by
  unfold State.readFrame
  split
  · exact h
  · split
    · exact h.dropFrame
    · split
      · exact h.engReadAt.fst ‹_›
      · exact (h.engReadAt.fst ‹_›).dropFrame
      · exact Keeps.ite ((h.engReadAt.fst ‹_›).updFrame) ((h.engReadAt.fst ‹_›).dropFrame)

theorem execFseal {d sb} (h : s₀.Keeps s) : s₀.Keeps (outcomeOr s₀ (Machine.execFseal d sb s)) := by
  unfold Machine.execFseal
  refine h.perGroup fun _ _ _ _ h₁ => ?_
  split
  · exact h₁
  · split
    · exact h₁
    · dsimp only
      split
      · exact h₁.addResult.updFrame
      · exact h₁.addResult.fresh.onDev.readFrame

theorem material {f id} (h : s₀.Keeps s) : s₀.Keeps (s.material f id).1 := by
  unfold State.material
  dsimp only
  split
  · exact h.engRead.fst ‹_›
  · exact h.engRead.fst ‹_›
  · split
    · split <;> exact (h.engRead.fst ‹_›).engRead.fst ‹_›
    · exact h.engRead.fst ‹_›

theorem materials {f l} (h : s₀.Keeps s) : s₀.Keeps (s.materials f l).1 := by
  induction l generalizing s with
  | nil => exact h
  | cons id r ih =>
    have rest {s m} (h : s₀.Keeps s) : s₀.Keeps (match s.materials f r with
        | (s, .some l) => (s, Option.some (m :: l))
        | x => x).1 := by
      split
      · exact (ih h).fst ‹_›
      · exact ih h
    unfold State.materials
    dsimp only
    split
    · exact rest h
    · split
      · exact h.material.fst ‹_›
      · exact rest (h.material.fst ‹_›).updFrame
      · exact rest (h.material.fst ‹_›)

theorem quadBin {f core m} (h : s₀.Keeps s) : s₀.Keeps (s.quadBin f core m).1 := by
  unfold State.quadBin
  split
  · exact h
  · split
    · exact h
    · split
      · exact h
      · dsimp only
        refine Keeps.foldl (p := Prod.fst) h fun _ _ h₁ => ?_
        split
        · split
          · exact h₁.engRange.fst ‹_›
          · dsimp only
            exact (h₁.engRange.fst ‹_›).updBin
          · exact h₁.engRange.fst ‹_›
        · exact h₁

theorem classifyPush {f core m e x} (h : s₀.Keeps s) : s₀.Keeps (s.classifyPush f core m e x).1 := by
  unfold State.classifyPush
  refine Keeps.either Prod.fst h ?_
  split
  next hq =>
  have hr := Keeps.ofFst hq (by
    split
    · exact Keeps.either Prod.fst h.quadBin h
    · exact Keeps.either Prod.fst h (Keeps.either Prod.fst h h))
  split
  · split
    · dsimp only
      exact (hr.acceptRec.fst ‹_›).updCore
    · exact hr.acceptRec.fst ‹_›
    · exact hr.acceptRec.fst ‹_›
  · exact hr

theorem classifyTile {f core t} (h : s₀.Keeps s) : s₀.Keeps (s.classifyTile f core t) := by
  unfold State.classifyTile
  split
  · exact h
  · split
    · exact h.classifyPush.fst ‹_›
    · exact Keeps.updTile (Keeps.updFrame (Keeps.ite (h.classifyPush.fst ‹_›) ((h.classifyPush.fst ‹_›).updCore)))
    · exact (h.classifyPush.fst ‹_›).updTile.updFrame

theorem flushBins {f core} (h : s₀.Keeps s) : s₀.Keeps (s.flushBins f core) := h.fold fun _ _ h₁ => Keeps.ite h₁ h₁.updBin

theorem execClassify {frame tile} (h : s₀.Keeps s) : s₀.Keeps (outcomeOr s₀ (Machine.execClassify frame tile s)) := by
  unfold Machine.execClassify
  split
  · exact h
  · refine Keeps.ite h.readFrame ?_
    extract_lets core mine t s₁
    refine Keeps.ite h ?_
    have hs₁ : s₀.Keeps s₁ := h.putTile
    clear_value s₁
    split
    next hq =>
    have hs := Keeps.ofFst hq (by
      split
      · split
        · exact hs₁.materials.fst ‹_›
        · exact (hs₁.materials.fst ‹_›).updTile
      · exact hs₁)
    refine Keeps.ite hs ?_
    extract_lets s₂ s₃ s₄
    have hs₂ : s₀.Keeps s₂ := by
      dsimp only [s₂]
      split
      · split
        · exact hs.classifyTile
        · exact hs
      · exact hs
    split
    · exact hs₂
    · refine Keeps.ite hs₂ ?_
      have hs₄ : s₀.Keeps s₄ := hs₂.updTile.updFrame
      split
      · exact hs₄
      · exact Keeps.ite hs₄ hs₄.flushBins

theorem writeBack {f pts l} (h : s₀.Keeps s) : s₀.Keeps (s.writeBack f pts l).1 := by
  induction l generalizing s with
  | nil => exact h
  | cons x r ih =>
    unfold State.writeBack
    dsimp only
    split
    · exact h.engWrite.fst ‹_›
    · exact ih (h.engWrite.fst ‹_›).updFrame.updFrame
    · exact ih (h.engWrite.fst ‹_›).updFrame

theorem execSealComplete {frame} (h : s₀.Keeps s) : s₀.Keeps (outcomeOr s₀ (Machine.execSealComplete frame s)) := by
  unfold Machine.execSealComplete
  split
  · exact h
  · refine Keeps.ite h ?_
    split
    · exact h.writeBack.fst ‹_›
    · split
      · exact (h.writeBack.fst ‹_›).engRange.fst ‹_›
      · have hr := (h.writeBack.fst ‹_›).engRange.fst ‹_›
        extract_lets s₁ s₂
        have hs₁ : s₀.Keeps s₁ := by
          dsimp only [s₁]
          split
          · exact hr.homeAtomic
          · exact hr.updFrame
          · exact hr
        have hs₂ : s₀.Keeps s₂ := Keeps.ite hs₁.countToken hs₁
        clear_value s₂
        split
        · exact hs₂.dropFrame
        · exact hs₂

theorem execFwait {d a} (h : s₀.Keeps s) : s₀.Keeps (outcomeOr s₀ (Machine.execFwait d a s)) := by
  unfold Machine.execFwait
  refine Keeps.perGroup h fun _ _ _ _ h₁ => ?_
  split
  · exact h₁
  · refine Keeps.either SRes.state h₁.holdOn (Keeps.either SRes.state h₁.at_ ?_)
    split
    · exact h₁.unitAccess.accOut ‹_›
    · have hp := h₁.unitAccess.accOk ‹_›
      split
      split
      · exact (hp.homeLoad.fst ‹_›).unitAccess.accOut ‹_›
      · have hw := (hp.homeLoad.fst ‹_›).unitAccess.accOk ‹_›
        split
        exact Keeps.either SRes.state (hw.homeLoad.fst ‹_›).raisePts (hw.homeLoad.fst ‹_›).holdOn

end State.Keeps
end Sys2Proof.Machine
end

section
/-! What is kept (O57): peers, the die, overlay units and the register space. -/

namespace Sys2Proof.Machine
namespace State.Keeps

variable {s₀ s t : State}

theorem setPeer {n f} (h : s₀.Keeps s) : s₀.Keeps (s.setPeer n f) := h.updLink

theorem mapRx {f} (h : s₀.Keeps s) : s₀.Keeps (s.mapRx f) := by
  unfold State.mapRx
  exact h.onDev

theorem remoteDown {gid} (h : s₀.Keeps s) : s₀.Keeps (s.remoteDown gid) := h.updGroup

theorem failResult {r} (h : s₀.Keeps s) : s₀.Keeps (s.failResult r) := by
  unfold State.failResult
  split
  · exact Keeps.ite h.updPending.arrived.remoteDown h.updPending.arrived
  · exact h

theorem failAck {a} (h : s₀.Keeps s) : s₀.Keeps (s.failAck a) := by
  unfold State.failAck
  dsimp only
  split
  · exact h.updLink.addAsync.remoteDown
  · exact h.updLink.mapRx

theorem failPeer {n} (h : s₀.Keeps s) : s₀.Keeps (s.failPeer n) := by
  unfold State.failPeer
  exact Keeps.updLink (Keeps.mapRx (Keeps.fold (h.fold fun _ _ h₁ => h₁.failResult) fun _ _ h₁ => h₁.failAck))

theorem unsend {n keep} (h : s₀.Keeps s) : s₀.Keeps (s.unsend n keep) := by
  unfold State.unsend
  exact h.setPeer.updLink.onDev

theorem downPeer {n cause} (h : s₀.Keeps s) : s₀.Keeps (s.downPeer n cause) := h.unsend.setPeer.failPeer

theorem freezePeer {n d cause fwa} (h : s₀.Keeps s) : s₀.Keeps (s.freezePeer n d cause fwa) := h.setPeer.send.unsend.setPeer.failPeer

theorem flushHost (h : s₀.Keeps s) : s₀.Keeps s.flushHost := Keeps.ite (Keeps.sendPreqs (h.updLink.fold fun _ _ h₁ => h₁.send)) h

theorem portsChanged (h : s₀.Keeps s) :
    s₀.Keeps s.portsChanged := Keeps.flushHost (h.fold fun _ _ h₁ => Keeps.ite h₁ (Keeps.ite h₁.downPeer h₁.setPeer))

theorem openPeer {n} (h : s₀.Keeps s) : s₀.Keeps (s.openPeer n) := Keeps.ite h.setPeer h

theorem closePeer {n} (h : s₀.Keeps s) : s₀.Keeps (s.closePeer n) := h.downPeer

theorem thawPeer {n} (h : s₀.Keeps s) : s₀.Keeps (s.thawPeer n) := Keeps.ite h.setPeer h

theorem resend {n} (h : s₀.Keeps s) : s₀.Keeps (s.resend n) := h.setPeer.fold fun _ _ h₁ => h₁.send

theorem setPort {port st} (h : s₀.Keeps s) : s₀.Keeps (s.setPort port st) := h.updLink

theorem portDown {port} (h : s₀.Keeps s) : s₀.Keeps (s.portDown port) := h.setPort.portsChanged

theorem setRate {port rate} (h : s₀.Keeps s) : s₀.Keeps (s.setRate port rate) := Keeps.ite h h.updLink.portDown

theorem runImage {src b} (h : s₀.Keeps s) : s₀.Keeps (s.runImage src b) := h.updDie

theorem netBoot (h : s₀.Keeps s) : s₀.Keeps s.netBoot := by
  unfold State.netBoot
  dsimp only
  split
  · exact h.updDie
  · exact h.updDie.setRate

theorem netEnd (h : s₀.Keeps s) : s₀.Keeps s.netEnd := by
  unfold State.netEnd
  split
  · exact h
  · exact h.setRate

theorem lost {powered tripn trip} (h : s₀.Keeps s) : s₀.Keeps (s.lost powered tripn trip) := ⟨h.fuse, fun _ => Eq.refl _⟩

theorem execPowerOnReset (h : s₀.Keeps s) : s₀.Keeps (outcomeOr s₀ (Machine.execPowerOnReset s)) := by
  unfold Machine.execPowerOnReset
  split
  · exact h
  · split
    · dsimp only
      split
      · exact h.lost.updDie.netBoot
      · exact Keeps.ite h.lost.runImage h.lost.updDie.netBoot
    · dsimp only
      split
      · exact h.lost.updDie.netBoot
      · exact Keeps.ite h.lost.runImage h.lost.updDie.netBoot

theorem ringHeld (h : s₀.Keeps s) : s₀.Keeps s.ringHeld := by
  unfold State.ringHeld
  refine Keeps.updDie ?_
  refine h.fold fun _ _ h₁ => ?_
  split
  split
  · exact h₁.doorbell
  · exact h₁

theorem comeReady {block n f} (h : s₀.Keeps s) : s₀.Keeps (s.comeReady block n f) := Keeps.ite h h.updDie

theorem frontBells (h : s₀.Keeps s) : s₀.Keeps s.frontBells := Keeps.ite h.ringHeld h

theorem execBlockReady {block n} (h : s₀.Keeps s) : s₀.Keeps (outcomeOr s₀ (Machine.execBlockReady block n s)) := by
  unfold Machine.execBlockReady
  refine Keeps.ite h (Keeps.ite (Keeps.ite h.comeReady h) (Keeps.ite (Keeps.ite h.comeReady h) (Keeps.ite (Keeps.ite ?_ h)
    (Keeps.ite h.comeReady.ringHeld (Keeps.ite (Keeps.ite h.comeReady h) (Keeps.ite (Keeps.ite h.comeReady h) h))))))
  exact Keeps.ite h.comeReady.setPort h.comeReady

theorem updEnergy {b f} (h : s₀.Keeps s) : s₀.Keeps (s.updEnergy b f) := h.updDie

theorem readEnergy {b} (h : s₀.Keeps s) : s₀.Keeps (s.readEnergy b) := h.updEnergy

theorem signed {b} (h : s₀.Keeps s) : s₀.Keeps (s.signed b).2 := by
  unfold State.signed
  dsimp only
  exact h.onDev

theorem attest (h : s₀.Keeps s) : s₀.Keeps s.attest := by
  unfold State.attest
  dsimp only
  exact Keeps.ite h.updDie (Keeps.ite h.updDie h.signed.updDie)

theorem evict {core l} (h : s₀.Keeps s) : s₀.Keeps (s.evict core l) := by
  unfold State.evict
  exact h.updCore

theorem takeSlots {core ctx n} (h : s₀.Keeps s) : s₀.Keeps (s.takeSlots core ctx n).2 := by
  unfold State.takeSlots
  dsimp only
  split
  · exact h
  · split
    · exact h
    · split
      · exact h.evict
      · exact h.evict.evict

theorem updFetch {core id f} (h : s₀.Keeps s) : s₀.Keeps (s.updFetch core id f) := h.updCore

theorem dropFetch {core id} (h : s₀.Keeps s) : s₀.Keeps (s.dropFetch core id) := h.updCore.endEng

theorem mapLoading {core id f} (h : s₀.Keeps s) : s₀.Keeps (s.mapLoading core id f) := h.onDev

theorem wakeFetch {core f g} (h : s₀.Keeps s) : s₀.Keeps (s.wakeFetch core f g) := h.unparkIf

theorem fetchFail {core f code tok va} (h : s₀.Keeps s) :
    s₀.Keeps (s.fetchFail core f code tok va) := Keeps.wakeFetch (Keeps.dropFetch (Keeps.mapLoading (h.fold fun _ _ h₁ => h₁.addAsync)))

theorem fetchServed {core f copy gen start} (h : s₀.Keeps s) :
    s₀.Keeps (s.fetchServed core f copy gen start) := Keeps.wakeFetch (Keeps.dropFetch (Keeps.mapLoading (Keeps.ite h.enterCopy h)))

theorem readCode {core f e} (h : s₀.Keeps s) : s₀.Keeps (s.readCode core f e) := by
  unfold State.readCode
  dsimp only
  split
  · exact h.engRead.fst ‹_›
  · exact (h.engRead.fst ‹_›).fetchFail
  · exact Keeps.ite ((h.engRead.fst ‹_›).fetchFail) ((h.engRead.fst ‹_›).updCore.fetchServed)

theorem fetchSlots {core f e} (h : s₀.Keeps s) : s₀.Keeps (s.fetchSlots core f e) := by
  unfold State.fetchSlots
  split
  · exact (h.takeSlots.snd ‹_›).updFetch
  · exact (h.takeSlots.snd ‹_›).updFetch.readCode

theorem fetchStep {core f} (h : s₀.Keeps s) : s₀.Keeps (s.fetchStep core f) := by
  unfold State.fetchStep
  split
  · exact h.readCode
  · exact h.fetchSlots
  · split
    · exact h.fetchFail
    · split
      · exact (h.searchTable.fst ‹_›).fetchFail
      · exact (h.searchTable.fst ‹_›).fetchFail
      · exact h.searchTable.fst ‹_›
      · dsimp only
        split
        · exact (h.searchTable.fst ‹_›).updCore.fetchServed
        · exact (h.searchTable.fst ‹_›).fetchSlots

theorem execOverlayFetchComplete {core fetch} (h : s₀.Keeps s) :
    s₀.Keeps (outcomeOr s₀ (Machine.execOverlayFetchComplete core fetch s)) := by
  unfold Machine.execOverlayFetchComplete
  split
  · exact h
  · exact h.fetchStep

theorem execOvwaitTimeout {core fetch} (h : s₀.Keeps s) : s₀.Keeps (outcomeOr s₀ (Machine.execOvwaitTimeout core fetch s)) := by
  unfold Machine.execOvwaitTimeout
  split
  · exact h
  · split
    · exact h
    · dsimp only
      split
      · exact h
      · split
        · exact Keeps.ite h.fetchStep.fetchFail h.fetchStep
        · exact h.fetchStep

theorem setOt {team n o} (h : s₀.Keeps s) : s₀.Keeps (s.setOt team n o) := h.updTeam

theorem execOvload {ot id} (h : s₀.Keeps s) : s₀.Keeps (outcomeOr s₀ (Machine.execOvload ot id s)) := by
  unfold Machine.execOvload
  refine h.perGroup fun _ _ _ _ h₁ => ?_
  split
  · dsimp only
    split
    · exact h₁.setOt.setOt.enterCopy
    · exact h₁.setOt.askFetch.setOt
  · exact h₁

theorem execOvinv {id} (h : s₀.Keeps s) : s₀.Keeps (outcomeOr s₀ (Machine.execOvinv id s)) := by
  unfold Machine.execOvinv
  refine h.perGroup fun _ _ _ _ h₁ => ?_
  split
  · dsimp only
    split
    · exact h₁
    · exact h₁.onDev
  · exact h₁

theorem execOvq {d ot} (h : s₀.Keeps s) : s₀.Keeps (outcomeOr s₀ (Machine.execOvq d ot s)) := by
  unfold Machine.execOvq
  dsimp only
  split
  · refine h.perGroup fun _ _ _ _ h₁ => ?_
    split
    · exact h₁
    · exact h₁.updGroup
  · refine h.perThread fun _ _ _ _ h₁ => ?_
    split
    · exact h₁
    · exact h₁.updGroup

theorem run {f} (h : s₀.Keeps s) (hf : ∀ s, s₀.Keeps s → s₀.Keeps (outcomeOr s₀ (f s))) : s₀.Keeps (s.run f) := by
  unfold State.run
  split
  · exact (hf _ h).next ‹_›
  · exact h

theorem dropTlb {r} (h : s₀.Keeps s) : s₀.Keeps (s.dropTlb r) := by
  unfold State.dropTlb
  exact h.onDev

theorem startMmu {all} (h : s₀.Keeps s) : s₀.Keeps (s.startMmu all) := Keeps.ite h h.dropTlb.onDev

theorem execInvalidationComplete (h : s₀.Keeps s) : s₀.Keeps (outcomeOr s₀ (Machine.execInvalidationComplete s)) := by
  unfold Machine.execInvalidationComplete
  split
  · exact h
  · exact Keeps.ite h.onDev h

theorem readPwr {o} (h : s₀.Keeps s) : s₀.Keeps (s.readPwr o).1 := by
  unfold State.readPwr
  dsimp only
  split
  · exact h
  · split
    · exact h
    · split
      · exact h.readEnergy
      · exact h

theorem regRead {a} (h : s₀.Keeps s) : s₀.Keeps (s.regRead a).1 := by
  unfold State.regRead
  refine Keeps.either Prod.fst h (Keeps.either Prod.fst h (Keeps.either Prod.fst h (Keeps.either Prod.fst h (Keeps.either Prod.fst h
    (Keeps.either Prod.fst h (Keeps.either Prod.fst h (Keeps.either Prod.fst h.readPwr (Keeps.either Prod.fst h
    (Keeps.either Prod.fst h ?_)))))))))
  split <;> exact h

theorem writeCtx {o w} (h : s₀.Keeps s) : s₀.Keeps (s.writeCtx o w) := by
  unfold State.writeCtx
  dsimp only
  split
  · exact h.onDev
  · split
    · exact h.onDev
    · split
      · split
        · exact h.run fun _ h₁ => h₁.execCtxBind
        · exact h.run fun _ h₁ => h₁.execCtxStart
        · exact h.run fun _ h₁ => h₁.execCtxSuspend
        · exact h.run fun _ h₁ => h₁.execCtxResume
        · exact h.run fun _ h₁ => h₁.execCtxThaw
        · exact h.run fun _ h₁ => h₁.execCtxKill
        · exact h
      · exact Keeps.ite h.onDev h

theorem writeQueue {o w} (h : s₀.Keeps s) : s₀.Keeps (s.writeQueue o w) := by
  unfold State.writeQueue
  dsimp only
  split
  · split
    · exact h.run fun _ h₁ => h₁.execQueueEnable
    · exact h.run fun _ h₁ => h₁.execQueuePreempt
    · exact h.run fun _ h₁ => h₁.execQueueResume
    · exact h.run fun _ h₁ => h₁.execQueueThaw
    · exact h.run fun _ h₁ => h₁.execQueueReset
    · exact h
  · exact Keeps.ite h.onDev h

theorem writeOrd {o w} (h : s₀.Keeps s) : s₀.Keeps (s.writeOrd o w) := Keeps.ite h.onDev (Keeps.ite h.onDev h)

theorem writeMmu {o w} (h : s₀.Keeps s) : s₀.Keeps (s.writeMmu o w) :=
  Keeps.ite h.onDev (Keeps.ite h.onDev (Keeps.ite h.onDev (Keeps.ite h.onDev
    (Keeps.ite (Keeps.ite h.startMmu (Keeps.ite h.startMmu h)) h))))

theorem updWindow {n f} (h : s₀.Keeps s) : s₀.Keeps (s.updWindow n f) := h.updLink

theorem writeLink {o w} (h : s₀.Keeps s) : s₀.Keeps (s.writeLink o w) := by
  unfold State.writeLink
  refine Keeps.ite h.setRate (Keeps.ite h.updLink.flushHost (Keeps.ite h.updLink (Keeps.ite h.updLink (Keeps.ite ?_ (Keeps.ite ?_ h)))))
  · refine Keeps.ite (Keeps.ite h.setPeer h) (Keeps.ite (Keeps.ite h.setPeer h) (Keeps.ite ?_ h))
    split
    · exact h.openPeer
    · exact h.closePeer
    · exact h.thawPeer
    · exact h
  · exact Keeps.ite h.updWindow (Keeps.ite h.updWindow (Keeps.ite h.updWindow (Keeps.ite h.updWindow (Keeps.ite h.updWindow h))))

theorem writePwr {o w} (h : s₀.Keeps s) : s₀.Keeps (s.writePwr o w) := Keeps.ite h.updDie (Keeps.ite h.updEnergy h)

theorem writeSec {o w} (h : s₀.Keeps s) :
    s₀.Keeps (s.writeSec o w) := Keeps.ite h.updDie (Keeps.ite h.updDie (Keeps.ite h.updDie (Keeps.ite h.attest h)))

theorem writeZone {z o w} (h : s₀.Keeps s) : s₀.Keeps (s.writeZone z o w) := Keeps.ite h.updZone (Keeps.ite h.updZone h)

theorem writeOvl {c o w} (h : s₀.Keeps s) :
    s₀.Keeps (s.writeOvl c o w) := Keeps.ite h.updCore (Keeps.ite (Keeps.ite h.updCore (Keeps.ite h.updCore (Keeps.ite h.updCore h))) h)

theorem writeSheng {c o w} (h : s₀.Keeps s) : s₀.Keeps (s.writeSheng c o w) := by
  unfold State.writeSheng
  refine Keeps.ite (Keeps.ite (Keeps.ite ?_ (Keeps.ite h.updBin ?_)) (Keeps.ite h ?_)) h
  · exact h.updBin.run fun _ h₁ => h₁.execBinEnable
  · exact h.run fun _ h₁ => h₁.execBinDisable
  · exact Keeps.ite h.updBin (Keeps.ite h.updBin (Keeps.ite h.updBin (Keeps.ite h.updBin (Keeps.ite h.updBin (Keeps.ite h.updBin h.updBin)))))

theorem regWrite {a w} (h : s₀.Keeps s) : s₀.Keeps (s.regWrite a w) := by
  unfold State.regWrite
  refine Keeps.ite h (Keeps.ite h (Keeps.ite h.writeCtx (Keeps.ite h.writeQueue (Keeps.ite h.writeOrd (Keeps.ite h.writeMmu
    (Keeps.ite h.writeLink (Keeps.ite h.writePwr (Keeps.ite h (Keeps.ite h.writeSec ?_)))))))))
  split
  · exact h.writeZone
  · exact Keeps.ite h.updCore (Keeps.ite h (Keeps.ite h.writeOvl (Keeps.ite (Keeps.ite h.updCore h)
      (Keeps.ite (Keeps.ite h.updCore h) h.writeSheng))))
  · exact h

end State.Keeps
end Sys2Proof.Machine
end

section
/-! What is kept (O57): messages of the link, and collectives. -/

namespace Sys2Proof.Machine
namespace State.Keeps

variable {s₀ s t : State}

theorem pageAnswer {ctxgen reqid result} (h : s₀.Keeps s) : s₀.Keeps (s.pageAnswer ctxgen reqid result) := by
  unfold State.pageAnswer
  dsimp only
  split
  · exact h
  · split
    · exact h
    · exact Keeps.sendPreqs (Keeps.writeCount (Keeps.ite h.onDev.unpark h.onDev.unpark.onDev))

theorem peerTs {n t} (h : s₀.Keeps s) : s₀.Keeps (s.peerTs n t) := h.setPeer

theorem answered {peer tag} (h : s₀.Keeps s) : s₀.Keeps (s.answered peer tag) := by
  unfold State.answered
  exact h.setPeer

theorem answerRemote {peer tag data} (h : s₀.Keeps s) : s₀.Keeps (s.answerRemote peer tag data) := by
  unfold State.answerRemote
  split
  · exact h.mapRx
  · dsimp only
    split
    · exact h.updPending.arrived.remoteDown
    · exact h.updPending.arrived

theorem failRefused {peer refused} (h : s₀.Keeps s) : s₀.Keeps (s.failRefused peer refused) := by
  unfold State.failRefused
  dsimp only
  split
  · exact h.setPeer.failAck
  · split
    · split
      · exact h.setPeer.failResult.answered
      · exact h.setPeer.mapRx.answered
    · split
      · exact h.setPeer.failResult.answered
      · exact h.setPeer.mapRx.answered
    · exact h.setPeer.updLink
    · exact h.setPeer

theorem ackDone {a} (h : s₀.Keeps s) : s₀.Keeps (s.ackDone a) := by
  unfold State.ackDone
  dsimp only
  split
  · exact h.updLink.remoteDown
  · exact h.updLink.mapRx

theorem acked {n ack} (h : s₀.Keeps s) : s₀.Keeps (s.acked n ack) := Keeps.setPeer (h.fold fun _ _ h₁ => h₁.ackDone)

theorem collMsg {peer seq rank phase data} (h : s₀.Keeps s) : s₀.Keeps (s.collMsg peer seq rank phase data) := by
  unfold State.collMsg
  split <;> exact h.updLink

theorem applyMsg {n d} (h : s₀.Keeps s) : s₀.Keeps (s.applyMsg n d) := by
  unfold State.applyMsg
  dsimp only
  split
  · exact Keeps.ite h.setPeer.acked h.setPeer
  · split
    · exact h.setPeer.freezePeer
    · split
      · split
        · exact h.setPeer.freezePeer
        · exact h.setPeer.homeStore.peerTs
      · split
        · exact h.setPeer.freezePeer
        · exact h.setPeer.homeLoad.send
      · split
        · exact h.setPeer.freezePeer
        · exact h.setPeer.homeAtomic.peerTs.send
      · exact h.setPeer.answerRemote.answered
      · exact h.setPeer.answerRemote.answered
      · exact Keeps.ite h.setPeer.doorbell h.setPeer.updDie
      · exact h.setPeer.pageAnswer
      · exact h.setPeer.collMsg
      · exact Keeps.ite h.setPeer.regWrite.send h.setPeer.regRead.send
      · exact h.setPeer.failRefused.acked
      · exact h.setPeer

theorem applyHeld {n k} (h : s₀.Keeps s) : s₀.Keeps (s.applyHeld n k) := by
  induction k generalizing s with
  | zero => exact h
  | succ k ih =>
    unfold State.applyHeld
    dsimp only
    split
    · exact h
    · split
      · exact h
      · exact ih h.setPeer.applyMsg

theorem ackBack {n txSeq} (h : s₀.Keeps s) : s₀.Keeps (s.ackBack n txSeq) := Keeps.ite h.send h

theorem inbound {n d} (h : s₀.Keeps s) : s₀.Keeps (s.inbound n d) := by
  unfold State.inbound
  refine Keeps.ite h ?_
  extract_lets ahead s₁ s₂
  have hs₁ : s₀.Keeps s₁ := Keeps.ite h h.acked
  have hs₂ : s₀.Keeps s₂ := hs₁.applyMsg.applyHeld
  exact Keeps.ite (Keeps.ite hs₂ hs₂.ackBack) (Keeps.ite (Keeps.ite hs₁ hs₁.setPeer) hs₁.ackBack)

theorem datagram {t n d} (h : s₀.Keeps s) : s₀.Keeps (s.datagram t n d) := Keeps.ite h.inbound h

theorem askRemote {st t sb peer ext dst atomic msg} (h : s₀.Keeps s) : s₀.Keeps (s.askRemote st t sb peer ext dst atomic msg) := by
  unfold State.askRemote
  dsimp only
  exact Keeps.ite h.addResult.send.updGroup h.addResult.updPending

theorem rldThread {st t th d base x sb ext} (h : s₀.Keeps s) : s₀.Keeps (s.rldThread st t th d base x sb ext).state := by
  unfold State.rldThread
  split
  · exact h
  · split
    · exact h.checkAccess.accOut ‹_›
    · split
      · exact h.checkAccess.accOk ‹_›
      · exact (h.checkAccess.accOk ‹_›).askRemote

theorem rstThread {st t th d base x size} (h : s₀.Keeps s) : s₀.Keeps (s.rstThread st t th d base x size).state := by
  unfold State.rstThread
  split
  · exact h
  · split
    · exact h
    · split
      · exact h.checkAccess.accOut ‹_›
      · split
        · exact (h.checkAccess.accOk ‹_›).sendWrite.updGroup
        · exact (h.checkAccess.accOk ‹_›).addAsync

theorem ratomThread {st t th d base x sb op} (h : s₀.Keeps s) : s₀.Keeps (s.ratomThread st t th d base x sb op).state := by
  unfold State.ratomThread
  split
  · exact h
  · split
    · exact h
    · dsimp only
      split
      · exact h.checkAccess.accOut ‹_›
      · split
        · exact h.checkAccess.accOk ‹_›
        · exact (h.checkAccess.accOk ‹_›).askRemote

theorem updColl {id f} (h : s₀.Keeps s) : s₀.Keeps (s.updColl id f) := h.updLink

theorem collSend {c rank phase data} (h : s₀.Keeps s) : s₀.Keeps (s.collSend c rank phase data) := h.send

theorem collJoin {c} (h : s₀.Keeps s) : s₀.Keeps (s.collJoin c) := by
  unfold State.collJoin
  split
  · exact h.engReadAt.fst ‹_›
  · exact (h.engReadAt.fst ‹_›).updColl
  · dsimp only
    split
    · exact (h.engReadAt.fst ‹_›).updColl
    · refine Keeps.fold (Keeps.updLink ((h.engReadAt.fst ‹_›).updColl.fold fun _ _ h₁ => h₁.collSend)) fun _ _ h₁ => ?_
      split
      · exact h₁.collMsg
      · exact h₁

theorem collRead {c} (h : s₀.Keeps s) : s₀.Keeps (s.collRead c) := by
  unfold State.collRead
  dsimp only
  split
  · next hq => exact Keeps.ofFst hq (Keeps.either Prod.fst h h.engReadAt)
  · next hq => exact (Keeps.ofFst hq (Keeps.either Prod.fst h h.engReadAt)).updColl
  · next hq =>
    have hr := Keeps.ofFst hq (Keeps.either Prod.fst h h.engReadAt)
    exact Keeps.updColl (Keeps.fold hr.resultTs fun _ _ h₁ => Keeps.collSend (Keeps.fold h₁ fun _ _ h₂ => h₂.collSend))

theorem collWrite {c} (h : s₀.Keeps s) : s₀.Keeps (s.collWrite c).1 := by
  unfold State.collWrite
  refine Keeps.foldl (p := Prod.fst) h fun _ _ h₁ => ?_
  split
  · split
    · exact h₁
    · split
      · exact h₁
      · exact h₁.engWrite.resultTs
  · exact h₁

theorem collDone {c} (h : s₀.Keeps s) : s₀.Keeps (s.collDone c) := by
  unfold State.collDone
  dsimp only
  split
  · exact h.engWrite.fst ‹_›
  · refine Keeps.resultReady ?_
    refine Keeps.endEng ?_
    refine Keeps.updLink ?_
    split
    · exact (h.engWrite.fst ‹_›).updPending
    · exact h.engWrite.fst ‹_›
  · refine Keeps.resultReady ?_
    refine Keeps.endEng ?_
    refine Keeps.updLink ?_
    split
    · exact (h.engWrite.fst ‹_›).resultTs.updPending
    · exact (h.engWrite.fst ‹_›).resultTs

theorem collStep {c} (h : s₀.Keeps s) : s₀.Keeps (s.collStep c) := by
  unfold State.collStep
  split
  · split
    · split
      · exact h.collWrite.fst ‹_›
      · exact (h.collWrite.fst ‹_›).collDone
    · exact h.collDone
  · split
    · exact h.collJoin
    · split
      · exact h
      · split
        · exact h.updColl
        · split
          · exact h.collRead
          · split
            · exact h
            · split
              · split
                · exact h.collWrite.fst ‹_›
                · exact (h.collWrite.fst ‹_›).updColl
                · exact (h.collWrite.fst ‹_›).updColl
              · exact h.collDone

theorem execColl {g sb} (h : s₀.Keeps s) : s₀.Keeps (outcomeOr s₀ (Machine.execColl g sb s)) := by
  unfold Machine.execColl
  refine h.perGroup fun _ _ _ _ h₁ => ?_
  split
  · exact h₁
  · split
    · exact h₁.unitAccess.accOut ‹_›
    · refine Keeps.updLink ?_
      exact (h₁.unitAccess.accOk ‹_›).onDev.raisePts.onDev.onDev.updGroup.onDev

theorem execCwait {g d} (h : s₀.Keeps s) : s₀.Keeps (outcomeOr s₀ (Machine.execCwait g d s)) := by
  unfold Machine.execCwait
  refine h.perGroup fun _ _ _ _ h₁ => ?_
  split
  · exact h₁
  · dsimp only
    split
    · exact h₁.holdOn
    · split
      · exact h₁.unitAccess.accOut ‹_›
      · split
        · exact (h₁.unitAccess.accOk ‹_›).homeLoad.raisePts
        · exact (h₁.unitAccess.accOk ‹_›).homeLoad.holdOn

end State.Keeps
end Sys2Proof.Machine
end

section
/-! What is kept (O57): shading and the lanes of values. -/

namespace Sys2Proof.Machine
namespace State.Keeps

variable {s₀ s t : State}

theorem icmp {pd a b f} (h : s₀.Keeps s) : s₀.Keeps (outcomeOr s₀ (s.icmp pd a b f)) := h.predUnit

theorem fcmp {pd a b nan f} (h : s₀.Keeps s) : s₀.Keeps (outcomeOr s₀ (s.fcmp pd a b nan f)) := h.predUnit

theorem cvtTo {d f x} (h : s₀.Keeps s) : s₀.Keeps (outcomeOr s₀ (s.cvtTo d f x)) := h.fpUnit

theorem cvtInt {d a lo hi dflt} (h : s₀.Keeps s) : s₀.Keeps (outcomeOr s₀ (s.cvtInt d a lo hi dflt)) := h.fpUnit

theorem cvtWiden {d a lane f} (h : s₀.Keeps s) : s₀.Keeps (outcomeOr s₀ (s.cvtWiden d a lane f)) := h.fpUnit

theorem cvtPair {d a b f} (h : s₀.Keeps s) : s₀.Keeps (outcomeOr s₀ (s.cvtPair d a b f)) := h.fpUnit

theorem packUnit {d f} (h : s₀.Keeps s) : s₀.Keeps (outcomeOr s₀ (s.packUnit d f)) := h.regsUnit

theorem encodeDone {st t f d lane elem flags nx bad} (h : s₀.Keeps s) : s₀.Keeps (s.encodeDone st t f d lane elem flags nx bad).state := by
  unfold State.encodeDone
  split
  · exact h
  · dsimp only
    split
    · split
      · exact h.plain
      · exact h.updGroup
    · split
      · split
        · exact Keeps.plain ((h.engRange.fst ‹_›).fold fun _ _ h₁ => h₁.queueStore)
        · exact Keeps.updGroup ((h.engRange.fst ‹_›).fold fun _ _ h₁ => h₁.queueStore)
      · exact (h.engRange.fst ‹_›).at_
      · exact (h.engRange.fst ‹_›).stopOr ((h.engRange.fst ‹_›).parkPage)

theorem roundTrip {st} (h : s₀.Keeps s) : s₀.Keeps (s.roundTrip st) := h.onDev.updStream

theorem encodeThread {st t f d lane row col x} (h : s₀.Keeps s) : s₀.Keeps (s.encodeThread st t f d lane row col x).state := by
  unfold State.encodeThread
  split
  · exact h
  · dsimp only
    split
    · split
      · exact h
      · exact h.encodeDone
    · split
      · exact h
      · split
        · exact (h.settleGroup.roundTrip.appendOutlier.fst ‹_›).raisePts.encodeDone
        · split <;> exact (h.settleGroup.roundTrip.appendOutlier.fst ‹_›).encodeDone
        · exact (h.settleGroup.roundTrip.appendOutlier.fst ‹_›).at_
        · exact (h.settleGroup.roundTrip.appendOutlier.fst ‹_›).stopOr ((h.settleGroup.roundTrip.appendOutlier.fst ‹_›).parkPage)

theorem encodeUnit {d fs lane fmt scaleMax row col a} (h : s₀.Keeps s) :
    s₀.Keeps (outcomeOr s₀ (s.encodeUnit d fs lane fmt scaleMax row col a)) := by
  unfold State.encodeUnit
  refine h.perThread fun _ _ _ _ h₁ => ?_
  split
  · exact h₁
  · split
    · exact h₁.plain
    · split
      · exact h₁.plain
      · exact h₁.encodeThread

theorem decodeUnit {d a fs lane fmt scaleMax mode} (h : s₀.Keeps s) :
    s₀.Keeps (outcomeOr s₀ (s.decodeUnit d a fs lane fmt scaleMax mode)) := by
  unfold State.decodeUnit
  refine h.perThread fun _ _ _ _ h₁ => ?_
  split
  · exact h₁
  · split
    · exact h₁.plain
    · split
      · exact h₁.plain
      · exact h₁.updGroup

theorem exchange {d a b f} (h : s₀.Keeps s) : s₀.Keeps (outcomeOr s₀ (s.exchange d a b f)) := Keeps.onStream fun _ _ => h.settle

theorem int3 {d a b f} (h : s₀.Keeps s) : s₀.Keeps (outcomeOr s₀ (s.int3 d a b f)) := h.valueUnit

theorem int3v {d a b f} (h : s₀.Keeps s) : s₀.Keeps (outcomeOr s₀ (s.int3v d a b f)) := h.int3

theorem int2 {d a f} (h : s₀.Keeps s) : s₀.Keeps (outcomeOr s₀ (s.int2 d a f)) := h.valueUnit

theorem intImm {d a imm f} (h : s₀.Keeps s) : s₀.Keeps (outcomeOr s₀ (s.intImm d a imm f)) := h.valueUnit

theorem transc {sb d a f} (h : s₀.Keeps s) : s₀.Keeps (outcomeOr s₀ (s.transc sb d a f)) := by
  unfold State.transc
  refine h.perThread fun _ _ _ _ h₁ => ?_
  split
  · exact h₁
  · split
    split
    · exact h₁.plain
    · exact h₁.issueResult

theorem bytes {x : UnitRun} {core ctx eng va n} (h : s₀.Keeps x.s) : s₀.Keeps (x.bytes core ctx eng va n).1.s := by
  unfold UnitRun.bytes
  split <;> exact h.engReadAt.fst ‹_›

theorem andThen {α : Type} {x : UnitRun × ReadRes} {w : α} {e f} (h : s₀.Keeps x.1.s) (hf : ∀ x b, s₀.Keeps x.s → s₀.Keeps (f x b).1.s) :
    s₀.Keeps (UnitRun.andThen x w e f).1.s := by
  unfold UnitRun.andThen
  split
  · exact hf _ _ h
  · exact h
  · exact h

theorem reads {x : UnitRun} {core ctx eng n l} (h : s₀.Keeps x.s) : s₀.Keeps (x.reads core ctx eng n l).1.s := by
  induction l generalizing x with
  | nil => exact h
  | cons va r ih =>
    unfold UnitRun.reads
    split
    · split
      · exact (ih (h.bytes.unitRun ‹_›)).unitRun ‹_›
      · exact ih (h.bytes.unitRun ‹_›)
    · exact h.bytes.unitRun ‹_›

theorem snapped {x : UnitRun} {r v} (h : s₀.Keeps x.s) : s₀.Keeps (x.snapped r v).1.s := by
  unfold UnitRun.snapped
  split
  · exact Keeps.foldl (p := Prod.fst) h fun _ _ h₁ => h₁.snapVtx
  · exact h

theorem attrResult {pts core ctx eng op rec sel} (h : s₀.Keeps s) : s₀.Keeps (s.attrResult pts core ctx eng op rec sel).1.s := by
  unfold State.attrResult
  dsimp only
  split
  · exact h
  · split
    · exact h
    · refine h.bytes.andThen fun _ _ h₁ => ?_
      refine h₁.bytes.andThen fun _ _ h₂ => ?_
      split
      · exact h₂
      · refine h₂.bytes.andThen fun _ _ h₃ => ?_
        split
        · exact h₃
        · split
          · exact h₃.reads.unitRun ‹_›
          · split
            · exact (h₃.reads.unitRun ‹_›).snapped
            · split
              · exact (h₃.reads.unitRun ‹_›).snapped
              · split <;> exact (h₃.reads.unitRun ‹_›).snapped.reads.unitRun ‹_›

theorem attrUnit {op d a b sb} (h : s₀.Keeps s) : s₀.Keeps (outcomeOr s₀ (s.attrUnit op d a b sb)) := by
  unfold State.attrUnit
  refine h.perThread fun _ _ _ _ h₁ => ?_
  split
  · exact h₁
  · dsimp only
    split
    · exact h₁.plain
    · split
      · exact h₁
      · exact h₁.addResult

theorem tex {x : UnitRun} {ctx va n a} (h : s₀.Keeps x.s) : s₀.Keeps (x.tex ctx va n a).1.s := by
  unfold UnitRun.tex
  split
  · exact h
  · split
    · split
      · exact (h.walkInstall.fst ‹_›).homeLoad
      · exact h.walkInstall.fst ‹_›
    · exact h.walkInstall.fst ‹_›
    · exact h.walkInstall.fst ‹_›

theorem texels {s : UnitRun} {ctx t l xs} (h : s₀.Keeps s.s) : s₀.Keeps (s.texels ctx t l xs).1.s := by
  induction xs generalizing s with
  | nil => exact h
  | cons a r ih =>
    unfold UnitRun.texels
    dsimp only
    split
    · split
      · exact (ih (h.tex.unitRun ‹_›)).unitRun ‹_›
      · exact ih (h.tex.unitRun ‹_›)
    · exact h.tex.unitRun ‹_›

theorem point {s : UnitRun} {ctx t u v l} (h : s₀.Keeps s.s) : s₀.Keeps (s.point ctx t u v l).1.s := by
  unfold UnitRun.point
  split <;> exact h.texels.unitRun ‹_›

theorem linear {s : UnitRun} {ctx t u v l} (h : s₀.Keeps s.s) : s₀.Keeps (s.linear ctx t u v l).1.s := by
  unfold UnitRun.linear
  dsimp only
  split <;> exact h.texels.unitRun ‹_›

theorem coord {clamp w} (h : s₀.Keeps s) : s₀.Keeps (s.coord clamp w).1 := by
  unfold State.coord
  split
  · exact h
  · split
    · exact h
    · exact h.freeWord
  · exact h

theorem sample {s : UnitRun} {ctx t u v l next} (h : s₀.Keeps s.s) : s₀.Keeps (s.sample ctx t u v l next).1.s := by
  unfold UnitRun.sample
  split
  · exact h.point
  · split
    · split
      · exact (h.linear.unitRun ‹_›).linear.unitRun ‹_›
      · exact (h.linear.unitRun ‹_›).linear
    · exact h.linear

theorem sampleResult {pts core ctx eng desc c} (h : s₀.Keeps s) : s₀.Keeps (s.sampleResult pts core ctx eng desc c).1.s := by
  unfold State.sampleResult
  split
  · exact h
  · have hb : s₀.Keeps (UnitRun.bytes ⟨s, pts⟩ core ctx eng desc 64).1.s := h.bytes
    split
    · exact hb.unitRun ‹_›
    · exact hb.unitRun ‹_›
    · split
      · exact hb.unitRun ‹_›
      · split
        split
        extract_lets x num out i j
        have hx : s₀.Keeps x.s := ((hb.unitRun ‹_›).coord.fst ‹_›).coord.fst ‹_›
        clear_value x
        split
        have hout : ∀ x n, s₀.Keeps x.1.s → s₀.Keeps (out x n).1.s := by
          intro x n hs
          dsimp only [out]
          split <;> exact hs
        clear_value out
        split
        · exact hout _ _ hx.sample
        · split
          · exact hx.tex.unitRun ‹_›
          · exact hx.tex.unitRun ‹_›
          · have ht := hx.tex.unitRun ‹_›
            extract_lets m
            split
            · exact hout _ _ ht.sample
            · split
              · exact hout _ _ ht.linear
              · exact ht

theorem execSmp {d a b sb} (h : s₀.Keeps s) : s₀.Keeps (outcomeOr s₀ (Machine.execSmp d a b sb s)) := by
  unfold Machine.execSmp
  refine h.perThread fun _ _ _ _ h₁ => ?_
  split
  · exact h₁
  · dsimp only
    split
    · exact h₁.plain
    · split
      · exact h₁
      · exact h₁.addResult

end State.Keeps
end Sys2Proof.Machine
end

section
/-! What is kept (O57): results returned, and the issue of clauses. -/

namespace Sys2Proof.Machine
namespace State.Keeps

variable {s₀ s t : State}

theorem deliver {r} (h : s₀.Keeps s) : s₀.Keeps (s.deliver r) := by
  unfold State.deliver
  dsimp only
  refine Keeps.endEng ?_
  refine Keeps.dropResult ?_
  split
  · exact h.addAsync
  · exact h.updGroup.onDev

theorem deliverUnit {x : UnitRun × UnitRes} {r dst} (h : s₀.Keeps x.1.s) : s₀.Keeps (Machine.deliverUnit r dst x) := by
  unfold Machine.deliverUnit
  split
  · exact h
  · exact h.deliver
  · exact h.deliver

theorem returnResult {r} (h : s₀.Keeps s) : s₀.Keeps (s.returnResult r) := by
  unfold State.returnResult
  split
  · exact h.dropResult
  · dsimp only
    split
    · split
      · exact h.deliver
      · split
        · exact h.collStep
        · exact h
    · exact Keeps.ite h.deliver h
    · exact Keeps.ite h h.deliver
    · exact Keeps.ite h h.sampleResult.deliverUnit
    · exact Keeps.ite h h.attrResult.deliverUnit
    · exact Keeps.ite h.deliver h
    · split
      · exact h
      · split
        · exact Keeps.ite h.perform.deliver.checkBars h.perform
        · exact h.perform

theorem execResultReturn {rid} (h : s₀.Keeps s) : s₀.Keeps (outcomeOr s₀ (Machine.execResultReturn rid s)) := by
  unfold Machine.execResultReturn
  split
  · exact h
  · exact h.returnResult

theorem freeFwd {f} (h : s₀.Keeps s) : s₀.Keeps (s.freeFwd f) := by
  unfold State.freeFwd
  split
  · exact h
  · exact Keeps.ite h.onDev h

theorem anyLine {core l} (h : s₀.Keeps s) : s₀.Keeps (s.anyLine core l) := by
  induction l generalizing s with
  | nil => exact h
  | cons x r ih =>
    unfold State.anyLine
    dsimp only
    split
    · exact ih h
    · exact h.copyLine

theorem execForwardedArrival {core entry} (h : s₀.Keeps s) : s₀.Keeps (outcomeOr s₀ (Machine.execForwardedArrival core entry s)) := by
  unfold Machine.execForwardedArrival
  split
  · exact h
  · refine Keeps.freeFwd ?_
    split
    · exact h.deliver.onDev
    · split
      · exact Keeps.ite h.anyLine h
      · exact h

theorem execTlbRefill {core ctx vpage} (h : s₀.Keeps s) : s₀.Keeps (outcomeOr s₀ (Machine.execTlbRefill core ctx vpage s)) := by
  unfold Machine.execTlbRefill
  split
  · exact h
  · split
    · exact Keeps.ite ((h.walkInstall.fst ‹_›).onDev.updCore) (h.walkInstall.fst ‹_›)
    · exact (h.walkInstall.fst ‹_›).onDev.updCore

theorem ptsTick (h : s₀.Keeps s) : s₀.Keeps s.ptsTick := Keeps.ite h h.onDev

theorem execPauseEnd {grp} (h : s₀.Keeps s) : s₀.Keeps (outcomeOr s₀ (Machine.execPauseEnd grp s)) := by
  unfold Machine.execPauseEnd
  split
  · exact h
  · exact Keeps.ite h.updGroup h

theorem entered {a : SRes} {gid t vpc} (h : s₀.Keeps s) (ha : s₀.Keeps a.state) : s₀.Keeps (s.entered gid t vpc a) := by
  unfold State.entered
  split
  · exact ha
  · exact ha
  · exact ha
  · exact h.takeFault

theorem enterFirst {gid t} (h : s₀.Keeps s) : s₀.Keeps (s.enterFirst gid t) := by
  unfold State.enterFirst
  split
  · exact h
  · split
    · extract_lets go r
      have hgo : ∀ s k b, s₀.Keeps s → s₀.Keeps (go s k b).state := by
        intro s k b hs
        dsimp only [go]
        split
        · exact hs.plain
        · split
          · exact hs.plain
          · exact Keeps.either SRes.state hs.goto.enterCopy hs.plain
      have hr : s₀.Keeps r.state := by
        dsimp only [r]
        split
        · split
          · exact hgo _ _ _ h
          · exact h.stopOr h.parkOverlay
        · exact h.reach hgo
      clear_value r
      split
      · exact Keeps.entered hr hr
      · exact h.entered hr
    · exact h

theorem awaitCopy {gid t copy} (h : s₀.Keeps s) : s₀.Keeps (s.awaitCopy gid t copy) := by
  unfold State.awaitCopy
  split
  · exact h
  · split
    · exact h
    · have hr {g} : s₀.Keeps (s.seekCopy g t copy fun s k => .leave (s.updThread gid t fun th => { th with copy := k.id })).state :=
        h.seekCopy fun _ _ h₁ => h₁.updThread
      split
      · exact Keeps.entered (hr.fault ‹_›) (hr.fault ‹_›)
      · exact h.entered hr

theorem goEach {gid go l} (h : s₀.Keeps s) (hgo : ∀ s b, s₀.Keeps s → s₀.Keeps (go s b)) : s₀.Keeps (s.goEach gid go l) := by
  induction l generalizing s with
  | nil => exact h
  | cons k r ih =>
    unfold State.goEach
    dsimp only
    split
    · exact ih (hgo _ _ h)
    · exact hgo _ _ h

theorem refuseOr {g ts go} (h : s₀.Keeps s) (hgo : ∀ s b, s₀.Keeps s → s₀.Keeps (go s b)) : s₀.Keeps (s.refuseOr g ts go) := by
  unfold State.refuseOr
  split
  · exact h.goEach fun _ _ h₁ => hgo _ _ h₁
  · split
    · exact h
    · exact h.updThread.takeFault

theorem useBuffer {core reed b} (h : s₀.Keeps s) : s₀.Keeps (s.useBuffer core reed b) := h.updCore

theorem startStream {g t th k hdr w} (h : s₀.Keeps s) : s₀.Keeps (s.startStream g t th k hdr w) := by
  unfold State.startStream
  split
  · exact h
  · split
    · exact h.updThread
    · exact h.useBuffer.updGroup.onDev

theorem issueGroup {g} (h : s₀.Keeps s) : s₀.Keeps (s.issueGroup g) := by
  unfold State.issueGroup
  dsimp only
  split
  · exact h.updGroup.updThread.takeFault
  · split
    · exact h.updGroup
    · split
      · exact h.updGroup.refuseOr fun _ _ h₁ => h₁.enterFirst
      · split
        · exact h.updGroup.refuseOr fun _ _ h₁ => h₁.awaitCopy
        · split
          · exact h.updGroup.startStream
          · exact h.updGroup.takeFault

theorem execClauseIssue {core reed} (h : s₀.Keeps s) : s₀.Keeps (outcomeOr s₀ (Machine.execClauseIssue core reed s)) := by
  unfold Machine.execClauseIssue
  split
  · exact h
  · split
    · exact h
    · exact h.issueGroup

theorem execAgeExpiry {core reed} (h : s₀.Keeps s) : s₀.Keeps (outcomeOr s₀ (Machine.execAgeExpiry core reed s)) := by
  unfold Machine.execAgeExpiry
  split
  · exact h
  · split
    · exact h
    · exact Keeps.ite h.issueGroup h

theorem takeAsync {gid t} (h : s₀.Keeps s) : s₀.Keeps (s.takeAsync gid t) := by
  unfold State.takeAsync
  split
  · exact h
  · split
    · exact h
    · split
      · exact h
      · exact Keeps.ite h h.updThread.takeFault

theorem takeDue {gid t r} (h : s₀.Keeps s) : s₀.Keeps (s.takeDue gid t r) := by
  unfold State.takeDue
  split
  · exact h
  · split
    · exact h
    · exact Keeps.ite h h.updThread.takeFault

theorem streamDue {gid due at_} (h : s₀.Keeps s) : s₀.Keeps (s.streamDue gid due at_) := h.updThread.takeDue

theorem preUnit {st last floor} (h : s₀.Keeps s) : s₀.Keeps (s.preUnit st last floor) := by
  unfold State.preUnit
  dsimp only
  split
  · exact Keeps.streamDue (Keeps.updStream (h.fold fun _ _ h₁ => h₁.takeAsync))
  · exact Keeps.updStream (h.fold fun _ _ h₁ => h₁.takeAsync)

theorem finishClause {st completed} (h : s₀.Keeps s) : s₀.Keeps (s.finishClause st completed) := h.onDev.updGroup

theorem overClause {st completed} (h : s₀.Keeps s) : s₀.Keeps (s.overClause st completed) := h.updStream

theorem fetchUnit (h : s₀.Keeps s) : s₀.Keeps s.fetchUnit.1 := by
  unfold State.fetchUnit
  split
  · exact h
  · dsimp only
    split
    · exact h.overClause
    · split
      · exact h.preUnit
      · split
        · exact h.preUnit.overClause
        · exact h.preUnit.takeFault.overClause
        · exact h.preUnit.updStream

theorem endUnit {t : State} {i} (ht : s₀.Keeps t) : s₀.Keeps (s.endUnit t i) := by
  unfold State.endUnit
  split
  · split
    · extract_lets was on run whole place s₁ s₂ n done s₃
      have hs₂ : s₀.Keeps s₂ := by
        dsimp only [s₂]
        split
        · exact Keeps.ite ht.updGroup.streamDue ht.updGroup
        · exact ht.updGroup
      have hs₃ : s₀.Keeps s₃ := hs₂.updStream
      exact Keeps.ite hs₃.overClause hs₃
    · exact ht
  · exact ht

theorem uniform {d a b f} (h : s₀.Keeps s) : s₀.Keeps (outcomeOr s₀ (s.uniform d a b f)) := h.regsUniform

theorem preempt (h : s₀.Keeps s) : s₀.Keeps s.preempt := by
  unfold State.preempt
  dsimp only
  split
  · exact h
  · split
    · exact h
    · exact h.requestSave

theorem servePops (h : s₀.Keeps s) : s₀.Keeps s.servePops := by
  unfold State.servePops
  refine h.fold fun _ _ h₁ => ?_
  split
  · exact Keeps.ite h₁ h₁.servePop
  · exact h₁

theorem delayBins (h : s₀.Keeps s) : s₀.Keeps s.delayBins := h.fold fun _ _ h₁ => h₁.delayBin

end State.Keeps
end Sys2Proof.Machine
end

section
/-! What is kept (O57): the meaning of a step, and the step. -/

namespace Sys2Proof.Machine
namespace State.Keeps

variable {s₀ s t : State}

theorem toPhase {p} (h : s₀.Keeps s) : s₀.Keeps (s.toPhase p) := h.onDev

theorem countEligible (h : s₀.Keeps s) : s₀.Keeps s.countEligible := by
  unfold State.countEligible
  exact h.onDev

theorem raiseFloor (h : s₀.Keeps s) : s₀.Keeps s.raiseFloor := by
  unfold State.raiseFloor
  exact h.onDev.onDev

theorem nextClk (h : s₀.Keeps s) : s₀.Keeps s.nextClk := h.onDev.engineClk.ptsTick.raiseFloor.countEligible.frontBells

theorem goTrap {l} (h : s₀.Keeps s) : s₀.Keeps (optionOr s₀ (s.goTrap l)) := by
  induction l with
  | nil => exact Keeps.rfl
  | cons x r ih =>
    unfold State.goTrap
    split
    · exact ih
    · exact h.completeTrap

theorem planCore {c} (h : s₀.Keeps s) : s₀.Keeps (s.planCore c) := by
  unfold State.planCore
  exact h.onDev

theorem planRest (h : s₀.Keeps s) : s₀.Keeps s.planRest := h.onDev

theorem exec {i} (h : s₀.Keeps s) : s₀.Keeps (outcomeOr s₀ (Machine.exec i s)) := by
  unfold Machine.exec
  cases i with
  | bra => exact h.perThread fun _ _ _ _ h₁ => h₁.branch
  | brx => exact h.execBrx
  | call => exact h.execCall
  | callx => exact h.execCallx
  | pause => exact h.perGroup fun _ _ _ _ h₁ => h₁.updGroup
  | gmov | gadd | gsub | gmul | gand | gor | gxor | gshl | gshr | gsel | gcmpS32 | gcmpN32 => exact h.uniform
  | gld => exact h.regsUniform
  | add | sub | mul | mulhS32 | mulhN32 | mad | minS32 | minN32 | maxS32 | maxN32 | and | or | xor | shl | shr | sha | rot | bfeS32 | bfeN32
    | bfi => exact h.int3v
  | divS32 | divN32 | remS32 | remN32 => exact h.int3
  | abs | neg | not | popc | clz | brev | mov => exact h.int2
  | sel | movi | add64 | sub64 | mul64 | lea | sextS8 | sextS16 | sextS32 | zextN8 | zextN16 | zextN32 => exact h.valueUnit
  | addImm | mulImm | andImm | orImm | xorImm | shlImm | shrImm => exact h.intImm
  | icmpEq | icmpNe | icmpLtS32 | icmpLeS32 | icmpGtS32 | icmpGeS32 | icmpLtN32 | icmpLeN32 | icmpGtN32 | icmpGeN32 => exact h.icmp
  | fcmpEqF32 | fcmpNeF32 | fcmpLtF32 | fcmpLeF32 | fcmpGtF32 | fcmpGeF32 | fcmpUnF32 | fcmpOrdF32 => exact h.fcmp
  | pand | por | pxor | pnot => exact h.predUnit
  | pmovPv | pmovVp | mts | cvtS64F32 => exact h.regsUnit
  | voteAny | voteAll | voteBallot | tmovToRegister | tmovToSlice | ttr => exact Keeps.onStream fun _ _ => h.settle
  | mfs => exact h.execMfs
  | clk => exact h.execClk
  | trap | brk | nop => exact h.perThread fun _ _ _ _ h₁ => h₁
  | faddF32 | faddF16x2 | faddBf16x2 | fsubF32 | fsubF16x2 | fsubBf16x2 | fmulF32 | fmulF16x2 | fmulBf16x2 | fminF32 | fminF16x2
    | fminBf16x2 | fmaxF32 | fmaxF16x2 | fmaxBf16x2 | fdivF32 => exact h.fp2
  | fabsF32 | fabsF16x2 | fabsBf16x2 | fnegF32 | fnegF16x2 | fnegBf16x2 | fsqrtF32 | frndF32 | ffractF32 => exact h.fp1
  | fmaF32 | fmsF32 | fnmaF32 | fclampF32 | fmaF16x2 | fmaBf16x2 | fmsF16x2 | fmsBf16x2 => exact h.fp3
  | frcpF32 | frsqF32 | fexp2F32 | flog2F32 | fsinF32 | fcosF32 => exact h.transc
  | cvtF32S32 | cvtF32N32 | cvtF16F32 | cvtBf16F32 | cvtF32S64 => exact h.cvtTo
  | cvtS32F32 | cvtN32F32 => exact h.cvtInt
  | cvtF32F16 | cvtF32Bf16 => exact h.cvtWiden
  | cvtF16x2F32 | cvtBf16x2F32 => exact h.cvtPair
  | cvtkK8F32 | qntK8 | qntS8 => exact h.encodeUnit
  | cvtkF32K8 | dqntK8 | dqntS8 => exact h.decodeUnit
  | packB8 | packB16 | unpackS8 | unpackN8 | unpackS16 | unpackN16 => exact h.packUnit
  | xget | xshiftUp | xshiftDn | xscanAddS32 | xscanAddF32 | xscanMinS32 | xscanMaxS32 | xscanMinF32 | xscanMaxF32 | xredAddS32 | xredAddF32
    | xredMinS32 | xredMaxS32 | xredMinF32 | xredMaxF32 | xmatch | xbcast | xquadH | xquadV | xquadD => exact h.exchange
  | ldS8 | ldN8 | ldS16 | ldN16 | ldB32 | ldB64 | ldB128 => exact h.load
  | ldtB32 | ldtB64 | ldtB128 => exact h.perThread fun _ _ _ _ h₁ => h₁.ldtThread
  | vmvK8 | vmvBf16 | vmvF32 => exact h.perThread fun _ _ _ _ h₁ => h₁.vmvThread
  | stB8 | stB16 | stB32 | stB64 | stB128 => exact h.store
  | sttB32 | sttB64 | sttB128 => exact h.perThread fun _ _ _ _ h₁ => h₁.sttThread
  | atomAddS32 | atomAddF32 | atomMinS32 | atomMinN32 | atomMaxS32 | atomMaxN32 | atomAndB32 | atomOrB32 | atomXorB32 | atomExchB32
    | atomCasB32 | atomAddS64 | atomExchB64 | atomCasB64 => exact h.atom
  | atomAddS32Noret | atomAddF32Noret | atomMinS32Noret | atomMinN32Noret | atomMaxS32Noret | atomMaxN32Noret | atomAndB32Noret
    | atomOrB32Noret | atomXorB32Noret | atomAddS64Noret => exact h.atomNoret
  | atomtAddS32 | atomtMinS32 | atomtMaxS32 | atomtExchB32 | atomtCasB32 | atomtAddF32 => exact h.perThread fun _ _ _ _ h₁ => h₁.atomtThread
  | wait => exact h.execWait
  | ret => exact h.execRet
  | exit => exact Keeps.onStream fun _ _ => Keeps.recheck (Keeps.advance (h.runEach fun _ _ _ h₁ => h₁.endThread))
  | kill => exact h.execKill
  | rti => exact h.perThread fun _ _ _ _ h₁ => h₁.returnTrap
  | fence => exact h.execFence
  | xfence => exact h.execXfence
  | wcflush => exact h.execWcflush
  | macq => exact h.execMacq
  | mrel => exact h.execMrel
  | rbset => exact h.execRbset
  | rbjoin => exact h.execRbjoin
  | tbar => exact h.execTbar
  | cbar => exact h.execCbar
  | gbar => exact h.execGbar
  | cvsign => exact h.execCvsign
  | ringwait => exact h.execRingwait
  | ringpass => exact h.execRingpass
  | ovload => exact h.execOvload
  | ovdrop => exact h.perGroup fun _ _ _ _ h₁ => h₁.setOt
  | ovinv => exact h.execOvinv
  | ovq => exact h.execOvq
  | talloc => exact h.execTalloc
  | tfree => exact h.execTfree
  | tpres => exact h.execTpres
  | cpy | cpyg | cpst | cpfill => exact h.copyUnit
  | mbind | mbindR => exact h.perGroup fun _ _ _ _ h₁ => h₁.bind
  | msignReg | msignSlice | msignReReg | msignReSlice | msignReNone => exact h.perThread fun _ _ _ _ h₁ => h₁.signThread
  | mzero => exact h.execMzero
  | mmac => exact h.execMmac
  | accalloc => exact h.execAccalloc
  | accfree => exact h.execAccfree
  | mdrainHandle | mdrainTHandle | mdrainMemory | mdrainTMemory => exact h.drainUnit
  | accld => exact h.execAccld
  | accst => exact h.accUnit fun _ _ _ _ _ h₁ => h₁
  | bpush => exact h.execBpush
  | bpop => exact h.execBpop
  | cont => exact h.execCont
  | bflush => exact h.execBflush
  | bquery => exact h.execBquery
  | wgpush => exact h.execWgpush
  | mesh => exact h.execMesh
  | fseal => exact h.execFseal
  | fwait => exact h.execFwait
  | attr | attrD | bary => exact h.attrUnit
  | smp => exact h.execSmp
  | rldB32 | rldB64 | rldB128 => exact h.perThread fun _ _ _ _ h₁ => h₁.rldThread
  | rstB32 | rstB64 | rstB128 => exact h.perThread fun _ _ _ _ h₁ => h₁.rstThread
  | ratomAddS32 | ratomAddS64 | ratomExchB64 | ratomCasB64 => exact h.perThread fun _ _ _ _ h₁ => h₁.ratomThread
  | coll => exact h.execColl
  | cwait => exact h.execCwait
  | clauseIssue => exact h.execClauseIssue
  | ageExpiry => exact h.execAgeExpiry
  | pauseEnd => exact h.execPauseEnd
  | resultReturn => exact h.execResultReturn
  | storeTimestamp => exact h.execStoreTimestamp
  | ptsTick => exact h.ptsTick
  | tlbRefill => exact h.execTlbRefill
  | barrierRelease => exact h.execBarrierRelease
  | levelStep => exact h.levelStep
  | ctxBind => exact h.execCtxBind
  | ctxStart => exact h.execCtxStart
  | ctxSuspend => exact h.execCtxSuspend
  | ctxResume => exact h.execCtxResume
  | ctxThaw => exact h.execCtxThaw
  | ctxKill => exact h.execCtxKill
  | contextDrainComplete => exact h.execContextDrainComplete
  | doorbell | write | read | readresp | atomic | atomicresp | panswer | collMessage | mgmt | ack | nak => exact h.datagram
  | packetParse => exact h.execPacketParse
  | packetLaunch => exact h.execPacketLaunch
  | packetRetire => exact h.execPacketRetire
  | queueEnable => exact h.execQueueEnable
  | queuePreempt => exact h.execQueuePreempt
  | queueResume => exact h.execQueueResume
  | queueThaw => exact h.execQueueThaw
  | queueReset => exact h.execQueueReset
  | teamPlace => exact h.execTeamPlace
  | argumentWindowLoad => exact h.execArgumentWindowLoad
  | teamSaveComplete => exact h.execTeamSaveComplete
  | teamResume => exact h.execTeamResume
  | forwardedArrival => exact h.execForwardedArrival
  | groupEnd => exact h.execGroupEnd
  | gridRetire => exact h.execGridRetire
  | overlayFetchComplete => exact h.execOverlayFetchComplete
  | ovwaitTimeout => exact h.execOvwaitTimeout
  | accGrant => exact h.execAccGrant
  | accwaitTimeout => exact h.execAccwaitTimeout
  | matrixOperationComplete => exact h.completeEntry
  | drainComplete => exact h.execDrainComplete
  | copyCommandStart => exact h.execCopyCommandStart
  | copyLineWritten => exact h.execCopyLineWritten
  | binEnable => exact h.execBinEnable
  | binDisable => exact h.execBinDisable
  | recordAccept => exact h.execRecordAccept
  | ringRefill => exact h.execRingRefill
  | btimeout => exact Keeps.ite h.delayBin h
  | binLaunch => exact h.execBinLaunch
  | quadTest => exact h.execQuadTest
  | classify => exact h.execClassify
  | tileWriteOut => exact h.execTileWriteOut
  | sealComplete => exact h.execSealComplete
  | retransmitTimeout => exact Keeps.ite h (Keeps.ite h.downPeer h.setPeer.updLink)
  | peerOpen => exact Keeps.ite h.openPeer h
  | peerClose => exact Keeps.ite h.closePeer h
  | peerThaw => exact Keeps.ite h.thawPeer h
  | handshakeDone => exact Keeps.ite h h.setPeer.resend.flushHost
  | portUp => exact Keeps.ite h.setPort.portsChanged h
  | portDown => exact h.portDown
  | invalidateAsnRange | invalidateAll => exact h.startMmu
  | attestationReport => exact h.attest
  | reportWritten => exact Keeps.ite h.put.updDie h
  | energyRead => exact h.readEnergy
  | powerOnReset => exact h.execPowerOnReset
  | networkBootRetry => exact Keeps.ite h.updDie.netBoot h
  | blockReady => exact h.execBlockReady
  | thermalTrip => exact Keeps.ite h h.lost
  | biasStep | tempUpdate => exact Keeps.ite h h.updZone
  | registerWrite => exact h.regWrite
  | invalidationComplete => exact h.execInvalidationComplete
  | accumulatorIncrement => exact h.updEnergy
  | standbyRailLoss => exact h.updDie
  | boardPowerRemoval => exact h.lost
  | networkImageFetch => exact Keeps.ite (Keeps.ite h.netEnd.runImage h.updDie) h
  | fusedCounterRaise => exact Keeps.ite h.updDie h

theorem firstDue {l} (h : s₀.Keeps s) (e : s.firstDue l = .some (.next t)) : s₀.Keeps t := by
  induction l with
  | nil => exact nomatch e
  | cons i r ih =>
    unfold State.firstDue at e
    split at e
    · next hi =>
      split at e
      · exact ih e
      · cases e
        exact h.exec.next hi
    · exact nomatch e
    · exact nomatch e

/-- What comes of the first event due, or of `d` where none is. -/
theorem orElse {o : Option (Host.Outcome State Fault Refusal)} {d} (ho : ∀ t, o = .some (.next t) → s₀.Keeps t)
    (hd : s₀.Keeps (outcomeOr s₀ d)) : s₀.Keeps (outcomeOr s₀ (o.getD d)) := by
  rcases o with _ | t | f | x
  · exact hd
  · exact ho t (Eq.refl _)
  · exact Keeps.rfl
  · exact Keeps.rfl

theorem reedDue {r} (h : s₀.Keeps s) (e : s.reedDue r = .some (.next t)) : s₀.Keeps t := by
  unfold State.reedDue at e
  obtain e | ⟨-, e⟩ := Option.or_eq_some_iff.mp e
  · obtain ⟨u, hu, hn⟩ := Option.map_eq_some_iff.mp e
    cases hn
    exact h.goTrap.some hu
  · exact h.firstDue e

theorem stepIssue (h : s₀.Keeps s) : s₀.Keeps (outcomeOr s₀ s.stepIssue) := by
  unfold State.stepIssue
  split
  · exact h.finishClause
  · refine Keeps.orElse (fun t e => ?_) h.toPhase
    obtain ⟨_, -, hr⟩ := List.exists_of_findSome?_eq_some e
    exact h.reedDue hr

theorem stepBins (h : s₀.Keeps s) : s₀.Keeps (outcomeOr s₀ s.stepBins) :=
  Keeps.orElse (fun _ e => h.firstDue e) h.delayBins.servePops.toPhase

theorem stepStream (h : s₀.Keeps s) : s₀.Keeps (outcomeOr s₀ s.stepStream) := by
  unfold State.stepStream
  split
  · exact h.fetchUnit.fst ‹_›
  · have hf := h.fetchUnit.fst ‹_›
    split
    · exact Keeps.endUnit (hf.exec.next ‹_›)
    · exact Keeps.rfl
    · exact Keeps.rfl

theorem stepTodo {go} (h : s₀.Keeps s) (hgo : s₀.Keeps (outcomeOr s₀ go)) : s₀.Keeps (outcomeOr s₀ (s.stepTodo go)) := by
  unfold State.stepTodo
  split
  · exact h.onDev.exec
  · exact hgo

theorem stepUnits (h : s₀.Keeps s) : s₀.Keeps (outcomeOr s₀ s.stepUnits) := by
  unfold State.stepUnits
  refine h.stepTodo ?_
  split
  · exact h.onDev.stepStream
  · split
    · exact h.planCore
    · exact h.planRest

theorem stepPlace (h : s₀.Keeps s) : s₀.Keeps (outcomeOr s₀ s.stepPlace) :=
  Keeps.orElse (fun _ e => h.firstDue e)
    (Keeps.either (outcomeOr s₀) (Keeps.orElse (fun _ e => h.firstDue e) h.nextClk) h.preempt)

theorem stepGiven {go} (h : s₀.Keeps s) (hgo : s₀.Keeps (outcomeOr s₀ go)) : s₀.Keeps (outcomeOr s₀ (s.stepGiven go)) := by
  unfold State.stepGiven
  split
  · exact h.dev.exec
  · exact hgo

theorem stepOnce (h : s₀.Keeps s) : s₀.Keeps (outcomeOr s₀ s.stepOnce) := by
  unfold State.stepOnce
  split
  · exact h.stepGiven h.nextClk
  · split
    · exact h.stepIssue
    · exact h.stepBins
    · exact h.stepUnits
    · exact h.stepTodo h.toPhase
    · exact h.stepGiven h.toPhase
    · exact h.stepPlace

theorem step (h : s₀.Keeps s) : s₀.Keeps (outcomeOr s₀ (Machine.step s)) := h.stepOnce

end State.Keeps
end Sys2Proof.Machine
end

section
namespace Sys2Proof.Machine

/-- Settles O57: a step, and the meaning of an instruction, keep the fuses and the canonical form of device memory (`State.Keeps`). -/
theorem stepInvariants : Obligations.StepInvariants := by
  unfold Obligations.StepInvariants
  refine ⟨⟨fun s t i hm e => ?_, fun s t hm e => ?_⟩, fun s t e => ?_⟩
  · exact (State.Keeps.rfl.exec.next e).wf hm
  · exact (State.Keeps.rfl.step.next e).wf hm
  · have hf := (State.Keeps.rfl.step.next e).fuse
    exact ⟨hf, fun n => congrArg (·.devWord n) hf⟩

end Sys2Proof.Machine
end

section
/-! The special registers (R31, R104, R132, R181, R182): what each number of `MFS` reads, and what `MTS` and `CLK` write. -/

namespace Sys2Proof.Machine

/-! ## Units of a register class on a stream of one executing thread -/

variable {s : State} {st : Stream} {g : Group} {k : Nat} {th : Thread}

theorem State.regsUnit_one (h : s.IssuesOne st g k th) {f : Stream → Group → Nat → Thread → GRes} {g' : Group}
    (hf : f st g k th = .ok g') : s.regsUnit f = .next (s.after st g') := by
  obtain ⟨hi, hk, ht, hp⟩ := h
  rw [State.regsUnit, State.onStream_issues hi, hk]
  simp [runRegs, ht, hp, hf, ← State.settle_ok, hk]

theorem State.regsUniform_one (h : s.IssuesOne st g k th) {f : Stream → Group → Nat → Thread → GRes} {g' : Group}
    (hf : f st g k th = .ok g') : s.regsUniform f = .next (s.after st g') := by
  rw [State.regsUniform, State.onStream_issues h.1]
  simp [firstOn_one h, h.2.2.1, hf, State.settle_ok]

/-- `MFS` on a stream of one executing thread writes what the register's table gives for it. -/
theorem exec_mfs (h : s.IssuesOne st g k th) {num : BitVec 10} {w : Word} (hw : s.sysReg g k th num.toNat = some w) (d : Opnd) :
    exec (.mfs d num) s = .next (s.after st (wr g k d w)) := by
  change execMfs d num s = _
  unfold execMfs
  split
  · exact State.regsUniform_one h (by simp only [hw])
  · exact State.regsUnit_one h (by simp only [hw])

theorem extractLsb'_lo (x : BitVec 64) : x.extractLsb' 0 32 = BitVec.ofNat 32 x.toNat := by
  apply BitVec.eq_of_toNat_eq
  simp

theorem extractLsb'_hi (x : BitVec 64) : x.extractLsb' 32 32 = BitVec.ofNat 32 (x.toNat / 2 ^ 32) := by
  apply BitVec.eq_of_toNat_eq
  simp [Nat.shiftRight_eq_div_pow]

theorem words64_ofNat (n : Nat) : words64 (BitVec.ofNat 64 n) = [BitVec.ofNat 32 n, BitVec.ofNat 32 (n / 2 ^ 32)] := by
  rw [words64, extractLsb'_lo, extractLsb'_hi]
  have hl : BitVec.ofNat 32 (BitVec.ofNat 64 n).toNat = BitVec.ofNat 32 n := by
    apply BitVec.eq_of_toNat_eq
    simp
  have hh : BitVec.ofNat 32 ((BitVec.ofNat 64 n).toNat / 2 ^ 32) = BitVec.ofNat 32 (n / 2 ^ 32) := by
    apply BitVec.eq_of_toNat_eq
    simp
    omega
  rw [hl, hh]

theorem exec_clk (h : s.Issues st g) (d : Opnd) :
    exec (.clk d) s = .next (s.after st (if d.isG then atFirst st (fun g k _ => wrN g k d (words64 (BitVec.ofNat 64 s.dev.clk))) g
      else inTurn st (fun g k _ => wrN g k d (words64 (BitVec.ofNat 64 (s.dev.clk + placeIn st g k)))) st.threads g)) := by
  change execClk d s = _
  unfold execClk
  split
  · exact State.regsUniform_ok h fun _ g k _ => wrN g k d (words64 (BitVec.ofNat 64 s.dev.clk))
  · exact State.regsUnit_ok h fun st g k _ => wrN g k d (words64 (BitVec.ofNat 64 (s.dev.clk + placeIn st g k)))

/-! ## The special registers -/

theorem State.sysReg_ctx {n : Nat} (hn : 0x20 ≤ n ∧ n ≤ 0x24) : s.sysReg g k th n = some (s.ctxReg g.ctx n) := by
  simp [State.sysReg, hn, show n ≠ 0x10 by omega, show n ≠ 0x11 by omega]

theorem State.sysReg_launch {n : Nat} (hn : 0x30 ≤ n ∧ n ≤ 0x3F) : s.sysReg g k th n = some (s.launchReg g k n) := by
  simp [State.sysReg, hn, show n ≠ 0x10 by omega, show n ≠ 0x11 by omega, show ¬ n ≤ 0x24 by omega]

theorem State.sysReg_feature {i : Nat} (hi : i < 18) : s.sysReg g k th (0x60 + i) = some (s.fuse.devWord i) := by
  simp [State.sysReg, show 0x60 + i ≤ 0x71 by omega, show ¬ 0x60 + i ≤ 0x24 by omega, show ¬ 0x60 + i ≤ 0x3F by omega,
    show 0x60 + i ≠ 0x10 by omega, show 0x60 + i ≠ 0x11 by omega, show 0x60 + i ≠ 0x40 by omega, show 0x60 + i ≠ 0x41 by omega,
    show 0x60 + i ≠ 0x42 by omega, show 0x60 + i ≠ 0x43 by omega, show 0x60 + i ≠ 0x44 by omega, show 0x60 + i ≠ 0x50 by omega]

/-- The context's registers, where there is one. -/
theorem State.ctxReg_some {ctx : Nat} {c : Ctx} (hc : s.ctx? ctx = some c) :
    s.ctxReg ctx 0x20 = BitVec.ofNat 32 (ctx % 4096) ∧ s.ctxReg ctx 0x21 = BitVec.ofNat 32 (s.gen ctx % 2 ^ 20) ∧
    s.ctxReg ctx 0x22 = BitVec.ofNat 32 (c.e.prio % 16) ∧ s.ctxReg ctx 0x23 = BitVec.ofNat 32 (c.e.domain % 4096) ∧
    s.ctxReg ctx 0x24 = BitVec.ofNat 32 (c.e.asn % 65536) := by
  simp [State.ctxReg, hc]

section
variable {gr : Grid} {tm : Team} {cl : Cluster}

/-- The launch's registers, where the group's grid, team and cluster are there; a launch of the Sheng has no place in a grid (R132). -/
theorem State.launchReg_some (hgr : s.grid? g.grid = some gr) (htm : s.team? g.team = some tm) (hcl : s.cluster? tm.cluster = some cl) :
    let n := BitVec.ofNat 32
    let notBin := fun (other x : Nat) => n (if gr.src.isBin then other else x)
    let gives := fun (num : Nat) (w : Word) => s.launchReg g k num = w
    gives 0x30 (n gr.lr.codebase) ∧ gives 0x31 (n (gr.lr.codebase / 2 ^ 32)) ∧ gives 0x32 (n gr.args) ∧ gives 0x33 (n (gr.args / 2 ^ 32)) ∧
    gives 0x34 (notBin 0 cl.cx) ∧ gives 0x35 (notBin 0 cl.cy) ∧ gives 0x36 (notBin 0 cl.cz) ∧ gives 0x37 (notBin 0 tm.ri) ∧
    gives 0x38 (notBin 0 tm.rj) ∧ gives 0x39 (notBin 0 g.slot) ∧ gives 0x3A (notBin 1 gr.lr.teamGroups) ∧ gives 0x3B (n g.core) ∧
    gives 0x3C (n k) ∧ gives 0x3D (notBin 1 gr.lr.gx) ∧ gives 0x3E (notBin 1 gr.lr.gy) ∧ gives 0x3F (notBin 1 gr.lr.gz) := by
  cases hb : gr.src.isBin <;> simp [State.launchReg, hgr, htm, hcl, hb]
end

/-- The registers that the thread itself holds. -/
theorem State.sysReg_thread :
    let inside := fun (w : Word) => if th.inTrap then w else 0#32
    let gives := fun (num : Nat) (w : Word) => s.sysReg g k th num = some w
    gives 0x10 (BitVec.ofNat 32 th.fpflags.toNat) ∧ gives 0x11 (BitVec.ofNat 32 th.fptraps.toNat) ∧
    gives 0x40 (inside th.xpc) ∧ gives 0x41 (inside th.xcode) ∧ gives 0x42 (inside th.xunit) ∧
    gives 0x43 (BitVec.ofNat 32 th.xva.toNat) ∧ gives 0x44 (BitVec.ofNat 32 (th.xva.toNat / 2 ^ 32)) ∧
    gives 0x50 (if th.helper then 1#32 else 0#32) :=
  ⟨congrArg some (BitVec.ofNat_toNat ..).symm, congrArg some (BitVec.ofNat_toNat ..).symm, rfl, rfl, rfl,
    congrArg some (extractLsb'_lo _), congrArg some (extractLsb'_hi _), rfl⟩

end Sys2Proof.Machine
end

section
namespace Sys2Proof.Machine

/-- Settles O6: each number's row of the special registers' table (`State.sysReg`), written by a unit of one thread; `MTS` and `CLK` thread
by thread. -/
theorem systemRegisters : Obligations.SystemRegisters := by
  unfold Obligations.SystemRegisters
  refine ⟨?_, ?_⟩
  · intro s st g k th d c gr tm cl h hc hgr htm hcl reads n inside notBin
    have mfs {num : BitVec 10} {w : Word} (hw : s.sysReg g k th num.toNat = some w) : reads num w := exec_mfs h hw d
    have ctx {num : BitVec 10} {w : Word} (hn : 0x20 ≤ num.toNat ∧ num.toNat ≤ 0x24) (hw : s.ctxReg g.ctx num.toNat = w) : reads num w :=
      mfs ((State.sysReg_ctx hn).trans (congrArg some hw))
    have launch {num : BitVec 10} {w : Word} (hn : 0x30 ≤ num.toNat ∧ num.toNat ≤ 0x3F) (hw : s.launchReg g k num.toNat = w) : reads num w :=
      mfs ((State.sysReg_launch hn).trans (congrArg some hw))
    obtain ⟨hflags, htraps, hxpc, hxcode, hxunit, hxvalo, hxvahi, hhelper⟩ := State.sysReg_thread (s := s) (g := g) (k := k) (th := th)
    obtain ⟨hid, hgen, hprio, hdomain, hasn⟩ := State.ctxReg_some hc
    obtain ⟨h30, h31, h32, h33, h34, h35, h36, h37, h38, h39, h3A, h3B, h3C, h3D, h3E, h3F⟩ := State.launchReg_some (k := k) hgr htm hcl
    refine ⟨mfs hflags, mfs htraps, ctx (by decide) hid, ctx (by decide) hgen, ctx (by decide) hprio, ctx (by decide) hdomain,
      ctx (by decide) hasn, launch (by decide) h30, launch (by decide) h31, launch (by decide) h32, launch (by decide) h33,
      launch (by decide) h34, launch (by decide) h35, launch (by decide) h36, launch (by decide) h37, launch (by decide) h38,
      launch (by decide) h39, launch (by decide) h3A, launch (by decide) h3B, launch (by decide) h3C, launch (by decide) h3D,
      launch (by decide) h3E, launch (by decide) h3F, mfs hxpc, mfs hxcode, mfs hxunit, mfs hxvalo, mfs hxvahi, mfs hhelper,
      fun i hi => mfs ?_⟩
    rw [BitVec.toNat_ofNat, Nat.mod_eq_of_lt (by omega)]
    exact State.sysReg_feature hi
  · intro s st g a h at_ on turn
    refine ⟨?_, ?_, ?_, ?_⟩
    · simp only [BitVec.ofNat_toNat]
      exact State.regsUnit_ok h fun _ g k th => g.updThread k fun x => { x with fpflags := (rd g th a).extractLsb' 0 6 }
    · simp only [BitVec.ofNat_toNat]
      exact State.regsUnit_ok h fun _ g k th => g.updThread k fun x => { x with fptraps := (rd g th a).extractLsb' 0 2 }
    · exact State.regsUnit_ok h fun _ g k th => g.updThread k fun x => if x.inTrap then { x with xpc := rd g th a } else x
    · rw [exec_clk h]
      simp only [words64_ofNat]
      rfl

end Sys2Proof.Machine
end

section
/-! The register space at reset (R416, R433, R459), and the feature registers of the DEV block (R31). -/

namespace Sys2Proof.Machine

theorem State.answers_sheng (s : State) {c o : Nat} (hc : c < 192) (hlo : 0x4000 ≤ o) (ho : o < 0x10000) :
    s.answers (0x01000000 + 0x10000 * c + o) = (s.dev.die.powered && (s.coreOn c && s.shengReady c)) := by
  simp (disch := omega) [State.answers, if_neg, zoneAt_eq_none, coreOf_core hc]

theorem State.regRead_sheng {s : State} {a c o : Nat} (h : s.answers a = true) (ha : a % 4 = 0) (hc : c < 192)
    (ho : o < 0xC000) (hat : a = 0x01004000 + 0x10000 * c + o) : (s.regRead a).2 = s.readSheng c o := by
  obtain rfl : a = 0x01000000 + 0x10000 * c + (0x4000 + o) := by omega
  simp (disch := omega) [State.regRead, h, ha, if_neg, zoneAt_eq_none, coreOf_core hc]

/-! ## The reset state with its blocks ready -/

/-- The reset state once its zones, FRONT and its Shengs are ready (R433). -/
def State.resetReady : State :=
  { State.reset with dev := { State.reset.dev with die := { State.reset.dev.die with
      zonesRdy := BitVec.allOnes 12, front := true, shengRdy := BitVec.allOnes 192 } } }

namespace State.resetReady

@[simp] theorem powered : resetReady.dev.die.powered = true := rfl

theorem allOnes_getLsbD {w i : Nat} (h : i < w) : (BitVec.allOnes w).getLsbD i = true := by
  rw [BitVec.getLsbD_allOnes, decide_eq_true h]

theorem coreOn {c : Nat} (hc : c < 192) : resetReady.coreOn c = true := by
  rw [State.coreOn, decide_eq_true hc]
  exact allOnes_getLsbD hc

theorem zoneReady {z : Nat} (hz : z < 12) : resetReady.zoneReady z = true := by
  rw [State.zoneReady, Bool.and_eq_true]
  exact ⟨allOnes_getLsbD hz, rfl⟩

theorem shengReady {c : Nat} (hc : c < 192) : resetReady.shengReady c = true := by
  rw [State.shengReady, Bool.and_eq_true]
  exact ⟨allOnes_getLsbD hc, rfl⟩

theorem zoneOf_lt {c : Nat} (hc : c < 192) : zoneOf c < 12 := by
  unfold zoneOf coreX coreY
  omega

/-- No bin has been touched. -/
theorem bin (c n : Nat) : resetReady.bin c n = Bin.reset n := rfl

theorem answers_zone {z o : Nat} (hz : z < 12) (ho : o < 0x1000) : resetReady.answers (0x00100000 + 0x1000 * z + o) = true := by
  simp (disch := omega) [State.answers, if_neg, zoneAt_zone hz ho, zoneReady hz]

theorem answers_core {c o : Nat} (hc : c < 192) (ho : o < 0x10000) : resetReady.answers (0x01000000 + 0x10000 * c + o) = true := by
  rcases Nat.lt_or_ge o 0x4000 with h | h
  · rw [State.answers_core _ hc h, coreOn hc, zoneReady (zoneOf_lt hc), powered]
    rfl
  · rw [State.answers_sheng _ hc h ho, coreOn hc, shengReady hc, powered]
    rfl

/-- PEERST of a peer (R416): DOWN. -/
theorem read_peer {n : Nat} (hn : n < 64) : (resetReady.regRead (0x00051010 + 32 * n)).2 = 0#32 := by
  have ha : resetReady.answers (0x00051010 + 32 * n) = true := by
    simp (disch := omega) [State.answers, if_neg, zoneAt_eq_none, coreOf_eq_none]
  rw [State.regRead_link (o := 0x1010 + 32 * n) ha (by omega) (by omega) (by omega)]
  unfold State.readLink
  rw [if_neg (by omega), if_neg (by omega), if_neg (by omega), if_neg (by omega), if_pos (by simp; omega)]
  dsimp only
  rw [if_neg (by omega), if_pos (by omega)]
  rfl

theorem read_zone {z : Nat} (hz : z < 12) :
    let reads := fun (o : Nat) (w : Word) => (resetReady.regRead (0x00100000 + o + 0x1000 * z)).2 = w
    reads 0x00 16#32 ∧ reads 0x04 0#32 ∧ reads 0x48 0#32 := by
  have at_ {o : Nat} {w : Word} (h4 : o % 4 = 0) (ho : o < 0x1000) (h : resetReady.readZone z o = w) :
      (resetReady.regRead (0x00100000 + o + 0x1000 * z)).2 = w := by
    rw [Nat.add_right_comm]
    exact (State.regRead_zone (answers_zone hz ho) (by omega) hz ho rfl).trans h
  exact ⟨at_ rfl (by decide) rfl, at_ rfl (by decide) rfl, at_ rfl (by decide) rfl⟩

section
variable {c : Nat} (hc : c < 192)
include hc

theorem read_core :
    let reads := fun (o : Nat) (w : Word) => (resetReady.regRead (0x01000000 + 0x10000 * c + o)).2 = w
    reads 0x0040 4096#32 ∧ reads 0x1000 0x00124F80#32 ∧ reads 0x1004 64#32 ∧ reads 0x2000 8192#32 ∧ reads 0x2004 1024#32 ∧
    reads 0x2008 4096#32 ∧ reads 0x200C 0#32 ∧ reads 0x3000 0x00124F80#32 ∧ reads 0x3004 32#32 ∧ reads 0x3008 0#32 := by
  have ovl {o : Nat} (h4 : o % 4 = 0) (ho : o < 0x1000) :
      (resetReady.regRead (0x01000000 + 0x10000 * c + (0x1000 + o))).2 = resetReady.readOvl c o :=
    State.regRead_ovl (answers_core hc (by omega)) (by omega) hc ho (by omega)
  have tile {o : Nat} (h4 : o % 4 = 0) (ho : o < 0x1000) :
      (resetReady.regRead (0x01000000 + 0x10000 * c + (0x2000 + o))).2 = resetReady.readTile c o :=
    State.regRead_tile (answers_core hc (by omega)) (by omega) hc ho (by omega)
  have acc {o : Nat} (h4 : o % 4 = 0) (ho : o < 0x1000) :
      (resetReady.regRead (0x01000000 + 0x10000 * c + (0x3000 + o))).2 = resetReady.readAcc c o :=
    State.regRead_acc (answers_core hc (by omega)) (by omega) hc ho (by omega)
  exact ⟨State.regRead_age (answers_core hc (by decide)) hc rfl, ovl (o := 0x0) rfl (by decide), ovl (o := 0x4) rfl (by decide),
    tile (o := 0x0) rfl (by decide), tile (o := 0x4) rfl (by decide), tile (o := 0x8) rfl (by decide), tile (o := 0xC) rfl (by decide),
    acc (o := 0x0) rfl (by decide), acc (o := 0x4) rfl (by decide), acc (o := 0x8) rfl (by decide)⟩

/-- BINCFG and BTIMEOUT of a bin (R367): OFF, of threshold 32. -/
theorem read_bin {n : Nat} (hn : n < 64) :
    (resetReady.regRead (0x01000000 + 0x10000 * c + 0x4100 + 32 * n)).2 = 0x00002000#32 ∧
    (resetReady.regRead (0x01000000 + 0x10000 * c + 0x410C + 32 * n)).2 = 4096#32 := by
  have sheng {a o : Nat} (ha : a = 0x01000000 + 0x10000 * c + (0x4000 + o)) (h4 : o % 4 = 0) (ho : o < 0xC000) :
      (resetReady.regRead a).2 = resetReady.readSheng c o := by
    subst ha
    exact State.regRead_sheng (answers_core hc (by omega)) (by omega) hc ho (by omega)
  have hcfg : resetReady.readSheng c (0x100 + 32 * n) = 0x00002000#32 := by
    have hin : 0x100 + 32 * n < 0x900 := by omega
    simp (disch := omega) [State.readSheng, if_neg, hin, bin, Bin.reset, nw, bn]
  have htime : resetReady.readSheng c (0x10C + 32 * n) = 4096#32 := by
    have hin : 0x100 ≤ 0x10C + 32 * n ∧ 0x10C + 32 * n < 0x900 := by omega
    simp (disch := omega) [State.readSheng, if_neg, hin, bin, Bin.reset, nw]
  exact ⟨(sheng (by omega) (by omega) (by omega)).trans hcfg, (sheng (by omega) (by omega) (by omega)).trans htime⟩

end
end State.resetReady

/-! ## The feature registers (R31) -/

section
variable {s : State}

theorem State.regRead_dev (h : s.answers 0x00000000 = true) {n : Nat} (hn : n < 18) : (s.regRead (4 * n)).2 = s.fuse.devWord n := by
  have ha : s.answers (4 * n) = true := by
    rw [← h]
    simp (disch := omega) [State.answers, if_neg, zoneAt_eq_none, coreOf_eq_none]
  simp (disch := omega) [State.regRead, ha, if_pos]

/-- The cores of a mask are counted in 8 bits. -/
theorem Fuses.cores_lt (f : Fuses) : f.cores < 2 ^ 8 := by
  have h : f.cores ≤ (List.range 192).length := List.length_filter_le ..
  rw [List.length_range] at h
  omega

theorem Fuses.devWord_step (f : Fuses) (h : f.step < 2 ^ 8) : (f.devWord 0).toNat = 0x1920 + 2 ^ 16 * f.step := by
  simp only [Fuses.devWord, if_true, BitVec.toNat_ofNat]
  omega

theorem Fuses.devWord_counts (f : Fuses) (h : f.reeds < 2 ^ 8) :
    (f.devWord 1).toNat = f.reeds + 2 ^ 8 * f.hbm.toNat + 2 ^ 16 * f.ports.toNat + 2 ^ 24 * f.cores := by
  have hc := f.cores_lt
  have hh := f.hbm.isLt
  have hp := f.ports.isLt
  simp only [Fuses.devWord, Nat.one_ne_zero, if_false, if_true, BitVec.toNat_ofNat]
  omega

theorem Fuses.devWord_coremask (f : Fuses) {w b : Nat} (hw : w < 6) (hb : b < 32) :
    (f.devWord (4 + w)).getLsbD b = f.coremask.getLsbD (32 * w + b) := by
  have hin : 4 + w < 10 := by omega
  simp (disch := omega) [Fuses.devWord, if_neg, hin]

theorem Fuses.devWord_l2mask (f : Fuses) {w b : Nat} (hw : w < 6) (hb : b < 32) :
    (f.devWord (12 + w)).getLsbD b = f.l2mask.getLsbD (32 * w + b) := by
  have hin : 12 + w < 18 := by omega
  simp (disch := omega) [Fuses.devWord, if_neg, hin]

end
end Sys2Proof.Machine
end

section
namespace Sys2Proof.Machine

/-- Settles O58: the reset state is evaluated at each register, whose block's reader the address selects; the feature registers are the
words of the DEV block. -/
theorem resetValues : Obligations.ResetValues := by
  unfold Obligations.ResetValues
  refine ⟨?_, fun s ha hstep hreeds => ?_⟩
  · refine ⟨rfl, rfl, rfl, rfl, rfl, rfl, rfl, rfl, rfl, rfl, rfl, rfl, rfl, rfl, rfl, fun n hn => State.resetReady.read_peer hn,
      fun z hz => State.resetReady.read_zone hz, fun c hc => ?_⟩
    obtain ⟨hage, hovwait, hslots, hlines, hentries, hl2, hused, haccwait, hbanks, heq⟩ := State.resetReady.read_core hc
    exact ⟨hage, hovwait, hslots, hlines, hentries, hl2, hused, haccwait, hbanks, heq, fun n hn => State.resetReady.read_bin hc hn⟩
  · have word {n : Nat} (hn : n < 18) : (s.regRead (4 * n)).2 = s.fuse.devWord n := State.regRead_dev ha hn
    refine ⟨?_, ?_, ?_, ?_, fun w hw b hb => ⟨?_, ?_⟩⟩
    · exact (congrArg BitVec.toNat (word (n := 0) (by decide))).trans (s.fuse.devWord_step hstep)
    · exact (congrArg BitVec.toNat (word (n := 1) (by decide))).trans (s.fuse.devWord_counts hreeds)
    · exact congrArg BitVec.toNat (word (n := 2) (by decide))
    · exact congrArg BitVec.toNat (word (n := 3) (by decide))
    · rw [show 0x10 + 4 * w = 4 * (4 + w) by omega, word (by omega)]
      exact s.fuse.devWord_coremask hw hb
    · rw [show 0x30 + 4 * w = 4 * (12 + w) by omega, word (by omega)]
      exact s.fuse.devWord_l2mask hw hb

end Sys2Proof.Machine
end

section
/-! The encoding (R47 to R51, R55): the fields of each format's word, and the decoder on the words of the encoder. -/

namespace Sys2Proof

/-! ## Fields of one operand -/

theorem Opnd.ofBits_bits (o : Opnd) : Opnd.ofBits o.bits = o := by
  cases o with
  | v n =>
    have h : (0#1 ++ n).toNat < 64 := by rw [BitVec.toNat_append]; simpa using n.isLt
    simp only [Opnd.ofBits, Opnd.bits, if_pos h, BitVec.setWidth_append_eq_right]
  | g n =>
    have h : ¬ (1#1 ++ n).toNat < 64 := by rw [BitVec.toNat_append, BitVec.toNat_ofNat, Nat.not_lt]; exact Nat.left_le_or
    simp only [Opnd.ofBits, Opnd.bits, if_neg h, BitVec.setWidth_append_eq_right]

theorem PSrc.ofBits_bits (s : PSrc) : PSrc.ofBits s.bits = s := by
  have h : (0#3 ++ BitVec.ofBool s.neg ++ s.p).getLsbD 3 = s.neg := by
    rw [BitVec.getLsbD_append, BitVec.getLsbD_append]; simp
  simp only [PSrc.ofBits, PSrc.bits, BitVec.setWidth_append_eq_right, h]

theorem GSrc.ofBits_bits (b : GSrc) : GSrc.ofBits b.bits = b := by
  cases b with
  | reg n =>
    have h : (0#5 ++ n).toNat < 1024 := by rw [BitVec.toNat_append]; have := n.isLt; simp; omega
    simp only [GSrc.ofBits, GSrc.bits, if_pos h, BitVec.setWidth_append_eq_right]
  | imm x =>
    have h : ¬ (1#1 ++ x).toNat < 1024 := by rw [BitVec.toNat_append, BitVec.toNat_ofNat, Nat.not_lt]; exact Nat.left_le_or
    simp only [GSrc.ofBits, GSrc.bits, if_neg h, BitVec.setWidth_append_eq_right]

/-! ## Fields of the formats (R49)

The bits that the decoder reads of a word of each format, in whole fields and in parts of them. -/

theorem bits_packA (cls op d a b) : let w := packA cls op d a b
    bits w 27 5 = cls ∧ bits w 21 6 = op ∧ bits w 14 7 = d ∧ bits w 7 7 = a ∧ bits w 0 7 = b ∧ bits w 14 3 = d.extractLsb' 0 3 ∧
    bits w 3 1 = b.extractLsb' 3 1 ∧ bits w 3 2 = b.extractLsb' 3 2 ∧ bits w 0 3 = b.extractLsb' 0 3 := by
  simp (disch := decide) only [bits, packA, BitVec.extractLsb'_append_eq_of_le, BitVec.extractLsb'_append_eq_of_add_le,
    BitVec.extractLsb'_eq_self, Nat.reduceSub, and_self]

theorem bits_packI (cls op d a imm) : let w := packI cls op d a imm
    bits w 27 5 = cls ∧ bits w 24 3 = op ∧ bits w 17 7 = d ∧ bits w 10 7 = a ∧ bits w 0 10 = imm ∧
    bits w 0 8 = imm.extractLsb' 0 8 := by
  simp (disch := decide) only [bits, packI, BitVec.extractLsb'_append_eq_of_le, BitVec.extractLsb'_append_eq_of_add_le,
    BitVec.extractLsb'_eq_self, Nat.reduceSub, and_self]

theorem bits_packG (cls op d a src) : let w := packG cls op d a src
    bits w 27 5 = cls ∧ bits w 23 4 = op ∧ bits w 17 6 = d ∧ bits w 11 6 = a ∧ bits w 0 11 = src ∧
    bits w 0 10 = src.extractLsb' 0 10 := by
  simp (disch := decide) only [bits, packG, BitVec.extractLsb'_append_eq_of_le, BitVec.extractLsb'_append_eq_of_add_le,
    BitVec.extractLsb'_eq_self, Nat.reduceSub, and_self]

theorem bits_packQ (cls op d a b c) : let w := packQ cls op d a b c
    bits w 27 5 = cls ∧ bits w 24 3 = op ∧ bits w 18 6 = d ∧ bits w 12 6 = a ∧ bits w 6 6 = b ∧ bits w 0 6 = c := by
  simp (disch := decide) only [bits, packQ, BitVec.extractLsb'_append_eq_of_le, BitVec.extractLsb'_append_eq_of_add_le,
    BitVec.extractLsb'_eq_self, Nat.reduceSub, and_self]

theorem bits_packT (cls op sb d a b) : let w := packT cls op sb d a b
    bits w 27 5 = cls ∧ bits w 24 3 = op ∧ bits w 21 3 = sb ∧ bits w 14 7 = d ∧ bits w 7 7 = a ∧ bits w 0 7 = b ∧
    bits w 14 6 = d.extractLsb' 0 6 ∧ bits w 7 6 = a.extractLsb' 0 6 := by
  simp (disch := decide) only [bits, packT, BitVec.extractLsb'_append_eq_of_le, BitVec.extractLsb'_append_eq_of_add_le,
    BitVec.extractLsb'_eq_self, Nat.reduceSub, and_self]

theorem bits_packM (cls op sb d base x) : let w := packM cls op sb d base x
    bits w 27 5 = cls ∧ bits w 23 4 = op ∧ bits w 20 3 = sb ∧ bits w 13 7 = d ∧ bits w 6 7 = base ∧ bits w 0 6 = x ∧
    bits w 13 6 = d.extractLsb' 0 6 ∧ bits w 6 6 = base.extractLsb' 0 6 := by
  simp (disch := decide) only [bits, packM, BitVec.extractLsb'_append_eq_of_le, BitVec.extractLsb'_append_eq_of_add_le,
    BitVec.extractLsb'_eq_self, Nat.reduceSub, and_self]

theorem bits_packN (cls op sb d data base) : let w := packN cls op sb d data base
    bits w 27 5 = cls ∧ bits w 22 5 = op ∧ bits w 19 3 = sb ∧ bits w 13 6 = d ∧ bits w 7 6 = data ∧ bits w 0 7 = base := by
  simp (disch := decide) only [bits, packN, BitVec.extractLsb'_append_eq_of_le, BitVec.extractLsb'_append_eq_of_add_le,
    BitVec.extractLsb'_eq_self, Nat.reduceSub, and_self]

theorem bits_packE (cls op d a b) : let w := packE cls op d a b
    bits w 27 5 = cls ∧ bits w 22 5 = op ∧ bits w 15 7 = d ∧ bits w 8 7 = a ∧ bits w 1 7 = b := by
  simp (disch := decide) only [bits, packE, BitVec.extractLsb'_append_eq_of_le, BitVec.extractLsb'_append_eq_of_add_le,
    BitVec.extractLsb'_eq_self, Nat.reduceSub, and_self]

theorem bits_packS (cls op d t rc ge gidx imm) : let w := packS cls op d t rc ge gidx imm
    bits w 27 5 = cls ∧ bits w 22 5 = op ∧ bits w 15 7 = d ∧ bits w 14 1 = t ∧ bits w 13 1 = rc ∧ bits w 12 1 = ge ∧
    bits w 6 6 = gidx ∧ bits w 1 5 = imm := by
  simp (disch := decide) only [bits, packS, BitVec.extractLsb'_append_eq_of_le, BitVec.extractLsb'_append_eq_of_add_le,
    BitVec.extractLsb'_eq_self, Nat.reduceSub, and_self]

theorem bits_packB (cls op off) : let w := packB cls op off
    bits w 27 5 = cls ∧ bits w 23 4 = op ∧ bits w 0 19 = off ∧ bits w 0 7 = off.extractLsb' 0 7 := by
  simp (disch := decide) only [bits, packB, BitVec.extractLsb'_append_eq_of_le, BitVec.extractLsb'_append_eq_of_add_le,
    BitVec.extractLsb'_eq_self, Nat.reduceSub, and_self]

theorem bits_packY (cls op n m stage phase) : let w := packY cls op n m stage phase
    bits w 27 5 = cls ∧ bits w 24 3 = op ∧ bits w 20 4 = n ∧ bits w 13 7 = m ∧ bits w 10 3 = stage ∧ bits w 9 1 = phase := by
  simp (disch := decide) only [bits, packY, BitVec.extractLsb'_append_eq_of_le, BitVec.extractLsb'_append_eq_of_add_le,
    BitVec.extractLsb'_eq_self, Nat.reduceSub, and_self]

theorem bits_packO (cls op ot d id) : let w := packO cls op ot d id
    bits w 27 5 = cls ∧ bits w 24 3 = op ∧ bits w 20 4 = ot ∧ bits w 13 7 = d ∧ bits w 0 12 = id := by
  simp (disch := decide) only [bits, packO, BitVec.extractLsb'_append_eq_of_le, BitVec.extractLsb'_append_eq_of_add_le,
    BitVec.extractLsb'_eq_self, Nat.reduceSub, and_self]

theorem bits_packH (cls op sb h reg aux) : let w := packH cls op sb h reg aux
    bits w 27 5 = cls ∧ bits w 23 4 = op ∧ bits w 20 3 = sb ∧ bits w 12 8 = h ∧ bits w 5 7 = reg ∧ bits w 0 5 = aux ∧
    bits w 0 2 = aux.extractLsb' 0 2 := by
  simp (disch := decide) only [bits, packH, BitVec.extractLsb'_append_eq_of_le, BitVec.extractLsb'_append_eq_of_add_le,
    BitVec.extractLsb'_eq_self, Nat.reduceSub, and_self]

theorem bits_packX1 (cls op cv acc h fs sb) : let w := packX1 cls op cv acc h fs sb
    bits w 27 5 = cls ∧ bits w 23 4 = op ∧ bits w 19 4 = cv ∧ bits w 14 5 = acc ∧ bits w 6 8 = h ∧ bits w 3 3 = fs ∧ bits w 0 3 = sb ∧
    bits w 6 6 = h.extractLsb' 0 6 := by
  simp (disch := decide) only [bits, packX1, BitVec.extractLsb'_append_eq_of_le, BitVec.extractLsb'_append_eq_of_add_le,
    BitVec.extractLsb'_eq_self, Nat.reduceSub, and_self]

theorem bits_packX2 (cls op reg acc aux sb) : let w := packX2 cls op reg acc aux sb
    bits w 27 5 = cls ∧ bits w 23 4 = op ∧ bits w 16 7 = reg ∧ bits w 11 5 = acc ∧ bits w 4 7 = aux ∧ bits w 1 3 = sb ∧
    bits w 4 6 = aux.extractLsb' 0 6 ∧ bits w 4 3 = aux.extractLsb' 0 3 ∧ bits w 4 1 = aux.extractLsb' 0 1 ∧
    bits w 5 2 = aux.extractLsb' 1 2 ∧ bits w 16 6 = reg.extractLsb' 0 6 := by
  simp (disch := decide) only [bits, packX2, BitVec.extractLsb'_append_eq_of_le, BitVec.extractLsb'_append_eq_of_add_le,
    BitVec.extractLsb'_eq_self, Nat.reduceSub, and_self]

theorem bits_packX3 (cls op cv src) : let w := packX3 cls op cv src
    bits w 27 5 = cls ∧ bits w 23 4 = op ∧ bits w 19 4 = cv ∧ bits w 0 19 = src ∧ bits w 12 6 = src.extractLsb' 12 6 ∧
    bits w 18 1 = src.extractLsb' 18 1 ∧ bits w 17 1 = src.extractLsb' 17 1 ∧ bits w 11 6 = src.extractLsb' 11 6 ∧
    bits w 6 5 = src.extractLsb' 6 5 := by
  simp (disch := decide) only [bits, packX3, BitVec.extractLsb'_append_eq_of_le, BitVec.extractLsb'_append_eq_of_add_le,
    BitVec.extractLsb'_eq_self, Nat.reduceSub, and_self]

/-- A `SEL` is a word of format A whose sub-opcode carries the predicate (R170). -/
theorem packSel_eq_packA (n : BitVec 3) (d a b : BitVec 7) : packSel n d a b = packA 2#5 (7#3 ++ n) d a b := by
  simp only [packSel, packA]
  rw [BitVec.append_assoc (x₁ := 2#5)]; rfl

/-- A `LEA` is a word of format A whose sub-opcode carries the shift (R175). -/
theorem packLea_eq_packA (n : BitVec 2) (d a b : BitVec 7) : packLea n d a b = packA 26#5 (1#4 ++ n) d a b := by
  simp only [packLea, packA]
  rw [BitVec.append_assoc (x₁ := 26#5)]; rfl

/-! ## The decoder reads what the encoder wrote -/

theorem rawDecode_packSel {n : BitVec 3} (h : n ≠ 7#3) (d a b : Opnd) :
    rawDecode (packSel n d.bits a.bits b.bits) = some (.sel n d a b) := by
  have hn : n = 0#3 ∨ n = 1#3 ∨ n = 2#3 ∨ n = 3#3 ∨ n = 4#3 ∨ n = 5#3 ∨ n = 6#3 := by decide +revert
  rw [packSel_eq_packA]
  rcases hn with rfl | rfl | rfl | rfl | rfl | rfl | rfl <;>
    simp only [rawDecode, rawInteger, bits_packA, BitVec.reduceAppend, BitVec.reduceToNat, Opnd.ofBits_bits]

theorem rawDecode_packLea (n : BitVec 2) (d a b : Opnd) : rawDecode (packLea n d.bits a.bits b.bits) = some (.lea n d a b) := by
  have hn : n = 0#2 ∨ n = 1#2 ∨ n = 2#2 ∨ n = 3#2 := by decide +revert
  rw [packLea_eq_packA]
  rcases hn with rfl | rfl | rfl | rfl <;>
    simp only [rawDecode, rawWide, bits_packA, BitVec.reduceAppend, BitVec.reduceToNat, Opnd.ofBits_bits]

/-! Each class's sub-opcodes are read back constructor by constructor, in four parts of the opcode map (R55); an instruction of another
class contradicts the part's bounds. -/

theorem rawDecode_registerClasses {i : Instr} {w : Word} (h : encode i = some w) (hw : wellFormed i = true)
    (hc : (bits w 27 5).toNat < 4) : rawDecode w = some i := by
  cases i <;> cases h
  case sel => exact rawDecode_packSel (by simpa [wellFormed] using hw) ..
  case lea => exact rawDecode_packLea ..
  all_goals simp only [bits_packA, bits_packI, bits_packG, bits_packQ, bits_packT, bits_packM, bits_packN, bits_packE, bits_packS, bits_packB, bits_packY,
    bits_packO, bits_packH, bits_packX1, bits_packX2, bits_packX3, BitVec.reduceToNat, Nat.reduceLT] at hc
  all_goals simp (disch := decide) only [rawDecode, rawControl, rawUniform, rawInteger, rawIntegerImm,
    bits_packA, bits_packB, bits_packG, bits_packI, BitVec.reduceToNat, BitVec.extractLsb'_append_eq_of_add_le,
    BitVec.extractLsb'_eq_self, Opnd.ofBits_bits, GSrc.ofBits_bits]

theorem rawDecode_floatClasses {i : Instr} {w : Word} (h : encode i = some w) (hw : wellFormed i = true)
    (hc : 4 ≤ (bits w 27 5).toNat ∧ (bits w 27 5).toNat < 8) : rawDecode w = some i := by
  cases i <;> cases h
  case sel => exact rawDecode_packSel (by simpa [wellFormed] using hw) ..
  case lea => exact rawDecode_packLea ..
  all_goals simp only [bits_packA, bits_packI, bits_packG, bits_packQ, bits_packT, bits_packM, bits_packN, bits_packE, bits_packS, bits_packB, bits_packY,
    bits_packO, bits_packH, bits_packX1, bits_packX2, bits_packX3, BitVec.reduceToNat, Nat.reduceLT, Nat.reduceLeDiff, false_and,
    and_false] at hc
  all_goals simp (disch := decide) only [rawDecode, rawFloat, rawFloat4, rawConv, rawExch,
    bits_packA, bits_packQ, bits_packE, bits_packS, BitVec.reduceToNat, BitVec.extractLsb'_append_eq_of_le, Nat.reduceSub,
    BitVec.extractLsb'_append_eq_of_add_le, BitVec.extractLsb'_eq_self, Opnd.ofBits_bits]

theorem rawDecode_memoryClasses {i : Instr} {w : Word} (h : encode i = some w) (hw : wellFormed i = true)
    (hc : 8 ≤ (bits w 27 5).toNat ∧ (bits w 27 5).toNat < 13) : rawDecode w = some i := by
  cases i <;> cases h
  case sel => exact rawDecode_packSel (by simpa [wellFormed] using hw) ..
  case lea => exact rawDecode_packLea ..
  all_goals simp only [bits_packA, bits_packI, bits_packG, bits_packQ, bits_packT, bits_packM, bits_packN, bits_packE, bits_packS, bits_packB, bits_packY,
    bits_packO, bits_packH, bits_packX1, bits_packX2, bits_packX3, BitVec.reduceToNat, Nat.reduceLT, Nat.reduceLeDiff, false_and,
    and_false] at hc
  all_goals simp (disch := decide) only [rawDecode, rawCmp, rawSpecial, rawLoad, rawStore, rawAtomic,
    bits_packA, bits_packI, bits_packM, bits_packN, BitVec.reduceToNat, BitVec.extractLsb'_append_eq_of_add_le,
    BitVec.extractLsb'_eq_self, Opnd.ofBits_bits, PSrc.ofBits_bits]

theorem rawDecode_systemClasses {i : Instr} {w : Word} (h : encode i = some w) (hw : wellFormed i = true)
    (hc : 13 ≤ (bits w 27 5).toNat ∧ (bits w 27 5).toNat < 27) : rawDecode w = some i := by
  cases i <;> cases h
  case sel => exact rawDecode_packSel (by simpa [wellFormed] using hw) ..
  case lea => exact rawDecode_packLea ..
  all_goals simp only [bits_packA, bits_packI, bits_packG, bits_packQ, bits_packT, bits_packM, bits_packN, bits_packE, bits_packS, bits_packB, bits_packY,
    bits_packO, bits_packH, bits_packX1, bits_packX2, bits_packX3, BitVec.reduceToNat, Nat.reduceLT, Nat.reduceLeDiff, false_and] at hc
  all_goals simp (disch := decide) only [rawDecode, rawOrder, rawBarrier, rawOverlay, rawHandle, rawMatrix, rawAcc, rawSheng, rawFrame, rawAttr, rawLink, rawTrap,
    rawTrans, rawWide,
    bits_packA, bits_packI, bits_packY, bits_packO, bits_packH, bits_packX1, bits_packX2, bits_packX3, bits_packT, bits_packM,
    BitVec.reduceToNat, BitVec.extractLsb'_append_eq_of_le, Nat.reduceSub, BitVec.extractLsb'_append_eq_of_add_le,
    BitVec.extractLsb'_eq_self, Opnd.ofBits_bits]

/-- The class of an encoding is that of an instruction (R55). -/
theorem class_of_encode {i : Instr} {w : Word} (h : encode i = some w) : (bits w 27 5).toNat < 27 := by
  cases i <;> cases h
  case sel n d a b => rw [packSel_eq_packA]; simp only [bits_packA]; decide
  case lea n d a b => rw [packLea_eq_packA]; simp only [bits_packA]; decide
  all_goals simp only [bits_packA, bits_packI, bits_packG, bits_packQ, bits_packT, bits_packM, bits_packN, bits_packE, bits_packS, bits_packB, bits_packY,
    bits_packO, bits_packH, bits_packX1, bits_packX2, bits_packX3]; decide

/-- Decoding undoes encoding (R47). -/
theorem rawDecode_of_encode {i : Instr} {w : Word} (h : encode i = some w) (hw : wellFormed i = true) : rawDecode w = some i := by
  have hc := class_of_encode h
  rcases Nat.lt_or_ge (bits w 27 5).toNat 4 with h4 | h4
  · exact rawDecode_registerClasses h hw h4
  rcases Nat.lt_or_ge (bits w 27 5).toNat 8 with h8 | h8
  · exact rawDecode_floatClasses h hw ⟨h4, h8⟩
  rcases Nat.lt_or_ge (bits w 27 5).toNat 13 with h13 | h13
  · exact rawDecode_memoryClasses h hw ⟨h8, h13⟩
  · exact rawDecode_systemClasses h hw ⟨h13, hc⟩

/-! ## The decoder, case by case -/

theorem decodeWord_header {w : Word} (h : (bits w 27 5).toNat = 31) : decodeWord w = .error .header := by
  simp only [decodeWord, h]

theorem decodeWord_isPrefix {w : Word} (h : (bits w 27 5).toNat = 28 ∨ (bits w 27 5).toNat = 29) :
    decodeWord w = .error .isPrefix := by
  rcases h with h | h <;> simp only [decodeWord, h]

/-- A word of a class that is neither the header's nor one of the prefixes' is what its class and sub-opcode name, where it is that instruction's encoding. -/
theorem decodeWord_of_class {w : Word} (hc : (bits w 27 5).toNat ∉ [28, 29, 31]) : decodeWord w = (rawDecode w).elim
    (.error .unassigned) fun i => if encode i = some w ∧ wellFormed i = true then .ok i else .error .illegalField := by
  unfold decodeWord
  split
  next h => exact absurd h fun h => hc (by simp [h])
  next h => exact absurd h fun h => hc (by simp [h])
  next h => exact absurd h fun h => hc (by simp [h])
  next => cases rawDecode w <;> rfl

theorem decodeWord_of_encode {i : Instr} {w : Word} (h : encode i = some w) (hw : wellFormed i = true) : decodeWord w = .ok i := by
  have hc := class_of_encode h
  rw [decodeWord_of_class (by simp; omega), rawDecode_of_encode h hw]
  exact if_pos ⟨h, hw⟩

theorem encode_of_decodeWord {i : Instr} {w : Word} (h : decodeWord w = .ok i) : encode i = some w ∧ wellFormed i = true := by
  unfold decodeWord at h
  split at h <;> try cases h
  split at h
  · cases h
  · split at h
    next hi => cases h; exact hi
    next => cases h

theorem decodeWord_eq_ok {i : Instr} {w : Word} : decodeWord w = .ok i ↔ encode i = some w ∧ wellFormed i = true :=
  ⟨encode_of_decodeWord, fun h => decodeWord_of_encode h.1 h.2⟩

/-! ## Prefixes and headers (R34, R51) -/

theorem bits_wordOfMod (m : Mod) : let w := wordOfMod m
    bits w 27 5 = 29#5 ∧ bits w 19 8 = 0#8 ∧ w.getLsbD 18 = m.neg ∧ bits w 15 3 = m.pred ∧ w.getLsbD 14 = m.ce ∧ bits w 12 2 = m.pol ∧
    w.getLsbD 11 = m.re ∧ bits w 9 2 = m.rm ∧ w.getLsbD 8 = m.sat ∧ bits w 0 8 = 0#8 := by
  simp (disch := decide) only [bits, wordOfMod, BitVec.extractLsb'_append_eq_of_le, BitVec.extractLsb'_append_eq_of_add_le,
    BitVec.extractLsb'_eq_self, Nat.reduceSub, BitVec.getLsbD_append, Nat.reduceLT, if_true, if_false, BitVec.getLsbD_ofBool,
    decide_true, Bool.true_and, and_self]

theorem bits_wordOfImm (x : BitVec 24) : let w := wordOfImm x
    bits w 27 5 = 28#5 ∧ bits w 24 3 = 0#3 ∧ bits w 0 24 = x := by
  simp (disch := decide) only [bits, wordOfImm, BitVec.extractLsb'_append_eq_of_le, BitVec.extractLsb'_append_eq_of_add_le,
    BitVec.extractLsb'_eq_self, Nat.reduceSub, and_self]

theorem bits_wordOfHeader (h : Header) : let w := wordOfHeader h
    bits w 27 5 = 31#5 ∧ w.getLsbD 15 = h.drain ∧ bits w 7 8 = h.wait ∧ bits w 4 3 = h.eclass ∧ bits w 0 4 = h.count := by
  simp (disch := decide) only [bits, wordOfHeader, BitVec.extractLsb'_append_eq_of_le, BitVec.extractLsb'_append_eq_of_add_le,
    BitVec.extractLsb'_eq_self, Nat.reduceSub, BitVec.getLsbD_append, Nat.reduceLT, if_true, if_false, BitVec.getLsbD_ofBool,
    decide_true, Bool.true_and, and_self]

theorem modOfWord_wordOfMod (m : Mod) : modOfWord (wordOfMod m) = some m := by
  simp only [modOfWord, bits_wordOfMod, and_self, if_true]

theorem immOfWord_wordOfImm (x : BitVec 24) : immOfWord (wordOfImm x) = some x := by
  simp only [immOfWord, bits_wordOfImm, and_self, if_true]

theorem headerOfWord_wordOfHeader (h : Header) : headerOfWord (wordOfHeader h) = h := by
  simp only [headerOfWord, bits_wordOfHeader]

theorem isHeaderWord_wordOfHeader (h : Header) : isHeaderWord (wordOfHeader h) = true := by
  simp only [isHeaderWord, bits_wordOfHeader, beq_self_eq_true]

/-- A bit of a word as a field of one bit. -/
theorem ofBool_getLsbD (w : Word) (n : Nat) : BitVec.ofBool (w.getLsbD n) = w.extractLsb' n 1 := by
  rw [BitVec.getLsbD_eq_extractLsb']
  generalize w.extractLsb' n 1 = b
  decide +revert

theorem modOfWord_eq_some {w : Word} {m : Mod} : modOfWord w = some m ↔ w = wordOfMod m := by
  refine ⟨fun h => ?_, fun h => h ▸ modOfWord_wordOfMod m⟩
  unfold modOfWord at h
  split at h
  next hz =>
    cases h
    obtain ⟨h27, h19, h0⟩ := hz
    have key : bits w 27 5 ++ bits w 19 8 ++ BitVec.ofBool (w.getLsbD 18) ++ bits w 15 3 ++ BitVec.ofBool (w.getLsbD 14) ++ bits w 12 2 ++
        BitVec.ofBool (w.getLsbD 11) ++ bits w 9 2 ++ BitVec.ofBool (w.getLsbD 8) ++ bits w 0 8 = w := by
      simp only [bits, ofBool_getLsbD, BitVec.extractLsb'_append_extractLsb'_eq_extractLsb' (x := w)]
      exact BitVec.extractLsb'_eq_self
    rw [h27, h19, h0] at key
    exact key.symm
  next => cases h

theorem immOfWord_eq_some {w : Word} {x : BitVec 24} : immOfWord w = some x ↔ w = wordOfImm x := by
  refine ⟨fun h => ?_, fun h => h ▸ immOfWord_wordOfImm x⟩
  unfold immOfWord at h
  split at h
  next hz =>
    cases h
    unfold wordOfImm
    rw [← hz.1, ← hz.2]
    simp only [bits, BitVec.extractLsb'_append_extractLsb'_eq_extractLsb' (x := w)]
    exact BitVec.extractLsb'_eq_self.symm
  next => cases h

end Sys2Proof
end

section
namespace Sys2Proof

/-- Settles O52: the decoder accepts a word exactly where the encoder gives it (`decodeWord_eq_ok`), and the fields of prefixes and headers
are read back (`bits_wordOfMod`, `bits_wordOfImm`, `bits_wordOfHeader`). -/
theorem encodingRoundTrip : Obligations.EncodingRoundTrip :=
  ⟨fun _ _ => decodeWord_eq_ok, modOfWord_wordOfMod, immOfWord_wordOfImm, fun h => ⟨headerOfWord_wordOfHeader h, isHeaderWord_wordOfHeader h⟩⟩

/-- Settles O54: each word is the encoding of its instruction (`decodeWord_of_encode`), or of the class of headers or of prefixes. -/
theorem sampleWords : Obligations.SampleWords :=
  ⟨decodeWord_of_encode rfl rfl, decodeWord_of_encode rfl rfl, decodeWord_of_encode rfl rfl, decodeWord_of_encode rfl rfl,
    decodeWord_of_encode rfl rfl, decodeWord_of_encode rfl rfl, decodeWord_of_encode rfl rfl, decodeWord_of_encode rfl rfl,
    decodeWord_of_encode rfl rfl, decodeWord_of_encode rfl rfl, decodeWord_of_encode rfl rfl, decodeWord_of_encode rfl rfl,
    decodeWord_of_encode rfl rfl, decodeWord_of_encode rfl rfl, decodeWord_header rfl, decodeWord_isPrefix (.inr rfl),
    modOfWord_eq_some.2 rfl, immOfWord_eq_some.2 rfl⟩

end Sys2Proof
end

section
/-! The check of a clause (R44, R51, R52): what counts as the first defect, word by word. -/

namespace Sys2Proof

theorem toNat_bits (w : Word) (lo n : Nat) : (bits w lo n).toNat = w.toNat / 2 ^ lo % 2 ^ n := by
  rw [bits, BitVec.extractLsb'_toNat, Nat.shiftRight_eq_div_pow]

/-- A field holds a number where the word's digits there are the number (R2). -/
theorem bits_eq_ofNat {w : Word} {lo n k : Nat} (hk : k < 2 ^ n) : bits w lo n = BitVec.ofNat n k ↔ w.toNat / 2 ^ lo % 2 ^ n = k := by
  rw [← BitVec.toNat_inj, toNat_bits, BitVec.toNat_ofNat, Nat.mod_eq_of_lt hk]

/-- The major class of a word: its field [31:27] (R47). -/
theorem toNat_class (w : Word) : (bits w 27 5).toNat = w.toNat / 2 ^ 27 := by
  rw [toNat_bits, Nat.mod_eq_of_lt (by have := w.isLt; omega)]

theorem class_eq {w : Word} {k : Nat} (hk : k < 32) : bits w 27 5 = BitVec.ofNat 5 k ↔ w.toNat / 2 ^ 27 = k := by
  rw [← toNat_class, ← BitVec.toNat_inj, BitVec.toNat_ofNat, Nat.mod_eq_of_lt hk]

/-! ## Words that are no instruction -/

theorem decodeWord_error_header {w : Word} : decodeWord w = .error .header ↔ w.toNat / 2 ^ 27 = 31 := by
  refine ⟨fun h => ?_, fun h => decodeWord_header (by rw [toNat_class, h])⟩
  by_contra hc
  by_cases hp : w.toNat / 2 ^ 27 = 28 ∨ w.toNat / 2 ^ 27 = 29
  · rw [decodeWord_isPrefix (by rwa [toNat_class])] at h
    cases h
  · rw [decodeWord_of_class (by rw [toNat_class]; simp; omega)] at h
    cases hr : rawDecode w with
    | none => rw [hr] at h; cases h
    | some i => simp only [hr, Option.elim_some] at h; split at h <;> cases h

theorem decodeWord_error_isPrefix {w : Word} : decodeWord w = .error .isPrefix ↔ w.toNat / 2 ^ 27 = 28 ∨ w.toNat / 2 ^ 27 = 29 := by
  refine ⟨fun h => ?_, fun h => decodeWord_isPrefix (by rwa [toNat_class])⟩
  by_contra hp
  by_cases hc : w.toNat / 2 ^ 27 = 31
  · rw [decodeWord_header (by rw [toNat_class, hc])] at h
    cases h
  · rw [decodeWord_of_class (by rw [toNat_class]; simp; omega)] at h
    cases hr : rawDecode w with
    | none => rw [hr] at h; cases h
    | some i => simp only [hr, Option.elim_some] at h; split at h <;> cases h

theorem decodeWord_reservedClass {w : Word} (h : w.toNat / 2 ^ 27 = 19 ∨ w.toNat / 2 ^ 27 = 27 ∨ w.toNat / 2 ^ 27 = 30) :
    decodeWord w = .error .unassigned := by
  rw [← toNat_class] at h
  rw [decodeWord_of_class (by simp; omega)]
  rcases h with h | h | h <;> simp only [rawDecode, h, Option.elim_none]

theorem decodeWord_controlUnassigned {w : Word} (hc : w.toNat / 2 ^ 27 = 0) (h : 9 ≤ w.toNat / 2 ^ 23 % 2 ^ 4) :
    decodeWord w = .error .unassigned := by
  have hr : rawControl w = none := by
    rw [← toNat_bits] at h
    unfold rawControl
    split <;> try omega
    rfl
  rw [← toNat_class] at hc
  rw [decodeWord_of_class (by simp; omega)]
  simp only [rawDecode, hc, hr, Option.elim_none]

theorem decodeWord_nopFields {w : Word} (hc : w.toNat / 2 ^ 27 = 0) (h : w.toNat / 2 ^ 23 % 2 ^ 4 = 0) (hw : w ≠ 0#32) :
    decodeWord w = .error .illegalField := by
  rw [← toNat_class] at hc
  rw [← toNat_bits] at h
  have hr : rawDecode w = some .nop := by simp only [rawDecode, hc, rawControl, h]
  have he : encode .nop ≠ some w := fun he => hw (Option.some.inj he).symm
  rw [decodeWord_of_class (by simp; omega), hr]
  exact if_neg fun hn => he hn.1

end Sys2Proof

namespace Sys2Proof.Machine

/-! ## Prefixes and instruction words in the body of a clause -/

theorem isPrefix_iff {w : Word} : isPrefix w = true ↔ w.toNat / 2 ^ 27 = 28 ∨ w.toNat / 2 ^ 27 = 29 := by
  simp only [isPrefix, Bool.or_eq_true, beq_iff_eq]

theorem isPrefix_false_of_decodeWord {w : Word} {i : Instr} (h : decodeWord w = .ok i) : isPrefix w = false := by
  rw [Bool.eq_false_iff, Ne, isPrefix_iff, ← decodeWord_error_isPrefix, h]
  exact fun h => nomatch h

theorem rawDecode_isSome_of_decodeWord {w : Word} {i : Instr} (h : decodeWord w = .ok i) : (rawDecode w).isSome = true := by
  obtain ⟨he, hw⟩ := decodeWord_eq_ok.1 h
  rw [rawDecode_of_encode he hw]
  rfl

theorem class_wordOfImm (x : BitVec 24) : bits (wordOfImm x) 27 5 = 28#5 := (bits_wordOfImm x).1

theorem class_wordOfMod (m : Mod) : bits (wordOfMod m) 27 5 = 29#5 := (bits_wordOfMod m).1

theorem isPrefix_wordOfImm (x : BitVec 24) : isPrefix (wordOfImm x) = true :=
  isPrefix_iff.2 (.inl ((class_eq (by decide)).1 (class_wordOfImm x)))

theorem isPrefix_wordOfMod (m : Mod) : isPrefix (wordOfMod m) = true :=
  isPrefix_iff.2 (.inr ((class_eq (by decide)).1 (class_wordOfMod m)))

/-- The word after a run of prefixes is the instruction they belong to (R51). -/
theorem unitWord_prefixes {ps q : List Word} {z : Word} (hp : ∀ p ∈ ps, isPrefix p = true) (hz : isPrefix z = false) :
    unitWord (ps ++ z :: q) = some z := by
  induction ps with
  | nil => simp only [List.nil_append, unitWord, hz, Bool.false_eq_true, if_false]
  | cons p ps ih =>
    rw [List.cons_append, unitWord, if_pos (hp p List.mem_cons_self)]
    exact ih fun x hx => hp x (List.mem_cons_of_mem p hx)

/-- A word is the clause's last instruction where only prefixes follow it (R39). -/
theorem unitWord_isNone {l : List Word} : (unitWord l).isNone = true ↔ ∀ y ∈ l, isPrefix y = true := by
  induction l with
  | nil => simp [unitWord]
  | cons y l ih =>
    cases h : isPrefix y with
    | true => simp [unitWord, h, ih]
    | false => simp [unitWord, h]

/-! ## Defects of prefixes (R51, R52) -/

theorem prefixDefect_imm_fields {w : Word} (seen : Seen) (rest : List Word) (hc : w.toNat / 2 ^ 27 = 28) (h : w.toNat / 2 ^ 24 % 2 ^ 3 ≠ 0) :
    prefixDefect w seen rest = some 0x01#8 := by
  have hi : immOfWord w = none := if_neg fun hz => h ((bits_eq_ofNat (by decide)).1 hz.2)
  rw [prefixDefect, if_pos ((class_eq (by decide)).2 hc), hi]

theorem prefixDefect_mod_fields {w : Word} (seen : Seen) (rest : List Word) (hc : w.toNat / 2 ^ 27 = 29)
    (h : w.toNat / 2 ^ 19 % 2 ^ 8 ≠ 0 ∨ w.toNat % 2 ^ 8 ≠ 0) : prefixDefect w seen rest = some 0x01#8 := by
  have hi : modOfWord w = none := if_neg fun hz => by
    rcases h with h | h
    · exact h ((bits_eq_ofNat (by decide)).1 hz.2.1)
    · have h0 := (bits_eq_ofNat (by decide)).1 hz.2.2
      rw [Nat.pow_zero, Nat.div_one] at h0
      exact h h0
  have hne : bits w 27 5 ≠ 28#5 := fun he => by rw [class_eq (by decide)] at he; omega
  rw [prefixDefect, if_neg hne, hi]

/-- An IMM is misused at the end of the clause, as the second of its unit, and before an instruction that does not accept it (R52). -/
theorem prefixDefect_wordOfImm (x : BitVec 24) (seen : Seen) (rest : List Word) : prefixDefect (wordOfImm x) seen rest =
    if rest.isEmpty || seen.1.isSome || ((unitWord rest).filter fun z => (rawDecode z).isSome).any fun z => !(accepts z).imm || !immRange z x
      then some 0x03#8 else none := by
  rw [prefixDefect, if_pos (class_wordOfImm x), immOfWord_wordOfImm]

/-- A MOD is misused at the end of the clause, as the second of its unit, and before an instruction that does not accept its fields
(R52). -/
theorem prefixDefect_wordOfMod (m : Mod) (seen : Seen) (rest : List Word) : prefixDefect (wordOfMod m) seen rest =
    if rest.isEmpty || seen.2.isSome || ((unitWord rest).filter fun z => (rawDecode z).isSome).any fun z => !(accepts z).modOk m
      then some 0x03#8 else none := by
  have hne : bits (wordOfMod m) 27 5 ≠ 28#5 := by rw [class_wordOfMod]; decide
  rw [prefixDefect, if_neg hne, modOfWord_wordOfMod]

section
variable {rest ps q : List Word} {z : Word} {i : Instr} {seen : Seen}

/-- The instruction that the unit of prefixes ends with, where it is one. -/
theorem unitInstr (h : rest = ps ++ z :: q) (hp : ∀ p ∈ ps, isPrefix p = true) (hz : decodeWord z = .ok i) :
    ((unitWord rest).filter fun z => (rawDecode z).isSome) = some z := by
  rw [h, unitWord_prefixes hp (isPrefix_false_of_decodeWord hz)]
  simp only [Option.filter_some, rawDecode_isSome_of_decodeWord hz, if_true]

theorem prefixDefect_imm_of_unit (h : rest = ps ++ z :: q) (hp : ∀ p ∈ ps, isPrefix p = true) (hz : decodeWord z = .ok i) (x : BitVec 24) :
    prefixDefect (wordOfImm x) seen rest = if seen.1.isSome || !(accepts z).imm || !immRange z x then some 0x03#8 else none := by
  have he : rest.isEmpty = false := by rw [h]; cases ps <;> rfl
  simp only [prefixDefect_wordOfImm, unitInstr h hp hz, he, Bool.false_or, Option.any_some, Bool.or_assoc]

theorem prefixDefect_mod_of_unit (h : rest = ps ++ z :: q) (hp : ∀ p ∈ ps, isPrefix p = true) (hz : decodeWord z = .ok i) (m : Mod) :
    prefixDefect (wordOfMod m) seen rest = if seen.2.isSome || !(accepts z).modOk m then some 0x03#8 else none := by
  have he : rest.isEmpty = false := by rw [h]; cases ps <;> rfl
  simp only [prefixDefect_wordOfMod, unitInstr h hp hz, he, Bool.false_or, Option.any_some]

end

/-! ## Defects of an instruction word (R44) -/

theorem wordDefect_header {w : Word} (hc : w.toNat / 2 ^ 27 = 31) (eclass regs : Nat) (fs : List FmtSlot) (seen : Seen) (last : Bool) :
    wordDefect eclass regs fs w seen last = some 0x02#8 := by
  rw [wordDefect, decodeWord_error_header.2 hc]

theorem wordDefect_noInstr {w : Word} {e : DecodeError} (he : decodeWord w = .error e) (hc : w.toNat / 2 ^ 27 ≠ 31) (eclass regs : Nat)
    (fs : List FmtSlot) (seen : Seen) (last : Bool) : wordDefect eclass regs fs w seen last = some 0x01#8 := by
  cases e with
  | header => exact absurd (decodeWord_error_header.1 he) hc
  | isPrefix => rw [wordDefect, he]
  | unassigned => rw [wordDefect, he]
  | illegalField => rw [wordDefect, he]
  | short => rw [wordDefect, he]

/-! ## The first defect of a clause -/

section
variable {eclass regs : Nat} {fs : List FmtSlot}

theorem bodyDefect_prefix {w : Word} {r : List Word} {seen : Seen} {a : Word} {c : BitVec 8} (hw : isPrefix w = true)
    (h : prefixDefect w seen r = some c) : bodyDefect eclass regs fs (w :: r) seen a = some (c, a) := by
  rw [bodyDefect, if_pos hw, h]

theorem bodyDefect_word {w : Word} {r : List Word} {seen : Seen} {a : Word} {c : BitVec 8} (hw : isPrefix w = false)
    (h : wordDefect eclass regs fs w seen (unitWord r).isNone = some c) : bodyDefect eclass regs fs (w :: r) seen a = some (c, a) := by
  rw [bodyDefect, if_neg (by rw [hw]; decide), h]

theorem bodyDefect_after_imm {x : BitVec 24} {r : List Word} {seen : Seen} (h : prefixDefect (wordOfImm x) seen r = none) (a : Word) :
    bodyDefect eclass regs fs (wordOfImm x :: r) seen a = bodyDefect eclass regs fs r (some x, seen.2) (a + 4#32) := by
  rw [bodyDefect, if_pos (isPrefix_wordOfImm x), h]
  simp only [class_wordOfImm, if_true, immOfWord_wordOfImm]

theorem bodyDefect_after_mod {m : Mod} {r : List Word} {seen : Seen} (h : prefixDefect (wordOfMod m) seen r = none) (a : Word) :
    bodyDefect eclass regs fs (wordOfMod m :: r) seen a = bodyDefect eclass regs fs r (seen.1, some m) (a + 4#32) := by
  have hne : ¬ (29#5 = 28#5) := by decide
  rw [bodyDefect, if_pos (isPrefix_wordOfMod m), h]
  simp only [class_wordOfMod, if_neg hne, modOfWord_wordOfMod]

/-- The address of a word of the body, by the words before it (R34). -/
theorem wordAt_add (a : Word) (m n : Nat) :
    a + 4#32 * BitVec.ofNat 32 (m + n) = a + 4#32 * BitVec.ofNat 32 m + 4#32 * BitVec.ofNat 32 n := by
  rw [BitVec.ofNat_add, BitVec.mul_add, BitVec.add_assoc]

theorem wordAt_succ (a : Word) (n : Nat) : a + 4#32 * BitVec.ofNat 32 (n + 1) = a + 4#32 * BitVec.ofNat 32 n + 4#32 :=
  wordAt_add a n 1

/-- Words of a body that are instructions without a defect. -/
def Clean (eclass regs : Nat) (fs : List FmtSlot) (pre suf : List Word) : Prop :=
  ∀ p r, pre ++ suf = p ++ r → p.length < pre.length → ∀ y q, r = y :: q → isPrefix y = false ∧
    wordDefect eclass regs fs y (none, none) (unitWord q).isNone = none

theorem bodyDefect_after_clean {pre suf : List Word} (h : Clean eclass regs fs pre suf) (a : Word) :
    bodyDefect eclass regs fs (pre ++ suf) (none, none) a =
      bodyDefect eclass regs fs suf (none, none) (a + 4#32 * BitVec.ofNat 32 pre.length) := by
  induction pre generalizing a with
  | nil => simp
  | cons y pre ih =>
    obtain ⟨hy, hd⟩ := h [] _ rfl (Nat.succ_pos _) y (pre ++ suf) rfl
    have hpre : Clean eclass regs fs pre suf := fun p r e hl => h (y :: p) r (by rw [List.cons_append, e, List.cons_append])
      (by simpa using hl)
    have ha : a + 4#32 + 4#32 * BitVec.ofNat 32 pre.length = a + 4#32 * BitVec.ofNat 32 (y :: pre).length := by
      rw [List.length_cons, Nat.add_comm]
      exact (wordAt_add a 1 pre.length).symm
    rw [List.cons_append, bodyDefect, if_neg (by rw [hy]; decide), hd, ← ha]
    exact ih hpre _

end

end Sys2Proof.Machine
end

section
/-! The first word of a clause's body that has a defect, kind by kind (R44 item 2). -/

namespace Sys2Proof.Machine

/-- What R44 item 1 asks of a header at an address. -/
theorem headerOk_iff {k : Copy} {start : Nat} {a w : Word} {role : Role} : headerOk k start a.toNat w role = true ↔
    w.toNat / 2 ^ 17 % 2 ^ 10 = 0 ∧ w.toNat / 2 ^ 4 % 2 ^ 3 ≤ 4 ∧ w.toNat % 2 ^ 4 ≠ 0 ∧ role.permits (w.toNat / 2 ^ 4 % 2 ^ 3) = true ∧
      a.toNat + 4 * (w.toNat % 2 ^ 4) < start + k.slots * 4096 := by
  have hcount : (headerOfWord w).count.toNat = w.toNat % 2 ^ 4 := by
    rw [headerOfWord, toNat_bits, Nat.pow_zero, Nat.div_one]
  have hnz : (headerOfWord w).count ≠ 0#4 ↔ w.toNat % 2 ^ 4 ≠ 0 := by
    rw [← hcount, Ne, Ne, ← BitVec.toNat_inj]; rfl
  have hcls : (headerOfWord w).eclass.toNat = w.toNat / 2 ^ 4 % 2 ^ 3 := toNat_bits w 4 3
  have hz : bits w 17 10 = 0#10 ↔ w.toNat / 2 ^ 17 % 2 ^ 10 = 0 := bits_eq_ofNat (by decide)
  unfold headerOk
  simp only [Bool.and_eq_true, beq_iff_eq, bne_iff_ne, decide_eq_true_eq, hz, hnz, hcls, hcount, and_assoc]

theorem clauseDefect_header {k : Copy} {start : Nat} {a w : Word} {role : Role} (h : headerOk k start a.toNat w role ≠ true) (regs : Nat)
    (fs : List FmtSlot) : clauseDefect k start a w role regs fs = some (0x02#8, a) := by
  rw [clauseDefect, if_pos (by simpa using h)]

/-- The first defect of a clause whose first words have none is what its next word and those after it show. -/
theorem clauseDefect_after_clean {k : Copy} {start : Nat} {a w : Word} {role : Role} {regs : Nat} {fs : List FmtSlot} {pre suf : List Word}
    (h : headerOk k start a.toNat w role = true) (hw : k.words? start (a.toNat + 4) (w.toNat % 2 ^ 4) = pre ++ suf)
    (hc : Clean (w.toNat / 2 ^ 4 % 2 ^ 3) regs fs pre suf) : clauseDefect k start a w role regs fs =
      bodyDefect (w.toNat / 2 ^ 4 % 2 ^ 3) regs fs suf (none, none) (a + 4#32 + 4#32 * BitVec.ofNat 32 pre.length) := by
  have hcount : (headerOfWord w).count.toNat = w.toNat % 2 ^ 4 := by
    rw [headerOfWord, toNat_bits, Nat.pow_zero, Nat.div_one]
  rw [clauseDefect, if_neg (by simpa using h), hcount, hw, ← bodyDefect_after_clean hc]
  exact congrArg (bodyDefect · regs fs _ _ _) (toNat_bits w 4 3)

section
variable {eclass regs : Nat} {fs : List FmtSlot} {x : Word} {rest : List Word} {a : Word}

theorem bodyDefect_header (h : x.toNat / 2 ^ 27 = 31) : bodyDefect eclass regs fs (x :: rest) (none, none) a = some (0x02#8, a) :=
  bodyDefect_word (by rw [Bool.eq_false_iff, Ne, isPrefix_iff]; omega) (wordDefect_header h ..)

theorem bodyDefect_noInstr {e : DecodeError} (h : decodeWord x = .error e) (h28 : x.toNat / 2 ^ 27 ≠ 28) (h29 : x.toNat / 2 ^ 27 ≠ 29)
    (h31 : x.toNat / 2 ^ 27 ≠ 31) : bodyDefect eclass regs fs (x :: rest) (none, none) a = some (0x01#8, a) :=
  bodyDefect_word (by rw [Bool.eq_false_iff, Ne, isPrefix_iff]; omega) (wordDefect_noInstr h h31 ..)

theorem bodyDefect_operands {i : Instr} (h : decodeWord x = .ok i) (ho : (accepts x).need = true ∨ operandsOk fs none i = false) :
    bodyDefect eclass regs fs (x :: rest) (none, none) a = some (0x01#8, a) := by
  refine bodyDefect_word (isPrefix_false_of_decodeWord h) ?_
  rw [wordDefect, h]
  exact if_pos (by rcases ho with ho | ho <;> simp [ho])

theorem bodyDefect_notPermitted {i : Instr} (h : decodeWord x = .ok i) (hn : (accepts x).need = false) (ho : operandsOk fs none i = true)
    (hp : permits eclass (x.toNat / 2 ^ 27) = false ∨ (isTransfer i = true ∧ ∃ y ∈ rest, isPrefix y = false)) :
    bodyDefect eclass regs fs (x :: rest) (none, none) a = some (0x02#8, a) := by
  refine bodyDefect_word (isPrefix_false_of_decodeWord h) ?_
  have hlast : (∃ y ∈ rest, isPrefix y = false) → (unitWord rest).isNone = false := fun ⟨y, hy, hf⟩ => by
    rw [Bool.eq_false_iff, Ne, unitWord_isNone]
    exact fun hall => by rw [hall y hy] at hf; cases hf
  simp only [wordDefect, h]
  rw [if_neg (by simp [hn, ho])]
  refine if_pos ?_
  rcases hp with hp | ⟨ht, hy⟩
  · rw [hp]; rfl
  · rw [ht, hlast hy, Bool.not_false, Bool.and_true, Bool.or_true]

theorem bodyDefect_range {i : Instr} (h : decodeWord x = .ok i) (hn : (accepts x).need = false) (ho : operandsOk fs none i = true)
    (hp : permits eclass (x.toNat / 2 ^ 27) = true) (ht : isTransfer i = true → ∀ y ∈ rest, isPrefix y = true) (hr : topReg i > regs)
    (hu : unitTop none i = topReg i) : bodyDefect eclass regs fs (x :: rest) (none, none) a = some (0x05#8, a) := by
  refine bodyDefect_word (isPrefix_false_of_decodeWord h) ?_
  simp only [wordDefect, h]
  rw [if_neg (by simp [hn, ho]), if_neg, if_pos (by rwa [hu])]
  simp only [hp, Bool.not_true, Bool.false_or, Bool.and_eq_true, Bool.not_eq_true', not_and, Bool.not_eq_false]
  exact fun hi => unitWord_isNone.2 (ht hi)

/-- A word of class IMM with its zero field clear stands for its lower bits (R51). -/
theorem eq_wordOfImm (hc : x.toNat / 2 ^ 27 = 28) (hz : x.toNat / 2 ^ 24 % 2 ^ 3 = 0) : x = wordOfImm (x.setWidth 24) := by
  refine immOfWord_eq_some.1 ((if_pos ⟨(class_eq (by decide)).2 hc, (bits_eq_ofNat (by decide)).2 hz⟩).trans (congrArg some ?_))
  rw [← BitVec.toNat_inj, toNat_bits, BitVec.toNat_setWidth, Nat.pow_zero, Nat.div_one]

variable {mid ps q : List Word} {y z : Word} {i : Instr}

/-- The second IMM of one unit is a misuse of prefixes (R52). -/
theorem bodyDefect_secondImm {u v : BitVec 24} (hr : rest = mid ++ wordOfImm v :: (ps ++ z :: q)) (hp : ∀ p ∈ ps, isPrefix p = true)
    (hz : decodeWord z = .ok i) (hu : (accepts z).imm = true ∧ immRange z u = true)
    (hm : mid = [] ∨ ∃ m, mid = [wordOfMod m] ∧ (accepts z).modOk m = true) :
    bodyDefect eclass regs fs (wordOfImm u :: rest) (none, none) a = some (0x03#8, a + 4#32 + 4#32 * BitVec.ofNat 32 mid.length) := by
  have hv : ∀ p ∈ wordOfImm v :: ps, isPrefix p = true := List.forall_mem_cons.2 ⟨isPrefix_wordOfImm v, hp⟩
  have second (seen : Option Mod) (b : Word) : bodyDefect eclass regs fs (wordOfImm v :: (ps ++ z :: q)) (some u, seen) b = some (0x03#8, b) :=
    bodyDefect_prefix (isPrefix_wordOfImm v) (by rw [prefixDefect_imm_of_unit rfl hp hz]; rfl)
  rcases hm with rfl | ⟨m, rfl, hok⟩
  · rw [List.nil_append] at hr
    subst hr
    rw [bodyDefect_after_imm, second]
    · simp
    · rw [prefixDefect_imm_of_unit (List.cons_append ..).symm hv hz, hu.1, hu.2]; rfl
  · subst hr
    have hmv : ∀ p ∈ wordOfMod m :: wordOfImm v :: ps, isPrefix p = true := List.forall_mem_cons.2 ⟨isPrefix_wordOfMod m, hv⟩
    rw [bodyDefect_after_imm, List.cons_append, List.nil_append, bodyDefect_after_mod, second]
    · simp
    · rw [prefixDefect_mod_of_unit (List.cons_append ..).symm hv hz, hok]; rfl
    · rw [List.cons_append, List.nil_append, prefixDefect_imm_of_unit (by rfl) hmv hz, hu.1, hu.2]; rfl

/-- The second MOD of one unit is a misuse of prefixes (R52). -/
theorem bodyDefect_secondMod {m n : Mod} (hr : rest = mid ++ wordOfMod n :: (ps ++ z :: q)) (hp : ∀ p ∈ ps, isPrefix p = true)
    (hz : decodeWord z = .ok i) (hok : (accepts z).modOk m = true)
    (hm : mid = [] ∨ ∃ u, mid = [wordOfImm u] ∧ (accepts z).imm = true ∧ immRange z u = true) :
    bodyDefect eclass regs fs (wordOfMod m :: rest) (none, none) a = some (0x03#8, a + 4#32 + 4#32 * BitVec.ofNat 32 mid.length) := by
  have hv : ∀ p ∈ wordOfMod n :: ps, isPrefix p = true := List.forall_mem_cons.2 ⟨isPrefix_wordOfMod n, hp⟩
  have second (seen : Option (BitVec 24)) (b : Word) :
      bodyDefect eclass regs fs (wordOfMod n :: (ps ++ z :: q)) (seen, some m) b = some (0x03#8, b) :=
    bodyDefect_prefix (isPrefix_wordOfMod n) (by rw [prefixDefect_mod_of_unit rfl hp hz]; rfl)
  rcases hm with rfl | ⟨u, rfl, hu⟩
  · rw [List.nil_append] at hr
    subst hr
    rw [bodyDefect_after_mod, second]
    · simp
    · rw [prefixDefect_mod_of_unit (List.cons_append ..).symm hv hz, hok]; rfl
  · subst hr
    have hmv : ∀ p ∈ wordOfImm u :: wordOfMod n :: ps, isPrefix p = true := List.forall_mem_cons.2 ⟨isPrefix_wordOfImm u, hv⟩
    rw [bodyDefect_after_mod, List.cons_append, List.nil_append, bodyDefect_after_imm, second]
    · simp
    · rw [prefixDefect_imm_of_unit (List.cons_append ..).symm hv hz, hu.1, hu.2]; rfl
    · rw [List.cons_append, List.nil_append, prefixDefect_mod_of_unit (by rfl) hmv hz, hok]; rfl

end

/-- Settles O53: the decoder's errors by class (`decodeWord_error_header` and those beside it); a clause whose first words have no defect
shows that of the next (`clauseDefect_after_clean`), which is taken kind by kind. -/
theorem decodeChecks : Obligations.DecodeChecks := by
  unfold Obligations.DecodeChecks
  refine ⟨fun w => ⟨decodeWord_error_header, decodeWord_error_isPrefix, decodeWord_reservedClass, decodeWord_controlUnassigned,
    decodeWord_nopFields, fun m => modOfWord_eq_some, fun x => immOfWord_eq_some⟩, ?_⟩
  intro k start a w role regs fs eclass count permitted header defect
  have hh : headerOk k start a.toNat w role = true ↔ header := by
    rw [headerOk_iff]
    cases role <;> simp only [Role.permits, Bool.or_eq_true, beq_iff_eq, or_assoc] <;> rfl
  refine ⟨fun hn => clauseDefect_header (fun ho => hn (hh.1 ho)) regs fs, fun pre x rest ho hw hclean => ?_⟩
  have hd : defect = _ := clauseDefect_after_clean (hh.2 ho) hw hclean
  clear_value defect
  subst hd
  intro at_ cls
  refine ⟨fun h => bodyDefect_header h, fun e he h28 h29 h31 => bodyDefect_noInstr he h28 h29 h31, fun i hi =>
    ⟨bodyDefect_operands hi, fun hn ho => ⟨bodyDefect_notPermitted hi hn ho, fun hp ht hr hu => bodyDefect_range hi hn ho hp ht hr hu⟩⟩,
    fun hc hz => bodyDefect_prefix (isPrefix_iff.2 (.inl hc)) (prefixDefect_imm_fields _ _ hc hz), fun hc hz => ?_,
    fun hc hz => bodyDefect_prefix (isPrefix_iff.2 (.inr hc)) (prefixDefect_mod_fields _ _ hc hz), fun m hm => ?_, ?_⟩
  · have hx := eq_wordOfImm hc hz
    refine ⟨fun hr => ?_, fun ps y q i hr hp hy hbad => ?_⟩
    all_goals refine bodyDefect_prefix (isPrefix_iff.2 (.inl hc)) ?_; rw [hx]
    · rw [hr, prefixDefect_wordOfImm]; rfl
    · rw [prefixDefect_imm_of_unit hr hp hy]
      rcases hbad with hbad | hbad <;> simp [hbad]
  · subst hm
    refine ⟨fun hr => bodyDefect_prefix (isPrefix_wordOfMod m) ?_, fun ps y q i hr hp hy hbad => bodyDefect_prefix (isPrefix_wordOfMod m) ?_⟩
    · rw [hr, prefixDefect_wordOfMod]; rfl
    · rw [prefixDefect_mod_of_unit hr hp hy, hbad]; rfl
  · intro mid y ps z q i hr hp hz second immOk
    have haddr := wordAt_add (a + 4#32) (pre.length + 1) mid.length
    rw [wordAt_succ] at haddr
    simp only [second, haddr]
    refine ⟨?_, ?_⟩
    · rintro u v rfl rfl hu hm
      exact bodyDefect_secondImm hr hp hz hu hm
    · rintro m n rfl rfl hok hm
      exact bodyDefect_secondMod hr hp hz hok hm

end Sys2Proof.Machine
end

section
/-! Branches and the ends of threads on a stream of one executing thread (R162, R163, R166). -/

namespace Sys2Proof.Machine

/-! ## Transfers within the overlay -/

/-- The offset of a direct transfer, with and without its IMM, is the one of R50 and R54. -/
theorem Stream.target_eq_jump (st : Stream) (off : BitVec 19) : st.target off = st.jump off := by
  unfold Stream.target Stream.jump branchOffset
  cases st.imm with
  | none => rfl
  | some i =>
    have h : i.extractLsb' 0 13 ++ off = BitVec.ofNat 32 (i.toNat % 2 ^ 13 * 2 ^ 19 + off.toNat) := by
      apply BitVec.eq_of_toNat_eq
      have hoff := off.isLt
      have hi : i.toNat % 2 ^ 13 < 2 ^ 13 := Nat.mod_lt _ (by decide)
      rw [BitVec.toNat_append, BitVec.extractLsb'_toNat, Nat.shiftRight_zero, BitVec.toNat_ofNat, Nat.shiftLeft_eq,
        ← Nat.shiftLeft_eq, ← Nat.shiftLeft_add_eq_or_of_lt hoff, Nat.shiftLeft_eq]
      exact (Nat.mod_eq_of_lt (by omega)).symm
    exact congrArg (fun x => st.hdr + 4#32 * x) h

theorem isHeader_iff (w : Word) : isHeader w = true ↔ w.toNat / 2 ^ 27 = 31 := beq_iff_eq

section
variable {s : State} {core : Nat} {th : Thread} {kp : Copy} {a : Word}

theorem State.checkTarget_outside (hk : (s.core core).copy? th.copy = some kp) (h : ¬ kp.Inside th.start a) :
    s.checkTarget core th a = some 0x06#8 := by
  have hout : (decide (a.toNat < th.start) || decide (th.start + kp.slots * 4096 ≤ a.toNat)) = true := by
    simp only [Copy.Inside, not_and_or, Nat.not_le, Nat.not_lt] at h
    simpa using h
  simp only [State.checkTarget, hk, hout, if_true]

/-- Inside the overlay the target is good where it is an aligned header. -/
theorem State.checkTarget_inside (hk : (s.core core).copy? th.copy = some kp) (h : kp.Inside th.start a) :
    s.checkTarget core th a = if a.toNat % 4 = 0 ∧ (mget kp.words ((a.toNat - th.start) / 4)).toNat / 2 ^ 27 = 31 then none
      else some 0x04#8 := by
  obtain ⟨hlo, hhi⟩ := h
  have hin : (decide (a.toNat < th.start) || decide (th.start + kp.slots * 4096 ≤ a.toNat)) = false := by
    simpa using And.intro hlo hhi
  by_cases ha : a.toNat % 4 = 0
  · simp only [State.checkTarget, hk, hin, Copy.word?, hlo, hhi, ha, decide_true, Bool.and_self, if_true, isHeader_iff, true_and,
      Bool.false_eq_true, if_false]
  · simp [State.checkTarget, hk, hin, Copy.word?, hlo, hhi, ha]

theorem State.checkTarget_lands (hk : (s.core core).copy? th.copy = some kp) (h : kp.Lands th.start a) :
    s.checkTarget core th a = none := by
  rw [State.checkTarget_inside hk h.1, if_pos h.2]

theorem State.checkTarget_noHeader (hk : (s.core core).copy? th.copy = some kp) (hin : kp.Inside th.start a)
    (h : ¬ kp.Lands th.start a) : s.checkTarget core th a = some 0x04#8 := by
  rw [State.checkTarget_inside hk hin, if_neg fun h2 => h ⟨hin, h2⟩]

end

/-- Both branches transfer the thread to their target. -/
theorem exec_branch {s : State} {st : Stream} {g : Group} {k : Nat} {th : Thread} (h : s.IssuesOne st g k th) {off : BitVec 19} {o : Opnd}
    {i : Instr} {a : Word} (hi : (i = .bra off ∧ a = st.jump off) ∨ (i = .brx o ∧ a = rd g th o)) :
    exec i s = .next ((s.branch st k th a).settled st k) := by
  rcases hi with ⟨rfl, rfl⟩ | ⟨rfl, rfl⟩
  · show execBra off s = _
    rw [execBra, State.perThread_one h, Stream.target_eq_jump]
  · show execBrx o s = _
    rw [execBrx, State.perThread_one h, h.1.2]

/-! ## Ends of threads -/

/-- Clearing a bit in the entries that hold it, and in all, is the same. -/
theorem dropMask_bitAt (t : Nat) (l : List RetEntry) : dropMask (fun e => bitAt e.mask t) t l =
    (l.map fun e => { e with mask := e.mask &&& ~~~(1#32 <<< t) }).filter fun e => e.mask ≠ 0#32 := by
  have hsame : ∀ e : RetEntry, (if bitAt e.mask t = true then { e with mask := e.mask &&& ~~~(1#32 <<< t) } else e) =
      { e with mask := e.mask &&& ~~~(1#32 <<< t) } := by
    intro e
    by_cases hb : bitAt e.mask t = true
    · rw [if_pos hb]
    · have hclear : e.mask &&& ~~~(1#32 <<< t) = e.mask := by
        refine BitVec.eq_of_getLsbD_eq fun j hj => ?_
        by_cases hjt : j = t
        · subst hjt
          simp only [bitAt, Bool.not_eq_true] at hb
          simp [hb]
        · simp [hj]
          omega
      rw [if_neg hb, hclear]
  rw [dropMask, updIf]
  simp only [hsame]

/-- A team none of whose convergence registers is in use waits for no member (R252, R353). -/
theorem State.memberEnded_free {s : State} {gid : Nat} {g : Group} {tm : Team} (hg : s.group? gid = some g)
    (ht : s.team? g.team = some tm) (hcv : ∀ c ∈ tm.cv, c = .free) : s.memberEnded gid = s := by
  simp only [State.memberEnded, hg, ht]
  refine List.foldlRecOn (motive := fun b => b = s) _ _ rfl fun b hb x hx => ?_
  have hfree : x.1 = .free := hcv _ (List.of_mem_zip hx).1
  obtain ⟨c, n⟩ := x
  cases hfree
  exact hb

/-- The group of a thread that ends. -/
def Group.ending (g : Group) (k : Nat) : Group :=
  { g.updThread k (fun x => { x with ended := true, wait := none, park := none }) with
    rstack := (g.rstack.map fun e => { e with mask := e.mask &&& ~~~(1#32 <<< k) }).filter fun e => e.mask ≠ 0#32 }

theorem State.endThread_free {s : State} {gid k : Nat} {g : Group} {tm : Team} (hg : s.group? gid = some g)
    (ht : s.team? g.team = some tm) (hcv : ∀ c ∈ tm.cv, c = .free) :
    s.endThread gid k = s.updGroup gid fun g => g.ending k := by
  have hend : s.endThread gid k = (s.updGroup gid fun g => g.ending k).memberEnded gid := by
    simp only [State.endThread, dropMask_bitAt]
    rfl
  have hg' : (s.updGroup gid fun g => g.ending k).group? gid = some (g.ending k) := by
    rw [State.group?_updGroup s gid (fun g => g.ending k) fun _ h => h, hg]
    rfl
  rw [hend, State.memberEnded_free hg' ht hcv]

/-- A unit that prepares the one thread's end, and ends it. -/
theorem ends_one {s t : State} {st : Stream} {g : Group} {k : Nat} {th : Thread} {tm : Team} (h : s.IssuesOne st g k th)
    (ht : s.team? g.team = some tm) (hcv : ∀ c ∈ tm.cv, c = .free) (hg' : t.group? st.grp = s.group? st.grp)
    (ht' : t.team? g.team = s.team? g.team) {f : Stream → State → Nat → Thread → SRes}
    (hf : f st s k th = .leave (t.endThread st.grp k)) :
    (s.onStream fun st _ => let (s', kept) := runEach st (f st) st.threads s; (s'.advance st kept).recheck st.grp) =
      .next (((t.updGroup st.grp fun g => g.ending k).advance st []).recheck st.grp) := by
  rw [State.onStream_issues h.1]
  refine congrArg (fun x => Host.Outcome.next (State.recheck x st.grp)) ?_
  refine (runEach_one h (f st)).trans ?_
  rw [hf, SRes.settled, State.endThread_free (hg'.trans h.1.2) (ht'.trans ht) hcv]

/-- The pixel of a shaded thread marked as discarded (R400). -/
def State.discarding (s : State) (th : Thread) : State :=
  match th.pixel with
  | some p =>
    if p.helper then s
    else s.updTile p.frame p.tile fun x =>
      { x with discard := if x.discard.contains (pixelIn p.px p.py) then x.discard else x.discard ++ [pixelIn p.px p.py] }
  | none => s

theorem State.discarding_groups (s : State) (th : Thread) : (s.discarding th).dev.groups = s.dev.groups := by
  unfold State.discarding
  split
  · split <;> rfl
  · rfl

theorem State.discarding_teams (s : State) (th : Thread) : (s.discarding th).dev.teams = s.dev.teams := by
  unfold State.discarding
  split
  · split <;> rfl
  · rfl

theorem State.discarding_none {s : State} {th : Thread} (h : th.pixel = none ∨ ∃ p, th.pixel = some p ∧ p.helper = true) :
    s.discarding th = s := by
  rcases h with h | ⟨p, h, hh⟩
  · simp only [State.discarding, h]
  · simp only [State.discarding, h, hh, if_true]

section
variable {s : State} {st : Stream} {g : Group} {k : Nat} {th : Thread} {tm : Team} (h : s.IssuesOne st g k th)
  (ht : s.team? g.team = some tm) (hcv : ∀ c ∈ tm.cv, c = .free)
include h ht hcv

theorem exec_exit_one : exec .exit s = .next (((s.updGroup st.grp fun g => g.ending k).advance st []).recheck st.grp) :=
  ends_one h ht hcv rfl rfl (f := fun st s t _ => .leave (s.endThread st.grp t)) rfl

theorem exec_kill_one :
    exec .kill s = .next ((((s.discarding th).updGroup st.grp fun g => g.ending k).advance st []).recheck st.grp) :=
  ends_one h ht hcv (by simp only [State.group?, State.discarding_groups]) (by simp only [State.team?, State.discarding_teams])
    (f := fun st s t th => .leave ((s.discarding th).endThread st.grp t)) rfl

end

end Sys2Proof.Machine

namespace Sys2Proof
open Machine

/-- Settles O7: each form on its one thread; the checks of a branch are those of R163, and a thread's end changes no convergence
register that is free. -/
theorem branchesAndThreadEnds : Obligations.BranchesAndThreadEnds := by
  refine ⟨⟨fun s st g h => ?_, fun s st g k th kp off o h hk i a hi => ?_⟩, fun s st g k n h hk => ?_,
    fun s st g k th tm h ht hcv => ⟨exec_exit_one h ht hcv, fun hp => ?_, fun p hp hh => ?_⟩⟩
  · show execNop s = _
    rw [execNop, State.perThread, State.onStream_issues h, runEach_ok st _ fun _ _ _ => rfl]
  · rw [exec_branch h hi]
    refine ⟨fun hl => ?_, fun hin => ?_, fun hin hl => ?_⟩
    · simp only [State.branch, State.checkTarget_lands hk hl, SRes.settled]
    · simp only [State.branch, State.checkTarget_outside hk hin]
      rfl
    · simp only [State.branch, State.checkTarget_noHeader hk hin hl]
      rfl
  · show execPause n s = _
    exact State.perGroup_ok h hk rfl
  · rw [exec_kill_one h ht hcv, State.discarding_none hp]
    rfl
  · rw [exec_kill_one h ht hcv]
    simp only [State.discarding, hp, hh]
    rfl

end Sys2Proof
end

section
/-! The unit that a step fetches and executes (R51, R61, R142, R144), and the word placed for the next step (log 6). -/

namespace Sys2Proof.Machine

/-! ## Threads as a mask -/

theorem getLsbD_foldl_or (l : List Nat) (m : Word) (i : Nat) (hi : i < 32) :
    (l.foldl (fun m i => m ||| (1#32 <<< i)) m).getLsbD i = (m.getLsbD i || decide (i ∈ l)) := by
  induction l generalizing m with
  | nil => simp
  | cons a r ih =>
    rw [List.foldl_cons, ih]
    have ha : (1#32 <<< a).getLsbD i = decide (i = a) := by
      simp only [BitVec.getLsbD_shiftLeft, BitVec.getLsbD_one, hi, decide_true, Bool.true_and]
      by_cases h : i = a
      · simp [h]
      · simp only [h, decide_false, Bool.and_eq_false_iff, Bool.not_eq_false', decide_eq_true_eq, decide_eq_false_iff_not]
        omega
    simp [ha, Bool.or_assoc]

theorem maskOf_bitsOf (m : Word) : maskOf (bitsOf m) = m := by
  refine BitVec.eq_of_getLsbD_eq fun i hi => ?_
  rw [maskOf, getLsbD_foldl_or _ _ _ hi]
  simp [bitsOf, hi]

theorem maskOf_threads (st : Stream) : maskOf st.threads = st.mask := maskOf_bitsOf st.mask

/-! ## The stream at the focus -/

theorem State.stream?_place {s : State} {st : Stream} (h : s.stream? = some st) : s.dev.focus = (st.core, st.reed) := by
  have hp := List.find?_some h
  simp only [Bool.and_eq_true, beq_iff_eq] at hp
  exact Prod.ext hp.1.symm hp.2.symm

/-- A change of a stream that leaves it at its reed. -/
def Stays (f : Stream → Stream) : Prop := ∀ x, (f x).core = x.core ∧ (f x).reed = x.reed

theorem State.stream?_updStream {s : State} {st : Stream} (h : s.stream? = some st) {f : Stream → Stream} (hf : Stays f) :
    (s.updStream st.core st.reed f).stream? = some (f st) := by
  have hplace := State.stream?_place h
  unfold State.stream? State.streamAt at h ⊢
  simp only [State.updStream_dev, hplace] at h ⊢
  rw [find?_updIf_same _ f (fun x hx => by simpa [(hf x).1, (hf x).2] using hx), h]
  rfl

theorem State.updStream_updStream (s : State) (c r : Nat) {f : Stream → Stream} (hf : Stays f) (f' : Stream → Stream) :
    (s.updStream c r f).updStream c r f' = s.updStream c r fun x => f' (f x) := by
  unfold State.updStream State.onDev updIf
  simp only [List.map_map]
  refine congrArg (fun l => { s with dev := { s.dev with streams := l } }) (List.map_congr_left fun x _ => ?_)
  by_cases hx : (x.core == c && x.reed == r) = true
  · simp only [Function.comp_apply, hx, if_true, (hf x).1, (hf x).2]
  · simp only [Function.comp_apply, hx, Bool.false_eq_true, if_false]

@[simp] theorem State.group?_updStream (s : State) (c r id : Nat) (f : Stream → Stream) : (s.updStream c r f).group? id = s.group? id := rfl

theorem State.stream?_updGroup (s : State) (id : Nat) (f : Group → Group) : (s.updGroup id f).stream? = s.stream? := rfl

/-! ## Before the unit -/

section
variable {s : State} {st : Stream} {g : Group} {t0 : Nat} (h : s.Issues st g) (h0 : st.threads.head? = some t0)
include h h0

/-- No fault comes before the unit. -/
theorem State.preUnit_clear (a : Word) (floor : Nat)
    (hm : ∀ t ∈ st.threads, ∃ th, g.thread? t = some th ∧ th.async = [] ∧ th.meets t g.ctx st.bps st.next a = none) :
    s.preUnit st a floor = s.updStream st.core st.reed fun x => { x with mask := maskOf st.threads, due := none } := by
  have hback : (st.threads.filter fun t => ((g.threads)[t]?).any fun th => !th.async.isEmpty) = [] := by
    refine List.filter_eq_nil_iff.mpr fun t ht => ?_
    obtain ⟨th, hth, hasync, _⟩ := hm t ht
    simp only [Group.thread?] at hth
    simp [hth, hasync]
  have hkeep : (st.threads.takeWhile fun t => (((g.threads)[t]?).bind fun th => th.meets t g.ctx st.bps st.next a).isNone) = st.threads := by
    refine List.takeWhile_eq_self_iff.mpr fun t ht => ?_
    obtain ⟨th, hth, _, hmeets⟩ := hm t ht
    simp only [Group.thread?] at hth
    simp [hth, hmeets]
  have hne : ∃ l, st.threads = t0 :: l := List.head?_eq_some_iff.mp h0
  obtain ⟨l, hl⟩ := hne
  unfold State.preUnit
  simp only [h.2, Option.map_some, Option.getD_some, hback, List.foldl_nil, List.contains_nil, Bool.not_false, List.filter_true, hkeep,
    List.drop_length, List.head?_nil, Option.bind_none]
  rw [hl]

/-- The unit fetched, where no fault comes before it. -/
theorem State.fetchUnit_clear {th0 : Thread} {k : Copy} {imm : Option (BitVec 24)} {mod : Option Mod} {w a : Word} {i : Instr}
    (hth0 : g.thread? t0 = some th0) (hk : (s.core st.core).copy? st.copy = some k)
    (hu : unitFrom k th0.start 3 st.next (none, none) = some ((imm, mod), w, a)) (hw : decodeWord w = .ok i)
    (hm : ∀ t ∈ st.threads, ∃ th, g.thread? t = some th ∧ th.async = [] ∧ th.meets t g.ctx st.bps st.next a = none) :
    s.fetchUnit = (s.updStream st.core st.reed fun x =>
      let m := mod.getD Mod.plain
      { x with mask := maskOf st.threads, due := none, unit := x.next, next := a + 4#32, imm := imm, neg := m.neg, pred := m.pred,
               ce := m.ce, pol := m.pol, re := m.re, rm := m.rm, sat := m.sat }, some i) := by
  obtain ⟨l, hl⟩ := List.head?_eq_some_iff.mp h0
  have hstart : (((s.group? st.grp).bind fun g => g.thread? (st.threads.headD 0)).map fun th => th.start).getD 0 = th0.start := by
    simp [h.2, hl, hth0]
  have hs := State.stream?_updStream h.1 (f := fun x => { x with mask := maskOf st.threads, due := none }) fun _ => ⟨rfl, rfl⟩
  have hthreads : ({ st with mask := maskOf st.threads, due := none } : Stream).threads = t0 :: l := by
    rw [← hl, Stream.threads, maskOf_threads]
    rfl
  unfold State.fetchUnit
  simp only [h.1, hstart, hk, Option.bind_some, hu, State.preUnit_clear h h0 a _ hm, hs, hthreads, hw]
  exact congrArg (·, some i) (State.updStream_updStream s st.core st.reed (f := fun x => { x with mask := maskOf st.threads, due := none })
    (fun _ => ⟨rfl, rfl⟩) _)

end

/-! ## After the unit -/

/-- The threads streamed are all that execute the unit, where it stops at none. -/
theorem streamedFor_all (kept : List Nat) (l : List (Nat × Thread × Thread))
    (h : ∀ x ∈ l, x.1 ∈ kept ∨ x.2.1.halted x.2.2 = false) : streamedFor kept l = l := by
  induction l with
  | nil => rfl
  | cons x r ih =>
    obtain ⟨k, u, v⟩ := x
    have hgo : (!kept.contains k && u.halted v) = false := by
      rcases h _ (List.mem_cons_self ..) with hk | hk
      · simp [hk]
      · simp only [hk, Bool.and_false]
    simp only [streamedFor, hgo, Bool.false_eq_true, if_false, ih fun y hy => h y (List.mem_cons_of_mem _ hy)]

/-- The threads of a stream that execute its unit, each with what it was and what it is after. -/
def executed (st : Stream) (g0 g : Group) : List (Nat × Thread × Thread) :=
  (st.threads.filterMap fun t => (g0.thread? t).bind fun x => (g.thread? t).map fun y => (t, x, y)).filter fun (_, x, _) => predOn st x

theorem mem_executed {st : Stream} {g0 g : Group} {k : Nat} {x y : Thread} (h : (k, x, y) ∈ executed st g0 g) :
    k ∈ st.threads ∧ g0.thread? k = some x ∧ g.thread? k = some y ∧ predOn st x = true := by
  simp only [executed, List.mem_filter, List.mem_filterMap, Option.bind_eq_some_iff, Option.map_eq_some_iff, Prod.mk.injEq] at h
  obtain ⟨⟨t, ht, x', hx, y', hy, rfl, rfl, rfl⟩, hp⟩ := h
  exact ⟨ht, hx, hy, hp⟩

theorem length_executed (st : Stream) (g0 g : Group) : (executed st g0 g).length =
    (st.threads.filter fun k => (g0.thread? k).any (predOn st) && (g.thread? k).isSome).length := by
  rw [executed, List.filter_filterMap, List.length_filterMap_eq_countP, ← List.countP_eq_length_filter]
  refine List.countP_congr fun k _ => ?_
  cases g0.thread? k with
  | none => simp
  | some x => cases g.thread? k with
    | none => simp
    | some y => by_cases hp : predOn st x = true <;> simp [hp, Option.filter]

/-- After a unit that stops at no thread, with no fault due behind it: its time (R144), and whether its clause is over. -/
theorem State.endUnit_stream {b t : State} {st0 st : Stream} {g0 g : Group} {i : Instr} (hb : b.Issues st0 g0) (ht : t.Issues st g)
    (hgrp : st.grp = st0.grp) (hdue : st0.due = none)
    (hall : ∀ x ∈ executed st0 g0 g, x.1 ∈ st.threads ∨ x.2.1.halted x.2.2 = false) :
    ∃ (f : Group → Group) (o : Option Bool), b.endUnit t i = (t.updGroup st.grp f).updStream st.core st.reed (fun x =>
        { x with free := t.dev.clk + (if uniformUnit i then 1 else max (executed st0 g0 g).length 4) + x.extra, extra := 0, due := none,
                 outcome := o.or x.outcome }) ∧
      (o.isSome = true ↔ st.threads = [] ∨ st.last.toNat < st.next.toNat) := by
  have hb2 : b.group? st.grp = some g0 := hgrp ▸ hb.2
  have hrun : (if uniformUnit i then executed st0 g0 g else streamedFor st.threads (executed st0 g0 g)) = executed st0 g0 g := by
    rw [streamedFor_all _ _ hall, ite_self]
  rw [executed] at hrun
  unfold State.endUnit
  simp only [hb.1, ht.1, hb2, ht.2, hdue, hrun, Option.isSome_none, Bool.false_and, Bool.false_eq_true, if_false, Nat.add_zero]
  by_cases hover : (st.threads.isEmpty || decide (st.last.toNat < st.next.toNat)) = true
  · rw [if_pos hover, State.overClause, State.updStream_updStream _ _ _ (hf := ?_)]
    · exact ⟨_, some _, rfl, by simpa using hover⟩
    · exact fun _ => ⟨rfl, rfl⟩
  · rw [if_neg hover]
    exact ⟨_, none, rfl, by simpa using hover⟩

end Sys2Proof.Machine
end

section
/-! The word placed where the next step fetches it (log 6). -/

namespace Sys2Proof.Machine

/-! ## The words of the placed clause -/

theorem mget_filter_zip (l : List Word) (n i : Nat) :
    mget (((List.range' n l.length).zip l).filter fun x => x.2 ≠ 0#32) i = if n ≤ i then l.getD (i - n) 0#32 else 0#32 := by
  induction l generalizing n with
  | nil => simp [mget]
  | cons w r ih =>
    have hr : mget (((n, w) :: (List.range' (n + 1) r.length).zip r).filter fun x => x.2 ≠ 0#32) i =
        if n = i then w else if n + 1 ≤ i then r.getD (i - (n + 1)) 0#32 else 0#32 := by
      have hi := ih (n + 1)
      by_cases hn : n = i
      · subst hn
        by_cases hw : w = 0#32
        · simpa [hw] using hi
        · simp [hw, mget]
      · by_cases hw : w = 0#32
        · simpa [hw, hn] using hi
        · simpa [hw, mget, hn] using hi
    rw [List.length_cons, List.range'_succ, List.zip_cons_cons, hr]
    by_cases hi : n = i
    · simp [hi]
    · by_cases hle : n + 1 ≤ i
      · obtain ⟨d, rfl⟩ := Nat.exists_eq_add_of_le hle
        have h1 : n ≤ n + 1 + d := by omega
        have h2 : n + 1 + d - n = d + 1 := by omega
        simp [hi, h1, h2]
      · have h1 : ¬ n ≤ i := by omega
        simp [hi, hle, h1]

theorem mget_wordMapOf (l : List Word) (i : Nat) : mget (wordMapOf l) i = l.getD i 0#32 := by
  rw [wordMapOf, List.range_eq_range', mget_filter_zip]
  simp

/-- The one copy of the placed clause. -/
def placedCopy (clk : Nat) (w : Word) : Copy :=
  { id := 5, ctx := 0, domain := 0, ident := 0, gen := 0, start := 0, slots := 1, slotNos := [0], digest := [], share := false,
    words := wordMapOf (hostClause w), binds := [⟨0, 0, 0, 0, 0, false, false⟩], entered := clk }

theorem placedCopy_word? (clk : Nat) (w : Word) (n : Nat) (h : n < 1024) :
    (placedCopy clk w).word? 0 (4 * n) = some ((hostClause w).getD n 0#32) := by
  have h4 : 4 * n < (placedCopy clk w).slots * 4096 := by
    show 4 * n < 1 * 4096
    omega
  have hwords : (placedCopy clk w).words = wordMapOf (hostClause w) := rfl
  rw [Copy.word?, hwords, mget_wordMapOf]
  simp [h4]

/-- The placed unit: the word, behind the prefixes that it needs. -/
theorem unitFrom_placedCopy {clk : Nat} {w : Word} {i : Instr} (hw : decodeWord w = .ok i) :
    ∃ imm a, unitFrom (placedCopy clk w) 0 3 4#32 (none, none) = some ((imm, none), w, a) := by
  have h28 : bits w 27 5 ≠ 28#5 := fun hc => by
    rw [decodeWord_isPrefix (.inl (by rw [hc]; rfl))] at hw
    cases hw
  have h29 : bits w 27 5 ≠ 29#5 := fun hc => by
    rw [decodeWord_isPrefix (.inr (by rw [hc]; rfl))] at hw
    cases hw
  have hword1 := placedCopy_word? clk w 1 (by decide)
  have hword2 := placedCopy_word? clk w 2 (by decide)
  by_cases hn : (accepts w).need = true
  · simp only [hostClause, hn, if_true, List.getD_cons_succ, List.getD_cons_zero, List.cons_append, List.nil_append] at hword1 hword2
    refine ⟨immOfWord (wordOfImm 0#24), 8#32, ?_⟩
    rw [unitFrom, show (4#32 : Word).toNat = 4 * 1 from rfl, hword1]
    simp only [show bits (wordOfImm 0#24) 27 5 = 28#5 from rfl, if_true]
    rw [unitFrom, show (4#32 + 4#32 : Word).toNat = 4 * 2 from rfl, hword2]
    simp only [h28, h29, if_false]
    rfl
  · simp only [hostClause, hn, Bool.false_eq_true, if_false, List.cons_append, List.nil_append, List.getD_cons_succ, List.getD_cons_zero] at hword1
    refine ⟨none, 4#32, ?_⟩
    rw [unitFrom, show (4#32 : Word).toNat = 4 * 1 from rfl, hword1]
    simp only [h28, h29, if_false]

/-! ## The order of cores -/

theorem mem_distinct {α : Type} [DecidableEq α] {l : List α} {a : α} : a ∈ distinct l ↔ a ∈ l := by
  induction l with
  | nil => rfl
  | cons b r ih =>
    by_cases h : a = b <;> simp [distinct, ih, h]

theorem mem_insertBy {α : Type} (key : α → Nat) (a b : α) (l : List α) : b ∈ insertBy key a l ↔ b = a ∨ b ∈ l := by
  induction l with
  | nil => simp [insertBy]
  | cons c r ih =>
    rw [insertBy]
    split
    · simp
    · simp only [List.mem_cons, ih]
      tauto

/-- Sorted numbers among which is 0 begin with it. -/
theorem head?_sortBy_zero {l : List Nat} (h : 0 ∈ l) : (sortBy (fun x => x) l).head? = some 0 := by
  have hinsert : ∀ (a : Nat) (r : List Nat), (a = 0 ∨ r.head? = some 0) → (insertBy (fun x => x) a r).head? = some 0 := by
    intro a r hr
    cases r with
    | nil => simpa [insertBy] using hr
    | cons b r =>
      simp only [List.head?_cons, Option.some.injEq] at hr
      rw [insertBy]
      by_cases hab : a ≤ b
      · rw [if_pos hab, List.head?_cons, Option.some.injEq]
        omega
      · rw [if_neg hab, List.head?_cons, Option.some.injEq]
        omega
  induction l with
  | nil => cases h
  | cons a r ih =>
    refine hinsert a _ ?_
    rcases List.mem_cons.mp h with h0 | h0
    · exact .inl h0.symm
    · exact .inr (ih h0)

theorem State.turn?_zero {s : State} {g : Group} (hg : g ∈ s.dev.groups) (hc : g.core = 0) (hp : s.dev.part = 0) : s.turn? = some 0 := by
  have h0 : 0 ∈ distinct (s.dev.cores.map (fun x => x.1) ++ s.dev.groups.map (fun g => g.core) ++ s.dev.refills.map (fun x => x.1) ++
      s.dev.fwds.map (fun f => f.core) ++ s.dev.pushes.map (fun p => p.core) ++ s.dev.quads.map (fun q => q.owner) ++
      (s.dev.frames.map fun f => (List.range f.fr.tiles).map fun t => s.tileOwner f.fr t).flatten) := by
    have := List.mem_map_of_mem (f := fun g : Group => g.core) hg
    rw [hc] at this
    simp only [mem_distinct, List.mem_append, this, true_or, or_true]
  obtain ⟨r, hr⟩ := List.head?_eq_some_iff.mp (head?_sortBy_zero h0)
  rw [State.turn?, State.coreList, hr, hp]
  simp

/-! ## The placed stream -/

section
variable (s : State) (w : Word)

theorem State.withWord_stream : ∃ st, (s.withWord w).dev.streams = [st] ∧ (s.withWord w).stream? = some st ∧ st.core = 0 ∧ st.reed = 0 ∧
    st.grp = 4 ∧ st.copy = 5 ∧ st.mask = 1#32 ∧ st.next = 4#32 ∧ st.bps = [] ∧ st.free = s.dev.clk ∧ st.outcome = none :=
  ⟨_, rfl, rfl, rfl, rfl, rfl, rfl, rfl, rfl, rfl, rfl, rfl⟩

theorem State.withWord_group : ∃ g th, (s.withWord w).dev.groups = [g] ∧ (s.withWord w).group? 4 = some g ∧ g.core = 0 ∧
    g.thread? 0 = some th ∧ th.start = 0 ∧ th.async = [] ∧ th.due = none :=
  ⟨_, _, rfl, rfl, rfl, rfl, rfl, rfl, rfl⟩

theorem State.withWord_copy : ((s.withWord w).core 0).copy? 5 = some (placedCopy s.dev.clk w) := by
  show ((s.updCore 0 fun x => { x with copies := [placedCopy s.dev.clk w] }).core 0).copy? 5 = _
  rw [State.core_updCore_same]
  rfl

theorem State.withWord_nextStream : (s.withWord w).nextStream = (s.withWord w).stream? := by
  obtain ⟨st, hstreams, hstream, hcore, hreed, hgrp, hcopy, hmask, hnext, hbps, hfree, hout⟩ := s.withWord_stream w
  obtain ⟨g, th, hgroups, hgroup, hgcore, -⟩ := s.withWord_group w
  have hclk : (s.withWord w).dev.clk = s.dev.clk := rfl
  have hturn := State.turn?_zero (s := s.withWord w) (g := g) (by rw [hgroups]; exact List.mem_singleton_self g) hgcore rfl
  have hfirst : ∀ sel, (s.withWord w).firstStream sel = if sel st = true then some st else none := by
    intro sel
    rw [State.firstStream, hstreams]
    by_cases hs : sel st = true <;> simp [hs, hout, hfree, hclk, firstBy]
  rw [State.nextStream, hturn, hstream, Option.bind_some, hfirst, hfirst]
  by_cases hs : (s.withWord w).atSeal st = true <;> simp [hs, hcore]

end

theorem bitsOf_one : bitsOf 1#32 = [0] := by decide

/-- The placed word's unit is the one fetched. -/
theorem State.withWord_fetchUnit (s : State) {w : Word} {i : Instr} (hw : decodeWord w = .ok i) :
    ∃ s1, (s.withWord w).fetchUnit = (s1, some i) := by
  obtain ⟨st, hstreams, hstream, hcore, hreed, hgrp, hcopy, hmask, hnext, hbps, hfree, hout⟩ := s.withWord_stream w
  obtain ⟨g, th, hgroups, hgroup, hgcore, hth, hstart, hasync, hdue⟩ := s.withWord_group w
  obtain ⟨imm, a, hu⟩ := unitFrom_placedCopy (clk := s.dev.clk) hw
  have hthreads : st.threads = [0] := by rw [Stream.threads, hmask, bitsOf_one]
  refine ⟨_, State.fetchUnit_clear ⟨hstream, hgrp ▸ hgroup⟩ (t0 := 0) (by rw [hthreads]; rfl) hth ?_ (by rw [hstart, hnext]; exact hu) hw ?_⟩
  · rw [hcore, hcopy, State.withWord_copy]
  · rw [hthreads]
    refine fun t ht => ⟨th, List.mem_singleton.mp ht ▸ hth, hasync, ?_⟩
    simp [Thread.meets, hdue, hbps]

/-- What comes of a step that executes a stream's unit. -/
theorem step_stream {s s' : State} {x : Stream} {i : Instr} (hw : s.dev.die.powered = true) (hp : s.dev.phase = .units)
    (ht : s.dev.todo = []) (hx : s.nextStream = some x)
    (hf : (s.onDev fun d => { d with focus := (x.core, x.reed) }).fetchUnit = (s', some i)) :
    (∀ t, exec i s' = .next t → step s = .next (s'.endUnit t i)) ∧ (∀ f, exec i s' = .fault f → step s = .fault f) ∧
      ∀ r, exec i s' = .refused r → step s = .refused r := by
  refine ⟨fun t hi => step_unit hw hp ht hx hf hi, fun f hi => ?_, fun r hi => ?_⟩ <;>
    simp [step, State.stepOnce, State.stepUnits, State.stepTodo, State.stepStream, hw, hp, ht, hx, hf, hi]

end Sys2Proof.Machine

namespace Sys2Proof
open Machine

/-- Settles O55: the fetch of the unit with no fault before it, the end of the unit, and the word placed. -/
theorem stepRunsUnit : Obligations.StepRunsUnit := by
  refine ⟨fun s i r ha h => step_given ha h, fun s i r hw hp ht => step_event hw hp.symm ht, ?_, ?_, ?_⟩
  · intro s x st g k t0 th0 imm mod w a i hw hp ht hx b hb h0 hth0 hk hu hdec hm
    exact step_stream hw hp ht hx (State.fetchUnit_clear hb h0 hth0 hk hu hdec hm)
  · intro b t st0 st g0 g i hb ht hcore hreed hgrp hdue ran hran
    obtain ⟨f, o, hu, ho⟩ := State.endUnit_stream (i := i) hb ht hgrp hdue fun x hx => by
      obtain ⟨k, u, v⟩ := x
      obtain ⟨hk, hu, hv, hp⟩ := mem_executed hx
      refine (hran k ?_).imp id fun h => h u v hu hv
      simp [ran, hk, hu, hv, hp]
    intro u
    have hstream := State.stream?_updStream (s := t.updGroup st.grp f) ht.1 (f := fun x =>
      { x with free := t.dev.clk + (if uniformUnit i then 1 else max (executed st0 g0 g).length 4) + x.extra, extra := 0, due := none,
               outcome := o.or x.outcome }) fun _ => ⟨rfl, rfl⟩
    rw [← hu] at hstream
    refine ⟨by rw [show u = _ from hu]; rfl, by rw [show u = _ from hu]; rfl, _, hstream, ?_, fun hover => ?_, fun h1 h2 => ?_⟩
    · rw [length_executed]
    · obtain ⟨c, hc⟩ := Option.isSome_iff_exists.mp (ho.mpr hover)
      simp [hc]
    · have hnone : o = none := by
        rw [← Option.not_isSome_iff_eq_none, ho]
        exact fun h => h.elim h1 (by omega)
      simp [hnone]
  · intro s w i hw hpow s0
    have hs0 : s0 = ({ s with agenda := [] } : State).withWord w := by
      show State.withWord _ (BitVec.ofNat 32 (w.toNat % 2 ^ 32)) = _
      rw [Nat.mod_eq_of_lt w.isLt, BitVec.ofNat_toNat, BitVec.setWidth_eq]
    obtain ⟨s1, hf⟩ := State.withWord_fetchUnit { s with agenda := [] } hw
    obtain ⟨st, -, hstream, hcore, hreed, -⟩ := State.withWord_stream { s with agenda := [] } w
    rw [← hs0] at hf hstream
    refine ⟨s1, hf, fun t ht => step_unit (x := st) ?_ ?_ ?_ ?_ ?_ ht⟩
    · rw [hs0]; exact hpow
    · rw [hs0]; rfl
    · rw [hs0]; rfl
    · rw [hs0] at hstream ⊢; rw [State.withWord_nextStream, hstream]
    · rw [hcore, hreed, hs0]; rw [hs0] at hf; exact hf

end Sys2Proof
end

section
/-! The choice of a group and of its issue PC, and the issue of its clause (R140 to R143, R149). -/

namespace Sys2Proof.Machine

/-! ## The first of an ordered list -/

theorem firstBy_eq_none {α : Type} {lt : α → α → Bool} {l : List α} : firstBy lt l = none ↔ l = [] := by
  cases l with
  | nil => simp [firstBy]
  | cons a r =>
    rw [firstBy]
    split
    · simp
    · split <;> simp

theorem mem_of_firstBy {α : Type} {lt : α → α → Bool} {l : List α} {a : α} (h : firstBy lt l = some a) : a ∈ l := by
  induction l generalizing a with
  | nil => cases h
  | cons b r ih =>
    rw [firstBy] at h
    split at h
    · cases h
      exact List.mem_cons_self ..
    · next c hc =>
      split at h
      · cases h
        exact List.mem_cons_of_mem _ (ih hc)
      · cases h
        exact List.mem_cons_self ..

/-- Of a list sorted by a key, the element of least rank that has the least key is placed first. -/
theorem firstBy_least {α β : Type} [LinearOrder β] {lt : α → α → Bool} {rank : α → β} (hlt : ∀ a b, lt a b = true ↔ rank a < rank b)
    {key : α → Nat} {l : List α} (hl : l.Pairwise fun x y => key x ≤ key y) {a : α} (h : firstBy lt l = some a) :
    ∀ x ∈ l, rank a < rank x ∨ (rank a = rank x ∧ key a ≤ key x) := by
  induction l generalizing a with
  | nil => cases h
  | cons b r ih =>
    obtain ⟨hb, hr⟩ := List.pairwise_cons.mp hl
    intro x hx
    rw [firstBy] at h
    split at h
    · next hnone =>
      cases h
      rw [firstBy_eq_none.mp hnone, List.mem_singleton] at hx
      exact .inr ⟨by rw [hx], by rw [hx]⟩
    · next c hc =>
      split at h
      · next hcb =>
        cases h
        rcases List.mem_cons.mp hx with rfl | hx
        · exact .inl ((hlt _ _).mp hcb)
        · exact ih hr hc x hx
      · next hcb =>
        cases h
        have hle : rank b ≤ rank c := not_lt.mp fun hlt2 => hcb ((hlt _ _).mpr hlt2)
        rcases List.mem_cons.mp hx with rfl | hx
        · exact .inr ⟨rfl, le_rfl⟩
        · have hbx : rank b ≤ rank x := (ih hr hc x hx).elim (fun hcx => hle.trans hcx.le) fun hcx => hcx.1 ▸ hle
          exact hbx.lt_or_eq.imp id fun he => ⟨he, hb x hx⟩

/-! ## Sorted lists -/

theorem mem_sortBy {α : Type} {key : α → Nat} {l : List α} {a : α} : a ∈ sortBy key l ↔ a ∈ l := by
  induction l with
  | nil => rfl
  | cons b r ih =>
    rw [show sortBy key (b :: r) = insertBy key b (sortBy key r) from rfl, mem_insertBy, ih, List.mem_cons]

theorem pairwise_insertBy {α : Type} {key : α → Nat} {a : α} {l : List α} (h : l.Pairwise fun x y => key x ≤ key y) :
    (insertBy key a l).Pairwise fun x y => key x ≤ key y := by
  induction l with
  | nil => exact List.pairwise_singleton _ _
  | cons b r ih =>
    obtain ⟨hb, hr⟩ := List.pairwise_cons.mp h
    rw [insertBy]
    split
    · next hab =>
      refine List.pairwise_cons.mpr ⟨fun x hx => ?_, h⟩
      rcases List.mem_cons.mp hx with rfl | hx
      · exact hab
      · exact hab.trans (hb x hx)
    · next hab =>
      refine List.pairwise_cons.mpr ⟨fun x hx => ?_, ih hr⟩
      rcases (mem_insertBy key a x r).mp hx with rfl | hx
      · exact (not_le.mp hab).le
      · exact hb x hx

theorem pairwise_sortBy {α : Type} (key : α → Nat) (l : List α) : (sortBy key l).Pairwise fun x y => key x ≤ key y := by
  induction l with
  | nil => exact List.Pairwise.nil
  | cons a r ih => exact pairwise_insertBy ih

/-- Elements with their places, in order of place. -/
theorem pairwise_zip_range {α : Type} (l : List α) : ((List.range l.length).zip l).Pairwise fun x y => x.1 ≤ y.1 := by
  have h : (((List.range l.length).zip l).map Prod.fst).Pairwise (· ≤ ·) := by
    rw [List.map_fst_zip (by simp)]
    exact List.pairwise_lt_range.imp Nat.le_of_lt
  exact List.pairwise_map.mp h

theorem mem_zip_range {α : Type} {l : List α} {n : Nat} {a : α} : (n, a) ∈ (List.range l.length).zip l ↔ l[n]? = some a := by
  rw [List.mem_iff_getElem?]
  constructor
  · rintro ⟨i, hi⟩
    rw [List.getElem?_zip_eq_some] at hi
    obtain ⟨h1, h2⟩ := hi
    rw [List.getElem?_range (List.getElem?_eq_some_iff.mp h2).1, Option.some.injEq] at h1
    exact (congrArg (l[·]?) h1).symm.trans h2
  · intro h
    exact ⟨n, List.getElem?_zip_eq_some.mpr ⟨by rw [List.getElem?_range (List.getElem?_eq_some_iff.mp h).1], h⟩⟩

/-! ## The group chosen (R141) -/

section
variable {s : State} {core reed : Nat}

theorem State.mem_eligibleOn {x : Group} : x ∈ s.eligibleOn core reed ↔
    x ∈ s.dev.groups ∧ x.core = core ∧ x.reed = reed ∧ s.eligible x = true := by
  simp only [State.eligibleOn, mem_sortBy, List.mem_filter, Bool.and_eq_true, beq_iff_eq, and_assoc]

theorem Group.aged_iff {x : Group} {clk lim : Nat} : x.aged clk lim = true ↔ x.eligibleAt + lim ≤ clk := decide_eq_true_iff

theorem Thread.aged_iff {x : Thread} {clk lim : Nat} : x.aged clk lim = true ↔ x.lastStreamed + lim ≤ clk := decide_eq_true_iff

theorem State.chooseGroup_none (h : ∀ x, ¬ (x ∈ s.dev.groups ∧ x.core = core ∧ x.reed = reed ∧ s.eligible x = true)) :
    s.chooseGroup core reed = none := by
  have hnil : s.eligibleOn core reed = [] := List.eq_nil_iff_forall_not_mem.mpr fun x hx => h x (State.mem_eligibleOn.mp hx)
  simp [State.chooseGroup, hnil, firstBy]

/-- The rank of a group that has not waited for the limit: the highest issue priority, then the least recently issued. -/
def Group.rank (clk : Nat) (x : Group) : Lex (Natᵒᵈ × Nat) := toLex (OrderDual.toDual (x.issuePrio clk), x.lastIssue)

theorem Group.rank_lt {clk : Nat} {a b : Group} : a.rank clk < b.rank clk ↔
    b.issuePrio clk < a.issuePrio clk ∨ (a.issuePrio clk = b.issuePrio clk ∧ a.lastIssue < b.lastIssue) := by
  simp [Group.rank, Prod.Lex.toLex_lt_toLex]

theorem Group.rank_eq {clk : Nat} {a b : Group} : a.rank clk = b.rank clk ↔ a.issuePrio clk = b.issuePrio clk ∧ a.lastIssue = b.lastIssue := by
  simp [Group.rank]

/-- The group chosen: the longest-waiting of those that have waited for the limit, else by issue priority and last issue. -/
theorem State.chooseGroup_some {g : Group} (h : s.chooseGroup core reed = some g) :
    g ∈ s.eligibleOn core reed ∧
      ((g.aged s.dev.clk (s.core core).ageLimit = true ∧ ∀ x ∈ s.eligibleOn core reed, x.aged s.dev.clk (s.core core).ageLimit = true →
          g.eligibleAt < x.eligibleAt ∨ (g.eligibleAt = x.eligibleAt ∧ g.rslot ≤ x.rslot)) ∨
        ((∀ x ∈ s.eligibleOn core reed, ¬ x.aged s.dev.clk (s.core core).ageLimit = true) ∧
          ∀ x ∈ s.eligibleOn core reed, x.issuePrio s.dev.clk < g.issuePrio s.dev.clk ∨ (x.issuePrio s.dev.clk = g.issuePrio s.dev.clk ∧
            (g.lastIssue < x.lastIssue ∨ (g.lastIssue = x.lastIssue ∧ g.rslot ≤ x.rslot))))) := by
  have hsorted := pairwise_sortBy (fun g : Group => g.rslot) (s.dev.groups.filter fun g => g.core == core && g.reed == reed && s.eligible g)
  unfold State.chooseGroup at h
  dsimp only at h
  split at h
  · next a ha =>
    cases h
    have hmem := List.mem_filter.mp (mem_of_firstBy ha)
    exact ⟨hmem.1, .inl ⟨hmem.2, fun x hx hold => firstBy_least (rank := fun x : Group => x.eligibleAt) (fun _ _ => decide_eq_true_iff)
      (List.Pairwise.filter _ hsorted) ha x (List.mem_filter.mpr ⟨hx, hold⟩)⟩⟩
  · next hnone =>
    refine ⟨mem_of_firstBy h, .inr ⟨fun x hx hold => ?_, fun x hx => ?_⟩⟩
    · exact List.filter_eq_nil_iff.mp (firstBy_eq_none.mp hnone) x hx hold
    · have hlt : ∀ a b : Group, (decide (b.issuePrio s.dev.clk < a.issuePrio s.dev.clk) ||
          (a.issuePrio s.dev.clk == b.issuePrio s.dev.clk && decide (a.lastIssue < b.lastIssue))) = true ↔ a.rank s.dev.clk < b.rank s.dev.clk := by
        intro a b
        rw [Group.rank_lt]
        simp
      rcases firstBy_least hlt hsorted h x hx with h | ⟨h, hslot⟩
      · exact (Group.rank_lt.mp h).imp id fun h => ⟨h.1.symm, .inl h.2⟩
      · obtain ⟨hp, hl⟩ := Group.rank_eq.mp h
        exact .inr ⟨hp.symm, .inr ⟨hl, hslot⟩⟩

end

/-! ## The thread at the issue PC (R142) -/

theorem Group.mem_ready {g : Group} {n : Nat} {x : Thread} : (n, x) ∈ g.ready ↔
    g.threads[n]? = some x ∧ x.ended = false ∧ x.wait = none ∧ x.park = none ∧ x.trapPending = false := by
  simp [Group.ready, List.mem_filter, mem_zip_range, Thread.runnable, and_assoc]

theorem Group.pairwise_ready (g : Group) : g.ready.Pairwise fun x y => x.1 ≤ y.1 := List.Pairwise.filter _ (pairwise_zip_range g.threads)

/-- The issue PC is the longest-waiting aged thread's, else the lowest. -/
theorem Group.lead_some {g : Group} {clk lim t : Nat} {th : Thread} (h : g.lead clk lim = some (t, th)) :
    (t, th) ∈ g.ready ∧
      ((th.aged clk lim = true ∧ ∀ n x, (n, x) ∈ g.ready → x.aged clk lim = true →
          th.lastStreamed < x.lastStreamed ∨ (th.lastStreamed = x.lastStreamed ∧ t ≤ n)) ∨
        ((∀ n x, (n, x) ∈ g.ready → ¬ x.aged clk lim = true) ∧
          ∀ n x, (n, x) ∈ g.ready → th.key < x.key ∨ (th.key = x.key ∧ t ≤ n))) := by
  have hsorted := g.pairwise_ready
  unfold Group.lead at h
  split at h
  · next a ha =>
    cases h
    have hmem := List.mem_filter.mp (mem_of_firstBy ha)
    exact ⟨hmem.1, .inl ⟨hmem.2, fun n x hx hold => firstBy_least (rank := fun x : Nat × Thread => x.2.lastStreamed)
      (fun _ _ => decide_eq_true_iff) (List.Pairwise.filter _ hsorted) ha (n, x) (List.mem_filter.mpr ⟨hx, hold⟩)⟩⟩
  · next hnone =>
    exact ⟨mem_of_firstBy h, .inr ⟨fun n x hx hold => List.filter_eq_nil_iff.mp (firstBy_eq_none.mp hnone) (n, x) hx hold,
      fun n x hx => firstBy_least (rank := fun x : Nat × Thread => x.2.key) (fun _ _ => decide_eq_true_iff) hsorted h (n, x) hx⟩⟩

theorem Group.mem_streamOf {g : Group} {th : Thread} {n : Nat} : n ∈ g.streamOf th ↔
    ∃ x, (n, x) ∈ g.ready ∧ x.key = th.key ∧ x.copy = th.copy ∧ x.start = th.start := by
  simp only [Group.streamOf, List.mem_map, List.mem_filter, Bool.and_eq_true, beq_iff_eq, and_assoc, Prod.exists]
  constructor
  · rintro ⟨a, x, h1, h2, h3, h4, rfl⟩
    exact ⟨x, h1, h2, h3, h4⟩
  · rintro ⟨x, h⟩
    exact ⟨n, x, h.1, h.2.1, h.2.2.1, h.2.2.2, rfl⟩

/-! ## The clause begins (R149) -/

theorem foldl_updThread_keeps (l : List Nat) (F : Thread → Thread) (g : Group) :
    (l.foldl (fun g t => g.updThread t F) g).id = g.id ∧ (l.foldl (fun g t => g.updThread t F) g).eligibleAt = g.eligibleAt := by
  induction l generalizing g with
  | nil => exact ⟨rfl, rfl⟩
  | cons t r ih => exact ih (g.updThread t F)

theorem getLsbD_maskOf {l : List Nat} {n : Nat} (hn : n < 32) : (maskOf l).getLsbD n = true ↔ n ∈ l := by
  rw [maskOf, getLsbD_foldl_or _ _ _ hn]
  simp

/-- A clause without a defect begins: its stream, and what is new of its group. -/
theorem State.startStream_clear {s : State} {g : Group} {t : Nat} {th : Thread} {k : Copy} {hdr w : Word} {gr : Grid}
    (hgr : s.grid? g.grid = some gr) (hd : clauseDefect k th.start hdr w g.role gr.lr.regs gr.lr.fs = none) :
    ∃ (st : Stream) (f : Group → Group), (s.startStream g t th k hdr w).dev.streams = s.dev.streams ++ [st] ∧
      (s.startStream g t th k hdr w).dev.clk = s.dev.clk ∧ (s.startStream g t th k hdr w).mem = s.mem ∧
      (s.startStream g t th k hdr w).dev.groups = updIf (fun x => x.id == g.id) f s.dev.groups ∧
      (∀ x, (f x).id = x.id ∧ (f x).hold = none ∧ (f x).park = .none ∧ (f x).lastIssue = s.dev.clk ∧ (f x).eligibleAt = x.eligibleAt) ∧
      st.core = g.core ∧ st.reed = g.reed ∧ st.grp = g.id ∧ st.copy = k.id ∧ st.hdr = hdr ∧
      st.last = hdr + 4#32 * (BitVec.extractLsb' 0 4 w).zeroExtend 32 ∧
      st.next = (if th.vpc = hdr then hdr + 4#32 else unitStart k th.start 2 th.vpc) ∧ st.outcome = none ∧
      st.free = s.dev.clk + (if s.buffered g.core g.reed (s.bufTag g th k hdr) = true then 0 else 4) ∧ st.mask = maskOf (g.streamOf th) := by
  unfold State.startStream
  simp only [hgr, hd]
  refine ⟨_, _, rfl, rfl, rfl, rfl, fun x => ?_, rfl, rfl, rfl, rfl, rfl, rfl, rfl, rfl, rfl, rfl⟩
  obtain ⟨hid, hel⟩ := foldl_updThread_keeps (g.streamOf th)
    (fun th' => { th' with vpc := if th.vpc = hdr then hdr + 4#32 else unitStart k th.start 2 th.vpc }) (x.acquire (headerOfWord w).wait)
  exact ⟨hid, rfl, rfl, rfl, hel⟩

theorem firstBad_none {g : Group} (h : ∀ x ∈ g.threads, x.bad = none) : g.firstBad = none := by
  refine List.findSome?_eq_none_iff.mpr fun x hx => ?_
  obtain ⟨n, y⟩ := x
  simp [h y (List.of_mem_zip hx).2]

/-- The group that begins a clause at its issue PC, with what it has waited counted from here. -/
theorem State.issueGroup_starts {s : State} {g : Group} {t : Nat} {th : Thread} {k : Copy} {hdr w : Word}
    (hlead : g.lead s.dev.clk (s.core g.core).ageLimit = some (t, th)) (hbad : ∀ x ∈ g.threads, x.bad = none) (hcopy : th.copy ≠ 0)
    (hk : (s.core g.core).copy? th.copy = some k) (hc : s.clauseAt g.core th = some (k, hdr, w)) :
    s.issueGroup g = (s.updGroup g.id fun g => { g with eligibleAt := s.dev.clk }).startStream g t th k hdr w := by
  have hlead' : g.lead (s.updGroup g.id fun g => { g with eligibleAt := s.dev.clk }).dev.clk
      ((s.updGroup g.id fun g => { g with eligibleAt := s.dev.clk }).core g.core).ageLimit = some (t, th) := hlead
  have hk' : ((s.updGroup g.id fun g => { g with eligibleAt := s.dev.clk }).core g.core).copy? th.copy = some k := hk
  have hc' : (s.updGroup g.id fun g => { g with eligibleAt := s.dev.clk }).clauseAt g.core th = some (k, hdr, w) := hc
  unfold State.issueGroup
  simp only [firstBad_none hbad, hlead', hcopy, if_false, hk', hc']

section
variable {s : State} {core reed : Nat}

theorem exec_clauseIssue_free {g : Group} (hfree : s.streamAt core reed = none) (hg : s.chooseGroup core reed = some g) :
    exec (.clauseIssue core reed) s = .next (s.issueGroup g) := by
  show execClauseIssue core reed s = _
  simp [execClauseIssue, hfree, hg]

/-- The group or a thread of it has waited for the limit (R160). -/
def Group.due (g : Group) (clk lim : Nat) : Prop := g.aged clk lim = true ∨ ∃ n x, (n, x) ∈ g.ready ∧ x.aged clk lim = true

theorem Group.due_iff {g : Group} {clk lim : Nat} : (g.aged clk lim || g.ready.any fun x => x.2.aged clk lim) = true ↔ g.due clk lim := by
  simp [Group.due]

theorem exec_ageExpiry_due {g : Group} (hfree : s.streamAt core reed = none) (hg : s.chooseGroup core reed = some g)
    (h : g.due s.dev.clk (s.core core).ageLimit) : exec (.ageExpiry core reed) s = .next (s.issueGroup g) := by
  show execAgeExpiry core reed s = _
  simp only [execAgeExpiry, hfree, hg, Group.due_iff.mpr h, Option.isSome_none, Bool.false_eq_true, if_false, if_true]

theorem exec_ageExpiry_idle {g : Group} (hfree : s.streamAt core reed = none) (hg : s.chooseGroup core reed = some g)
    (h : ¬ g.due s.dev.clk (s.core core).ageLimit) : exec (.ageExpiry core reed) s = .next s := by
  show execAgeExpiry core reed s = _
  simp only [execAgeExpiry, hfree, hg, mt Group.due_iff.mp h, Option.isSome_none, Bool.false_eq_true, if_false]

theorem exec_issue_idle (h : (s.streamAt core reed).isSome = true ∨ s.chooseGroup core reed = none) :
    exec (.clauseIssue core reed) s = .next s ∧ exec (.ageExpiry core reed) s = .next s := by
  show execClauseIssue core reed s = _ ∧ execAgeExpiry core reed s = _
  rcases h with h | h <;> simp [execClauseIssue, execAgeExpiry, h]

end

end Sys2Proof.Machine

namespace Sys2Proof
open Machine

/-- Settles O48: the choice by rank and by sorted place, then the clause of the group chosen. -/
theorem clauseIssue : Obligations.ClauseIssue := by
  intro s core reed clk lim old cand
  refine ⟨fun h => exec_issue_idle (h.imp id State.chooseGroup_none), fun g hg => ?_⟩
  obtain ⟨hmem, hbest⟩ := State.chooseGroup_some hg
  have hcand : cand g := State.mem_eligibleOn.mp hmem
  simp only [State.mem_eligibleOn, Group.aged_iff] at hbest
  refine ⟨⟨hcand, hbest⟩, fun t th hlead => ?_⟩
  obtain ⟨hready, hfirst⟩ := Group.lead_some hlead
  simp only [Group.mem_ready, Thread.aged_iff] at hready hfirst
  refine ⟨⟨hready, hfirst⟩, fun gr k hdr w hfree hgr hbad hcopy hk hc hd => ?_⟩
  obtain ⟨hgmem, hcore, hreed, -⟩ := hcand
  subst hcore hreed
  have hstart := State.issueGroup_starts hlead hbad hcopy hk hc
  obtain ⟨st, f, hstreams, hclk, hm, hgroups, hf, h1, h2, h3, h4, h5, h6, h7, h8, h9, h10⟩ :=
    State.startStream_clear (s := s.updGroup g.id fun g => { g with eligibleAt := s.dev.clk }) (t := t) hgr hd
  rw [← hstart] at hstreams hclk hm hgroups
  have hdue : g.due clk lim ↔ old g ∨ ∃ (n : Nat) (x : Thread), (g.threads[n]? = some x ∧ x.ended = false ∧ x.wait = none ∧ x.park = none ∧
      x.trapPending = false) ∧ x.lastStreamed + lim ≤ clk := by
    simp only [Group.due, Group.mem_ready, Group.aged_iff, Thread.aged_iff, old]
  refine ⟨_, st, exec_clauseIssue_free hfree hg, fun hold => exec_ageExpiry_due hfree hg (hdue.mpr hold), fun hnew hnone => ?_,
    hstreams, hclk, hm, h1, h2, h3, h4, h5, h6, h7, h8, h9, fun n hn => ?_, ?_⟩
  · refine exec_ageExpiry_idle hfree hg (mt hdue.mp ?_)
    rintro (ho | ⟨n, x, hr, hl⟩)
    · exact hnew ho
    · exact hnone n x hr hl
  · rw [h10, getLsbD_maskOf hn, Group.mem_streamOf]
    simp only [Group.mem_ready]
  · obtain ⟨g', hg'⟩ : ∃ g', s.group? g.id = some g' := Option.isSome_iff_exists.mp (List.find?_isSome.mpr ⟨g, hgmem, by simp⟩)
    have hid : g'.id = g.id := State.group?_id hg'
    obtain ⟨-, hhold, hpark, hlast, helig⟩ := hf { g' with eligibleAt := s.dev.clk }
    have hfind : (s.issueGroup g).group? g.id = some (f { g' with eligibleAt := s.dev.clk }) := by
      unfold State.group? at hg' ⊢
      rw [hgroups, find?_updIf_same _ f fun a ha => by simpa [(hf a).1] using ha, State.updGroup_dev,
        find?_updIf_same _ _ fun a ha => by simpa using ha, hg']
      rfl
    rw [hfind, Option.map_some, hhold, hpark, hlast, helig]
    rfl

end Sys2Proof
end

section
/-! What a unit of a register class leaves unchanged (R53, R146): one thread's part, the threads in turn, and the stream's advance. -/

namespace Sys2Proof.Machine

/-! ## What is kept of a thread and of a group -/

/-- From `th` to `u` a thread keeps all but the chosen v registers and predicates, and its flags where they are not chosen. -/
def Thread.Kept (v p : Nat → Prop) (fl : Prop) (th u : Thread) : Prop :=
  (∀ r, ¬ v r → mget u.v r = mget th.v r) ∧ (∀ n, n < 7 → ¬ p n → u.p.getLsbD n = th.p.getLsbD n) ∧ (¬ fl → u.fpflags = th.fpflags) ∧
    { u with v := th.v, p := th.p, fpflags := th.fpflags, vpc := th.vpc } = th

/-- From `g` to `x` a group keeps all but the chosen g registers and what its threads need not keep. -/
def Group.Kept (v gr p : Nat → Prop) (fl : Prop) (g x : Group) : Prop :=
  (∀ r, ¬ gr r → mget x.g r = mget g.g r) ∧ { x with g := g.g, threads := g.threads } = g ∧ x.threads.length = g.threads.length ∧
    ∀ (k : Nat) (th : Thread), g.threads[k]? = some th → ∃ u, x.threads[k]? = some u ∧ th.Kept v p fl u

/-- What a thread's part of a unit keeps: besides, every other thread is as it was. -/
def Group.Touches (v gr p : Nat → Prop) (fl : Prop) (k : Nat) (g x : Group) : Prop :=
  g.Kept v gr p fl x ∧ ∀ j, j ≠ k → x.threads[j]? = g.threads[j]?

section
variable {v gr p : Nat → Prop} {fl : Prop}

theorem Thread.Kept.refl (th : Thread) : th.Kept v p fl th := ⟨fun _ _ => rfl, fun _ _ _ => rfl, fun _ => rfl, rfl⟩

theorem Thread.Kept.trans {a b c : Thread} (hab : a.Kept v p fl b) (hbc : b.Kept v p fl c) : a.Kept v p fl c := by
  obtain ⟨hv, hp, hf, hr⟩ := hab
  obtain ⟨hv', hp', hf', hr'⟩ := hbc
  refine ⟨fun r h => (hv' r h).trans (hv r h), fun n hn h => (hp' n hn h).trans (hp n hn h), fun h => (hf' h).trans (hf h), ?_⟩
  exact (congrArg (fun z : Thread => { z with v := a.v, p := a.p, fpflags := a.fpflags, vpc := a.vpc }) hr').trans hr

theorem Thread.Kept.fptraps {a b : Thread} (h : a.Kept v p fl b) : b.fptraps = a.fptraps := by
  have := congrArg Thread.fptraps h.2.2.2
  exact this

theorem Group.Kept.refl (g : Group) : g.Kept v gr p fl g := ⟨fun _ _ => rfl, rfl, rfl, fun _ th h => ⟨th, h, .refl th⟩⟩

theorem Group.Kept.trans {a b c : Group} (hab : a.Kept v gr p fl b) (hbc : b.Kept v gr p fl c) : a.Kept v gr p fl c := by
  obtain ⟨hg, hr, hl, ht⟩ := hab
  obtain ⟨hg', hr', hl', ht'⟩ := hbc
  refine ⟨fun r h => (hg' r h).trans (hg r h), ?_, hl'.trans hl, fun k th hk => ?_⟩
  · exact (congrArg (fun z : Group => { z with g := a.g, threads := a.threads }) hr').trans hr
  · obtain ⟨u, hu, hk1⟩ := ht k th hk
    obtain ⟨w, hw, hk2⟩ := ht' k u hu
    exact ⟨w, hw, hk1.trans hk2⟩

theorem Group.Touches.refl (k : Nat) (g : Group) : g.Touches v gr p fl k g := ⟨.refl g, fun _ _ => rfl⟩

theorem Group.Touches.trans {k : Nat} {a b c : Group} (hab : a.Touches v gr p fl k b) (hbc : b.Touches v gr p fl k c) :
    a.Touches v gr p fl k c := ⟨hab.1.trans hbc.1, fun j h => (hbc.2 j h).trans (hab.2 j h)⟩

/-- A property of threads that what is kept carries over. -/
theorem Group.Kept.all {P : Thread → Prop} (hP : ∀ a b, Thread.Kept v p fl a b → P a → P b) {g x : Group} (h : g.Kept v gr p fl x)
    (hg : ∀ th ∈ g.threads, P th) : ∀ th ∈ x.threads, P th := by
  obtain ⟨-, -, hl, ht⟩ := h
  intro u hu
  obtain ⟨k, hk, rfl⟩ := List.getElem_of_mem hu
  obtain ⟨w, hw, hkept⟩ := ht k (g.threads[k]'(hl ▸ hk)) (List.getElem?_eq_getElem _)
  rw [List.getElem?_eq_getElem hk, Option.some.injEq] at hw
  exact hw ▸ hP _ _ hkept (hg _ (List.getElem_mem _))

/-! ## A thread's part -/

theorem Group.touches_updThread {F : Thread → Thread} (hF : ∀ th : Thread, th.Kept v p fl (F th)) (g : Group) (k : Nat) :
    g.Touches v gr p fl k (g.updThread k F) := by
  refine ⟨⟨fun _ _ => rfl, rfl, List.length_modify .., fun j th hj => ?_⟩, fun j hj => ?_⟩
  · by_cases hjk : k = j
    · exact ⟨F th, by simp [Group.updThread, hj, hjk], hF th⟩
    · exact ⟨th, by simp [Group.updThread, hj, hjk], .refl th⟩
  · simp [Group.updThread, Ne.symm hj]

theorem touches_wr {d : Opnd} (hv : ∀ n, d = .v n → v n.toNat) (hg : ∀ n, d = .g n → gr n.toNat) (g : Group) (k : Nat) (x : Word) :
    g.Touches v gr p fl k (wr g k d x) := by
  cases d with
  | v n =>
    refine Group.touches_updThread (F := fun th => { th with v := mset th.v n.toNat x }) (fun th => ⟨fun r hr => ?_, fun _ _ _ => rfl, fun _ => rfl, rfl⟩) g k
    show mget (mset th.v n.toNat x) r = mget th.v r
    rw [mget_mset, if_neg fun h => hr (by rw [h]; exact hv n rfl)]
  | g n =>
    refine ⟨⟨fun r hr => ?_, rfl, rfl, fun _ th h => ⟨th, h, .refl th⟩⟩, fun _ _ => rfl⟩
    show mget (mset g.g n.toNat x) r = mget g.g r
    rw [mget_mset, if_neg fun h => hr (by rw [h]; exact hg n rfl)]

/-- An operand of `n` registers that does not wrap around. -/
def Opnd.Fits (d : Opnd) (n : Nat) : Prop := n = 1 ∨ n = 2 ∧ d.even = true

theorem touches_wrN_dest {d : Opnd} {n : Nat} (hd : Opnd.Fits d n) {ws : List Word} (hn : ws.length ≤ n) (g : Group) (k : Nat) :
    g.Touches (d.vRegs n) (d.gRegs n) p fl k (wrN g k d ws) := by
  have hn0 : 0 < n := by
    rcases hd with rfl | ⟨rfl, -⟩ <;> decide
  have hfirst : ∀ (g : Group) (x : Word), g.Touches (d.vRegs n) (d.gRegs n) p fl k (wr g k d x) := fun g x =>
    touches_wr (fun m h => h ▸ ⟨le_rfl, by omega⟩) (fun m h => h ▸ ⟨le_rfl, by omega⟩) g k x
  match ws, hn with
  | [], _ => exact .refl k g
  | [x], _ => exact hfirst g x
  | [x, y], hn =>
    have h2 : n = 2 ∧ d.even = true := hd.resolve_left fun h => by simp [h] at hn
    obtain ⟨rfl, heven⟩ := h2
    refine (hfirst g x).trans (touches_wr (fun m h => ?_) (fun m h => ?_) _ k y)
    · cases d with
      | v m' =>
        cases h
        simp only [Opnd.even, beq_iff_eq] at heven
        have : (m' + 1#6).toNat = m'.toNat + 1 := by bv_omega
        exact ⟨by omega, by omega⟩
      | g m' => cases h
    · cases d with
      | v m' => cases h
      | g m' =>
        cases h
        simp only [Opnd.even, beq_iff_eq] at heven
        have : (m' + 1#6).toNat = m'.toNat + 1 := by bv_omega
        exact ⟨by omega, by omega⟩
  | _ :: _ :: _ :: _, hn =>
    have : n ≤ 2 := by rcases hd with rfl | ⟨rfl, -⟩ <;> decide
    simp only [List.length_cons] at hn
    omega

theorem kept_wrP (th : Thread) (pd : BitVec 3) (b : Bool) : th.Kept v (fun n => n = pd.toNat) fl (wrP th pd b) := by
  refine ⟨fun _ _ => rfl, fun n hn h => ?_, fun _ => rfl, rfl⟩
  have hne : n ≠ pd.toNat := h
  cases b
  · simp only [wrP, Bool.false_eq_true, if_false]
    simp [hn]
    omega
  · simp only [wrP, if_true]
    simp [hn]
    omega

/-! ## The threads in turn -/

/-- A thread's part of a unit does not fault, where the threads have a property, and touches only what is chosen. -/
def Acts (P : Thread → Prop) (v gr p : Nat → Prop) (fl : Prop) (f : Group → Nat → Thread → GRes) : Prop :=
  ∀ x k th, x.thread? k = some th → P th → ∃ x', f x k th = .ok x' ∧ x.Touches v gr p fl k x'

/-- The part of a group that its threads off the unit have is as it was. -/
def Group.SameOff (st : Stream) (l : List Nat) (g x : Group) : Prop :=
  ∀ k, (k ∉ l ∨ ∀ th, g.threads[k]? = some th → predOn st th = false) → x.threads[k]? = g.threads[k]?

section
variable {P : Thread → Prop} {f : Group → Nat → Thread → GRes} (hP : ∀ a b, Thread.Kept v p fl a b → P a → P b) (hf : Acts P v gr p fl f)
  {st : Stream}
include hP hf

theorem runRegs_acts (l : List Nat) {g : Group} (hg : ∀ th ∈ g.threads, P th) :
    ∃ x, runRegs st f l g = (x, l, none) ∧ g.Kept v gr p fl x ∧ g.SameOff st l x := by
  induction l generalizing g with
  | nil => exact ⟨g, rfl, .refl g, fun _ _ => rfl⟩
  | cons k r ih =>
    cases hk : g.thread? k with
    | none =>
      obtain ⟨x, hx, hkept, hoff⟩ := ih hg
      exact ⟨x, by simp [runRegs, hk, hx], hkept, fun j hj => hoff j (hj.imp (fun h h2 => h (List.mem_cons_of_mem _ h2)) id)⟩
    | some th =>
      by_cases hon : predOn st th = true
      · obtain ⟨x', hx', htouch⟩ := hf g k th hk (hg th (List.mem_of_getElem? hk))
        obtain ⟨x, hx, hkept, hoff⟩ := ih (htouch.1.all hP hg)
        refine ⟨x, by simp [runRegs, hk, hon, hx', hx], htouch.1.trans hkept, fun j hj => ?_⟩
        have hjk : j ≠ k := by
          rintro rfl
          rcases hj with hj | hj
          · exact hj (List.mem_cons_self ..)
          · exact absurd (hj th hk) (by simp [hon])
        refine (hoff j ?_).trans (htouch.2 j hjk)
        rw [htouch.2 j hjk]
        exact hj.imp (fun h h2 => h (List.mem_cons_of_mem _ h2)) id
      · obtain ⟨x, hx, hkept, hoff⟩ := ih hg
        exact ⟨x, by simp [runRegs, hk, hon, hx], hkept, fun j hj => hoff j (hj.imp (fun h h2 => h (List.mem_cons_of_mem _ h2)) id)⟩

end

/-! ## The state after the unit -/

/-- The group with its threads moved on: nothing but their program counters is new. -/
theorem foldl_updThread_vpc (l : List Nat) (a : Word) (g : Group) :
    let x := l.foldl (fun g t => g.updThread t fun th => { th with vpc := a }) g
    { x with threads := g.threads } = g ∧ x.threads.length = g.threads.length ∧
      ∀ (k : Nat) (th : Thread), g.threads[k]? = some th → ∃ u, x.threads[k]? = some u ∧ { u with vpc := th.vpc } = th := by
  induction l generalizing g with
  | nil => exact ⟨rfl, rfl, fun _ th h => ⟨th, h, rfl⟩⟩
  | cons t r ih =>
    obtain ⟨hr, hl, ht⟩ := ih (g.updThread t fun th => { th with vpc := a })
    refine ⟨congrArg (fun z : Group => { z with threads := g.threads }) hr, hl.trans (List.length_modify ..), fun k th hk => ?_⟩
    have hstep : ∃ u, (g.updThread t fun th => { th with vpc := a }).threads[k]? = some u ∧ { u with vpc := th.vpc } = th := by
      by_cases htk : t = k
      · exact ⟨{ th with vpc := a }, by simp [Group.updThread, hk, htk], rfl⟩
      · exact ⟨th, by simp [Group.updThread, hk, htk], rfl⟩
    obtain ⟨u, hu, hru⟩ := hstep
    obtain ⟨w, hw, hrw⟩ := ht k u hu
    exact ⟨w, hw, (congrArg (fun z : Thread => { z with vpc := th.vpc }) hrw).trans hru⟩

/-- What a unit leaves unchanged outside its group, and in it. -/
def State.Framed (s t : State) (st : Stream) (g : Group) (v gr p : Nat → Prop) (fl : Prop) : Prop :=
  ∃ y, t.group? st.grp = some y ∧ s.Elsewhere t st ∧ g.KeepsBut y st v gr p fl

/-- The group as the unit left it, and moved on, keeps what the unit keeps. -/
theorem Group.Kept.keepsBut {g x : Group} {st : Stream} (h : g.Kept v gr p fl x) (hoff : g.SameOff st st.threads x) (a : Word) (l : List Nat) :
    g.KeepsBut (l.foldl (fun g t => g.updThread t fun th => { th with vpc := a }) x) st v gr p fl := by
  obtain ⟨hr', hl', ht'⟩ := foldl_updThread_vpc l a x
  obtain ⟨hg, hr, hl, ht⟩ := h
  have hg' := congrArg (fun z : Group => z.g) hr'
  refine ⟨fun r hn => (congrArg (mget · r) hg').trans (hg r hn), ?_, hl'.trans hl, fun k th hk => ?_⟩
  · exact (congrArg (fun z : Group => { z with g := g.g, threads := g.threads }) hr').trans hr
  · obtain ⟨u, hu, hv, hp, hfl, hru⟩ := ht k th hk
    obtain ⟨w, hw, hrw⟩ := ht' k u hu
    have hwv := congrArg (fun z : Thread => z.v) hrw
    have hwp := congrArg (fun z : Thread => z.p) hrw
    have hwf := congrArg (fun z : Thread => z.fpflags) hrw
    refine ⟨w, hw, fun r hn => (congrArg (mget · r) hwv).trans (hv r hn), fun n hn hnp => (congrArg (·.getLsbD n) hwp).trans (hp n hn hnp),
      fun hn => hwf.trans (hfl hn), ?_, fun hoffk => ?_⟩
    · exact (congrArg (fun z : Thread => { z with v := th.v, p := th.p, fpflags := th.fpflags, vpc := th.vpc }) hrw).trans hru
    · have hsame : x.threads[k]? = g.threads[k]? := hoff k (hoffk.imp (fun h => h) fun hp th' hth' => by
        rw [hk, Option.some.injEq] at hth'
        exact hth' ▸ hp)
      rw [hu, hk, Option.some.injEq] at hsame
      subst hsame
      exact hrw

theorem getElem?_updIf_other {α : Type} {q : α → Bool} {F : α → α} {l : List α} {i : Nat} {x : α} (h : l[i]? = some x) (hq : q x = false) :
    (updIf q F l)[i]? = some x := by
  simp [updIf, h, hq]

theorem State.after_dev (s : State) (st : Stream) (x : Group) : (s.after st x).dev = { s.dev with
    groups := updIf (fun g => g.id == st.grp) (fun g => st.threads.foldl (fun g t => g.updThread t fun th => { th with vpc := st.next }) g)
      (updIf (fun g => g.id == st.grp) (fun _ => x) s.dev.groups),
    streams := updIf (fun y => y.core == st.core && y.reed == st.reed) (fun y => { y with mask := maskOf st.threads }) s.dev.streams } := rfl

/-- A state that differs in the stream's group and the stream alone. -/
theorem State.after_framed {s : State} {st : Stream} {g x : Group} (h : s.Issues st g) (hx : g.Kept v gr p fl x)
    (hoff : g.SameOff st st.threads x) : s.Framed (s.after st x) st g v gr p fl := by
  have hid : x.id = st.grp := by
    have := congrArg Group.id hx.2.1
    exact this.trans (State.group?_id h.2)
  have hmove : (st.threads.foldl (fun g t => g.updThread t fun th => { th with vpc := st.next }) x).id = st.grp := by
    have := congrArg Group.id (foldl_updThread_vpc st.threads st.next x).1
    exact this.trans hid
  have hfind : (s.after st x).group? st.grp = some (st.threads.foldl (fun g t => g.updThread t fun th => { th with vpc := st.next }) x) := by
    have hf : ∀ y : Group, (st.threads.foldl (fun g t => g.updThread t fun th => { th with vpc := st.next }) y).id = y.id := fun y => by
      have := congrArg Group.id (foldl_updThread_vpc st.threads st.next y).1
      exact this
    rw [State.after, State.advance, State.group?_updStream, State.group?_updGroup _ _ _ fun y hy => (hf y).trans hy,
      State.group?_updGroup _ _ _ fun _ _ => hid, h.2]
    rfl
  refine ⟨_, hfind, ⟨fun _ => rfl, rfl, rfl, ?_, fun i y hy hne => ?_, fun i y hy hne => ?_⟩, hx.keepsBut hoff st.next st.threads⟩
  · rw [State.after_dev]
  · rw [State.after_dev]
    have hq : (y.id == st.grp) = false := by simpa using hne
    exact getElem?_updIf_other (getElem?_updIf_other hy hq) hq
  · rw [State.after_dev]
    exact getElem?_updIf_other hy (by simpa using hne)

end

end Sys2Proof.Machine
end

section
/-! The register classes' instructions as units that keep all but their destinations (R146, R170 to R180, R190, R194). -/

namespace Sys2Proof.Machine

theorem mem_of_firstOn {st : Stream} {g : Group} {l : List Nat} {k : Nat} (h : firstOn st g l = some k) :
    k ∈ l ∧ ∃ th, g.thread? k = some th ∧ predOn st th = true := by
  induction l with
  | nil => cases h
  | cons j r ih =>
    rw [firstOn] at h
    split at h
    · next th hth =>
      split at h
      · next hon =>
        cases h
        exact ⟨List.mem_cons_self .., th, hth, hon⟩
      · exact (ih h).imp (List.mem_cons_of_mem _) id
    · exact (ih h).imp (List.mem_cons_of_mem _) id

section
variable {P : Thread → Prop} {v gr p : Nat → Prop} {fl : Prop} (hP : ∀ a b, Thread.Kept v p fl a b → P a → P b)
  {s t : State} {st : Stream} {g : Group} (h : s.Issues st g) (hg : ∀ th ∈ g.threads, P th)
include h hg

include hP in
theorem settle_framed {f : Group → Nat → Thread → GRes} (hf : Acts P v gr p fl f) :
    s.Framed (s.settle st (runRegs st f st.threads g)) st g v gr p fl := by
  obtain ⟨x, hx, hkept, hoff⟩ := runRegs_acts hP hf (st := st) st.threads hg
  rw [hx, State.settle_ok]
  exact State.after_framed h hkept hoff

include hP in
theorem regsUnit_framed {f : Stream → Group → Nat → Thread → GRes} (hf : Acts P v gr p fl (f st)) (he : s.regsUnit f = .next t) :
    s.Framed t st g v gr p fl := by
  rw [State.regsUnit, State.onStream_issues h] at he
  cases he
  exact settle_framed hP h hg hf

theorem regsUniform_framed {f : Stream → Group → Nat → Thread → GRes} (hf : Acts P v gr p fl (f st)) (he : s.regsUniform f = .next t) :
    s.Framed t st g v gr p fl := by
  have hsame : s.Framed (s.settle st (g, st.threads, none)) st g v gr p fl := State.after_framed h (.refl g) fun _ _ => rfl
  rw [State.regsUniform, State.onStream_issues h] at he
  cases hk : firstOn st g st.threads with
  | none =>
    simp only [hk] at he
    cases he
    exact hsame
  | some k =>
    cases hth : g.thread? k with
    | none =>
      simp only [hk, hth] at he
      cases he
      exact hsame
    | some th =>
      obtain ⟨x, hx, htouch⟩ := hf g k th hth (hg th (List.mem_of_getElem? hth))
      simp only [hk, hth, hx] at he
      cases he
      refine State.after_framed h htouch.1 fun j hj => htouch.2 j ?_
      rintro rfl
      obtain ⟨hmem, th', hth', hon⟩ := mem_of_firstOn hk
      rw [hth, Option.some.injEq] at hth'
      subst hth'
      rcases hj with hj | hj
      · exact hj hmem
      · rw [hj th hth] at hon
        cases hon

end

/-! ## The forms of unit -/

/-- The instruction is one unit of a register class, once for the stream or for each thread, whose parts do not fault where the threads have
a property, and touch only what is chosen. -/
def UnitActs (P : Thread → Prop) (v gr p : Nat → Prop) (fl : Prop) (i : Instr) : Prop :=
  ∀ s : State, ∃ (u : Bool) (f : Stream → Group → Nat → Thread → GRes),
    exec i s = (if u then s.regsUniform f else s.regsUnit f) ∧ ∀ st, Acts P v gr p fl (f st)

theorem UnitActs.framed {P : Thread → Prop} {v gr p : Nat → Prop} {fl : Prop} {i : Instr} (hi : UnitActs P v gr p fl i)
    (hP : ∀ a b, Thread.Kept v p fl a b → P a → P b) {s t : State} {st : Stream} {g : Group} (h : s.Issues st g)
    (hg : ∀ th ∈ g.threads, P th) (he : exec i s = .next t) : s.Framed t st g v gr p fl := by
  obtain ⟨u, f, hif, hf⟩ := hi s
  rw [hif] at he
  cases u
  · exact regsUnit_framed hP h hg (hf st) he
  · exact regsUniform_framed h hg (hf st) he

section
variable {P : Thread → Prop} {p : Nat → Prop} {fl : Prop} {i : Instr} {d : Opnd} {n : Nat} (hd : Opnd.Fits d n)
include hd

/-- A unit that writes words that fit their destination. -/
theorem unitActs_words {u : Bool} {val : Stream → Group → Thread → List Word} (hval : ∀ st g th, (val st g th).length ≤ n)
    (hi : ∀ s, exec i s = s.valueUnit u d fun st g th => .ok (val st g th)) : UnitActs P (d.vRegs n) (d.gRegs n) p fl i := fun s =>
  ⟨u, fun st g k th => .ok (wrN g k d (val st g th)), hi s, fun st x k th _ _ => ⟨_, rfl, touches_wrN_dest hd (hval st x th) x k⟩⟩

/-- A float unit, where no thread has a trap enabled. -/
theorem unitActs_fpWords {val : Stream → Group → Thread → List Word × FFlags} (hval : ∀ st g th, (val st g th).1.length ≤ n)
    (hi : ∀ s, exec i s = s.regsUnit fun st g k th => match fpFault th (val st g th).2 with
      | some c => .fault c
      | none => .ok ((wrN g k d (val st g th).1).updThread k fun y => { y with fpflags := y.fpflags ||| (val st g th).2 })) :
    UnitActs (fun th => th.fptraps = 0#2) (d.vRegs n) (d.gRegs n) p True i := by
  refine fun s => ⟨false, _, hi s, fun st x k th _ hth => ?_⟩
  have hno : fpFault th (val st x th).2 = none := by simp [fpFault, hth]
  simp only [hno]
  exact ⟨_, rfl, (touches_wrN_dest hd (hval st x th) x k).trans
    (Group.touches_updThread (F := fun y => { y with fpflags := y.fpflags ||| (val st x th).2 })
      (fun _ => ⟨fun _ _ => rfl, fun _ _ _ => rfl, fun h => absurd trivial h, rfl⟩) _ k)⟩

end

theorem fits_one (d : Opnd) : Opnd.Fits d 1 := .inl rfl
theorem fits_two {d : Opnd} (h : d.even = true) : Opnd.Fits d 2 := .inr ⟨rfl, h⟩

section
variable {P : Thread → Prop} {p : Nat → Prop} {fl : Prop} {i : Instr} {d a b : Opnd}

theorem unitActs_int3v {f : Stream → Word → Word → Word → Word} (e : State → Host.Outcome State Fault Refusal)
    (hf : ∀ s, e s = s.int3v d a b f) (hi : ∀ s, exec i s = e s) :
    UnitActs P (d.vRegs 1) (d.gRegs 1) p fl i :=
  unitActs_words (fits_one d) (val := fun st g th => [f st (rd g th d) (rd g th a) (rd g th b)]) (fun _ _ _ => le_rfl) fun s => (hi s).trans (hf s)

theorem unitActs_int2 {f : Stream → Word → Word} (e : State → Host.Outcome State Fault Refusal)
    (hf : ∀ s, e s = s.int2 d a f) (hi : ∀ s, exec i s = e s) : UnitActs P (d.vRegs 1) (d.gRegs 1) p fl i :=
  unitActs_words (fits_one d) (fun _ _ _ => le_rfl) fun s => (hi s).trans (hf s)

theorem unitActs_intImm {imm : BitVec 10} {f : Stream → Word → Word → Word} (e : State → Host.Outcome State Fault Refusal)
    (hf : ∀ s, e s = s.intImm d a imm f) (hi : ∀ s, exec i s = e s) :
    UnitActs P (d.vRegs 1) (d.gRegs 1) p fl i :=
  unitActs_words (fits_one d) (fun _ _ _ => le_rfl) fun s => (hi s).trans (hf s)

theorem unitActs_packUnit {f : Stream → Group → Thread → Word} (e : State → Host.Outcome State Fault Refusal)
    (hf : ∀ s, e s = s.packUnit d f) (hi : ∀ s, exec i s = e s) :
    UnitActs P (d.vRegs 1) (d.gRegs 1) p fl i :=
  unitActs_words (fits_one d) (u := false) (val := fun st g th => [f st g th]) (fun _ _ _ => le_rfl) fun s => (hi s).trans (hf s)

theorem unitActs_words64 (hd : d.even = true) {u : Bool} {val : Stream → Group → Thread → BitVec 64}
    (e : State → Host.Outcome State Fault Refusal) (hf : ∀ s, e s = s.valueUnit u d fun st g th => .ok (words64 (val st g th)))
    (hi : ∀ s, exec i s = e s) : UnitActs P (d.vRegs 2) (d.gRegs 2) p fl i :=
  unitActs_words (fits_two hd) (fun _ _ _ => le_rfl) fun s => (hi s).trans (hf s)

theorem unitActs_fpUnit {f : Stream → Group → Thread → Word × FFlags} (e : State → Host.Outcome State Fault Refusal)
    (hf : ∀ s, e s = s.fpUnit d f) (hi : ∀ s, exec i s = e s) :
    UnitActs (fun th => th.fptraps = 0#2) (d.vRegs 1) (d.gRegs 1) p True i :=
  unitActs_fpWords (fits_one d) (val := fun st g th => ([(f st g th).1], (f st g th).2)) (fun _ _ _ => le_rfl) fun s => (hi s).trans (hf s)

theorem unitActs_fp2 {el : BitVec 2 → Bool → Word → Word → Word → Word × FFlags} (e : State → Host.Outcome State Fault Refusal)
    (hf : ∀ s, e s = s.fp2 d a b el) (hi : ∀ s, exec i s = e s) : UnitActs (fun th => th.fptraps = 0#2) (d.vRegs 1) (d.gRegs 1) p True i :=
  unitActs_fpUnit (fun s => s.fp2 d a b el) (fun _ => rfl) fun s => (hi s).trans (hf s)

theorem unitActs_fp1 {el : BitVec 2 → Bool → Word → Word → Word → Word × FFlags} (e : State → Host.Outcome State Fault Refusal)
    (hf : ∀ s, e s = s.fp1 d a el) (hi : ∀ s, exec i s = e s) : UnitActs (fun th => th.fptraps = 0#2) (d.vRegs 1) (d.gRegs 1) p True i :=
  unitActs_fpUnit (fun s => s.fp1 d a el) (fun _ => rfl) fun s => (hi s).trans (hf s)

theorem unitActs_fp3 {dv av bv cv : VReg} {el : BitVec 2 → Bool → Word → Word → Word → Word × FFlags}
    (e : State → Host.Outcome State Fault Refusal) (hf : ∀ s, e s = s.fp3 dv av bv cv el) (hi : ∀ s, exec i s = e s) :
    UnitActs (fun th => th.fptraps = 0#2) (Opnd.vRegs (.v dv) 1) (Opnd.gRegs (.v dv) 1) p True i :=
  unitActs_fpUnit (fun s => s.fp3 dv av bv cv el) (fun _ => rfl) fun s => (hi s).trans (hf s)

theorem unitActs_cvtTo {f : Fmt} {x : Group → Thread → Ex} (e : State → Host.Outcome State Fault Refusal)
    (hf : ∀ s, e s = s.cvtTo d f x) (hi : ∀ s, exec i s = e s) : UnitActs (fun th => th.fptraps = 0#2) (d.vRegs 1) (d.gRegs 1) p True i :=
  unitActs_fpUnit (fun s => s.cvtTo d f x) (fun _ => rfl) fun s => (hi s).trans (hf s)

theorem unitActs_cvtInt {lo hi dflt : Int} (e : State → Host.Outcome State Fault Refusal)
    (hf : ∀ s, e s = s.cvtInt d a lo hi dflt) (he : ∀ s, exec i s = e s) :
    UnitActs (fun th => th.fptraps = 0#2) (d.vRegs 1) (d.gRegs 1) p True i :=
  unitActs_fpUnit (fun s => s.cvtInt d a lo hi dflt) (fun _ => rfl) fun s => (he s).trans (hf s)

theorem unitActs_cvtPair {f : Fmt} (e : State → Host.Outcome State Fault Refusal)
    (hf : ∀ s, e s = s.cvtPair d a b f) (hi : ∀ s, exec i s = e s) : UnitActs (fun th => th.fptraps = 0#2) (d.vRegs 1) (d.gRegs 1) p True i :=
  unitActs_fpUnit (fun s => s.cvtPair d a b f) (fun _ => rfl) fun s => (hi s).trans (hf s)

theorem unitActs_uniform {dg ag : GReg} {gs : GSrc} {f : Word → Word → Word → Word} (e : State → Host.Outcome State Fault Refusal)
    (hf : ∀ s, e s = s.uniform dg ag gs f) (hi : ∀ s, exec i s = e s) :
    UnitActs P (fun _ => False) (fun r => r = dg.toNat) p fl i := fun s =>
  ⟨true, _, (hi s).trans (hf s), fun _ x k _ _ _ => ⟨_, rfl, touches_wr (fun _ h => by cases h) (fun _ h => by cases h; rfl) x k _⟩⟩

theorem unitActs_predUnit {pd : BitVec 3} {f : Stream → Group → Thread → Bool} (e : State → Host.Outcome State Fault Refusal)
    (hf : ∀ s, e s = s.predUnit pd f) (hi : ∀ s, exec i s = e s) :
    UnitActs P (fun _ => False) (fun _ => False) (fun n => n = pd.toNat) fl i := fun s =>
  ⟨false, _, (hi s).trans (hf s), fun _ x k _ _ _ => ⟨_, rfl, Group.touches_updThread (fun th => kept_wrP th pd _) x k⟩⟩

theorem unitActs_pmovPv : UnitActs P (d.vRegs 1) (d.gRegs 1) p fl (.pmovPv d) :=
  unitActs_words (fits_one d) (u := false) (val := fun _ _ th => [th.p.zeroExtend 32]) (fun _ _ _ => le_rfl) fun _ => rfl

theorem unitActs_clk (hd : d.even = true) : UnitActs P (d.vRegs 2) (d.gRegs 2) p fl (.clk d) := by
  intro s
  cases hG : d.isG
  · refine ⟨false, fun st g t _ => .ok (wrN g t d (words64 (BitVec.ofNat 64 (s.dev.clk + placeIn st g t)))), ?_,
      fun _ x k _ _ _ => ⟨_, rfl, touches_wrN_dest (fits_two hd) le_rfl x k⟩⟩
    show execClk d s = _
    simp only [execClk, hG, Bool.false_eq_true, if_false]
  · refine ⟨true, fun _ g t _ => .ok (wrN g t d (words64 (BitVec.ofNat 64 s.dev.clk))), ?_,
      fun _ x k _ _ _ => ⟨_, rfl, touches_wrN_dest (fits_two hd) le_rfl x k⟩⟩
    show execClk d s = _
    simp only [execClk, hG, if_true]

end

/-- A vote writes one predicate, whatever the threads vote. -/
theorem vote_framed {s t : State} {st : Stream} {g : Group} {v : Stream → Group → Bool} {pd : BitVec 3} (h : s.Issues st g)
    (he : (s.onStream fun st g0 => s.settle st (runRegs st (fun g t _ => .ok (g.updThread t fun x => wrP x pd (v st g0))) st.threads g0)) =
      .next t) :
    s.Framed t st g (fun _ => False) (fun _ => False) (fun n => n = pd.toNat) False := by
  rw [State.onStream_issues h] at he
  cases he
  exact settle_framed (P := fun _ => True) (fun _ _ _ _ => trivial) h (fun _ _ => trivial) fun x k _ _ _ =>
    ⟨_, rfl, Group.touches_updThread (fun th => kept_wrP th pd (v st g)) x k⟩

theorem unitActs_cvtS64F32 {d a : Opnd} (hd : d.even = true) {p : Nat → Prop} :
    UnitActs (fun th => th.fptraps = 0#2) (d.vRegs 2) (d.gRegs 2) p True (.cvtS64F32 d a) :=
  unitActs_fpWords (fits_two hd) (val := fun st g th =>
    let r := toIntType st.rnd st.sat (-9223372036854775808) 9223372036854775807 (-9223372036854775808) (val32 (rd g th a))
    (words64 (BitVec.ofInt 64 r.1), r.2)) (fun _ _ _ => le_rfl) fun _ => rfl

theorem and_and_left {x y z : Bool} (h : (x && y && z) = true) : x = true := (Bool.and_eq_true_iff.mp (Bool.and_eq_true_iff.mp h).1).1

/-- Every instruction of a list that acts as a unit leaves what its destination does not name. -/
theorem framed_of_all {P : Thread → Prop} {d : Opnd} {fl : Prop}
    (hP : ∀ (v p : Nat → Prop) a b, Thread.Kept v p fl a b → P a → P b)
    {L : List (Instr × Nat)}
    (hL : L.Forall fun q => wellFormed q.1 = true → UnitActs P (d.vRegs q.2) (d.gRegs q.2) (fun _ => False) fl q.1)
    {s t : State} {st : Stream} {g : Group} (h : s.Issues st g) (hg : ∀ th ∈ g.threads, P th) (i : Instr) (n : Nat) (hin : (i, n) ∈ L)
    (hw : wellFormed i = true) (he : exec i s = .next t) : s.Framed t st g (d.vRegs n) (d.gRegs n) (fun _ => False) fl :=
  (List.forall_iff_forall_mem.mp hL (i, n) hin hw).framed (hP _ _) h hg he

end Sys2Proof.Machine
end

section
namespace Sys2Proof.Machine

theorem vRegs_v_one (k : VReg) : Opnd.vRegs (.v k) 1 = fun r => r = k.toNat :=
  funext fun r => propext (show k.toNat ≤ r ∧ r < k.toNat + 1 ↔ r = k.toNat by omega)

theorem gRegs_v (k : VReg) (n : Nat) : Opnd.gRegs (.v k) n = fun _ => False := rfl

/-- The same of units that no thread's state makes fault. -/
theorem UnitActs.framed_always {v gr p : Nat → Prop} {fl : Prop} {i : Instr} (hi : UnitActs (fun _ => True) v gr p fl i) (s t : State)
    (st : Stream) (g : Group) (h : s.Issues st g) (he : exec i s = .next t) : s.Framed t st g v gr p fl :=
  hi.framed (fun _ _ _ h => h) h (fun _ _ => trivial) he

section
variable {P : Thread → Prop} {p : Nat → Prop} {fl : Prop} {d a b : Opnd} {dg ag : GReg} {gs : GSrc} {imm : BitVec 10} {pd : BitVec 3} {pa pb : PSrc}
  {dv av bv cv : VReg}

/-- The instructions of the register classes that write words. -/
theorem unitActs_registers : List.Forall (fun q : Instr × Nat => wellFormed q.1 = true → UnitActs P (d.vRegs q.2) (d.gRegs q.2) p fl q.1)
    [(.add d a b, 1), (.sub d a b, 1), (.mul d a b, 1), (.mad d a b, 1), (.mulhS32 d a b, 1), (.mulhN32 d a b, 1), (.minS32 d a b, 1),
      (.minN32 d a b, 1), (.maxS32 d a b, 1), (.maxN32 d a b, 1), (.abs d a, 1), (.neg d a, 1), (.and d a b, 1), (.or d a b, 1), (.xor d a b, 1),
      (.not d a, 1), (.shl d a b, 1), (.shr d a b, 1), (.sha d a b, 1), (.rot d a b, 1), (.bfeS32 d a b, 1), (.bfeN32 d a b, 1), (.bfi d a b, 1),
      (.popc d a, 1), (.clz d a, 1), (.brev d a, 1), (.mov d a, 1), (.addImm d a imm, 1), (.mulImm d a imm, 1), (.andImm d a imm, 1),
      (.orImm d a imm, 1), (.xorImm d a imm, 1), (.shlImm d a imm, 1), (.shrImm d a imm, 1), (.add64 d a b, 2), (.sub64 d a b, 2),
      (.mul64 d a b, 2), (.sextS8 d a, 2), (.sextS16 d a, 2), (.sextS32 d a, 2), (.zextN8 d a, 2), (.zextN16 d a, 2), (.zextN32 d a, 2),
      (.packB8 d a b, 1), (.packB16 d a b, 1), (.pmovPv d, 1), (.clk d, 2)] := by
  simp only [List.forall_cons]
  exact ⟨fun _ => unitActs_int3v (execAdd d a b) (fun _ => rfl) fun _ => rfl,
    fun _ => unitActs_int3v (execSub d a b) (fun _ => rfl) fun _ => rfl,
    fun _ => unitActs_int3v (execMul d a b) (fun _ => rfl) fun _ => rfl,
    fun _ => unitActs_int3v (execMad d a b) (fun _ => rfl) fun _ => rfl,
    fun _ => unitActs_int3v (execMulhS32 d a b) (fun _ => rfl) fun _ => rfl,
    fun _ => unitActs_int3v (execMulhN32 d a b) (fun _ => rfl) fun _ => rfl,
    fun _ => unitActs_int3v (execMinS32 d a b) (fun _ => rfl) fun _ => rfl,
    fun _ => unitActs_int3v (execMinN32 d a b) (fun _ => rfl) fun _ => rfl,
    fun _ => unitActs_int3v (execMaxS32 d a b) (fun _ => rfl) fun _ => rfl,
    fun _ => unitActs_int3v (execMaxN32 d a b) (fun _ => rfl) fun _ => rfl,
    fun _ => unitActs_int2 (execAbs d a) (fun _ => rfl) fun _ => rfl, fun _ => unitActs_int2 (execNeg d a) (fun _ => rfl) fun _ => rfl,
    fun _ => unitActs_int3v (execAnd d a b) (fun _ => rfl) fun _ => rfl,
    fun _ => unitActs_int3v (execOr d a b) (fun _ => rfl) fun _ => rfl,
    fun _ => unitActs_int3v (execXor d a b) (fun _ => rfl) fun _ => rfl,
    fun _ => unitActs_int2 (execNot d a) (fun _ => rfl) fun _ => rfl,
    fun _ => unitActs_int3v (execShl d a b) (fun _ => rfl) fun _ => rfl,
    fun _ => unitActs_int3v (execShr d a b) (fun _ => rfl) fun _ => rfl,
    fun _ => unitActs_int3v (execSha d a b) (fun _ => rfl) fun _ => rfl,
    fun _ => unitActs_int3v (execRot d a b) (fun _ => rfl) fun _ => rfl,
    fun _ => unitActs_int3v (execBfeS32 d a b) (fun _ => rfl) fun _ => rfl,
    fun _ => unitActs_int3v (execBfeN32 d a b) (fun _ => rfl) fun _ => rfl,
    fun _ => unitActs_int3v (execBfi d a b) (fun _ => rfl) fun _ => rfl,
    fun _ => unitActs_int2 (execPopc d a) (fun _ => rfl) fun _ => rfl,
    fun _ => unitActs_int2 (execClz d a) (fun _ => rfl) fun _ => rfl,
    fun _ => unitActs_int2 (execBrev d a) (fun _ => rfl) fun _ => rfl,
    fun _ => unitActs_int2 (execMov d a) (fun _ => rfl) fun _ => rfl,
    fun _ => unitActs_intImm (execAddImm d a imm) (fun _ => rfl) fun _ => rfl,
    fun _ => unitActs_intImm (execMulImm d a imm) (fun _ => rfl) fun _ => rfl,
    fun _ => unitActs_intImm (execAndImm d a imm) (fun _ => rfl) fun _ => rfl,
    fun _ => unitActs_intImm (execOrImm d a imm) (fun _ => rfl) fun _ => rfl,
    fun _ => unitActs_intImm (execXorImm d a imm) (fun _ => rfl) fun _ => rfl,
    fun _ => unitActs_intImm (execShlImm d a imm) (fun _ => rfl) fun _ => rfl,
    fun _ => unitActs_intImm (execShrImm d a imm) (fun _ => rfl) fun _ => rfl,
    fun hw => unitActs_words64 (and_and_left hw) (execAdd64 d a b) (fun _ => rfl) fun _ => rfl,
    fun hw => unitActs_words64 (and_and_left hw) (execSub64 d a b) (fun _ => rfl) fun _ => rfl,
    fun hw => unitActs_words64 (and_and_left hw) (execMul64 d a b) (fun _ => rfl) fun _ => rfl,
    fun hw => unitActs_words64 hw (execSextS8 d a) (fun _ => rfl) fun _ => rfl,
    fun hw => unitActs_words64 hw (execSextS16 d a) (fun _ => rfl) fun _ => rfl,
    fun hw => unitActs_words64 hw (execSextS32 d a) (fun _ => rfl) fun _ => rfl,
    fun hw => unitActs_words64 hw (execZextN8 d a) (fun _ => rfl) fun _ => rfl,
    fun hw => unitActs_words64 hw (execZextN16 d a) (fun _ => rfl) fun _ => rfl,
    fun hw => unitActs_words64 hw (execZextN32 d a) (fun _ => rfl) fun _ => rfl,
    fun _ => unitActs_packUnit (execPackB8 d a b) (fun _ => rfl) fun _ => rfl,
    fun _ => unitActs_packUnit (execPackB16 d a b) (fun _ => rfl) fun _ => rfl, fun _ => unitActs_pmovPv, fun hw => unitActs_clk hw,
    trivial⟩

/-- The instructions of the uniform class. -/
theorem unitActs_uniforms : List.Forall (UnitActs P (fun _ => False) (fun r => r = dg.toNat) p fl)
    [.gmov dg gs, .gadd dg ag gs, .gsub dg ag gs, .gmul dg ag gs, .gand dg ag gs, .gor dg ag gs, .gxor dg ag gs, .gshl dg ag gs,
      .gshr dg ag gs, .gsel dg ag gs, .gcmpS32 dg ag gs, .gcmpN32 dg ag gs] := by
  simp only [List.forall_cons]
  exact ⟨unitActs_uniform (execGmov dg gs) (fun _ => rfl) fun _ => rfl,
    unitActs_uniform (execGadd dg ag gs) (fun _ => rfl) fun _ => rfl, unitActs_uniform (execGsub dg ag gs) (fun _ => rfl) fun _ => rfl,
    unitActs_uniform (execGmul dg ag gs) (fun _ => rfl) fun _ => rfl, unitActs_uniform (execGand dg ag gs) (fun _ => rfl) fun _ => rfl,
    unitActs_uniform (execGor dg ag gs) (fun _ => rfl) fun _ => rfl, unitActs_uniform (execGxor dg ag gs) (fun _ => rfl) fun _ => rfl,
    unitActs_uniform (execGshl dg ag gs) (fun _ => rfl) fun _ => rfl, unitActs_uniform (execGshr dg ag gs) (fun _ => rfl) fun _ => rfl,
    unitActs_uniform (execGsel dg ag gs) (fun _ => rfl) fun _ => rfl,
    unitActs_uniform (execGcmpS32 dg ag gs) (fun _ => rfl) fun _ => rfl,
    unitActs_uniform (execGcmpN32 dg ag gs) (fun _ => rfl) fun _ => rfl, trivial⟩

theorem exec_voteAny_framed (s t : State) (st : Stream) (g : Group) (h : s.Issues st g) (he : exec (.voteAny pd pa) s = .next t) :
    s.Framed t st g (fun _ => False) (fun _ => False) (fun n => n = pd.toNat) False :=
  vote_framed (v := fun st g => !(voteSet st g pa).isEmpty) h (show execVoteAny pd pa s = .next t from he)

theorem exec_voteAll_framed (s t : State) (st : Stream) (g : Group) (h : s.Issues st g) (he : exec (.voteAll pd pa) s = .next t) :
    s.Framed t st g (fun _ => False) (fun _ => False) (fun n => n = pd.toNat) False :=
  vote_framed (v := fun st g => (voteSet st g pa).length == st.threads.length) h (show execVoteAll pd pa s = .next t from he)

/-- The compares, predicate operations and votes. -/
theorem framed_predicates : List.Forall (fun i => ∀ (s t : State) (st : Stream) (g : Group), s.Issues st g → exec i s = .next t →
      s.Framed t st g (fun _ => False) (fun _ => False) (fun n => n = pd.toNat) False)
    [.icmpEq pd a b, .icmpNe pd a b, .icmpLtS32 pd a b, .icmpLeS32 pd a b, .icmpGtS32 pd a b, .icmpGeS32 pd a b, .icmpLtN32 pd a b,
      .icmpLeN32 pd a b, .icmpGtN32 pd a b, .icmpGeN32 pd a b, .fcmpEqF32 pd a b, .fcmpNeF32 pd a b, .fcmpLtF32 pd a b, .fcmpLeF32 pd a b,
      .fcmpGtF32 pd a b, .fcmpGeF32 pd a b, .fcmpUnF32 pd a b, .fcmpOrdF32 pd a b, .pand pd pa pb, .por pd pa pb, .pxor pd pa pb, .pnot pd pa,
      .voteAny pd pa, .voteAll pd pa] := by
  simp only [List.forall_cons]
  exact ⟨(unitActs_predUnit (execIcmpEq pd a b) (fun _ => rfl) fun _ => rfl).framed_always,
    (unitActs_predUnit (execIcmpNe pd a b) (fun _ => rfl) fun _ => rfl).framed_always,
    (unitActs_predUnit (execIcmpLtS32 pd a b) (fun _ => rfl) fun _ => rfl).framed_always,
    (unitActs_predUnit (execIcmpLeS32 pd a b) (fun _ => rfl) fun _ => rfl).framed_always,
    (unitActs_predUnit (execIcmpGtS32 pd a b) (fun _ => rfl) fun _ => rfl).framed_always,
    (unitActs_predUnit (execIcmpGeS32 pd a b) (fun _ => rfl) fun _ => rfl).framed_always,
    (unitActs_predUnit (execIcmpLtN32 pd a b) (fun _ => rfl) fun _ => rfl).framed_always,
    (unitActs_predUnit (execIcmpLeN32 pd a b) (fun _ => rfl) fun _ => rfl).framed_always,
    (unitActs_predUnit (execIcmpGtN32 pd a b) (fun _ => rfl) fun _ => rfl).framed_always,
    (unitActs_predUnit (execIcmpGeN32 pd a b) (fun _ => rfl) fun _ => rfl).framed_always,
    (unitActs_predUnit (execFcmpEqF32 pd a b) (fun _ => rfl) fun _ => rfl).framed_always,
    (unitActs_predUnit (execFcmpNeF32 pd a b) (fun _ => rfl) fun _ => rfl).framed_always,
    (unitActs_predUnit (execFcmpLtF32 pd a b) (fun _ => rfl) fun _ => rfl).framed_always,
    (unitActs_predUnit (execFcmpLeF32 pd a b) (fun _ => rfl) fun _ => rfl).framed_always,
    (unitActs_predUnit (execFcmpGtF32 pd a b) (fun _ => rfl) fun _ => rfl).framed_always,
    (unitActs_predUnit (execFcmpGeF32 pd a b) (fun _ => rfl) fun _ => rfl).framed_always,
    (unitActs_predUnit (execFcmpUnF32 pd a b) (fun _ => rfl) fun _ => rfl).framed_always,
    (unitActs_predUnit (execFcmpOrdF32 pd a b) (fun _ => rfl) fun _ => rfl).framed_always,
    (unitActs_predUnit (execPand pd pa pb) (fun _ => rfl) fun _ => rfl).framed_always,
    (unitActs_predUnit (execPor pd pa pb) (fun _ => rfl) fun _ => rfl).framed_always,
    (unitActs_predUnit (execPxor pd pa pb) (fun _ => rfl) fun _ => rfl).framed_always,
    (unitActs_predUnit (execPnot pd pa) (fun _ => rfl) fun _ => rfl).framed_always, exec_voteAny_framed, exec_voteAll_framed, trivial⟩

/-- The floating-point and conversion instructions of one destination operand. -/
theorem unitActs_floats : List.Forall (fun q : Instr × Nat => wellFormed q.1 = true →
      UnitActs (fun th => th.fptraps = 0#2) (d.vRegs q.2) (d.gRegs q.2) p True q.1)
    [(.faddF32 d a b, 1), (.faddF16x2 d a b, 1), (.faddBf16x2 d a b, 1), (.fsubF32 d a b, 1), (.fsubF16x2 d a b, 1),
      (.fsubBf16x2 d a b, 1), (.fmulF32 d a b, 1), (.fmulF16x2 d a b, 1), (.fmulBf16x2 d a b, 1), (.fminF32 d a b, 1), (.fminF16x2 d a b, 1),
      (.fminBf16x2 d a b, 1), (.fmaxF32 d a b, 1), (.fmaxF16x2 d a b, 1), (.fmaxBf16x2 d a b, 1), (.fabsF32 d a, 1), (.fabsF16x2 d a, 1),
      (.fabsBf16x2 d a, 1), (.fnegF32 d a, 1), (.fnegF16x2 d a, 1), (.fnegBf16x2 d a, 1), (.fdivF32 d a b, 1), (.fsqrtF32 d a, 1),
      (.frndF32 d a, 1), (.ffractF32 d a, 1), (.cvtF32S32 d a, 1), (.cvtF32N32 d a, 1), (.cvtS32F32 d a, 1), (.cvtN32F32 d a, 1),
      (.cvtF16F32 d a, 1), (.cvtBf16F32 d a, 1), (.cvtF16x2F32 d a b, 1), (.cvtBf16x2F32 d a b, 1), (.cvtF32S64 d a, 1), (.cvtS64F32 d a, 2)] := by
  simp only [List.forall_cons]
  exact ⟨fun _ => unitActs_fp2 (execFaddF32 d a b) (fun _ => rfl) fun _ => rfl,
    fun _ => unitActs_fp2 (execFaddF16x2 d a b) (fun _ => rfl) fun _ => rfl,
    fun _ => unitActs_fp2 (execFaddBf16x2 d a b) (fun _ => rfl) fun _ => rfl,
    fun _ => unitActs_fp2 (execFsubF32 d a b) (fun _ => rfl) fun _ => rfl,
    fun _ => unitActs_fp2 (execFsubF16x2 d a b) (fun _ => rfl) fun _ => rfl,
    fun _ => unitActs_fp2 (execFsubBf16x2 d a b) (fun _ => rfl) fun _ => rfl,
    fun _ => unitActs_fp2 (execFmulF32 d a b) (fun _ => rfl) fun _ => rfl,
    fun _ => unitActs_fp2 (execFmulF16x2 d a b) (fun _ => rfl) fun _ => rfl,
    fun _ => unitActs_fp2 (execFmulBf16x2 d a b) (fun _ => rfl) fun _ => rfl,
    fun _ => unitActs_fp2 (execFminF32 d a b) (fun _ => rfl) fun _ => rfl,
    fun _ => unitActs_fp2 (execFminF16x2 d a b) (fun _ => rfl) fun _ => rfl,
    fun _ => unitActs_fp2 (execFminBf16x2 d a b) (fun _ => rfl) fun _ => rfl,
    fun _ => unitActs_fp2 (execFmaxF32 d a b) (fun _ => rfl) fun _ => rfl,
    fun _ => unitActs_fp2 (execFmaxF16x2 d a b) (fun _ => rfl) fun _ => rfl,
    fun _ => unitActs_fp2 (execFmaxBf16x2 d a b) (fun _ => rfl) fun _ => rfl,
    fun _ => unitActs_fp1 (execFabsF32 d a) (fun _ => rfl) fun _ => rfl,
    fun _ => unitActs_fp1 (execFabsF16x2 d a) (fun _ => rfl) fun _ => rfl,
    fun _ => unitActs_fp1 (execFabsBf16x2 d a) (fun _ => rfl) fun _ => rfl,
    fun _ => unitActs_fp1 (execFnegF32 d a) (fun _ => rfl) fun _ => rfl,
    fun _ => unitActs_fp1 (execFnegF16x2 d a) (fun _ => rfl) fun _ => rfl,
    fun _ => unitActs_fp1 (execFnegBf16x2 d a) (fun _ => rfl) fun _ => rfl,
    fun _ => unitActs_fp2 (execFdivF32 d a b) (fun _ => rfl) fun _ => rfl,
    fun _ => unitActs_fp1 (execFsqrtF32 d a) (fun _ => rfl) fun _ => rfl,
    fun _ => unitActs_fp1 (execFrndF32 d a) (fun _ => rfl) fun _ => rfl,
    fun _ => unitActs_fp1 (execFfractF32 d a) (fun _ => rfl) fun _ => rfl,
    fun _ => unitActs_cvtTo (execCvtF32S32 d a) (fun _ => rfl) fun _ => rfl,
    fun _ => unitActs_cvtTo (execCvtF32N32 d a) (fun _ => rfl) fun _ => rfl,
    fun _ => unitActs_cvtInt (execCvtS32F32 d a) (fun _ => rfl) fun _ => rfl,
    fun _ => unitActs_cvtInt (execCvtN32F32 d a) (fun _ => rfl) fun _ => rfl,
    fun _ => unitActs_cvtTo (execCvtF16F32 d a) (fun _ => rfl) fun _ => rfl,
    fun _ => unitActs_cvtTo (execCvtBf16F32 d a) (fun _ => rfl) fun _ => rfl,
    fun _ => unitActs_cvtPair (execCvtF16x2F32 d a b) (fun _ => rfl) fun _ => rfl,
    fun _ => unitActs_cvtPair (execCvtBf16x2F32 d a b) (fun _ => rfl) fun _ => rfl,
    fun _ => unitActs_cvtTo (execCvtF32S64 d a) (fun _ => rfl) fun _ => rfl, fun hw => unitActs_cvtS64F32 hw, trivial⟩

/-- The floating-point instructions of four v registers. -/
theorem unitActs_fused : List.Forall (UnitActs (fun th => th.fptraps = 0#2) (Opnd.vRegs (.v dv) 1) (Opnd.gRegs (.v dv) 1) p True)
    [.fmaF32 dv av bv cv, .fmsF32 dv av bv cv, .fnmaF32 dv av bv cv, .fclampF32 dv av bv cv, .fmaF16x2 dv av bv cv, .fmaBf16x2 dv av bv cv,
      .fmsF16x2 dv av bv cv, .fmsBf16x2 dv av bv cv] := by
  simp only [List.forall_cons]
  exact ⟨unitActs_fp3 (execFmaF32 dv av bv cv) (fun _ => rfl) fun _ => rfl,
    unitActs_fp3 (execFmsF32 dv av bv cv) (fun _ => rfl) fun _ => rfl,
    unitActs_fp3 (execFnmaF32 dv av bv cv) (fun _ => rfl) fun _ => rfl,
    unitActs_fp3 (execFclampF32 dv av bv cv) (fun _ => rfl) fun _ => rfl,
    unitActs_fp3 (execFmaF16x2 dv av bv cv) (fun _ => rfl) fun _ => rfl,
    unitActs_fp3 (execFmaBf16x2 dv av bv cv) (fun _ => rfl) fun _ => rfl,
    unitActs_fp3 (execFmsF16x2 dv av bv cv) (fun _ => rfl) fun _ => rfl,
    unitActs_fp3 (execFmsBf16x2 dv av bv cv) (fun _ => rfl) fun _ => rfl, trivial⟩

end

end Sys2Proof.Machine

namespace Sys2Proof
open Machine

/-- Settles O59: each instruction is a unit whose parts touch their destination alone. -/
theorem registerFrame : Obligations.RegisterFrame := by
  refine ⟨fun s t st g d a b dg ag gs imm h => ⟨?_, fun i hi he => ?_, fun pd pa pb i hi he => ?_⟩,
    fun s t st g d a b dv av bv cv h htraps => ⟨?_, fun i hi he => ?_⟩⟩
  · exact framed_of_all (P := fun _ => True) (fun _ _ _ _ _ h => h) unitActs_registers h fun _ _ => trivial
  · exact (List.forall_iff_forall_mem.mp unitActs_uniforms i hi).framed_always s t st g h he
  · exact List.forall_iff_forall_mem.mp framed_predicates i hi s t st g h he
  · exact framed_of_all (fun _ _ _ _ hk hp => hk.fptraps.trans hp) unitActs_floats h htraps
  · have hframed := (List.forall_iff_forall_mem.mp unitActs_fused i hi).framed (p := fun _ => False) (fun _ _ hk hp => hk.fptraps.trans hp)
      h htraps he
    rwa [vRegs_v_one, gRegs_v] at hframed

end Sys2Proof
end

section
/-! What the issue of an access leaves unchanged (R36, R290, R304 to R309). -/

namespace Sys2Proof.Machine

/-! ## The checks -/

section
variable {s : State} {g : Group} {t : Nat} {addr : BitVec 64} {align : Nat} {types : List Nat} {r w : Bool} {e : TlbEntry}

theorem State.translate_hit (h : s.Translates g addr.toNat e) : s.translate g.core g.ctx addr.toNat = .hit e := by
  have hfind : (s.core g.core).tlb.find? (fun e => e.covers (s.asnOf g.ctx) addr.toNat) = some e := h
  simp only [State.translate, hfind]

/-- An access whose checks pass goes on with its leaf. -/
theorem State.checkAccess_reaches (h : s.Reaches g addr align types r w e) {a : Access} (ha : ∀ n ∈ types, n ∈ a.types) (hr : a.r = r) (hw : a.w = w)
    (hx : a.x = false) : s.checkAccess g t addr align a = .ok s e (e.pa addr.toNat) := by
  obtain ⟨hlo, hhi, halign, htrans, htyp, hread, hwrite⟩ := h
  have hok : a.ok e = true := by
    have htypes : a.types.contains e.typ = true := List.contains_iff_mem.mpr (ha _ htyp)
    cases r <;> cases w <;> simp_all [Access.ok]
  have hhi' : ¬ addr.toNat ≥ 2 ^ 57 := Nat.not_le.mpr hhi
  have hlo' : ¬ addr.toNat < 4096 := Nat.not_lt.mpr hlo
  unfold State.checkAccess
  simp only [if_neg hhi', if_neg hlo', halign, ne_eq, not_true_eq_false, if_false, State.accessPage, State.translate_hit htrans, hok,
    Bool.not_true, Bool.false_eq_true]
  cases hw' : a.w
  · simp
  · have hdty : e.dty = true := (hwrite (hw ▸ hw')).2
    simp [State.dirty, hdty]

end

/-! ## The state after an access has issued -/

theorem updIf_updIf {α : Type} {q : α → Bool} {F G : α → α} (hG : ∀ a, q a = true → q (G a) = true) (l : List α) :
    updIf q F (updIf q G l) = updIf q (fun a => F (G a)) l := by
  unfold updIf
  rw [List.map_map]
  refine List.map_congr_left fun a _ => ?_
  by_cases ha : q a = true
  · simp [ha, hG a ha]
  · simp [ha]


/-- From `s` to `t` the group is changed as `F` says, and no byte of memory, no fuse and no other group is. -/
def State.GroupOnly (s t : State) (gid : Nat) (F : Group → Group) : Prop :=
  t.mem = s.mem ∧ t.fuse = s.fuse ∧ t.dev.groups = updIf (fun g => g.id == gid) F s.dev.groups

theorem State.GroupOnly.refl (s : State) (gid : Nat) : s.GroupOnly s gid fun g => g := by
  refine ⟨rfl, rfl, ?_⟩
  simp [updIf]

/-- What stays of a group when one of its threads issues an access: all but its token counts and its store queue. -/
def Issuing (F : Group → Group) : Prop := ∀ x, { F x with sb := x.sb, sq := x.sq, left := x.left } = x

/-- Nothing but the one group of a state is new. -/
def State.Quiet (s t : State) (gid : Nat) : Prop :=
  (∀ a, mget t.mem a = mget s.mem a) ∧ t.fuse = s.fuse ∧
    ∀ (i : Nat) (y : Group), s.dev.groups[i]? = some y → y.id ≠ gid → t.dev.groups[i]? = some y

/-- The registers, predicates and flags of a group and its threads, and what its threads wait for. -/
def Group.SameThreads (g y : Group) : Prop := y.g = g.g ∧ y.threads.length = g.threads.length ∧
  ∀ (j : Nat) (u : Thread), g.threads[j]? = some u → ∃ v : Thread, y.threads[j]? = some v ∧
    (v.v, v.p, v.fpflags, v.ended, v.wait, v.park, v.inTrap) = (u.v, u.p, u.fpflags, u.ended, u.wait, u.park, u.inTrap)

theorem State.issue_frame {s s1 : State} {st : Stream} {g : Group} {F : Group → Group} (hg : s.group? st.grp = some g)
    (h1 : s.GroupOnly s1 st.grp F) (hF : Issuing F) (l : List Nat) :
    s.Quiet (s1.advance st l) st.grp ∧ ∃ y, (s1.advance st l).group? st.grp = some y ∧ g.SameThreads y ∧ y.sb = (F g).sb ∧
      y.sq = (F g).sq ∧ y.rb = g.rb ∧ y.rstack = g.rstack ∧ y.pts = g.pts := by
  obtain ⟨hm, hfuse, hgroups⟩ := h1
  have hFid : ∀ x, (F x).id = x.id := fun x => (congrArg Group.id (hF x) :)
  have hFg : s1.group? st.grp = some (F g) := by
    rw [State.group?, hgroups, find?_updIf_same _ F fun a ha => by simpa [hFid a] using ha]
    exact congrArg (Option.map F) hg
  have hmid : ∀ x : Group, (l.foldl (fun g t => g.updThread t fun th => { th with vpc := st.next }) x).id = x.id := fun x =>
    (congrArg Group.id (foldl_updThread_vpc l st.next x).1 :)
  obtain ⟨hrest, hlen, hthreads⟩ := foldl_updThread_vpc l st.next (F g)
  have hthF : (F g).threads = g.threads := (congrArg Group.threads (hF g) :)
  have hfind : (s1.advance st l).group? st.grp = some (l.foldl (fun g t => g.updThread t fun th => { th with vpc := st.next }) (F g)) := by
    rw [State.advance, State.group?_updStream, State.group?_updGroup _ _ _ fun y hy => (hmid y).trans hy, hFg]
    rfl
  refine ⟨⟨fun a => ?_, hfuse, fun i y hy hne => ?_⟩, _, hfind, ⟨?_, ?_, fun j u hu => ?_⟩, ?_, ?_, ?_, ?_, ?_⟩
  · exact congrArg (mget · a) hm
  · have hq : (y.id == st.grp) = false := by simpa using hne
    show (updIf _ _ s1.dev.groups)[i]? = some y
    rw [hgroups]
    exact getElem?_updIf_other (getElem?_updIf_other hy hq) hq
  · exact ((congrArg Group.g hrest :)).trans ((congrArg Group.g (hF g) :))
  · exact hlen.trans (congrArg List.length hthF)
  · obtain ⟨v, hv, hvu⟩ := hthreads j u (hthF ▸ hu)
    exact ⟨v, hv, (congrArg (fun z : Thread => (z.v, z.p, z.fpflags, z.ended, z.wait, z.park, z.inTrap)) hvu :)⟩
  · exact (congrArg Group.sb hrest :)
  · exact (congrArg Group.sq hrest :)
  · exact ((congrArg Group.rb hrest :)).trans ((congrArg Group.rb (hF g) :))
  · exact ((congrArg Group.rstack hrest :)).trans ((congrArg Group.rstack (hF g) :))
  · exact ((congrArg Group.pts hrest :)).trans ((congrArg Group.pts (hF g) :))

/-! ## What each kind of access gives -/

section
variable {s : State} {st : Stream} {g : Group} {k : Nat} {th : Thread} (h : s.IssuesOne st g k th)
include h

/-- What the issue of a result leaves: of its group, all but the count of its token. -/
theorem State.issueResult_frame (sb : BitVec 3) (kind : ResKind) :
    let t := (s.issueResult st k sb kind).settled st k
    s.Quiet t st.grp ∧ ∃ y, t.group? st.grp = some y ∧ g.SameThreads y ∧ y.sq = g.sq ∧ y.rb = g.rb ∧ y.rstack = g.rstack ∧ y.pts = g.pts ∧
      ∀ m < 8, m ≠ sb.toNat → y.sb.getD m 0 = g.sb.getD m 0 := by
  by_cases hroom : s.hasRoom st.grp sb.toNat = true
  · obtain ⟨hquiet, y, hy, hthreads, hsb, hsq, hrb, hrs, hpts⟩ := State.issue_frame (F := fun g => g.setCount sb.toNat (g.count sb.toNat + 1))
      h.1.2 (s1 := (s.addResult st.grp k (some sb.toNat) st.unit kind false).2) ⟨rfl, rfl, rfl⟩ (fun _ => rfl) [k]
    rw [State.issueResult, if_pos hroom]
    refine ⟨hquiet, y, hy, hthreads, hsq, hrb, hrs, hpts, fun m _ hne => ?_⟩
    rw [hsb]
    simp [Group.setCount, List.getD_eq_getElem?_getD, List.getElem?_set_ne (Ne.symm hne)]
  · obtain ⟨hquiet, y, hy, hthreads, hsb, hsq, hrb, hrs, hpts⟩ := State.issue_frame h.1.2 (.refl s st.grp) (fun _ => rfl) []
    rw [State.issueResult, if_neg hroom]
    exact ⟨hquiet, y, hy, hthreads, hsq, hrb, hrs, hpts, fun _ _ _ => by rw [hsb]⟩

/-- A load whose checks pass issues its result. -/
theorem State.load_reaches {d : VReg} {base : Opnd} {x : BitVec 6} {sb : BitVec 3} {n : Nat} {ext : LoadExt} {e : TlbEntry}
    (hr : s.Reaches g (addrM g th base x st.imm n) n [0, 1] true false e) :
    ∃ kind, s.load (.v d) base x sb n ext = .next ((s.issueResult st k sb kind).settled st k) := by
  rw [State.load, State.perThread_one h, State.loadThread, h.1.2]
  simp only [State.checkAccess_reaches (a := .load) hr (fun _ h => h) rfl rfl rfl]
  exact ⟨_, rfl⟩

/-- An atomic whose checks pass issues its result, but for a helper's, which does nothing. -/
theorem State.atom_reaches {op : AtomOp} {d data : VReg} {base : Opnd} {sb : BitVec 3} {e : TlbEntry} (hsize : op.size = 4)
    (hr : s.Reaches g (addrN g th base st.imm) 4 [0] true true e) : s.atom op d data base sb = .next (s.advance st [k]) ∨
      ∃ kind, s.atom op d data base sb = .next ((s.issueResult st k sb kind).settled st k) := by
  rw [State.atom, State.perThread_one h, State.atomThread]
  cases hh : th.helper
  · simp only [Bool.false_eq_true, if_false, h.1.2, hsize, State.checkAccess_reaches (a := .atomic) hr (fun _ h => h) rfl rfl rfl]
    exact .inr ⟨_, rfl⟩
  · exact .inl rfl

/-- A store whose checks pass enters the queue, or stops where that is full; a helper's does nothing. -/
theorem State.store_reaches {o base : Opnd} {x : BitVec 6} {n : Nat} {e : TlbEntry}
    (hr : s.Reaches g (addrM g th base x st.imm n) n [0] false true e) :
    (∃ l, s.store o base x n = .next (s.advance st l)) ∨ ∃ data, s.store o base x n =
      .next ((s.queueStore st.grp k (.mem (e.pa (addrM g th base x st.imm n).toNat)) (.bytes data)).advance st [k]) := by
  have htyp : e.typ ≠ 1 := by
    obtain ⟨-, -, -, -, htyp, -⟩ := hr
    simp only [List.mem_singleton] at htyp
    omega
  rw [State.store, State.perThread_one h, State.storeThread]
  cases hh : th.helper
  · simp only [Bool.false_eq_true, if_false, h.1.2, State.checkAccess_reaches (a := .store) hr (by simp [Access.store]) rfl rfl rfl, htyp]
    by_cases hroom : s.sqRoom st.grp = true
    · rw [if_pos hroom]
      exact .inr ⟨_, rfl⟩
    · rw [if_neg hroom]
      exact .inl ⟨[], rfl⟩
  · exact .inl ⟨[k], rfl⟩

/-- What a store's issue leaves: of its group, all but its store queue. -/
theorem State.queueStore_frame (loc : Loc) (op : SqOp) :
    let t := (s.queueStore st.grp k loc op).advance st [k]
    s.Quiet t st.grp ∧ t.dev.results = s.dev.results ∧ ∃ y, t.group? st.grp = some y ∧ g.SameThreads y ∧ y.sb = g.sb ∧ y.rb = g.rb ∧
      y.rstack = g.rstack ∧ y.pts = g.pts ∧ ∃ q, y.sq = g.sq ++ [q] ∧ q.loc = loc := by
  have hF : Issuing fun g => { g with sq := g.sq ++ [⟨s.dev.nextId, k, loc, op⟩], left := min (g.sq.length + 1) (g.left + 1) } := fun _ => rfl
  have hgroups : (s.queueStore st.grp k loc op).dev.groups = updIf (fun g => g.id == st.grp) (fun g =>
      { g with sq := g.sq ++ [⟨s.dev.nextId, k, loc, op⟩], left := min (g.sq.length + 1) (g.left + 1) }) s.dev.groups := by
    refine (updIf_updIf (q := fun g => g.id == st.grp) (G := fun g => { g with sq := g.sq ++ [⟨s.dev.nextId, k, loc, op⟩] }) (fun _ h => h) s.dev.groups).trans ?_
    refine congrArg (fun F => updIf _ F s.dev.groups) (funext fun x => ?_)
    simp
  obtain ⟨hquiet, y, hy, hthreads, hsb, hsq, hrb, hrs, hpts⟩ := State.issue_frame h.1.2 (s1 := s.queueStore st.grp k loc op)
    ⟨rfl, rfl, hgroups⟩ hF [k]
  exact ⟨hquiet, rfl, y, hy, hthreads, hsb, hrb, hrs, hpts, _, hsq, rfl⟩

end

/-! ## The instructions -/

section
variable {sb : BitVec 3} {d data : VReg} {o base : Opnd} {x : BitVec 6}

theorem exec_loads : List.Forall (fun q : Instr × Nat => ∃ ext, ∀ s, exec q.1 s = s.load (.v d) base x sb q.2 ext)
    [(.ldS8 sb d base x, 1), (.ldN8 sb d base x, 1), (.ldS16 sb d base x, 2), (.ldN16 sb d base x, 2), (.ldB32 sb d base x, 4),
      (.ldB64 sb d base x, 8), (.ldB128 sb d base x, 16)] := by
  simp only [List.forall_cons]
  exact ⟨⟨.s8, fun s => show execLdS8 sb d base x s = _ from rfl⟩, ⟨.n8, fun s => show execLdN8 sb d base x s = _ from rfl⟩,
    ⟨.s16, fun s => show execLdS16 sb d base x s = _ from rfl⟩, ⟨.n16, fun s => show execLdN16 sb d base x s = _ from rfl⟩,
    ⟨.b32, fun s => show execLdB32 sb d base x s = _ from rfl⟩, ⟨.b64, fun s => show execLdB64 sb d base x s = _ from rfl⟩,
    ⟨.b128, fun s => show execLdB128 sb d base x s = _ from rfl⟩, trivial⟩

theorem exec_stores : List.Forall (fun q : Instr × Nat => ∀ s, exec q.1 s = s.store o base x q.2)
    [(.stB8 o base x, 1), (.stB16 o base x, 2), (.stB32 o base x, 4), (.stB64 o base x, 8), (.stB128 o base x, 16)] := by
  simp only [List.forall_cons]
  exact ⟨fun s => show execStB8 o base x s = _ from rfl, fun s => show execStB16 o base x s = _ from rfl,
    fun s => show execStB32 o base x s = _ from rfl, fun s => show execStB64 o base x s = _ from rfl,
    fun s => show execStB128 o base x s = _ from rfl, trivial⟩

theorem exec_atoms : List.Forall (fun i => ∃ op : AtomOp, op.size = 4 ∧ ∀ s, exec i s = s.atom op d data base sb)
    [.atomAddS32 sb d data base, .atomAddF32 sb d data base, .atomMinS32 sb d data base, .atomMinN32 sb d data base, .atomMaxS32 sb d data base,
      .atomMaxN32 sb d data base, .atomAndB32 sb d data base, .atomOrB32 sb d data base, .atomXorB32 sb d data base, .atomExchB32 sb d data base,
      .atomCasB32 sb d data base] := by
  simp only [List.forall_cons]
  exact ⟨⟨.addS32, rfl, fun s => show execAtomAddS32 sb d data base s = _ from rfl⟩,
    ⟨.addF32, rfl, fun s => show execAtomAddF32 sb d data base s = _ from rfl⟩,
    ⟨.minS32, rfl, fun s => show execAtomMinS32 sb d data base s = _ from rfl⟩,
    ⟨.minN32, rfl, fun s => show execAtomMinN32 sb d data base s = _ from rfl⟩,
    ⟨.maxS32, rfl, fun s => show execAtomMaxS32 sb d data base s = _ from rfl⟩,
    ⟨.maxN32, rfl, fun s => show execAtomMaxN32 sb d data base s = _ from rfl⟩,
    ⟨.and32, rfl, fun s => show execAtomAndB32 sb d data base s = _ from rfl⟩,
    ⟨.or32, rfl, fun s => show execAtomOrB32 sb d data base s = _ from rfl⟩,
    ⟨.xor32, rfl, fun s => show execAtomXorB32 sb d data base s = _ from rfl⟩,
    ⟨.exch32, rfl, fun s => show execAtomExchB32 sb d data base s = _ from rfl⟩,
    ⟨.cas32, rfl, fun s => show execAtomCasB32 sb d data base s = _ from rfl⟩, trivial⟩

end

end Sys2Proof.Machine

namespace Sys2Proof
open Machine

/-- Settles O60: an access whose checks pass issues one result, or enters the queue; neither touches memory. -/
theorem accessFrame : Obligations.AccessFrame := by
  intro s t st g k th d o base data x sb e h quiet threads
  refine ⟨fun i n hin hr he => ?_, fun i n hin hr he => ?_, fun i hin hr he => ?_⟩
  · obtain ⟨ext, hload⟩ := List.forall_iff_forall_mem.mp exec_loads (i, n) hin
    obtain ⟨kind, hkind⟩ := State.load_reaches h (d := d) (sb := sb) (ext := ext) hr
    rw [hload, hkind] at he
    cases he
    exact State.issueResult_frame h sb kind
  · rw [List.forall_iff_forall_mem.mp exec_stores (i, n) hin] at he
    rcases State.store_reaches h (o := o) hr with ⟨l, hs⟩ | ⟨bytes, hs⟩
    · rw [hs] at he
      cases he
      obtain ⟨hquiet, y, hy, hthreads, hsb, hsq, hrb, hrs, hpts⟩ := State.issue_frame h.1.2 (.refl s st.grp) (fun _ => rfl) l
      exact ⟨hquiet, rfl, y, hy, hthreads, hsb, hrb, hrs, hpts, .inl hsq⟩
    · rw [hs] at he
      cases he
      obtain ⟨hquiet, hres, y, hy, hthreads, hsb, hrb, hrs, hpts, hq⟩ := State.queueStore_frame h _ _
      exact ⟨hquiet, hres, y, hy, hthreads, hsb, hrb, hrs, hpts, .inr hq⟩
  · obtain ⟨op, hsize, hatom⟩ := List.forall_iff_forall_mem.mp exec_atoms i hin
    rw [hatom] at he
    rcases State.atom_reaches h hsize hr with hs | ⟨kind, hs⟩
    · rw [hs] at he
      cases he
      obtain ⟨hquiet, y, hy, hthreads, hsb, hsq, hrb, hrs, hpts⟩ := State.issue_frame h.1.2 (.refl s st.grp) (fun _ => rfl) [k]
      exact ⟨hquiet, y, hy, hthreads, hsq, hrb, hrs, hpts, fun _ _ _ => by rw [hsb]⟩
    · rw [hs] at he
      cases he
      exact State.issueResult_frame h sb kind

end Sys2Proof
end

section
/-! Bytes of memory as halves and words (R3, R305), the gathered ones in their place (R297). -/

namespace Sys2Proof.Machine

/-! ## Bytes and numbers -/

theorem toNat_append_bits {m n : Nat} (x : BitVec m) (y : BitVec n) : (x ++ y).toNat = x.toNat * 2 ^ n + y.toNat := by
  rw [BitVec.toNat_append, ← Nat.shiftLeft_add_eq_or_of_lt y.isLt, Nat.shiftLeft_eq]

theorem natOfBytes_two (a b : Byte) : natOfBytes [a, b] = (b ++ a : BitVec 16).toNat := by
  rw [toNat_append_bits]
  simp only [natOfBytes]
  omega

theorem natOfBytes_four (a b c d : Byte) : natOfBytes [a, b, c, d] = ((d ++ c : BitVec 16) ++ (b ++ a : BitVec 16) : Word).toNat := by
  simp only [toNat_append_bits, natOfBytes]
  omega

theorem natOfBytes_append (l r : List Byte) : natOfBytes (l ++ r) = natOfBytes l + 256 ^ l.length * natOfBytes r := by
  induction l with
  | nil => simp [natOfBytes]
  | cons a l ih =>
    simp only [List.cons_append, natOfBytes, ih, List.length_cons, Nat.pow_succ]
    ring

theorem natOfBytes_bytesOfNat (x n : Nat) : natOfBytes (bytesOfNat x n) = x % 256 ^ n := by
  induction n generalizing x with
  | zero => simp [bytesOfNat, natOfBytes, Nat.mod_one]
  | succ n ih =>
    simp only [bytesOfNat, natOfBytes, ih, BitVec.toNat_ofNat]
    rw [show 256 ^ (n + 1) = 256 * 256 ^ n from Nat.pow_succ', Nat.mod_mul]

theorem bytesOfNat_add (x m n : Nat) : bytesOfNat x (m + n) = bytesOfNat x m ++ bytesOfNat (x / 256 ^ m) n := by
  induction m generalizing x with
  | zero => simp [bytesOfNat]
  | succ m ih =>
    rw [Nat.succ_add]
    simp only [bytesOfNat, ih, List.cons_append, Nat.pow_succ', Nat.div_div_eq_div_mul]

theorem bytesOfNat_mod (x n : Nat) : bytesOfNat (x % 256 ^ n) n = bytesOfNat x n := by
  induction n generalizing x with
  | zero => rfl
  | succ n ih =>
    simp only [bytesOfNat]
    congr 1
    · apply BitVec.eq_of_toNat_eq
      simp only [BitVec.toNat_ofNat]
      exact Nat.mod_mod_of_dvd x (Dvd.intro_left (256 ^ n) (Nat.pow_succ ..).symm)
    · rw [Nat.pow_succ', Nat.mod_mul_right_div_self, ih]

theorem wordsOf_four (a b c d : Byte) (r : List Byte) : wordsOf (a :: b :: c :: d :: r) =
    ((d ++ c : BitVec 16) ++ (b ++ a : BitVec 16) : Word) :: wordsOf r := by
  rw [wordsOf, natOfBytes_four, BitVec.ofNat_toNat, BitVec.setWidth_eq]

/-- The words of a 32-bit and of a 64-bit number's bytes. -/
theorem wordsOf_bytesOfNat_four (x : Nat) : wordsOf (bytesOfNat x 4) = [BitVec.ofNat 32 x] := by
  have h := natOfBytes_bytesOfNat x 4
  simp only [bytesOfNat, wordsOf] at h ⊢
  rw [h]
  exact congrArg (fun w => [w]) (BitVec.eq_of_toNat_eq (by simp))

theorem wordsOf_bytesOfNat_eight (x : Nat) : wordsOf (bytesOfNat x 8) = [BitVec.ofNat 32 x, BitVec.ofNat 32 (x / 2 ^ 32)] := by
  have hlo := wordsOf_bytesOfNat_four x
  have hhi := wordsOf_bytesOfNat_four (x / 256 ^ 4)
  rw [show (8 : Nat) = 4 + 4 from rfl, bytesOfNat_add]
  generalize hr : bytesOfNat (x / 256 ^ 4) 4 = r at *
  simp only [bytesOfNat, wordsOf, List.cons.injEq, and_true] at hlo
  simp only [bytesOfNat, List.cons_append, List.nil_append, wordsOf, hhi, hlo]
  rfl

/-! ## The bytes that a load sees -/

/-- The byte that a core sees at an address: the one gathered there, else memory's. -/
def seenByte (comb : List Host.Cell) (m : Mem) (a : Nat) : Byte := (assoc comb a).getD (mget m a)
def seenHalf (comb : List Host.Cell) (m : Mem) (a : Nat) : BitVec 16 := seenByte comb m (a + 1) ++ seenByte comb m a
def seenWord (comb : List Host.Cell) (m : Mem) (a : Nat) : Word := seenHalf comb m (a + 2) ++ seenHalf comb m a
/-- The bytes that it sees from an address on. -/
def seenBytes (comb : List Host.Cell) (m : Mem) (a n : Nat) : List Byte := (List.range n).map fun i => seenByte comb m (a + i)

theorem length_seenBytes (comb : List Host.Cell) (m : Mem) (a n : Nat) : (seenBytes comb m a n).length = n := by simp [seenBytes]

theorem getD_mgets {n : Nat} (m : List (Nat × BitVec n)) (a c i : Nat) (h : i < c) : (mgets m a c).getD i 0#n = mget m (a + i) := by
  induction c generalizing a i with
  | zero => omega
  | succ c ih =>
    cases i with
    | zero => rfl
    | succ i =>
      rw [mgets, List.getD_cons_succ, ih (a + 1) i (by omega)]
      congr 1
      omega

theorem mgets_congr {n : Nat} {m m' : List (Nat × BitVec n)} {a c : Nat} (h : ∀ i < c, mget m (a + i) = mget m' (a + i)) :
    mgets m a c = mgets m' a c := by
  induction c generalizing a with
  | zero => rfl
  | succ c ih =>
    rw [mgets, mgets, show mget m a = mget m' a from h 0 (by omega), ih fun i hi => ?_]
    have := h (i + 1) (by omega)
    rwa [show a + (i + 1) = a + 1 + i by omega] at this

theorem overlay_mgets (comb : List Host.Cell) (m : Mem) (a n : Nat) : overlay a (mgets m a n) comb = seenBytes comb m a n := by
  unfold overlay seenBytes
  rw [length_mgets]
  refine List.map_congr_left fun i hi => ?_
  rw [getD_mgets _ _ _ _ (List.mem_range.mp hi), seenByte]
  cases assoc comb (a + i) <;> rfl

section
variable (comb : List Host.Cell) (m : Mem) (a : Nat)

theorem natOfBytes_seen_one : natOfBytes (seenBytes comb m a 1) = (seenByte comb m a).toNat := by
  show natOfBytes [seenByte comb m a] = _
  simp [natOfBytes]

theorem natOfBytes_seen_two : natOfBytes (seenBytes comb m a 2) = (seenHalf comb m a).toNat := natOfBytes_two _ _

theorem natOfBytes_seen_four : natOfBytes (seenBytes comb m a 4) = (seenWord comb m a).toNat := natOfBytes_four _ _ _ _

theorem wordsOf_seen_four : wordsOf (seenBytes comb m a 4) = [seenWord comb m a] := wordsOf_four _ _ _ _ []

theorem seenBytes_add (n k : Nat) : seenBytes comb m a (n + k) = seenBytes comb m a n ++ seenBytes comb m (a + n) k := by
  simp only [seenBytes, List.range_add, List.map_append, List.map_map, List.append_cancel_left_eq]
  exact List.map_congr_left fun i _ => by simp [Nat.add_assoc]

theorem wordsOf_seen_add (k : Nat) : wordsOf (seenBytes comb m a (4 + k)) = seenWord comb m a :: wordsOf (seenBytes comb m (a + 4) k) := by
  rw [seenBytes_add]
  exact wordsOf_four _ _ _ _ _

/-- The words of a load by its extension (R305). -/
theorem loadWords_eq {ext : LoadExt} {n : Nat} {ws : List Word}
    (h : (ext, n, ws) ∈ [(LoadExt.s8, 1, [BitVec.ofInt 32 (seenByte comb m a).toInt]), (.n8, 1, [BitVec.ofNat 32 (seenByte comb m a).toNat]),
      (.s16, 2, [BitVec.ofInt 32 (seenHalf comb m a).toInt]), (.n16, 2, [BitVec.ofNat 32 (seenHalf comb m a).toNat]), (.b32, 4, [seenWord comb m a]),
      (.b64, 8, [seenWord comb m a, seenWord comb m (a + 4)]),
      (.b128, 16, [seenWord comb m a, seenWord comb m (a + 4), seenWord comb m (a + 8), seenWord comb m (a + 12)])]) :
    ext.size = n ∧ ext.words (seenBytes comb m a n) = ws := by
  have hhalf : BitVec.ofNat 16 (natOfBytes ((seenBytes comb m a 2).take 2)) = seenHalf comb m a := by
    rw [List.take_of_length_le (length_seenBytes ..).le, natOfBytes_seen_two, BitVec.ofNat_toNat, BitVec.setWidth_eq]
  simp only [List.mem_cons, Prod.mk.injEq, List.not_mem_nil, or_false] at h
  rcases h with ⟨rfl, rfl, rfl⟩ | ⟨rfl, rfl, rfl⟩ | ⟨rfl, rfl, rfl⟩ | ⟨rfl, rfl, rfl⟩ | ⟨rfl, rfl, rfl⟩ | ⟨rfl, rfl, rfl⟩ | ⟨rfl, rfl, rfl⟩
  · exact ⟨rfl, rfl⟩
  · exact ⟨rfl, congrArg (fun w => [w]) (BitVec.ofNat_toNat ..).symm⟩
  · refine ⟨rfl, ?_⟩
    simp only [LoadExt.words, hhalf]
    rfl
  · refine ⟨rfl, ?_⟩
    simp only [LoadExt.words, hhalf]
    exact congrArg (fun w => [w]) (BitVec.ofNat_toNat ..).symm
  · exact ⟨rfl, wordsOf_seen_four comb m a⟩
  · refine ⟨rfl, (wordsOf_seen_add comb m a 4).trans ?_⟩
    rw [wordsOf_seen_four]
  · refine ⟨rfl, (wordsOf_seen_add comb m a 12).trans ?_⟩
    rw [wordsOf_seen_add comb m (a + 4) 8, wordsOf_seen_add comb m (a + 4 + 4) 4, wordsOf_seen_four]

end

end Sys2Proof.Machine
end

section
/-! Timestamps of the lines that a store and a load at their home touch (R286, R287, R289). -/

namespace Sys2Proof.Machine

/-! ## Lines of a range, and keyed lists set in turn -/

theorem mem_linesOf {pa n l : Nat} : l ∈ linesOf pa n ↔ ∃ i < n, (pa + i) / 128 = l := by
  unfold linesOf
  by_cases hn : n = 0
  · simp [hn]
  · simp only [hn, if_false, List.mem_map, List.mem_range]
    constructor
    · rintro ⟨j, hj, rfl⟩
      by_cases h0 : j = 0
      · exact ⟨0, by omega, by omega⟩
      · exact ⟨128 * (j + pa / 128) - pa, by omega, by omega⟩
    · rintro ⟨i, hi, rfl⟩
      exact ⟨(pa + i) / 128 - pa / 128, by omega, by omega⟩

theorem assoc_assocSet {α : Type} (l : List (Nat × α)) (k j : Nat) (a : α) : assoc (assocSet l k a) j = if j = k then some a else assoc l j := by
  induction l with
  | nil =>
    by_cases h : j = k
    · simp [assocSet, assoc, h]
    · simp [assocSet, assoc, h, Ne.symm h]
  | cons x r ih =>
    obtain ⟨i, b⟩ := x
    by_cases hik : i = k
    · by_cases h : j = k
      · simp [assocSet, assoc, hik, h]
      · simp [assocSet, assoc, hik, h, Ne.symm h]
    · by_cases hij : i = j
      · have hjk : j ≠ k := fun h => hik (hij.trans h)
        simp [assocSet, assoc, hij, hjk]
      · simp [assocSet, assoc, hik, hij, ih]

theorem assoc_foldl_assocSet {α : Type} (f : Nat → α) (ls : List Nat) (m : List (Nat × α)) (j : Nat) :
    assoc (ls.foldl (fun m l => assocSet m l (f l)) m) j = if j ∈ ls then some (f j) else assoc m j := by
  induction ls generalizing m with
  | nil => simp
  | cons k r ih =>
    rw [List.foldl_cons, ih, assoc_assocSet]
    by_cases hr : j ∈ r
    · simp [hr]
    · by_cases hk : j = k <;> simp [hr, hk]

/-! ## The largest of a list -/

section
variable (f : Nat → Nat) (ls : List Nat) (p : Nat)

theorem le_foldl_max : p ≤ ls.foldl (fun t l => max t (f l)) p := by
  induction ls generalizing p with
  | nil => exact le_rfl
  | cons k r ih => exact (Nat.le_max_left ..).trans (ih (max p (f k)))

theorem le_foldl_max_of_mem {l : Nat} (h : l ∈ ls) : f l ≤ ls.foldl (fun t l => max t (f l)) p := by
  induction ls generalizing p with
  | nil => cases h
  | cons k r ih =>
    rcases List.mem_cons.mp h with rfl | h
    · exact (Nat.le_max_right ..).trans (le_foldl_max f r (max p (f l)))
    · exact ih (max p (f k)) h

theorem foldl_max_le {T : Nat} (hp : p ≤ T) (h : ∀ l ∈ ls, f l ≤ T) : ls.foldl (fun t l => max t (f l)) p ≤ T := by
  induction ls generalizing p with
  | nil => exact hp
  | cons k r ih => exact ih (max p (f k)) (Nat.max_le.mpr ⟨hp, h k (List.mem_cons_self ..)⟩) fun l hl => h l (List.mem_cons_of_mem _ hl)

end

/-! ## Timestamps at or above the floor -/

section
variable (s : State)

/-- What is not too far below the floor is read as it is (R289). -/
theorem State.atFloor_of_ge {t : Nat} (h : s.dev.floor ≤ t + 2 ^ 46) : s.atFloor t = t := by
  rw [State.atFloor, if_neg (Nat.not_lt.mpr h)]

theorem State.floor_le_atFloor (t : Nat) : s.dev.floor ≤ s.atFloor t + 2 ^ 46 := by
  unfold State.atFloor
  split <;> omega

theorem State.floor_le_lineTs_wts (l : Nat) : s.dev.floor ≤ (s.lineTs l).1 + 2 ^ 46 := s.floor_le_atFloor _
theorem State.floor_le_lineTs_rts (l : Nat) : s.dev.floor ≤ (s.lineTs l).2 + 2 ^ 46 := s.floor_le_atFloor _

/-- The timestamps of lines set in turn, none too far below the floor. -/
theorem State.lineTs_set {u : State} (f : Nat → Nat × Nat) (ls : List Nat) (hfloor : u.dev.floor = s.dev.floor)
    (hts : u.dev.ts = ls.foldl (fun m l => assocSet m l (f l)) s.dev.ts)
    (hf : ∀ l ∈ ls, s.dev.floor ≤ (f l).1 + 2 ^ 46 ∧ s.dev.floor ≤ (f l).2 + 2 ^ 46) (l : Nat) :
    u.lineTs l = if l ∈ ls then f l else s.lineTs l := by
  have hsame : ∀ t, u.atFloor t = s.atFloor t := fun t => by rw [State.atFloor, State.atFloor, hfloor]
  rw [State.lineTs, State.lineTs, hts, assoc_foldl_assocSet]
  simp only [hsame]
  by_cases h : l ∈ ls
  · simp only [h, if_true, Option.getD_some, s.atFloor_of_ge (hf l h).1, s.atFloor_of_ge (hf l h).2]
  · simp only [h, if_false]

/-! ## A store and a load at their home -/

variable (pts pa : Nat)

theorem State.homeStore_ts (data : List Byte) : (s.homeStore pts pa data).2 =
    (linesOf pa data.length).foldl (fun t l => max t ((s.lineTs l).2 + 1)) pts := rfl

theorem State.pts_le_homeStore (data : List Byte) : pts ≤ (s.homeStore pts pa data).2 :=
  le_foldl_max (fun l => (s.lineTs l).2 + 1) _ _

/-- A store is admitted above every lease of its lines. -/
theorem State.rts_lt_homeStore {data : List Byte} {l : Nat} (h : l ∈ linesOf pa data.length) :
    (s.lineTs l).2 < (s.homeStore pts pa data).2 := le_foldl_max_of_mem (fun l => (s.lineTs l).2 + 1) _ pts h

theorem State.homeStore_least {data : List Byte} {T : Nat} (hp : pts ≤ T) (h : ∀ l ∈ linesOf pa data.length, (s.lineTs l).2 < T) :
    (s.homeStore pts pa data).2 ≤ T := foldl_max_le (fun l => (s.lineTs l).2 + 1) _ pts hp h

/-- Both timestamps of a store's lines become the store's; those of every other line stay. -/
theorem State.lineTs_homeStore (data : List Byte) (l : Nat) : (s.homeStore pts pa data).1.lineTs l =
    if l ∈ linesOf pa data.length then ((s.homeStore pts pa data).2, (s.homeStore pts pa data).2) else s.lineTs l := by
  refine s.lineTs_set (u := (s.homeStore pts pa data).1) (fun _ => ((s.homeStore pts pa data).2, (s.homeStore pts pa data).2))
    (linesOf pa data.length) rfl rfl (fun k hk => ?_) l
  have hlt := s.rts_lt_homeStore pts pa hk
  have hfl := s.floor_le_lineTs_rts k
  exact ⟨by omega, by omega⟩

theorem State.pts_le_homeLoad (n : Nat) : pts ≤ (s.homeLoad pts pa n).2.2 := le_foldl_max (fun l => (s.lineTs l).1) _ _

theorem State.wts_le_homeLoad {n l : Nat} (h : l ∈ linesOf pa n) : (s.lineTs l).1 ≤ (s.homeLoad pts pa n).2.2 :=
  le_foldl_max_of_mem (fun l => (s.lineTs l).1) _ pts h

/-- A load extends the lease of each of its lines, and changes no write timestamp. -/
theorem State.lineTs_homeLoad (n l : Nat) : (s.homeLoad pts pa n).1.lineTs l = if l ∈ linesOf pa n then
    ((s.lineTs l).1, max (s.lineTs l).2 (max (s.lineTs l).1 (pts + s.lease))) else s.lineTs l := by
  refine s.lineTs_set (u := (s.homeLoad pts pa n).1) (fun l => ((s.lineTs l).1, max (s.lineTs l).2 (max (s.lineTs l).1 (pts + s.lease))))
    (linesOf pa n) rfl rfl (fun k _ => ?_) l
  have hw := s.floor_le_lineTs_wts k
  have hr := s.floor_le_lineTs_rts k
  exact ⟨hw, by dsimp only; omega⟩

/-- What a store and a load at their home do: the bytes, and the timestamps of their lines. -/
theorem State.home_spec (data : List Byte) (n : Nat) :
    let t := (s.homeStore pts pa data).2
    let m := (s.homeStore pts pa data).1
    let touched := fun (line len : Nat) => ∃ i < len, (pa + i) / 128 = line
    (∀ a, mget m.mem a = if pa ≤ a ∧ a < pa + data.length then data.getD (a - pa) 0#8 else mget s.mem a) ∧
    (Memory.wf s.mem = true → Memory.wf m.mem = true) ∧
    pts ≤ t ∧ (∀ line, touched line data.length → (s.lineTs line).2 < t ∧ m.lineTs line = (t, t)) ∧
    (∀ line, ¬ touched line data.length → m.lineTs line = s.lineTs line) ∧
    (∀ T, pts ≤ T → (∀ line, touched line data.length → (s.lineTs line).2 < T) → t ≤ T) ∧
    let l := s.homeLoad pts pa n
    l.1.mem = s.mem ∧ l.2.1 = mgets s.mem pa n ∧ pts ≤ l.2.2 ∧
    ∀ line, if touched line n then (s.lineTs line).1 ≤ l.2.2 ∧ (l.1.lineTs line).1 = (s.lineTs line).1 ∧
      (l.1.lineTs line).2 = max (s.lineTs line).2 (max (s.lineTs line).1 (pts + (if s.dev.mmu.lease = 0 then 1 else s.dev.mmu.lease)))
    else l.1.lineTs line = s.lineTs line := by
  simp only [← mem_linesOf]
  refine ⟨s.mget_homeStore pts pa data, s.homeStore_wf pts pa data, s.pts_le_homeStore pts pa data, fun l hl => ?_, fun l hl => ?_,
    fun T hT h => s.homeStore_least pts pa hT h, rfl, rfl, s.pts_le_homeLoad pts pa n, fun l => ?_⟩
  · exact ⟨s.rts_lt_homeStore pts pa hl, by rw [s.lineTs_homeStore, if_pos hl]⟩
  · rw [s.lineTs_homeStore, if_neg hl]
  · by_cases hl : l ∈ linesOf pa n
    · rw [if_pos hl, s.lineTs_homeLoad, if_pos hl]
      exact ⟨s.wts_le_homeLoad pts pa hl, rfl, rfl⟩
    · rw [if_neg hl, s.lineTs_homeLoad, if_neg hl]

end

end Sys2Proof.Machine
end

section
/-! The return of a memory access's result (R36, R290, R305, R309). -/

namespace Sys2Proof.Machine

/-! ## What is written -/

theorem wrLeft_v (mute : List Nat) (g : Group) (t : Nat) (n : VReg) (ws : List Word) : wrLeft mute g t (.v n) ws = wrN g t (.v n) ws := by
  induction ws generalizing g n with
  | nil => rfl
  | cons x r ih => exact ih (wr g t (.v n) x) (n + 1#6)

theorem filter_updIf_id {α : Type} (key : α → Nat) (i : Nat) (F : α → α) (hF : ∀ a, key (F a) = key a) (l : List α) :
    (updIf (fun x => key x == i) F l).filter (fun x => key x != i) = l.filter fun x => key x != i := by
  induction l with
  | nil => rfl
  | cons a r ih =>
    simp only [updIf, beq_iff_eq] at ih
    by_cases ha : key a = i
    · simp [updIf, ha, hF, ih]
    · simp [updIf, ha, ih]

section
variable {r : Pending} {n : VReg} {ws : List Word} {fl : FFlags}

/-- A result without a fault that writes v registers is delivered. -/
theorem State.deliver_v (s : State) (hf : r.fault = none) (hw : r.writes = ([(.v n, ws)], fl)) :
    s.deliver r = ((s.updGroup r.grp fun g => (wrN g r.thread (.v n) ws).updThread r.thread fun x =>
      { x with fpflags := x.fpflags ||| fl }).dropResult r).endEng r.id := by
  have hg : r.gDsts = [] := by simp [Pending.gDsts, hw]
  have hmute : ∀ (p : Pending → Bool) (l : List Pending), updIf p (fun x => { x with mute := x.mute ++ [] }) l = l := fun p l => by
    simp [updIf]
  unfold State.deliver
  simp only [hf, hw, hg, List.foldl_cons, List.foldl_nil, wrLeft_v, hmute]
  rfl

/-- What was noted of a result, and the timestamp that its group had reached, as it leaves. -/
theorem State.dropResult_noted (s1 : State) (r : Pending) (p : Nat) (v : List Byte) (F : Group → Group) :
    (((s1.raisePts r.grp p).updPending r.id fun x => { x with ready := true, val := v }).updGroup r.grp F).dropResult
      { r with ready := true, val := v } = (s1.updGroup r.grp fun g => F { g with pts := max g.pts p }).dropResult r := by
  have hgroups : updIf (fun g : Group => g.id == r.grp) F (updIf (fun g => g.id == r.grp) (fun g => { g with pts := max g.pts p }) s1.dev.groups) =
      updIf (fun g => g.id == r.grp) (fun g => F { g with pts := max g.pts p }) s1.dev.groups :=
    updIf_updIf (q := fun g : Group => g.id == r.grp) (G := fun g => { g with pts := max g.pts p }) (fun _ h => h) s1.dev.groups
  have hresults := filter_updIf_id (fun x : Pending => x.id) r.id (fun x => { x with ready := true, val := v }) (fun _ => rfl) s1.dev.results
  unfold State.dropResult State.raisePts State.updPending State.updGroup State.onDev
  simp only [hgroups, hresults]

end

/-! ## The result that is performed as it returns -/

/-- No earlier access of the group is outstanding. -/
theorem State.earlier_false {s : State} {r : Pending} {g : Group} (hg : s.group? r.grp = some g) (hsq : ∀ e ∈ g.sq, r.id < e.id)
    (hres : ∀ x ∈ s.dev.results, x.grp = r.grp → r.id ≤ x.id) : s.earlier r.grp r.id = false := by
  have h1 : (g.sq.any fun e => decide (e.id < r.id)) = false := by
    refine List.any_eq_false.mpr fun e he => ?_
    have := hsq e he
    simp only [decide_eq_true_eq]
    omega
  have h2 : (s.dev.results.any fun x => x.grp == r.grp && decide (x.id < r.id) && x.kind.isMem && !x.ready) = false := by
    refine List.any_eq_false.mpr fun x hx => ?_
    intro hall
    simp only [Bool.and_eq_true, beq_iff_eq, decide_eq_true_eq] at hall
    have := hres x hx hall.1.1.1
    omega
  simp only [State.earlier, hg, h1, h2, Bool.or_self]

/-- An access that is performed as it returns delivers its result. -/
theorem State.returnResult_mem {s : State} {r r' : Pending} {g : Group} (hg : s.group? r.grp = some g) (hsaved : s.savedTeam g.team = false)
    (hmem : r.kind.isMem = true) (hp : (s.perform r).pending? r.id = some r') (hr : r'.ready = true) :
    s.returnResult r = ((s.perform r).deliver r').checkBars g := by
  cases hk : r.kind <;> rw [hk] at hmem
  case load | atom | vmv => simp only [State.returnResult, hg, hk, hsaved, Bool.false_eq_true, if_false, hp, hr, if_true]
  all_goals exact absurd hmem Bool.false_ne_true

/-- The return of an access that writes `ws` to v registers, from what its performance leaves (R36). -/
theorem State.exec_return {s s1 : State} {r : Pending} {g : Group} {tm : Team} {p d : Nat} {ws : List Word} {fl : FFlags} {v : List Byte}
    (hr : s.pending? r.id = some r) (hg : s.group? r.grp = some g) (htm : s.team? g.team = some tm) (hst : tm.st ≠ .saved)
    (hf : r.fault = none) (hmem : r.kind.isMem = true)
    (hperf : s.perform r = (s1.raisePts r.grp p).updPending r.id fun x => { x with ready := true, val := v })
    (hres : s1.dev.results = s.dev.results) (hw : ({ r with ready := true, val := v } : Pending).writes = ([(.v (BitVec.ofNat 6 d), ws)], fl)) :
    exec (.resultReturn r.id) s =
      .next ((((s1.updGroup r.grp fun g => (wrN { g with pts := max g.pts p } r.thread (.v (BitVec.ofNat 6 d)) ws).updThread r.thread
        fun x => { x with fpflags := x.fpflags ||| fl }).dropResult r).endEng r.id).checkBars g) := by
  have hsaved : s.savedTeam g.team = false := by
    simp only [State.savedTeam, htm, beq_eq_false_iff_ne, ne_eq, hst, not_false_iff]
  have hp : (s.perform r).pending? r.id = some { r with ready := true, val := v } := by
    rw [hperf]
    show (updIf (fun x : Pending => x.id == r.id) _ s1.dev.results).find? _ = _
    rw [hres]
    exact (find?_updIf_same (fun x : Pending => x.id == r.id) (fun x => { x with ready := true, val := v }) (fun _ h => h) _).trans
      (congrArg (Option.map fun x : Pending => { x with ready := true, val := v }) hr)
  have hexec : exec (.resultReturn r.id) s = .next (s.returnResult r) := by
    show execResultReturn r.id s = _
    simp only [execResultReturn, hr]
  rw [hexec, State.returnResult_mem hg hsaved hmem hp rfl, hperf,
    State.deliver_v (r := { r with ready := true, val := v }) _ hf hw]
  exact congrArg (fun u : State => Host.Outcome.next ((u.endEng r.id).checkBars g)) (s1.dropResult_noted r p v fun g =>
    (wrN g r.thread (.v (BitVec.ofNat 6 d)) ws).updThread r.thread fun x => { x with fpflags := x.fpflags ||| fl })

end Sys2Proof.Machine
end

section
/-! What a load and a `VMV` read (R285, R305, R309 to R311). -/

namespace Sys2Proof.Machine

/-! ## Copies of lines -/

/-- The copies of lines that a core holds agree with memory. -/
def State.L1Agrees (s : State) (core : Nat) : Prop := ∀ x ∈ (s.core core).l1, ∀ a, a / 128 = x.line → mget x.data a = mget s.mem a

theorem mem_useL1 {l : List L1Line} {x y : L1Line} {stream : Bool} (h : y ∈ useL1 l x stream) : y = x ∨ y ∈ l := by
  have hkept : ∀ z ∈ (l.filter fun y => y.line != x.line).take (Config.l1Lines - 1), z ∈ l := fun z hz =>
    (List.mem_filter.mp (List.mem_of_mem_take hz)).1
  unfold useL1 at h
  cases stream
  · rcases List.mem_cons.mp h with h | h
    · exact .inl h
    · exact .inr (hkept _ h)
  · rcases List.mem_append.mp h with h | h
    · exact .inr (hkept _ h)
    · exact .inl (List.mem_singleton.mp h)

/-- A line put in the L1 keeps the agreement where it agrees itself. -/
theorem State.L1Agrees.useL1 {s : State} {core : Nat} {x : L1Line} {stream : Bool} (h : s.L1Agrees core)
    (hx : ∀ a, a / 128 = x.line → mget x.data a = mget s.mem a) :
    (s.updCore core fun c => { c with l1 := useL1 c.l1 x stream }).L1Agrees core := by
  intro y hy
  rw [State.core_updCore_same] at hy
  rcases mem_useL1 hy with rfl | hy
  · exact hx
  · exact h y hy

theorem mget_msets_mgets {n : Nat} (m m' : List (Nat × BitVec n)) {i c j : Nat} (hi : i ≤ j) (hj : j < i + c) :
    mget (msets m' i (mgets m i c)) j = mget m j := by
  rw [mget_msets, length_mgets, if_pos ⟨hi, hj⟩, getD_mgets _ _ _ _ (by omega), Nat.add_sub_cancel' hi]

/-- A fresh copy of a line holds the line's bytes. -/
theorem mget_lineCopy {s : State} {line a : Nat} (h : a / 128 = line) :
    mget (msets [] (line * 128) (s.bytesAt (line * 128) 128)) a = mget s.mem a :=
  mget_msets_mgets s.mem [] (by omega) (by omega)

/-! ## A load -/

/-- A state that differs in the cores' copies and the timestamps alone. -/
def State.ReadsTo (s u : State) : Prop := ∃ cores ts, u = { s with dev := { s.dev with cores := cores, ts := ts } }

/-- A load within a line reads memory's bytes where the core's copies agree with them; they still do. -/
theorem State.loadMem_spec {s : State} {core pa n : Nat} (pts pol : Nat) (h : s.L1Agrees core) (hn : ∀ i < n, (pa + i) / 128 = pa / 128) :
    s.ReadsTo (s.loadMem core pts pa n pol).1 ∧ (s.loadMem core pts pa n pol).2.1 = mgets s.mem pa n ∧
      (s.loadMem core pts pa n pol).1.L1Agrees core := by
  unfold State.loadMem
  by_cases hpol : (pol = 1 || pol = 3) = true
  · rw [if_pos hpol]
    exact ⟨⟨_, _, rfl⟩, rfl, h⟩
  rw [if_neg hpol]
  cases hx : (s.core core).l1.find? (fun x => x.line == pa / 128 && decide (pts ≤ s.atFloor x.rts)) with
  | some x =>
    have hmem := List.mem_of_find?_eq_some hx
    have hline : x.line = pa / 128 := by
      have := List.find?_some hx
      simp only [Bool.and_eq_true, beq_iff_eq] at this
      exact this.1
    have hbytes : mgets x.data pa n = mgets s.mem pa n := mgets_congr fun i hi => h x hmem _ ((hn i hi).trans hline.symm)
    simp only [hx]
    by_cases h2 : pol = 2
    · simp only [h2, if_true]
      exact ⟨⟨_, _, rfl⟩, hbytes, h.useL1 (h x hmem)⟩
    · simp only [h2, if_false]
      exact ⟨⟨_, _, rfl⟩, hbytes, h⟩
  | none =>
    simp only [hx]
    have hload : (s.homeLoad pts pa n).1.L1Agrees core := h
    exact ⟨⟨_, _, rfl⟩, rfl, hload.useL1 fun a ha => mget_lineCopy ha⟩

/-- A load at the home. -/
theorem State.loadMem_home {s : State} {pol : Nat} (core pts pa n : Nat) (h : pol = 1 ∨ pol = 3) :
    s.loadMem core pts pa n pol = s.homeLoad pts pa n := by
  rcases h with rfl | rfl <;> rfl

section
variable {s : State} {r : Pending} {g : Group}

theorem State.perform_load {pa : Nat} {ext : LoadExt} {d pol : Nat} {comb : Mem} (hready : r.ready = false)
    (hearlier : s.earlier r.grp r.id = false) (hg : s.group? r.grp = some g) (hk : r.kind = .load (.mem pa) ext d pol comb) :
    s.perform r = ((s.loadMem g.core g.pts pa ext.size pol).1.raisePts r.grp (s.loadMem g.core g.pts pa ext.size pol).2.2).updPending r.id
      fun x => { x with ready := true, val := overlay pa (s.loadMem g.core g.pts pa ext.size pol).2.1 comb } := by
  simp only [State.perform, hready, hearlier, hg, hk, Bool.or_self, Bool.false_eq_true, if_false]

theorem State.perform_atom {pa : Nat} {op : AtomOp} {x c : BitVec 64} {d : Nat} (hready : r.ready = false)
    (hearlier : s.earlier r.grp r.id = false) (hg : s.group? r.grp = some g) (hk : r.kind = .atom (.mem pa) op x c d) :
    s.perform r = ((s.homeAtomic g.pts pa op x c).1.raisePts r.grp (s.homeAtomic g.pts pa op x c).2.2).updPending r.id
      fun y => { y with ready := true, val := bytesOfNat (s.homeAtomic g.pts pa op x c).2.1.toNat op.size } := by
  simp only [State.perform, hready, hearlier, hg, hk, Bool.or_self, Bool.false_eq_true, if_false]

/-- One element of a `VMV`'s matrix read after those before it. -/
def State.readElem (core gid n : Nat) (comb : Mem) (acc : State × List Byte) (pa : Nat) : State × List Byte :=
  let x := acc.1.loadMem core (((acc.1.group? gid).map fun g => g.pts).getD 0) pa n 0
  (x.1.raisePts gid x.2.2, acc.2 ++ overlay pa x.2.1 comb)

theorem State.perform_vmv {fmt : VmvFmt} {pas : List Nat} {comb : Mem} {k n : Nat} {x : List Word} {d : Nat} (hready : r.ready = false)
    (hearlier : s.earlier r.grp r.id = false) (hg : s.group? r.grp = some g) (hk : r.kind = .vmv fmt pas comb k n x d) :
    s.perform r = ((pas.foldl (State.readElem g.core r.grp fmt.size comb) (s, [])).1).updPending r.id
      fun y => { y with ready := true, val := (pas.foldl (State.readElem g.core r.grp fmt.size comb) (s, [])).2 } := by
  simp only [State.perform, hready, hearlier, hg, hk, Bool.or_self, Bool.false_eq_true, if_false]
  rfl

end

/-- Timestamps raised one after the other. -/
theorem State.raisePts_raisePts (s : State) (gid p q : Nat) : (s.raisePts gid p).raisePts gid q = s.raisePts gid (max p q) := by
  have hgroups : updIf (fun g : Group => g.id == gid) (fun g => { g with pts := max g.pts q })
      (updIf (fun g => g.id == gid) (fun g => { g with pts := max g.pts p }) s.dev.groups) =
      updIf (fun g => g.id == gid) (fun g => { g with pts := max g.pts (max p q) }) s.dev.groups := by
    refine (updIf_updIf (q := fun g : Group => g.id == gid) (G := fun g => { g with pts := max g.pts p }) (fun _ h => h) s.dev.groups).trans ?_
    simp only [Nat.max_assoc]
  unfold State.raisePts State.updGroup
  simp only [hgroups]

theorem State.raisePts_zero (s : State) (gid : Nat) : s.raisePts gid 0 = s := by
  have hgroups : updIf (fun g : Group => g.id == gid) (fun g => { g with pts := max g.pts 0 }) s.dev.groups = s.dev.groups := by
    simp [updIf]
  unfold State.raisePts State.updGroup
  simp only [hgroups]

/-- The elements of a `VMV` are memory's bytes, each with the gathered ones in their place, where the core's copies agree. -/
theorem State.readElems_spec {s : State} {core gid n : Nat} {comb : Mem} (pas : List Nat)
    (hn : ∀ pa ∈ pas, ∀ i < n, (pa + i) / 128 = pa / 128) (acc : State × List Byte)
    (hacc : ∃ u p, s.ReadsTo u ∧ acc.1 = u.raisePts gid p) (hag : acc.1.L1Agrees core) :
    ∃ u p, s.ReadsTo u ∧ (pas.foldl (State.readElem core gid n comb) acc).1 = u.raisePts gid p ∧
      (pas.foldl (State.readElem core gid n comb) acc).2 = acc.2 ++ (pas.map fun pa => seenBytes comb s.mem pa n).flatten := by
  induction pas generalizing acc with
  | nil =>
    obtain ⟨u, p, hu, hacc⟩ := hacc
    exact ⟨u, p, hu, hacc, by simp⟩
  | cons pa pas ih =>
    obtain ⟨u, p, ⟨cores, ts, hu⟩, hacc⟩ := hacc
    obtain ⟨⟨cores', ts', hto⟩, hbytes, hag'⟩ :=
      State.loadMem_spec (((acc.1.group? gid).map fun g => g.pts).getD 0) 0 hag (hn pa List.mem_cons_self)
    have hmem : acc.1.mem = s.mem := by rw [hacc, hu]; rfl
    obtain ⟨u', p', hu', h1, h2⟩ := ih (fun x hx => hn x (List.mem_cons_of_mem _ hx)) (State.readElem core gid n comb acc pa)
      ⟨{ s with dev := { s.dev with cores := cores', ts := ts' } }, _, ⟨_, _, rfl⟩, by
        show State.raisePts _ gid _ = _
        rw [hto, hacc, hu]
        exact State.raisePts_raisePts { s with dev := { s.dev with cores := cores', ts := ts' } } gid p _⟩ hag'
    refine ⟨u', p', hu', h1, h2.trans ?_⟩
    show (acc.2 ++ overlay pa _ comb) ++ _ = _
    rw [hbytes, overlay_mgets, hmem, List.map_cons, List.flatten_cons, List.append_assoc]

end Sys2Proof.Machine
end

section
/-! What the words of a returned access are (R305, R308 to R311). -/

namespace Sys2Proof.Machine

/-! ## Alignment -/

/-- An aligned access lies within a line. -/
theorem line_of_aligned {n pa i : Nat} (hn : n ∣ 128) (hp : pa % n = 0) (hi : i < n) : (pa + i) / 128 = pa / 128 := by
  obtain ⟨k, hk⟩ := hn
  have hq : (pa + i) / n = pa / n := by
    rw [← Nat.div_add_mod pa n, hp, Nat.add_zero, Nat.mul_add_div (by omega), Nat.div_eq_of_lt hi, Nat.mul_div_cancel_left _ (by omega), Nat.add_zero]
  rw [hk, ← Nat.div_div_eq_div_mul, ← Nat.div_div_eq_div_mul, hq]

/-! ## Atomics -/

/-- The two words of a 64-bit value, the low one first. -/
def wordPair (z : BitVec 64) : List Word := [z.extractLsb' 0 32, z.extractLsb' 32 32]

theorem ofNat_toNat_mod (z : BitVec 64) : BitVec.ofNat 32 z.toNat = z.extractLsb' 0 32 :=
  BitVec.eq_of_toNat_eq (by simp)

theorem ofNat_toNat_div (z : BitVec 64) : BitVec.ofNat 32 (z.toNat / 2 ^ 32) = z.extractLsb' 32 32 :=
  BitVec.eq_of_toNat_eq (by simp [Nat.shiftRight_eq_div_pow])

theorem ofInt_min_toInt (x y : Word) : BitVec.ofInt 32 (min x.toInt y.toInt) = if x.toInt ≤ y.toInt then x else y := by
  rw [min_def]
  split <;> exact BitVec.ofInt_toInt

theorem ofInt_max_toInt (x y : Word) : BitVec.ofInt 32 (max x.toInt y.toInt) = if x.toInt ≤ y.toInt then y else x := by
  rw [max_def]
  split <;> exact BitVec.ofInt_toInt

theorem ofNat_min_toNat (x y : Word) : BitVec.ofNat 32 (min x.toNat y.toNat) = if x.toNat ≤ y.toNat then x else y := by
  rw [min_def]
  split <;> rw [BitVec.ofNat_toNat, BitVec.setWidth_eq]

theorem ofNat_max_toNat (x y : Word) : BitVec.ofNat 32 (max x.toNat y.toNat) = if x.toNat ≤ y.toNat then y else x := by
  rw [max_def]
  split <;> rw [BitVec.ofNat_toNat, BitVec.setWidth_eq]

/-- The new words of an atomic on the word `o`, or on the pair of words `o2` (R308). -/
def atomNew (o : Word) (o2 x c : BitVec 64) : List (AtomOp × List Word) :=
  let y : Word := x.setWidth 32
  [(.addS32, [o + y]), (.addF32, [roundF32 0#2 (exAdd 0#2 (fp32.decode o.toNat) (fp32.decode y.toNat)).1]),
    (.minS32, [BitVec.ofInt 32 (min o.toInt y.toInt)]), (.minN32, [BitVec.ofNat 32 (min o.toNat y.toNat)]),
    (.maxS32, [BitVec.ofInt 32 (max o.toInt y.toInt)]), (.maxN32, [BitVec.ofNat 32 (max o.toNat y.toNat)]),
    (.and32, [o &&& y]), (.or32, [o ||| y]), (.xor32, [o ^^^ y]), (.exch32, [y]), (.cas32, [if o = c.setWidth 32 then y else o]),
    (.addS64, wordPair (o2 + x)), (.exch64, wordPair x), (.cas64, wordPair (if o2 = c then x else o2))]

/-- The new words of an atomic are those of what it applies to the value that it finds. -/
theorem AtomOp.apply_eq {op : AtomOp} {new : List Word} {o : Word} {o2 x c : BitVec 64} (h : (op, new) ∈ atomNew o o2 x c) :
    (op.size = 4 ∧ ∃ w : Word, new = [w] ∧ op.apply (o.setWidth 64) x c = w.setWidth 64) ∨
      (op.size = 8 ∧ new = wordPair (op.apply o2 x c)) := by
  have ho : (o.setWidth 64).extractLsb' 0 32 = o := BitVec.eq_of_toNat_eq (by simpa using o.isLt)
  have hlow : ∀ z : BitVec 64, z.extractLsb' 0 32 = z.setWidth 32 := fun z => BitVec.eq_of_toNat_eq (by simp)
  simp only [atomNew, List.mem_cons, Prod.mk.injEq, List.not_mem_nil, or_false] at h
  rcases h with ⟨rfl, rfl⟩ | ⟨rfl, rfl⟩ | ⟨rfl, rfl⟩ | ⟨rfl, rfl⟩ | ⟨rfl, rfl⟩ | ⟨rfl, rfl⟩ | ⟨rfl, rfl⟩ | ⟨rfl, rfl⟩ | ⟨rfl, rfl⟩ |
    ⟨rfl, rfl⟩ | ⟨rfl, rfl⟩ | ⟨rfl, rfl⟩ | ⟨rfl, rfl⟩ | ⟨rfl, rfl⟩
  iterate 11
    refine .inl ⟨rfl, _, rfl, ?_⟩
    simp only [AtomOp.apply, ho, hlow, ofInt_min_toInt, ofInt_max_toInt, ofNat_min_toNat, ofNat_max_toNat, val32]
  all_goals exact .inr ⟨rfl, rfl⟩

theorem mgets_eq_seenBytes (m : Mem) (a n : Nat) : mgets m a n = seenBytes [] m a n := by
  induction n generalizing a with
  | zero => rfl
  | succ n ih =>
    rw [Nat.add_comm n 1, seenBytes_add, ← ih, Nat.add_comm 1 n]
    rfl

/-- The words of two words' 64-bit value. -/
theorem wordPair_append (x y : Word) : wordPair (x ++ y) = [y, x] := by
  have hlo : (x ++ y : BitVec 64).extractLsb' 0 32 = y := BitVec.eq_of_toNat_eq (by
    rw [BitVec.extractLsb'_toNat, toNat_append_bits]
    omega)
  have hhi : (x ++ y : BitVec 64).extractLsb' 32 32 = x := BitVec.eq_of_toNat_eq (by
    rw [BitVec.extractLsb'_toNat, toNat_append_bits, Nat.shiftRight_eq_div_pow]
    omega)
  rw [wordPair, hlo, hhi]

theorem bytesOf_wordPair (z : BitVec 64) : bytesOf (wordPair z) = bytesOfNat z.toNat 8 := by
  have hlo : bytesOfNat (z.extractLsb' 0 32).toNat 4 = bytesOfNat z.toNat 4 := by
    rw [BitVec.extractLsb'_toNat]
    exact bytesOfNat_mod z.toNat 4
  have hhi : bytesOfNat (z.extractLsb' 32 32).toNat 4 = bytesOfNat (z.toNat / 256 ^ 4) 4 := by
    rw [BitVec.extractLsb'_toNat, Nat.shiftRight_eq_div_pow]
    exact bytesOfNat_mod (z.toNat / 256 ^ 4) 4
  show bytesOfNat _ 4 ++ (bytesOfNat _ 4 ++ []) = _
  rw [hlo, hhi, List.append_nil, ← bytesOfNat_add]

/-- The words of a 64-bit value's bytes. -/
theorem wordsOf_toNat (z : BitVec 64) : wordsOf (bytesOfNat z.toNat 8) = wordPair z := by
  rw [wordsOf_bytesOfNat_eight, ofNat_toNat_mod, ofNat_toNat_div]
  rfl

theorem toNat_setWidth64 (w : Word) : (w.setWidth 64).toNat = w.toNat := by
  rw [BitVec.toNat_setWidth]
  omega

section
variable {s : State} {pa : Nat} {op : AtomOp}

theorem State.natAt_eq (n : Nat) : s.natAt pa n = natOfBytes (seenBytes [] s.mem pa n) :=
  congrArg natOfBytes (mgets_eq_seenBytes s.mem pa n)

theorem State.homeAtomic_store {pts : Nat} {x c old : BitVec 64} {data : List Byte} (hold : (s.homeAtomic pts pa op x c).2.1 = old)
    (hdata : bytesOfNat (op.apply old x c).toNat op.size = data) :
    (s.homeAtomic pts pa op x c).1 = (s.homeStore pts pa data).1 ∧ (s.homeAtomic pts pa op x c).2.2 = (s.homeStore pts pa data).2 := by
  rw [← hdata, ← hold]
  exact ⟨rfl, rfl⟩

/-- What an atomic finds: the words that it returns, and the bytes that it stores. -/
theorem State.homeAtomic_spec {new : List Word} {x c : BitVec 64} (pts : Nat)
    (h : (op, new) ∈ atomNew (seenWord [] s.mem pa) (seenWord [] s.mem (pa + 4) ++ seenWord [] s.mem pa) x c) :
    ((s.homeAtomic pts pa op x c).1 = (s.homeStore pts pa (bytesOf new)).1 ∧ (s.homeAtomic pts pa op x c).2.2 = (s.homeStore pts pa (bytesOf new)).2) ∧
      wordsOf (bytesOfNat (s.homeAtomic pts pa op x c).2.1.toNat op.size) =
        if new.length = 2 then wordPair (seenWord [] s.mem (pa + 4) ++ seenWord [] s.mem pa) else [seenWord [] s.mem pa] := by
  rcases AtomOp.apply_eq h with ⟨hsize, w, rfl, happly⟩ | ⟨hsize, hnew⟩
  · have hold : (s.homeAtomic pts pa op x c).2.1 = (seenWord [] s.mem pa).setWidth 64 := by
      rw [State.homeAtomic_old, hsize, State.natAt_eq, natOfBytes_seen_four]
      exact BitVec.ofNat_toNat ..
    refine ⟨State.homeAtomic_store hold ?_, ?_⟩
    · rw [happly, hsize, toNat_setWidth64]
      exact (List.append_nil _).symm
    · rw [hold, hsize, wordsOf_bytesOfNat_four, if_neg (by simp), toNat_setWidth64, BitVec.ofNat_toNat, BitVec.setWidth_eq]
  · have hold : (s.homeAtomic pts pa op x c).2.1 = seenWord [] s.mem (pa + 4) ++ seenWord [] s.mem pa := by
      rw [State.homeAtomic_old, hsize, State.natAt_eq, show 8 = 4 + 4 from rfl, seenBytes_add, natOfBytes_append, natOfBytes_seen_four, natOfBytes_seen_four,
        length_seenBytes]
      refine BitVec.eq_of_toNat_eq ?_
      rw [toNat_append_bits, BitVec.toNat_ofNat]
      omega
    refine ⟨State.homeAtomic_store hold ?_, ?_⟩
    · rw [hsize, hnew, bytesOf_wordPair]
    · rw [hold, hsize, wordsOf_toNat, if_pos (by rw [hnew]; rfl)]

end

/-! ## `VMV` -/

/-- A piece of pieces of one length, put together. -/
theorem take_drop_flatten {α : Type} {e : Nat} (ls : List (List α)) (h : ∀ l ∈ ls, l.length = e) (j : Nat) :
    (ls.flatten.drop (e * j)).take e = ls.getD j [] := by
  induction ls generalizing j with
  | nil => simp
  | cons l ls ih =>
    have hl : l.length = e := h l List.mem_cons_self
    cases j with
    | zero => simp [← hl]
    | succ j =>
      rw [List.flatten_cons, Nat.mul_succ, Nat.add_comm, ← List.drop_drop, ← hl, List.drop_left, hl, ih fun l' hl' => h l' (List.mem_cons_of_mem _ hl')]
      rfl

theorem zip_map_range {α β : Type} (xs : List α) (x : α) (f : Nat → β) :
    xs.zip ((List.range xs.length).map f) = (List.range xs.length).map fun i => (xs.getD i x, f i) := by
  refine List.ext_getElem (by simp) fun i h1 h2 => ?_
  simp at h1
  simp [h1]

end Sys2Proof.Machine
end

section
/-! The columns of a `VMV` from its elements (R310, R311), and the return of each kind of access (O18). -/

namespace Sys2Proof.Machine

/-! ## The columns of a `VMV` -/

/-- One step of column `j` from the elements (R311). -/
def vmvStep (X : List Word) (elem : Nat → Ex) (N j : Nat) (acc : Word × FFlags) (i : Nat) : Word × FFlags :=
  let q := exFma 0#2 (fp32.decode (X.getD i 0#32).toNat) (elem (i * N + j)) (fp32.decode acc.1.toNat)
  let w := fp32.result 0#2 false q.1
  (BitVec.ofNat 32 w.1, acc.2 ||| q.2 ||| w.2)

def vmvCol (X : List Word) (elem : Nat → Ex) (K N j : Nat) : Word × FFlags := (List.range K).foldl (vmvStep X elem N j) (0#32, 0#6)

theorem foldl_range_congr {α : Type} {f g : α → Nat → α} (n : Nat) (a : α) (h : ∀ b, ∀ i < n, f b i = g b i) :
    (List.range n).foldl f a = (List.range n).foldl g a :=
  List.foldl_ext _ _ a fun b i hi => h b i (List.mem_range.mp hi)

theorem vmvColumn_eq {X : List Word} {K N j : Nat} {elem at_ : Nat → Ex} (hX : X.length = K) (h : ∀ i < K, at_ i = elem (i * N + j)) :
    vmvColumn X ((List.range K).map at_) = vmvCol X elem K N j := by
  subst hX
  unfold vmvColumn vmvCol
  rw [zip_map_range X 0#32, List.foldl_map]
  refine foldl_range_congr _ _ fun acc i hi => ?_
  rw [h i hi]
  rfl

/-- The element that a format makes of the bytes that a core sees (R310). -/
theorem vmvElem_seen {fmt : VmvFmt} {e : Nat} (comb m : Mem) (a : Nat) (h : (fmt, e) ∈ [(VmvFmt.k8, 1), (.bf16, 2), (.f32, 4)]) :
    fmt.size = e ∧ vmvElem fmt (natOfBytes (seenBytes comb m a e)) = if fmt = .k8 then decodeK8 (seenByte comb m a).toNat
      else if fmt = .bf16 then bf16.decode (seenHalf comb m a).toNat else fp32.decode (seenWord comb m a).toNat := by
  simp only [List.mem_cons, Prod.mk.injEq, List.not_mem_nil, or_false] at h
  rcases h with ⟨rfl, rfl⟩ | ⟨rfl, rfl⟩ | ⟨rfl, rfl⟩
  · exact ⟨rfl, congrArg decodeK8 (natOfBytes_seen_one comb m a)⟩
  · exact ⟨rfl, congrArg bf16.decode (natOfBytes_seen_two comb m a)⟩
  · exact ⟨rfl, congrArg fp32.decode (natOfBytes_seen_four comb m a)⟩

/-- The columns of a matrix whose elements lie one after the other in the bytes read. -/
theorem vmvWords_seen {fmt : VmvFmt} {comb m : Mem} {pas : List Nat} {K N : Nat} {X : List Word} {elem : Nat → Ex} (hpas : pas.length = K * N)
    (hX : X.length = K) (h : ∀ j < K * N, elem j = vmvElem fmt (natOfBytes (seenBytes comb m (pas.getD j 0) fmt.size))) :
    vmvWords fmt K N X (pas.map fun pa => seenBytes comb m pa fmt.size).flatten =
      ((List.range N).map fun j => (vmvCol X elem K N j).1, (List.range N).foldl (fun fl j => fl ||| (vmvCol X elem K N j).2) 0#6) := by
  have hpiece : ∀ j < K * N, (((pas.map fun pa => seenBytes comb m pa fmt.size).flatten.drop (fmt.size * j)).take fmt.size) =
      seenBytes comb m (pas.getD j 0) fmt.size := fun j hj => by
    rw [take_drop_flatten _ (fun l hl => ?_)]
    · simp [hpas ▸ hj]
    · obtain ⟨pa, -, rfl⟩ := List.mem_map.mp hl
      exact length_seenBytes ..
  have hcol : ∀ j ∈ List.range N, vmvColumn X ((List.range K).map fun i =>
      vmvElem fmt (natOfBytes (((pas.map fun pa => seenBytes comb m pa fmt.size).flatten.drop (fmt.size * (i * N + j))).take fmt.size))) =
      vmvCol X elem K N j := fun j hj => by
    refine vmvColumn_eq hX fun i hi => ?_
    have hij : i * N + j < K * N := by
      have hle : (i + 1) * N ≤ K * N := Nat.mul_le_mul_right N hi
      have hj := List.mem_range.mp hj
      rw [Nat.succ_mul] at hle
      omega
    rw [hpiece _ hij, h _ hij]
  unfold vmvWords
  simp only [List.map_map, List.foldl_map, List.map_congr_left hcol]
  rfl

/-! ## The return of each kind of access -/

/-- A result of the group `g` that is performed as it returns: no earlier access of the group is outstanding. -/
structure State.Returning (s : State) (g : Group) (r : Pending) : Prop where
  pending : s.pending? r.id = some r
  group : s.group? r.grp = some g
  team : ∃ tm, s.team? g.team = some tm ∧ tm.st ≠ .saved
  ready : r.ready = false
  fault : r.fault = none
  earlier : s.earlier r.grp r.id = false

/-- The result returns from `s1`, where its access has been performed, with the timestamp `p` and the words `ws` (R36, R305). -/
def State.ReturnsAs (s : State) (g : Group) (r : Pending) (s1 : State) (p d : Nat) (ws : List Word) (fl : FFlags) : Prop :=
  exec (.resultReturn r.id) s =
    .next ((((s1.updGroup r.grp fun g => (wrN { g with pts := max g.pts p } r.thread (.v (BitVec.ofNat 6 d)) ws).updThread r.thread
      fun x => { x with fpflags := x.fpflags ||| fl }).dropResult r).endEng r.id).checkBars g)

section
variable {s : State} {g : Group} {r : Pending} {d : Nat} {ws : List Word}

theorem State.Returning.returnsAs {s1 : State} {p : Nat} {fl : FFlags} {v : List Byte} (h : s.Returning g r) (hmem : r.kind.isMem = true)
    (hperf : s.perform r = (s1.raisePts r.grp p).updPending r.id fun x => { x with ready := true, val := v })
    (hres : s1.dev.results = s.dev.results) (hw : ({ r with ready := true, val := v } : Pending).writes = ([(.v (BitVec.ofNat 6 d), ws)], fl)) :
    s.ReturnsAs g r s1 p d ws fl := by
  obtain ⟨tm, htm, hst⟩ := h.team
  exact State.exec_return h.pending h.group htm hst h.fault hmem hperf hres hw

/-- A load's return (R305). -/
theorem State.Returning.load {pa pol n : Nat} {ext : LoadExt} {comb : Mem} (h : s.Returning g r) (hk : r.kind = .load (.mem pa) ext d pol comb)
    (hsize : ext.size = n) (hn : n ∣ 128) (hpa : pa % n = 0) (hag : s.L1Agrees g.core) :
    ∃ cores ts p, (pol = 1 ∨ pol = 3 → ({ s with dev := { s.dev with cores := cores, ts := ts } } : State) = (s.homeLoad g.pts pa n).1 ∧
      p = (s.homeLoad g.pts pa n).2.2) ∧
      s.ReturnsAs g r { s with dev := { s.dev with cores := cores, ts := ts } } p d (ext.words (seenBytes comb s.mem pa n)) 0#6 := by
  obtain ⟨⟨cores, ts, hs1⟩, hbytes, -⟩ := State.loadMem_spec g.pts pol hag fun i hi => line_of_aligned hn hpa hi
  have hperf := State.perform_load h.ready h.earlier h.group hk
  rw [hsize, hbytes, overlay_mgets, hs1] at hperf
  refine ⟨cores, ts, _, fun hpol => ?_, h.returnsAs (by rw [hk]; rfl) hperf rfl (by simp only [Pending.writes, hk])⟩
  rw [← hs1, State.loadMem_home _ _ _ _ hpol]
  exact ⟨rfl, rfl⟩

/-- An atomic's return (R308, R309). -/
theorem State.Returning.atom {pa : Nat} {op : AtomOp} {x c : BitVec 64} {new : List Word} (h : s.Returning g r)
    (hk : r.kind = .atom (.mem pa) op x c d)
    (hnew : (op, new) ∈ atomNew (seenWord [] s.mem pa) (seenWord [] s.mem (pa + 4) ++ seenWord [] s.mem pa) x c) :
    s.ReturnsAs g r (s.homeStore g.pts pa (bytesOf new)).1 (s.homeStore g.pts pa (bytesOf new)).2 d
      (if new.length = 2 then wordPair (seenWord [] s.mem (pa + 4) ++ seenWord [] s.mem pa) else [seenWord [] s.mem pa]) 0#6 := by
  obtain ⟨⟨hs1, hp⟩, hwords⟩ := State.homeAtomic_spec g.pts hnew
  have hperf := State.perform_atom h.ready h.earlier h.group hk
  rw [hs1, hp] at hperf
  exact h.returnsAs (by rw [hk]; rfl) hperf rfl (by simp only [Pending.writes, hk, hwords])

/-- A `VMV`'s return (R310, R311). -/
theorem State.Returning.vmv {fmt : VmvFmt} {e K N : Nat} {pas : List Nat} {comb : Mem} {X : List Word} {elem : Nat → Ex} (h : s.Returning g r)
    (hk : r.kind = .vmv fmt pas comb K N X d) (hpas : pas.length = K * N) (hX : X.length = K) (hag : s.L1Agrees g.core)
    (hpa : ∀ a ∈ pas, a % e = 0) (he : fmt.size = e) (hn : e ∣ 128)
    (helem : ∀ j < K * N, elem j = vmvElem fmt (natOfBytes (seenBytes comb s.mem (pas.getD j 0) e))) :
    ∃ cores ts p, s.ReturnsAs g r { s with dev := { s.dev with cores := cores, ts := ts } } p d
      ((List.range N).map fun j => (vmvCol X elem K N j).1) ((List.range N).foldl (fun fl j => fl ||| (vmvCol X elem K N j).2) 0#6) := by
  subst he
  obtain ⟨u, p, ⟨cores, ts, rfl⟩, hstate, hval⟩ := State.readElems_spec (s := s) (gid := r.grp) (comb := comb) pas
    (fun pa hp i hi => line_of_aligned hn (hpa pa hp) hi) (s, []) ⟨s, 0, ⟨_, _, rfl⟩, (s.raisePts_zero r.grp).symm⟩ hag
  have hperf := State.perform_vmv h.ready h.earlier h.group hk
  rw [hstate, hval, List.nil_append] at hperf
  exact ⟨cores, ts, p, h.returnsAs (by rw [hk]; rfl) hperf rfl (by simp only [Pending.writes, hk, vmvWords_seen hpas hX helem])⟩

end

/-- The sizes of loads divide a line. -/
theorem LoadExt.size_dvd (ext : LoadExt) : ext.size ∣ 128 := by cases ext <;> decide

theorem VmvFmt.size_dvd (f : VmvFmt) : f.size ∣ 128 := by cases f <;> decide

/-- Settles O18: what `perform` leaves for each kind of access, delivered; and the laws of the home. -/
theorem accessCompletion : Obligations.AccessCompletion := by
  refine ⟨fun s g th r tm hr hg _ htm hst hready hf hsq hres => ?_, State.home_spec⟩
  have h : s.Returning g r := ⟨hr, hg, ⟨tm, htm, hst⟩, hready, hf, State.earlier_false hg hsq hres⟩
  refine ⟨fun pa ext d pol comb n ws hk hws hpa hag => ?_, fun pa op x c d new hk hnew => h.atom hk hnew,
    fun fmt e pas comb K N X d elem hk hpas hX hag hpa hfe helem => ?_⟩
  · obtain ⟨hsize, rfl⟩ := loadWords_eq comb s.mem pa hws
    exact h.load hk hsize (hsize ▸ ext.size_dvd) hpa hag
  · have hsize := (vmvElem_seen comb s.mem 0 hfe).1
    obtain ⟨cores, ts, p, hret⟩ := h.vmv hk hpas hX hag hpa hsize (hsize ▸ fmt.size_dvd) fun j hj =>
      (helem j hj).trans (vmvElem_seen comb s.mem _ hfe).2.symm
    exact ⟨cores, ts, p, trivial, hret⟩

end Sys2Proof.Machine
end

section
/-! The elements of a collective's DST (R90, R423). -/

namespace Sys2Proof.Machine

/-! ## Sums in ascending rank -/

/-- A sum begins with its first value, or the canonical NaN of its format (R90). -/
theorem collFirst_eq (typ a : Nat) : collFirst typ a =
    if typ = 0 ∧ fp32.decode a = .nan then 0x7FC00000 else if typ = 1 ∧ bf16.decode a = .nan then 0x7FC0 else a := by
  have hfp32 : fp32.nan = 0x7FC00000 := rfl
  have hbf16 : bf16.nan = 0x7FC0 := rfl
  by_cases h0 : typ = 0
  · subst h0
    cases hd : fp32.decode a <;> simp [collFirst, hd, hfp32]
  · by_cases h1 : typ = 1
    · subst h1
      cases hd : bf16.decode a <;> simp [collFirst, hd, hbf16]
    · simp [collFirst, h0, h1]

/-- Values that have all come are combined one rounding a step. -/
theorem collSum_some (typ x : Nat) (l : List Nat) :
    collSum typ ((x :: l).map some) = some (l.foldl (collAdd typ) (collFirst typ x)) := by
  induction l using List.reverseRecOn with
  | nil => rfl
  | append_singleton l y ih =>
    simp only [collSum, List.map_cons, List.map_append, List.foldl_append] at ih ⊢
    rw [ih]
    rfl

/-- The sum of one value of each participant, in ascending rank. -/
def Coll.total (c : Coll) (y : Nat → Nat) : Nat :=
  (List.range (c.npart - 1)).foldl (fun a r => collAdd (fld c.desc 1 1) a (y (r + 1))) (collFirst (fld c.desc 1 1) (y 0))

section
variable {c : Coll}

/-- Element `j` summed over the participants, where each one's has come. -/
theorem Coll.collSum_elem {y : Nat → Nat} {j : Nat} (hpart : 1 ≤ c.npart) (h : ∀ r < c.npart, c.elem r j = some (y r)) :
    collSum (fld c.desc 1 1) ((List.range c.npart).map fun r => c.elem r j) = some (c.total y) := by
  obtain ⟨n, hn⟩ := Nat.exists_eq_add_of_le' hpart
  have hcome : (List.range c.npart).map (fun r => c.elem r j) = (y 0 :: (List.range n).map fun r => y (r + 1)).map some := by
    rw [List.map_congr_left (g := fun r => some (y r)) fun r hr => h r (List.mem_range.mp hr), hn, List.range_succ_eq_map]
    simp [Function.comp_def]
  rw [hcome, collSum_some, List.foldl_map, Coll.total, hn, Nat.add_sub_cancel]

/-! ## The elements by operation

Each lemma asks for the elements that the one of DST is made of, and for no others to have come. -/

/-- All-reduce: element `i` summed. -/
theorem Coll.dst_allReduce {y : Nat → Nat} {i : Nat} (hop : c.op = 0) (hpart : 1 ≤ c.npart) (h : ∀ r < c.npart, c.elem r i = some (y r)) :
    c.dst i = some (c.total y) := by
  simp only [Coll.dst, hop, c.collSum_elem hpart h]

/-- All-gather: the participants' elements one after another. -/
theorem Coll.dst_allGather {i : Nat} (hop : c.op = 1) : c.dst i = c.elem (i / c.count) (i % c.count) := by
  simp only [Coll.dst, hop]

/-- Reduce-scatter: the sum of the part of this device's rank. -/
theorem Coll.dst_reduceScatter {y : Nat → Nat} {i : Nat} (hop : c.op = 2) (hpart : 1 ≤ c.npart)
    (h : ∀ r < c.npart, c.elem r (c.rank * c.count + i) = some (y r)) : c.dst i = some (c.total y) := by
  simp only [Coll.dst, hop, c.collSum_elem hpart h]

/-- Broadcast: the root's element. -/
theorem Coll.dst_broadcast {i : Nat} (hop : c.op = 3) : c.dst i = c.elem c.root i := by
  simp only [Coll.dst, hop]

end

end Sys2Proof.Machine
end

section
/-! The instructions `COLL` and `CWAIT` (R422, R424). -/

namespace Sys2Proof.Machine

section
variable {s : State} {st : Stream} {g : Group} {k : Nat} {th : Thread}

/-- An access that a unit makes for a thread goes on with its leaf where it finds one (R268). -/
theorem State.unitAccess_finds {a : BitVec 64} {align : Nat} {e : TlbEntry} (h : s.Finds g a.toNat align e) :
    s.unitAccess g k a.toNat align .table = .ok s e (e.pa a.toNat) := by
  obtain ⟨hhi, halign, htrans, htyp, hread⟩ := h
  have hok : Access.table.ok e = true := by simp [Access.ok, Access.table, htyp, hread]
  simp only [State.unitAccess, if_neg (Nat.not_le.mpr hhi), halign, ne_eq, not_true_eq_false, if_false, State.accessPage,
    State.translate_hit htrans, hok, Bool.not_true, Bool.false_eq_true]
  rfl

theorem State.hasRoom_eq (hg : s.group? st.grp = some g) (n : Nat) : s.hasRoom st.grp n = decide (g.sb.getD n 0 < 255) := by
  simp only [State.hasRoom, hg]
  rfl

variable (h : s.IssuesOne st g k th)
include h

/-- `COLL` waits for its group's accesses (R301) and for room in its token. -/
theorem exec_coll_stops {n : GReg} {sb : BitVec 3} (hwait : ¬ (s.memSettled g = true ∧ g.sb.getD sb.toNat 0 < 255)) :
    s.StopsAt (.coll n sb) st := by
  have hstop : (!s.memSettled g || !s.hasRoom st.grp sb.toNat) = true := by
    rw [State.hasRoom_eq h.1.2, ← Bool.not_and, Bool.not_eq_true', ← Bool.not_eq_true, Bool.and_eq_true, decide_eq_true_eq]
    exact hwait
  show execColl n sb s = _
  rw [execColl, State.perGroup_one h, if_pos hstop]
  rfl

/-- `COLL` begins its collective with the descriptor read at its home. -/
theorem exec_coll_begins {n : GReg} {sb : BitVec 3} {e : TlbEntry} (hset : s.memSettled g = true) (hroom : g.sb.getD sb.toNat 0 < 255)
    (hfind : s.Finds g (gPair g n).toNat 64 e) :
    let va := (gPair g n).toNat
    let b := mgets s.mem (e.pa va) 64
    let s1 := ((s.homeLoad g.pts (e.pa va) 64).1.raisePts st.grp (s.homeLoad g.pts (e.pa va) 64).2.2).addResult st.grp k
      (some sb.toNat) st.unit .token true
    exec (.coll n sb) s = .next (((s1.2.onDev fun d => { d with nextId := s.dev.nextId + 2 }).updLink fun l =>
      { l with colls := l.colls ++ [⟨s.dev.nextId + 1, g.ctx, g.core, s.dev.nextId, va, b, [], false, [], [], [], false, false,
        if collOk b then none else some (0x60#8, 0)⟩] }).advance st [k]) := by
  have hgo : ¬ (!s.memSettled g || !s.hasRoom st.grp sb.toNat) = true := by
    rw [State.hasRoom_eq h.1.2, hset, decide_eq_true hroom]
    decide
  show execColl n sb s = _
  rw [execColl, State.perGroup_one h, if_neg hgo, State.unitAccess_finds hfind]
  rfl

/-- `CWAIT` holds its group until the group's accesses have taken their places (R301). -/
theorem exec_cwait_unsettled {n : GReg} {d : Opnd} (hset : ¬ s.memSettled g = true) : exec (.cwait n d) s =
    .next ((s.updGroup st.grp fun x => { x with hold := some (.word (gPair g n).toNat (rd g th d)) }).advance st []) := by
  show execCwait n d s = _
  simp only [execCwait, State.perGroup_one h, h.2.2.1, Bool.eq_false_iff.mpr hset, Bool.not_false, if_true]
  rfl

/-- `CWAIT` loads the done word's low word at its home, and completes where that has reached the target. -/
theorem exec_cwait_loads {n : GReg} {d : Opnd} {e : TlbEntry} (hset : s.memSettled g = true) (hfind : s.Finds g (gPair g n).toNat 4 e) :
    let va := (gPair g n).toNat
    let r := s.homeLoad g.pts (e.pa va) 4
    exec (.cwait n d) s = .next (
      if (BitVec.ofNat 32 (natOfBytes (mgets s.mem (e.pa va) 4)) - rd g th d).toNat < 2 ^ 31 then (r.1.raisePts st.grp r.2.2).advance st [k]
      else (r.1.updGroup st.grp fun x => { x with hold := some (.word va (rd g th d)) }).advance st []) := by
  intro va r
  have hread : r.2.1 = mgets s.mem (e.pa va) 4 := rfl
  show execCwait n d s = _
  simp only [execCwait, State.perGroup_one h, h.2.2.1, hset, Bool.not_true, Bool.false_eq_true, if_false, State.unitAccess_finds hfind]
  show Host.Outcome.next ((if sealReached (BitVec.ofNat 32 (natOfBytes r.2.1)) (rd g th d) then _ else _ : SRes).settled st k) = _
  rw [hread, sealReached]
  by_cases hmet : (BitVec.ofNat 32 (natOfBytes (mgets s.mem (e.pa va) 4)) - rd g th d).toNat < 2 ^ 31
  · simp only [hmet, decide_true, if_true]
    rfl
  · simp only [hmet, decide_false, Bool.false_eq_true, if_false]
    rfl

end

end Sys2Proof.Machine
end

section
/-! The end of a collective (R423). -/

namespace Sys2Proof.Machine

theorem natOfBytes_lt (l : List Byte) : natOfBytes l < 256 ^ l.length := by
  induction l with
  | nil => decide
  | cons b r ih =>
    have hb : b.toNat < 256 := b.isLt
    simp only [natOfBytes, List.length_cons, Nat.pow_succ]
    omega

theorem fld_lt (b : List Byte) (off n : Nat) : fld b off n < 256 ^ n :=
  (natOfBytes_lt _).trans_le (Nat.pow_le_pow_right (by decide) (List.length_take_le ..))

/-- SEQ as a word is SEQ of the descriptor. -/
theorem Coll.seq_toNat (c : Coll) : c.seq.toNat = fld c.desc 0x0C 4 :=
  Nat.mod_eq_of_lt (fld_lt c.desc 0x0C 4)

section
variable {s s1 : State} {c : Coll}

/-- A collective whose DST is written and whose SRC has been read by every participant ends. -/
theorem State.collStep_done (hfail : c.fail = none) (hjoined : c.joined = true)
    (hothers : ∀ q ∈ c.others, (assoc c.descs q).isSome = true ∧ q ∈ c.readDone) (hagree : c.agree = true) (hsent : c.sent = true)
    (hwritten : c.written = true) : s.collStep c = s.collDone c := by
  have hdescs : (c.others.any fun r => (assoc c.descs r).isNone) = false :=
    List.any_eq_false.mpr fun q hq => by simp [Option.isSome_iff_ne_none.mp (hothers q hq).1]
  have hread : (c.others.any fun r => !c.readDone.contains r) = false :=
    List.any_eq_false.mpr fun q hq => by simp [(hothers q hq).2]
  simp only [State.collStep, hfail, hjoined, hdescs, hagree, hsent, hread, hwritten, Option.isSome_none, Bool.not_true,
    Bool.false_eq_true, if_false]

/-- The done word written, without FAIL, and the result made ready. -/
theorem State.collDone_ok {r : Pending} {e : TlbEntry} {t : Nat} (hfail : c.fail = none) (hr : s.pending? c.res = some r)
    (hw : s.engWrite none c.ctx c.id (fld c.desc 0x28 8) (bytesOfNat (fld c.desc 0x0C 4) 8) .unitWrite r.ts = (s1, .ok e, t)) :
    s.collDone c = (((s1.updPending c.res fun p => { p with ts := max p.ts t }).updLink fun l =>
      { l with colls := l.colls.filter fun x => x.id != c.id, peers := l.peers.map (Peer.collOver (fld c.desc 0x0C 4)) }).endEng
        c.id).resultReady c.res 0 := by
  have hword : c.seq.toNat + 2 ^ 32 * bn (none : Option (BitVec 8 × Nat)).isSome = fld c.desc 0x0C 4 := c.seq_toNat
  simp only [State.collDone, hfail, hword, hr, Option.map_some, Option.getD_some, hw]
  rfl

/-- The return of a collective's token, not yet ready, moves the collective on. -/
theorem exec_resultReturn_collective {g : Group} {r : Pending} (hr : s.pending? r.id = some r) (hg : s.group? r.grp = some g)
    (hk : r.kind = .token) (hc : (s.dev.link.colls.find? fun c => c.res == r.id) = some c) (hready : r.ready = false) :
    exec (.resultReturn r.id) s = .next (s.collStep c) := by
  show execResultReturn r.id s = _
  simp [execResultReturn, hr, State.returnResult, hg, hk, hready, hc]

end

/-- Settles O39: what the two instructions do on their one thread, DST's elements by operation, and the end of a collective whose
steps are all done. -/
theorem collectives : Obligations.Collectives := by
  refine ⟨fun s st g k th n d sb e h => ⟨exec_coll_stops h, fun hset hroom hfind => exec_coll_begins h hset hroom hfind,
    exec_cwait_unsettled h, fun hset hfind => ?_⟩, fun c x i hpart helem hroot => ?_,
    fun s s1 g r c e t hr hg hk hc hready hfail hjoined hothers hagree hsent hwritten hw => ?_⟩
  · have hload := exec_cwait_loads h (d := d) hset hfind
    exact ⟨fun hmet => hload.trans (congrArg _ (if_pos hmet)), fun hnot => hload.trans (congrArg _ (if_neg (Nat.not_lt.mpr hnot)))⟩
  · intro ty canon add sum
    have hsum : ∀ j, c.total (x · j) = sum j := fun j => by
      rw [Coll.total, collFirst_eq]
      rfl
    have hone : 1 ≤ c.npart := Nat.le_of_succ_le hpart
    refine ⟨fun hop => ?_, fun hop hi => ?_, fun hop => ?_, fun hop => ?_⟩
    · rw [← hsum, Coll.dst_allReduce hop hone fun r hr => helem r hr i]
    · rw [Coll.dst_allGather hop, helem _ (Nat.div_lt_of_lt_mul (Nat.mul_comm c.npart c.count ▸ hi))]
    · rw [← hsum, Coll.dst_reduceScatter hop hone fun r hr => helem r hr _]
    · rw [Coll.dst_broadcast hop, helem _ hroot]
  · have hres : c.res = r.id := by simpa using List.find?_some hc
    rw [exec_resultReturn_collective hr hg hk hc hready, State.collStep_done hfail hjoined hothers hagree hsent hwritten,
      State.collDone_ok hfail (hres ▸ hr) hw, hres]

end Sys2Proof.Machine
end

section
/-! What the device's own writes to its tables leave, and a context and its queues after they change (R92, R106). -/

namespace Sys2Proof.Machine

/-! ## Writes of the device's own -/

/-- From `s` to `t` the fuses stay and the device changes in the timestamps of its memory alone (memory itself may change). -/
def State.Stores (s t : State) : Prop := t.fuse = s.fuse ∧ ∃ ts, t.dev = { s.dev with ts := ts }

section
variable {s t u : State}

theorem State.Stores.refl (s : State) : s.Stores s := ⟨rfl, s.dev.ts, rfl⟩

theorem State.Stores.trans (h : s.Stores t) (h' : t.Stores u) : s.Stores u := by
  obtain ⟨hf, ts, hd⟩ := h
  obtain ⟨hf', ts', hd'⟩ := h'
  exact ⟨hf'.trans hf, ts', by rw [hd', hd]⟩

theorem State.Stores.put (h : s.Stores t) (pa : Nat) (data : List Byte) (pts : Nat := 0) : s.Stores (t.put pa data pts) := by
  refine h.trans ?_
  unfold State.put
  split
  · exact ⟨rfl, _, rfl⟩
  · exact .refl t

theorem State.Stores.foldl {α : Type} {f : State → α → State} (hf : ∀ (t : State) (a : α), t.Stores (f t a)) (l : List α) (h : s.Stores t) :
    s.Stores (l.foldl f t) := by
  induction l generalizing t with
  | nil => exact h
  | cons a r ih => exact ih (h.trans (hf t a))

theorem State.Stores.writeFault (h : s.Stores t) (ctx : Nat) : s.Stores (t.writeFault ctx) := by
  unfold State.writeFault
  split
  · exact h
  · exact h.put _ _

theorem State.Stores.writeStatus (h : s.Stores t) (ctx : Nat) : s.Stores (t.writeStatus ctx) := h.put _ _

theorem State.Stores.writeCount (h : s.Stores t) (ctx off n : Nat) : s.Stores (t.writeCount ctx off n) := h.put _ _

theorem State.Stores.ctxRegs (h : s.Stores t) : t.dev.ctxRegs = s.dev.ctxRegs := by
  obtain ⟨-, ts, hd⟩ := h
  rw [hd]

theorem State.Stores.ctx? (h : s.Stores t) (n : Nat) : t.ctx? n = s.ctx? n := by
  obtain ⟨-, ts, hd⟩ := h
  simp only [State.ctx?, hd]

theorem State.Stores.gen (h : s.Stores t) (n : Nat) : t.gen n = s.gen n := by
  obtain ⟨-, ts, hd⟩ := h
  simp only [State.gen, hd]

theorem State.Stores.inMem (h : s.Stores t) (pa n : Nat) : t.inMem pa n = s.inMem pa n := by
  unfold State.inMem State.memSize State.stacks
  rw [h.1]

theorem State.Stores.ctxState (h : s.Stores t) (n : Nat) : t.ctxState n = s.ctxState n := by
  simp only [State.ctxState, h.ctx?]

theorem State.Stores.queue? (h : s.Stores t) (n q : Nat) : t.queue? n q = s.queue? n q := by
  simp only [State.queue?, h.ctx?]
end

theorem mgets_msets_same {n : Nat} (m : List (Nat × BitVec n)) (i : Nat) (l : List (BitVec n)) : mgets (msets m i l) i l.length = l := by
  refine List.ext_getElem (length_mgets ..) fun k hk hl => ?_
  rw [← List.getD_eq_getElem (mgets (msets m i l) i l.length) 0#n hk, getD_mgets _ _ _ _ hl, mget_msets, if_pos (by omega),
    Nat.add_sub_cancel_left, List.getD_eq_getElem l 0#n hl]

/-- What the device writes within memory is what memory then holds. -/
theorem State.mgets_put (s : State) (pa : Nat) (data : List Byte) (h : s.inMem pa data.length = true) :
    mgets (s.put pa data).mem pa data.length = data := by
  rw [State.put_mem, if_pos h, mgets_msets_same]

/-! ## A context after it changes -/

section
variable {s : State} {ctx : Nat}

theorem State.ctxState_some {c : Ctx} (h : s.ctx? ctx = some c) : s.ctxState ctx = c.st := by
  simp only [State.ctxState, h, Option.map_some, Option.getD_some]

theorem State.ctxState_none (h : s.ctx? ctx = none) : s.ctxState ctx = .free := by
  simp only [State.ctxState, h, Option.map_none, Option.getD_none]

theorem State.ctx?_id {c : Ctx} (h : s.ctx? ctx = some c) : c.id = ctx := by
  simpa using List.find?_some h

theorem State.ctx?_updCtx (s : State) (ctx : Nat) (f : Ctx → Ctx) (hf : ∀ c, (f c).id = c.id) :
    (s.updCtx ctx f).ctx? ctx = (s.ctx? ctx).map f :=
  find?_updIf_same _ f (fun c hc => by simpa [hf] using hc) s.dev.ctxs

theorem State.ctx?_setCtxState (s : State) (ctx : Nat) (st : CtxState) :
    (s.setCtxState ctx st).ctx? ctx = (s.ctx? ctx).map fun c => { c with st := st } := by
  rw [State.setCtxState, ((State.Stores.refl _).writeStatus ctx).ctx?, State.ctx?_updCtx]
  exact fun _ => rfl

theorem State.ctxState_setCtxState {c : Ctx} (st : CtxState) (h : s.ctx? ctx = some c) : (s.setCtxState ctx st).ctxState ctx = st :=
  State.ctxState_some (c := { c with st := st }) (by rw [State.ctx?_setCtxState, h, Option.map_some])

/-- A state that a context enters, and the word STATUS that tells it (R92). -/
theorem State.setCtxState_eq {c : Ctx} (st : CtxState) (h : s.ctx? ctx = some c) : s.setCtxState ctx st =
    (s.updCtx ctx fun c => { c with st := st }).put (s.dev.ctxRegs.base + 256 * ctx) (bytesOfNat (st.code + 4096 * s.gen ctx) 4) := by
  have hst : (s.updCtx ctx fun c => { c with st := st }).ctxState ctx = st :=
    State.ctxState_some (c := { c with st := st }) (by rw [State.ctx?_updCtx _ _ _ (by exact fun _ => rfl), h, Option.map_some])
  rw [State.setCtxState, State.writeStatus, hst]
  rfl

/-! ## A queue after it changes -/

theorem Ctx.queue?_updQueue_same (c : Ctx) (q : Nat) (f : Queue → Queue) (hf : ∀ a, (f a).q = a.q) :
    (c.updQueue q f).queue? q = (c.queue? q).map f :=
  find?_updIf_same _ f (fun a ha => by simpa [hf] using ha) c.queues

theorem Ctx.queue?_updQueue_other (c : Ctx) {q n : Nat} (f : Queue → Queue) (hf : ∀ a, (f a).q = a.q) (h : n ≠ q) :
    (c.updQueue q f).queue? n = c.queue? n := by
  refine find?_updIf_other _ _ f (fun a ha => ?_) c.queues
  simp only [beq_iff_eq] at ha
  simp [hf, ha, Ne.symm h]

theorem State.queue?_updQueue (s : State) (ctx q n : Nat) (f : Queue → Queue) (hf : ∀ a, (f a).q = a.q) :
    (s.updQueue ctx q f).queue? ctx n = if n = q then (s.queue? ctx q).map f else s.queue? ctx n := by
  have hctx : (s.updQueue ctx q f).ctx? ctx = (s.ctx? ctx).map fun c => c.updQueue q f := State.ctx?_updCtx _ _ _ fun _ => rfl
  cases hc : s.ctx? ctx with
  | none => simp [State.queue?, hctx, hc]
  | some c =>
    split
    next h => simpa [State.queue?, hctx, hc, h] using c.queue?_updQueue_same q f hf
    next h => simpa [State.queue?, hctx, hc] using c.queue?_updQueue_other f hf h

theorem State.setQueue_none {q : Nat} (f : Queue → Queue) (h : s.queue? ctx q = none) : s.setQueue ctx q f = s := by
  simp only [State.setQueue, h]

/-- A queue that is there is changed, and its device-written fields are written. -/
theorem State.setQueue_stores {q : Nat} {a : Queue} (f : Queue → Queue) (h : s.queue? ctx q = some a) :
    (s.updQueue ctx q f).Stores (s.setQueue ctx q f) := by
  simp only [State.setQueue, h]
  refine (State.Stores.refl _).foldl (fun t ⟨⟨x, y⟩, i⟩ => ?_) _
  dsimp only
  split
  · exact .refl t
  · exact (State.Stores.refl t).put _ _

theorem State.queue?_setQueue (s : State) (ctx q n : Nat) (f : Queue → Queue) (hf : ∀ a, (f a).q = a.q) :
    (s.setQueue ctx q f).queue? ctx n = if n = q then (s.queue? ctx q).map f else s.queue? ctx n := by
  cases h : s.queue? ctx q with
  | none =>
    rw [State.setQueue_none f h]
    split
    next hn => rw [hn, h, Option.map_none]
    next => rfl
  | some a => rw [(State.setQueue_stores f h).queue?, State.queue?_updQueue _ _ _ _ _ hf, h]

theorem State.ctxState_setQueue (s : State) (ctx q : Nat) (f : Queue → Queue) : (s.setQueue ctx q f).ctxState ctx = s.ctxState ctx := by
  cases h : s.queue? ctx q with
  | none => rw [State.setQueue_none f h]
  | some a =>
    rw [(State.setQueue_stores f h).ctxState, State.updQueue, State.ctxState, State.ctx?_updCtx _ _ _ (by exact fun _ => rfl), Option.map_map]
    rfl

end

end Sys2Proof.Machine
end

section
/-! The CTX commands (R92, R93, R98, R100, R101). -/

namespace Sys2Proof.Machine

/-- A result of the CTX block, and what it no longer says of a refused command (R101). -/
def State.ctxResult (s : State) (n : Nat) : State :=
  s.onDev fun d => { d with ctxRegs := { d.ctxRegs with result := n, refusedBusy := false } }

/-- The CTX block takes a command of the context: none runs, and its generation is the context's (R101). -/
def State.CtxTaken (s : State) (ctx : Nat) : Prop := s.dev.ctxRegs.busy = false ∧ s.dev.ctxRegs.gen = s.gen ctx

section
variable {s : State} {ctx : Nat} {row : CtxState → Option (State → State)}

/-! ## What every command tests first (R101) -/

theorem State.ctxCmd_busy (h : s.dev.ctxRegs.busy = true) :
    s.ctxCmd ctx row = s.onDev fun d => { d with ctxRegs := { d.ctxRegs with refusedBusy := true } } := by
  simp only [State.ctxCmd, h, if_true]

theorem State.ctxCmd_stale (hbusy : s.dev.ctxRegs.busy = false) (hgen : s.dev.ctxRegs.gen ≠ s.gen ctx) :
    s.ctxCmd ctx row = s.ctxResult 2 := by
  simp only [State.ctxCmd, hbusy, Bool.false_eq_true, if_false, if_pos hgen]
  rfl

theorem State.ctxCmd_refused (h : s.CtxTaken ctx) (hrow : row (s.ctxState ctx) = none) : s.ctxCmd ctx row = s.ctxResult 1 := by
  obtain ⟨hbusy, hgen⟩ := h
  simp only [State.ctxCmd, hbusy, hgen, hrow, Bool.false_eq_true, ne_eq, not_true, if_false]
  rfl

theorem State.ctxCmd_row {f : State → State} (h : s.CtxTaken ctx) (hrow : row (s.ctxState ctx) = some f) :
    s.ctxCmd ctx row = f (s.ctxResult 0) := by
  obtain ⟨hbusy, hgen⟩ := h
  simp only [State.ctxCmd, hbusy, hgen, hrow, Bool.false_eq_true, ne_eq, not_true, if_false]
  rfl

/-- A command with the same row for every state but some, in one of the others. -/
theorem State.ctxCmd_unless {p : CtxState → Prop} [DecidablePred p] {f : State → State} (h : s.CtxTaken ctx) (hst : ¬ p (s.ctxState ctx)) :
    s.ctxCmd ctx (fun x => if p x then none else some f) = f (s.ctxResult 0) :=
  State.ctxCmd_row h (if_neg hst)

/-- A command with one row, in that row's state. -/
theorem State.ctxCmd_from {st : CtxState} {f : State → State} (h : s.CtxTaken ctx) (hst : s.ctxState ctx = st) :
    s.ctxCmd ctx (fun x => if x ≠ st then none else some f) = f (s.ctxResult 0) :=
  State.ctxCmd_unless h (not_not.mpr hst)

/-- Each command is one of the CTX block, with no row for a state that R98 does not list for it. -/
theorem exec_ctxCommand (s : State) (ctx : Nat) {i : Instr} {states : List CtxState}
    (h : (i, states) ∈ [(Instr.ctxBind ctx, [CtxState.free]), (.ctxStart ctx, [.built]), (.ctxSuspend ctx, [.active]),
      (.ctxResume ctx, [.suspended]), (.ctxThaw ctx, [.frozen]), (.ctxKill ctx, [.built, .active, .suspended, .frozen])]) :
    ∃ row, exec i s = .next (s.ctxCmd ctx row) ∧ ∀ st, st ∉ states → row st = none := by
  simp only [List.mem_cons, Prod.mk.injEq, List.not_mem_nil, or_false] at h
  rcases h with ⟨rfl, rfl⟩ | ⟨rfl, rfl⟩ | ⟨rfl, rfl⟩ | ⟨rfl, rfl⟩ | ⟨rfl, rfl⟩ | ⟨rfl, rfl⟩
  case inr.inr.inr.inr.inr => exact ⟨_, rfl, fun st hst => if_pos (by cases st <;> simp_all)⟩
  all_goals exact ⟨_, rfl, fun st hst => if_pos (List.mem_singleton.not.mp hst)⟩

/-! ## BIND (R92, R93) -/

/-- A context-table entry's queue descriptors are read from memory alone. -/
theorem State.queuesOf_congr {s u : State} (hm : u.mem = s.mem) (hf : u.fuse = s.fuse) (qdesc n : Nat) :
    u.queuesOf qdesc n = s.queuesOf qdesc n := by
  induction n with
  | zero => rfl
  | succ n ih =>
    have hq : u.queueOf n (u.bytesAt (qdesc + 64 * n) 64) = s.queueOf n (s.bytesAt (qdesc + 64 * n) 64) := by
      unfold State.queueOf State.bytesAt State.inMem State.memSize State.stacks
      rw [hm, hf]
    simp only [State.queuesOf, ih, hq]

/-- The entry of a context, as memory holds it (R92). -/
def State.ctxEntry (s : State) (ctx : Nat) : List Byte := mgets s.mem (s.dev.ctxRegs.base + 256 * ctx) 256

/-- The context bound, before what `BIND` writes to memory. -/
def State.bound (s : State) (ctx : Nat) (qs : List Queue) : State :=
  (s.ctxResult 0).onDev fun d => { d with ctxs := d.ctxs ++ [newCtx ctx (ctxEntryOf (s.ctxEntry ctx)) qs] }

theorem State.ctx?_bound (h : s.ctx? ctx = none) (qs : List Queue) :
    (s.bound ctx qs).ctx? ctx = some (newCtx ctx (ctxEntryOf (s.ctxEntry ctx)) qs) := by
  have hnone : s.dev.ctxs.find? (fun c => c.id == ctx) = none := h
  simp [State.ctx?, State.bound, State.ctxResult, List.find?_append, hnone, newCtx]

/-- The context bound, with what is cleared of its queues' descriptors and token mirrors and of its entry (R92, R106). -/
def State.boundCleared (s : State) (ctx : Nat) (qs : List Queue) : State :=
  ((qs.foldl (fun t q => (t.put ((ctxEntryOf (s.ctxEntry ctx)).qdesc + 64 * q.q + 0x18) (List.replicate 16 0#8)).put q.tokbase
    (List.replicate 256 0#8)) (s.bound ctx qs)).writeFault ctx).put (s.dev.ctxRegs.base + 256 * ctx + 0x58) (List.replicate 8 0#8)

theorem State.bound_stores (s : State) (ctx : Nat) (qs : List Queue) : (s.bound ctx qs).Stores (s.boundCleared ctx qs) :=
  State.Stores.put (State.Stores.writeFault (State.Stores.foldl (fun t _ => ((State.Stores.refl t).put _ _).put _ _) qs (.refl _)) ctx) _ _

/-- What `BIND` makes of a valid entry with these queues, or without. -/
def State.bindQueues (s : State) (ctx : Nat) : Option (List Queue) → State
  | none => s.ctxResult 3
  | some qs => (s.boundCleared ctx qs).writeStatus ctx

theorem exec_ctxBind_free (htaken : s.CtxTaken ctx) (hfree : s.ctx? ctx = none) : exec (.ctxBind ctx) s =
    .next (if (!s.inMem (s.dev.ctxRegs.base + 256 * ctx) 256 || decide (ctx ≥ 4096)) = true then s.ctxResult 3
      else if (!s.entryOk ctx (s.ctxEntry ctx)) = true then s.ctxResult 3
      else s.bindQueues ctx (s.queuesOf (ctxEntryOf (s.ctxEntry ctx)).qdesc (ctxEntryOf (s.ctxEntry ctx)).qcount)) := by
  rw [← State.queuesOf_congr (s := s) (u := s.ctxResult 0) rfl rfl]
  exact congrArg Host.Outcome.next ((State.ctxCmd_from htaken (State.ctxState_none hfree)).trans rfl)

/-- An entry outside memory, or an identifier past the table. -/
theorem exec_ctxBind_outside (htaken : s.CtxTaken ctx) (hfree : s.ctx? ctx = none)
    (h : s.memSize < s.dev.ctxRegs.base + 256 * ctx + 256 ∨ 4096 ≤ ctx) : exec (.ctxBind ctx) s = .next (s.ctxResult 3) := by
  rw [exec_ctxBind_free htaken hfree, if_pos]
  simpa [State.inMem] using h

section
variable (htaken : s.CtxTaken ctx) (hfree : s.ctx? ctx = none) (hin : s.dev.ctxRegs.base + 256 * ctx + 256 ≤ s.memSize) (hctx : ctx < 4096)
include htaken hfree hin hctx

theorem exec_ctxBind_inside : exec (.ctxBind ctx) s =
    .next (if (!s.entryOk ctx (s.ctxEntry ctx)) = true then s.ctxResult 3
      else s.bindQueues ctx (s.queuesOf (ctxEntryOf (s.ctxEntry ctx)).qdesc (ctxEntryOf (s.ctxEntry ctx)).qcount)) := by
  rw [exec_ctxBind_free htaken hfree, if_neg]
  simpa [State.inMem] using ⟨hin, hctx⟩

/-- An entry that is not valid, or with a queue descriptor that is not. -/
theorem exec_ctxBind_invalid (h : s.entryOk ctx (s.ctxEntry ctx) = false ∨
    s.queuesOf (ctxEntryOf (s.ctxEntry ctx)).qdesc (ctxEntryOf (s.ctxEntry ctx)).qcount = none) :
    exec (.ctxBind ctx) s = .next (s.ctxResult 3) := by
  rw [exec_ctxBind_inside htaken hfree hin hctx]
  split
  next => rfl
  next hok => rw [h.resolve_left (by simpa using hok), State.bindQueues]

/-- A valid entry: the context is BUILT, and STATUS tells it. -/
theorem exec_ctxBind_valid {qs : List Queue} (hok : s.entryOk ctx (s.ctxEntry ctx) = true)
    (hqs : s.queuesOf (ctxEntryOf (s.ctxEntry ctx)).qdesc (ctxEntryOf (s.ctxEntry ctx)).qcount = some qs) :
    ∃ t : State, exec (.ctxBind ctx) s = .next t ∧ t.ctx? ctx = some (newCtx ctx (ctxEntryOf (s.ctxEntry ctx)) qs) ∧ t.gen ctx = s.gen ctx ∧
      mgets t.mem (s.dev.ctxRegs.base + 256 * ctx) 4 = bytesOfNat (1 + 4096 * (s.gen ctx % 2 ^ 20)) 4 ∧ t.dev.ctxRegs.result = 0 := by
  have hcleared := s.bound_stores ctx qs
  have hstores := hcleared.writeStatus ctx
  refine ⟨(s.boundCleared ctx qs).writeStatus ctx, ?_, ?_, hstores.gen ctx, ?_, congrArg CmdRegs.result hstores.ctxRegs⟩
  · rw [exec_ctxBind_inside htaken hfree hin hctx, hqs, if_neg (by simp [hok]), State.bindQueues]
  · rw [hstores.ctx?, State.ctx?_bound hfree]
  · have hst : (s.boundCleared ctx qs).ctxState ctx = .built := by
      rw [hcleared.ctxState, State.ctxState_some (State.ctx?_bound hfree qs), newCtx]
    have hbase : (s.boundCleared ctx qs).dev.ctxRegs.base = s.dev.ctxRegs.base := by rw [hcleared.ctxRegs]; rfl
    have hgen : (s.boundCleared ctx qs).gen ctx = s.gen ctx := hcleared.gen ctx
    have hword := State.mgets_put (s.boundCleared ctx qs) (s.dev.ctxRegs.base + 256 * ctx) (bytesOfNat (1 + 4096 * s.gen ctx) 4) <| by
      rw [hcleared.inMem, length_bytesOfNat]
      exact decide_eq_true (show _ ≤ s.memSize by omega)
    rw [length_bytesOfNat] at hword
    rw [State.writeStatus, hst, hbase, hgen, CtxState.code, hword, ← bytesOfNat_mod (1 + 4096 * s.gen ctx),
      ← bytesOfNat_mod (1 + 4096 * (s.gen ctx % 2 ^ 20))]
    congr 1
    omega
end

end

end Sys2Proof.Machine
end

section
/-! The CTX commands that change the state of a context (R98, R100, R101). -/

namespace Sys2Proof.Machine

section
variable {s : State} {ctx : Nat} {c : Ctx}

/-! ## START (R98, R106) -/

/-- Queues made READY in turn: those are, and the others stay. -/
theorem State.queue?_foldl_ready (l : List Queue) (s : State) (ctx n : Nat) :
    (l.foldl (fun s q => s.setQueue ctx q.q fun a => { a with st := .ready }) s).queue? ctx n =
      if n ∈ l.map Queue.q then (s.queue? ctx n).map fun a => { a with st := .ready } else s.queue? ctx n := by
  induction l generalizing s with
  | nil => simp
  | cons q r ih =>
    rw [List.foldl_cons, ih, State.queue?_setQueue _ _ _ _ _ (by exact fun _ => rfl)]
    by_cases hn : n = q.q
    · subst hn
      cases s.queue? ctx q.q <;> simp
    · simp [hn]

theorem State.ctxState_foldl_setQueue (f : Queue → Queue) (l : List Queue) (s : State) (ctx : Nat) :
    (l.foldl (fun s q => s.setQueue ctx q.q f) s).ctxState ctx = s.ctxState ctx := by
  induction l generalizing s with
  | nil => rfl
  | cons q r ih => rw [List.foldl_cons, ih, State.ctxState_setQueue]

/-- Of queues of distinct numbers, the one found is among those chosen by `p` where `p` chooses it. -/
theorem Ctx.mem_map_filter_iff {n : Nat} {q : Queue} (p : Queue → Bool) (hnodup : (c.queues.map Queue.q).Nodup) (hq : c.queue? n = some q) :
    n ∈ (c.queues.filter p).map Queue.q ↔ p q = true := by
  have hmem : q ∈ c.queues := List.mem_of_find?_eq_some hq
  have hn : q.q = n := by simpa using List.find?_some hq
  simp only [List.mem_map, List.mem_filter]
  constructor
  · rintro ⟨x, ⟨hx, hp⟩, hxn⟩
    rwa [← List.inj_on_of_nodup_map hnodup hx hmem (hxn.trans hn.symm)]
  · exact fun hp => ⟨q, ⟨hmem, hp⟩, hn⟩

theorem exec_ctxStart_built (htaken : s.CtxTaken ctx) (hc : s.ctx? ctx = some c) (hst : c.st = .built) (hnodup : (c.queues.map Queue.q).Nodup) :
    ∃ t : State, exec (.ctxStart ctx) s = .next t ∧ t.ctxState ctx = .active ∧ ∀ n q, c.queue? n = some q →
      (t.queue? ctx n).map Queue.st = some (if q.enable = true ∧ q.st = .off then .ready else q.st) := by
  have hc0 : (s.ctxResult 0).ctx? ctx = some c := hc
  refine ⟨_, congrArg Host.Outcome.next (State.ctxCmd_from htaken ((State.ctxState_some hc).trans hst)), ?_, fun n q hq => ?_⟩
  · dsimp only
    rw [State.ctxState_foldl_setQueue, State.ctxState_setCtxState _ hc0]
  · have hq1 : ((s.ctxResult 0).setCtxState ctx .active).queue? ctx n = some q := by
      rw [State.queue?, State.ctx?_setCtxState, hc0]
      exact hq
    dsimp only
    rw [hc0, Option.map_some, Option.getD_some, State.queue?_foldl_ready, hq1]
    by_cases hready : q.enable = true ∧ q.st = .off
    · rw [if_pos ((c.mem_map_filter_iff _ hnodup hq).mpr (by simp [hready])), if_pos hready]
      rfl
    · rw [if_neg (by rw [c.mem_map_filter_iff _ hnodup hq]; simpa using hready), if_neg hready]
      rfl

/-! ## RESUME and THAW (R98) -/

theorem exec_ctxResume_suspended (htaken : s.CtxTaken ctx) (hc : s.ctx? ctx = some c) (hst : c.st = .suspended) :
    exec (.ctxResume ctx) s = .next (((s.ctxResult 0).updCtx ctx fun c => { c with st := .active }).put
      (s.dev.ctxRegs.base + 256 * ctx) (bytesOfNat (2 + 4096 * s.gen ctx) 4)) := by
  have hset := State.setCtxState_eq .active (s := s.ctxResult 0) hc
  exact congrArg Host.Outcome.next ((State.ctxCmd_from htaken ((State.ctxState_some hc).trans hst)).trans hset)

/-- The context with FREEZE.CAUSE cleared (R92). -/
def State.thawed (s : State) (ctx : Nat) : State :=
  (s.updCtx ctx fun c => { c with fault := { c.fault with cause := 0 } }).put (s.dev.ctxRegs.base + 256 * ctx + 12) (List.replicate 4 0#8)

theorem exec_ctxThaw_frozen (htaken : s.CtxTaken ctx) (hc : s.ctx? ctx = some c) (hst : c.st = .frozen) :
    exec (.ctxThaw ctx) s = .next ((((s.ctxResult 0).thawed ctx).updCtx ctx fun c => { c with st := .suspended }).put
      (s.dev.ctxRegs.base + 256 * ctx) (bytesOfNat (3 + 4096 * s.gen ctx) 4)) := by
  have hstores : ((s.ctxResult 0).updCtx ctx fun c => { c with fault := { c.fault with cause := 0 } }).Stores ((s.ctxResult 0).thawed ctx) :=
    (State.Stores.refl _).put _ _
  have hthawed : ((s.ctxResult 0).thawed ctx).ctx? ctx = some { c with fault := { c.fault with cause := 0 } } := by
    rw [hstores.ctx?, State.ctx?_updCtx _ _ _ (by exact fun _ => rfl)]
    exact congrArg _ hc
  have hset := State.setCtxState_eq .suspended hthawed
  rw [hstores.ctxRegs, hstores.gen] at hset
  exact congrArg Host.Outcome.next ((State.ctxCmd_from htaken ((State.ctxState_some hc).trans hst)).trans hset)

/-! ## SUSPEND (R98, R101) -/

/-- What a request to save leaves of the teams: the chosen ones that are resident save, and no other starts to. -/
theorem State.requestSave_teams (s : State) (sel : Team → Bool) : ∃ hit : Team → Bool,
    (s.requestSave sel).dev.teams = updIf hit (fun t => { t with st := .saving }) s.dev.teams ∧ (∀ t, hit t = true → t.st = .resident) ∧
    ∀ t ∈ s.dev.teams, sel t = true → t.st = .resident → hit t = true := by
  refine ⟨_, rfl, fun t ht => by simpa using (Bool.and_eq_true_iff.mp ht).1, fun t ht hsel hst => ?_⟩
  simp only [hst, beq_self_eq_true, Bool.true_and, Bool.or_eq_true, List.contains_iff_mem]
  exact .inl (List.mem_map_of_mem (List.mem_filter.mpr ⟨ht, by simp [hsel, hst]⟩))

theorem State.allSaved_iff (s : State) (ctx : Nat) :
    s.allSaved ctx none = true ↔ ∀ t ∈ s.dev.teams, t.ctx = ctx → t.st ≠ .resident ∧ t.st ≠ .saving := by
  simp only [State.allSaved, List.all_eq_true, Bool.or_false, Bool.or_eq_true, Bool.and_eq_true, bne_iff_ne, ne_eq, Decidable.imp_iff_not_or]

/-- A `SUSPEND` that runs ends where every team of its context is saved; no team and no context changes. -/
theorem State.finishCmds_suspend {n : Nat} (h : s.dev.ctxRegs.run = some (3, ctx, n)) : ∃ q : CmdRegs, s.finishCmds.dev =
    { s.dev with ctxRegs := if s.allSaved ctx none = true then s.dev.ctxRegs.finish 0 else s.dev.ctxRegs, queueRegs := q } := by
  unfold State.finishCmds
  rw [h]
  by_cases hall : s.allSaved ctx none = true
  all_goals
    simp only [hall, if_true, Bool.false_eq_true, if_false]
    split
    next => split <;> exact ⟨_, rfl⟩
    next => exact ⟨_, rfl⟩

/-- A save asked of a context's teams leaves none of them resident, and those that save were resident or saving. -/
theorem State.requestSave_ctx (s : State) (ctx : Nat) :
    (∀ x ∈ (s.requestSave fun t => t.ctx == ctx).dev.teams, x.ctx = ctx → x.st ≠ .resident) ∧
    ((∃ x ∈ (s.requestSave fun t => t.ctx == ctx).dev.teams, x.ctx = ctx ∧ x.st = .saving) ↔
      ∃ x ∈ s.dev.teams, x.ctx = ctx ∧ (x.st = .resident ∨ x.st = .saving)) := by
  obtain ⟨hit, hteams, hres, hall⟩ := s.requestSave_teams fun t => t.ctx == ctx
  simp only [hteams, updIf, List.mem_map]
  refine ⟨?_, ?_, ?_⟩
  · rintro _ ⟨t, ht, rfl⟩ hctx
    by_cases hh : hit t = true
    · simp [hh]
    · rw [if_neg hh] at hctx ⊢
      exact fun hst => hh (hall t ht (by simpa using hctx) hst)
  · rintro ⟨_, ⟨t, ht, rfl⟩, hctx, hst⟩
    by_cases hh : hit t = true
    · exact ⟨t, ht, by simpa [hh] using hctx, .inl (hres t hh)⟩
    · rw [if_neg hh] at hctx hst
      exact ⟨t, ht, hctx, .inr hst⟩
  · rintro ⟨t, ht, hctx, hst⟩
    refine ⟨_, ⟨t, ht, rfl⟩, ?_⟩
    by_cases hh : hit t = true
    · simpa [hh] using hctx
    · rw [if_neg hh]
      exact ⟨hctx, hst.resolve_left fun h => hh (hall t ht (by simpa using hctx) h)⟩

/-- The state in which a `SUSPEND` runs: the context is SUSPENDED, and its teams are asked to save. -/
def State.suspending (s : State) (ctx : Nat) : State :=
  (((s.ctxResult 0).setCtxState ctx .suspended).requestSave fun t => t.ctx == ctx).onDev fun d =>
    { d with ctxRegs := { d.ctxRegs with busy := true, run := some (3, ctx, 0) } }

theorem exec_ctxSuspend_eq (htaken : s.CtxTaken ctx) (hc : s.ctx? ctx = some c) (hst : c.st = .active) :
    exec (.ctxSuspend ctx) s = .next (s.suspending ctx).finishCmds :=
  congrArg Host.Outcome.next (State.ctxCmd_from htaken ((State.ctxState_some hc).trans hst))

/-- A save asked for and a command that runs leave the states of contexts. -/
theorem State.ctxState_asked (u : State) (sel : Team → Bool) (f : CmdRegs → CmdRegs) (n : Nat) :
    ((u.requestSave sel).onDev fun d => { d with ctxRegs := f d.ctxRegs }).ctxState n = u.ctxState n := rfl

theorem State.suspending_ctxState (hc : s.ctx? ctx = some c) : (s.suspending ctx).ctxState ctx = .suspended := by
  rw [State.suspending, State.ctxState_asked _ _ fun r => { r with busy := true, run := some (3, ctx, 0) }]
  exact State.ctxState_setCtxState .suspended (s := s.ctxResult 0) hc

theorem State.suspending_teams (s : State) (ctx : Nat) :
    (∀ x ∈ (s.suspending ctx).dev.teams, x.ctx = ctx → x.st ≠ .resident) ∧
    ((∃ x ∈ (s.suspending ctx).dev.teams, x.ctx = ctx ∧ x.st = .saving) ↔
      ∃ x ∈ s.dev.teams, x.ctx = ctx ∧ (x.st = .resident ∨ x.st = .saving)) := by
  have h := ((s.ctxResult 0).setCtxState ctx .suspended).requestSave_ctx ctx
  have hteams : ((s.ctxResult 0).setCtxState ctx .suspended).dev.teams = s.dev.teams := by
    obtain ⟨-, ts, hd⟩ := (State.Stores.refl ((s.ctxResult 0).updCtx ctx fun c => { c with st := .suspended })).writeStatus ctx
    rw [State.setCtxState, hd]
    rfl
  rwa [hteams] at h

/-- SUSPEND goes on while a team of the context was resident or saving, and else has ended. -/
theorem exec_ctxSuspend_active (htaken : s.CtxTaken ctx) (hc : s.ctx? ctx = some c) (hst : c.st = .active) :
    ∃ t : State, exec (.ctxSuspend ctx) s = .next t ∧ t.ctxState ctx = .suspended ∧ (∀ x ∈ t.dev.teams, x.ctx = ctx → x.st ≠ .resident) ∧
      ((∃ x ∈ s.dev.teams, x.ctx = ctx ∧ (x.st = .resident ∨ x.st = .saving)) →
        t.dev.ctxRegs.busy = true ∧ t.dev.ctxRegs.run = some (3, ctx, 0)) ∧
      (¬ (∃ x ∈ s.dev.teams, x.ctx = ctx ∧ (x.st = .resident ∨ x.st = .saving)) →
        t.dev.ctxRegs.busy = false ∧ t.dev.ctxRegs.result = 0) := by
  obtain ⟨hres, hsaving⟩ := s.suspending_teams ctx
  obtain ⟨q, hdev⟩ := State.finishCmds_suspend (s := s.suspending ctx) (ctx := ctx) (n := 0) rfl
  refine ⟨_, exec_ctxSuspend_eq htaken hc hst, ?_, ?_, fun hheld => ?_, fun hfree => ?_⟩
  · simpa only [State.ctxState, State.ctx?, hdev] using State.suspending_ctxState hc
  · simpa only [hdev] using hres
  · obtain ⟨x, hx, hctx, hst⟩ := hsaving.mpr hheld
    have hnot : ¬ (s.suspending ctx).allSaved ctx none = true := fun h => (((s.suspending ctx).allSaved_iff ctx).mp h x hx hctx).2 hst
    rw [hdev, if_neg hnot]
    exact ⟨rfl, rfl⟩
  · have hall : (s.suspending ctx).allSaved ctx none = true :=
      ((s.suspending ctx).allSaved_iff ctx).mpr fun x hx hctx => ⟨hres x hx hctx, fun hst => hfree (hsaving.mp ⟨x, hx, hctx, hst⟩)⟩
    rw [hdev, if_pos hall]
    exact ⟨rfl, rfl⟩

/-! ## KILL (R98, R100 case 3, R101) -/

/-- FAULT to FAULTVA put back change a context's copy and what memory holds, and nothing else. -/
theorem State.unfreeze_dev (s : State) (ctx : Nat) : ∃ cs ts, (s.unfreeze ctx).dev = { s.dev with ctxs := cs, ts := ts } := by
  unfold State.unfreeze
  split
  · split
    · obtain ⟨-, ts, hd⟩ := (State.Stores.refl (s.updCtx ctx fun c => { c with fault := _ })).writeFault ctx
      exact ⟨_, ts, hd⟩
    · exact ⟨_, _, rfl⟩
  · exact ⟨_, _, rfl⟩

theorem State.ctx?_unfreeze {s : State} (hc : s.ctx? ctx = some c) : ∃ c', (s.unfreeze ctx).ctx? ctx = some c' := by
  unfold State.unfreeze
  split
  · split
    · exact ⟨_, by rw [State.setFault, ((State.Stores.refl _).writeFault ctx).ctx?, State.ctx?_updCtx _ _ _ (by exact fun _ => rfl), hc,
        Option.map_some]⟩
    · exact ⟨c, hc⟩
  · exact ⟨c, hc⟩

/-- A `KILL` runs. -/
def State.killing (s : State) (ctx : Nat) : State :=
  (s.ctxResult 0).onDev fun d => { d with ctxRegs := { d.ctxRegs with busy := true, run := some (6, ctx, 0) } }

/-- The context DYING, its command running. -/
def State.killed (s : State) (ctx : Nat) : State := ((s.killing ctx).unfreeze ctx).setCtxState ctx .dying

theorem exec_ctxKill_eq (htaken : s.CtxTaken ctx) (hc : s.ctx? ctx = some c) (hfree : c.st ≠ .free) (hdying : c.st ≠ .dying) :
    exec (.ctxKill ctx) s = .next ((s.killed ctx).dropWork ctx) := by
  refine congrArg Host.Outcome.next (State.ctxCmd_unless htaken ?_)
  rw [State.ctxState_some hc]
  exact not_or.mpr ⟨hfree, hdying⟩

theorem State.ctxState_killed (hc : s.ctx? ctx = some c) : (s.killed ctx).ctxState ctx = .dying := by
  obtain ⟨c', hc'⟩ := State.ctx?_unfreeze (s := s.killing ctx) hc
  exact State.ctxState_setCtxState .dying hc'

theorem State.killed_ctxRegs (s : State) (ctx : Nat) : (s.killed ctx).dev.ctxRegs =
    { s.dev.ctxRegs with result := 0, refusedBusy := false, busy := true, run := some (6, ctx, 0) } := by
  obtain ⟨cs, ts, hd⟩ := (s.killing ctx).unfreeze_dev ctx
  rw [State.killed, State.setCtxState, ((State.Stores.refl _).writeStatus ctx).ctxRegs, State.updCtx_dev, hd]
  rfl

/-- What a context gives up when it dies: its state and the CTX block stay, its requests, pushes and frames go. -/
theorem State.dropWork_spec (s : State) (ctx : Nat) :
    (s.dropWork ctx).ctxState ctx = s.ctxState ctx ∧ (s.dropWork ctx).dev.ctxRegs = s.dev.ctxRegs ∧
    (∀ x ∈ (s.dropWork ctx).dev.preqs, x.ctx ≠ ctx) ∧ (∀ x ∈ (s.dropWork ctx).dev.pushes, x.ctx ≠ ctx) ∧
    ∀ x ∈ (s.dropWork ctx).dev.frames, x.ctx ≠ ctx := by
  obtain ⟨t, hstores, hctxs, hregs, hpreqs, hpushes, hframes⟩ : ∃ t : State, t.Stores (s.dropWork ctx) ∧
      t.ctx? ctx = (s.updCtx ctx fun c => { c with queues := c.queues.map fun q => { q with win := q.win.filter fun p => p.launched } }).ctx? ctx ∧
      t.dev.ctxRegs = s.dev.ctxRegs ∧ t.dev.preqs = s.dev.preqs.filter (fun r => r.ctx != ctx) ∧
      t.dev.pushes = s.dev.pushes.filter (fun p => p.ctx != ctx) ∧ t.dev.frames = s.dev.frames.filter (fun f => f.ctx != ctx) :=
    ⟨_, (State.Stores.refl _).writeCount _ _ _, rfl, rfl, rfl, rfl, rfl⟩
  have ⟨_, ts, hd⟩ := hstores
  refine ⟨?_, hstores.ctxRegs.trans hregs, ?_, ?_, ?_⟩
  · rw [hstores.ctxState, State.ctxState, hctxs, State.ctx?_updCtx _ _ _ (by exact fun _ => rfl), Option.map_map]
    rfl
  · simp [hd, hpreqs]
  · simp [hd, hpushes]
  · simp [hd, hframes]

theorem exec_ctxKill_live (htaken : s.CtxTaken ctx) (hc : s.ctx? ctx = some c) (hfree : c.st ≠ .free) (hdying : c.st ≠ .dying) :
    ∃ t : State, exec (.ctxKill ctx) s = .next t ∧ t.ctxState ctx = .dying ∧ t.dev.ctxRegs.busy = true ∧ t.dev.ctxRegs.run = some (6, ctx, 0) ∧
      (∀ x ∈ t.dev.preqs, x.ctx ≠ ctx) ∧ (∀ x ∈ t.dev.pushes, x.ctx ≠ ctx) ∧ ∀ x ∈ t.dev.frames, x.ctx ≠ ctx := by
  obtain ⟨hstate, hregs, hgone⟩ := (s.killed ctx).dropWork_spec ctx
  rw [State.killed_ctxRegs] at hregs
  exact ⟨_, exec_ctxKill_eq htaken hc hfree hdying, hstate.trans (State.ctxState_killed hc), congrArg CmdRegs.busy hregs,
    congrArg CmdRegs.run hregs, hgone⟩

end

end Sys2Proof.Machine
end

section
/-! The release of a dying context (R91, R93, R98). -/

namespace Sys2Proof.Machine

section
variable {s : State} {ctx : Nat} {c : Ctx}

theorem exec_contextDrain_undrained (hc : s.ctx? ctx = some c) (h : c.st ≠ .dying ∨ s.drained ctx = false) :
    exec (.contextDrainComplete ctx) s = .next s := by
  have hnot : (c.st != .dying || !s.drained ctx) = true := by simpa using h
  show execContextDrainComplete ctx s = _
  simp only [execContextDrainComplete, hc, hnot, if_true]

/-- The end of a `KILL` that waits for the context to drain (R101). -/
def State.endKill (s : State) (ctx : Nat) : State :=
  match s.dev.ctxRegs.run with
  | some (6, x, _) => if x = ctx then s.onDev fun d => { d with ctxRegs := d.ctxRegs.finish 0 } else s
  | _ => s

theorem State.endKill_dev (s : State) (ctx : Nat) : ∃ r, (s.endKill ctx).dev = { s.dev with ctxRegs := r } ∧
    (s.dev.ctxRegs.run = some (6, ctx, 0) → r = s.dev.ctxRegs.finish 0) := by
  unfold State.endKill
  split
  next x n hrun =>
    split
    next => exact ⟨_, rfl, fun _ => rfl⟩
    next hx => exact ⟨_, rfl, fun h => by simp [hrun, hx] at h⟩
  next hnot => exact ⟨_, rfl, fun h => (hnot _ _ h).elim⟩

/-- The device without what a context held (R91, R93, R98). -/
def Dev.without (d : Dev) (ctx asn gen : Nat) : Dev :=
  { d with
    ctxs := d.ctxs.filter fun x => x.id != ctx
    gens := assocSet d.gens ctx gen
    teams := d.teams.filter fun t => t.ctx != ctx
    groups := d.groups.filter fun g => g.ctx != ctx
    clusters := d.clusters.filter fun k => !(d.grids.any fun g => g.ctx == ctx && g.id == k.grid)
    grids := d.grids.filter fun g => g.ctx != ctx
    results := d.results.filter fun r => !((d.groups.filter fun g => g.ctx == ctx).map fun g => g.id).contains r.grp
    fwds := d.fwds.filter fun f => !((d.teams.filter fun t => t.ctx == ctx).map fun t => t.id).contains f.team
    refills := d.refills.filter fun (_, x, _) => x != ctx
    cores := d.cores.map fun (n, k) => (n, k.without ctx)
    l2tlb := if d.ctxs.all fun x => x.id == ctx || x.e.asn != asn then d.l2tlb.filter fun e => e.2.asn != asn else d.l2tlb }

section
variable (d : Dev) (ctx asn gen : Nat)

@[simp] theorem Dev.without_ctxs : (d.without ctx asn gen).ctxs = d.ctxs.filter fun x => x.id != ctx := rfl
@[simp] theorem Dev.without_gens : (d.without ctx asn gen).gens = assocSet d.gens ctx gen := rfl
@[simp] theorem Dev.without_teams : (d.without ctx asn gen).teams = d.teams.filter fun t => t.ctx != ctx := rfl
@[simp] theorem Dev.without_groups : (d.without ctx asn gen).groups = d.groups.filter fun g => g.ctx != ctx := rfl
@[simp] theorem Dev.without_grids : (d.without ctx asn gen).grids = d.grids.filter fun g => g.ctx != ctx := rfl
@[simp] theorem Dev.without_cores : (d.without ctx asn gen).cores = d.cores.map fun k => (k.1, k.2.without ctx) := rfl
end

/-- The translations of an address space go with its last context (R93). -/
theorem Dev.without_l2tlb {d : Dev} {asn : Nat} (gen : Nat) (h : ∀ x ∈ d.ctxs, x.id ≠ ctx → x.e.asn ≠ asn) :
    (d.without ctx asn gen).l2tlb = d.l2tlb.filter fun e => e.2.asn != asn :=
  if_pos (List.all_eq_true.mpr fun x hx => by simpa [Decidable.or_iff_not_imp_left] using h x hx)

theorem Core.binds_without {k : Core} {y : Copy} (hy : y ∈ (k.without ctx).copies) : ∀ b ∈ y.binds, b.ctx ≠ ctx := by
  obtain ⟨x, -, rfl⟩ := List.mem_map.mp (List.mem_of_mem_filter hy)
  exact fun b hb => by simpa using (List.mem_filter.mp hb).2

theorem find?_filter_id {n : Nat} (h : n ≠ ctx) (l : List Ctx) :
    (l.filter fun x => x.id != ctx).find? (fun x => x.id == n) = l.find? fun x => x.id == n := by
  rw [List.find?_filter]
  congr 1
  funext x
  by_cases hx : x.id = n <;> simp [hx, h]

/-- A dying context that has drained leaves; the timestamps of memory and the CTX block aside nothing else changes. -/
theorem exec_contextDrain_drained (hc : s.ctx? ctx = some c) (hst : c.st = .dying) (hdrained : s.drained ctx = true) :
    ∃ (t : State) (ts : List (Nat × Nat × Nat)) (r : CmdRegs), exec (.contextDrainComplete ctx) s = .next t ∧
      t.dev = { s.dev.without ctx c.e.asn ((s.gen ctx + 1) % 2 ^ 20) with ts := ts, ctxRegs := r } ∧
      (s.dev.ctxRegs.run = some (6, ctx, 0) → r = s.dev.ctxRegs.finish 0) := by
  have hyes : ¬ (c.st != .dying || !s.drained ctx) = true := by simp [hst, hdrained]
  have hcount := (State.Stores.refl s).writeCount ctx 0x58 0
  obtain ⟨u, hexec, ts, hu⟩ : ∃ u : State, exec (.contextDrainComplete ctx) s = .next ((u.writeStatus ctx).endKill ctx) ∧
      ∃ ts, u.dev = { s.dev.without ctx c.e.asn ((s.gen ctx + 1) % 2 ^ 20) with ts := ts } := by
    have ⟨_, ts, hd⟩ := hcount
    show ∃ u, execContextDrainComplete ctx s = _ ∧ _
    simp only [execContextDrainComplete, hc, if_neg hyes]
    refine ⟨_, rfl, ts, ?_⟩
    rw [State.onDev_dev, hd, hcount.gen]
    rfl
  obtain ⟨-, ts', hd⟩ := (State.Stores.refl u).writeStatus ctx
  obtain ⟨r, hr, hend⟩ := (u.writeStatus ctx).endKill_dev ctx
  rw [hd, hu] at hr hend
  exact ⟨_, ts', r, hexec, hr, hend⟩

end

/-- Settles O44: what the CTX block tests before a command's row, each command in its own state, and the device that a drained
context leaves. -/
theorem contextStates : Obligations.ContextStates := by
  refine ⟨fun s ctx => ?_, fun s ctx c hc => ⟨exec_contextDrain_undrained hc, fun hst hdrained => ?_⟩⟩
  · intro r regs result entry status taken
    refine ⟨fun i states hi => ?_, fun htaken hfree => ?_, fun c htaken hc => ⟨?_, ?_, ?_, ?_, ?_⟩⟩
    · obtain ⟨row, hexec, hrow⟩ := exec_ctxCommand s ctx hi
      rw [hexec]
      exact ⟨fun hbusy => congrArg _ (State.ctxCmd_busy hbusy), fun hbusy hgen => congrArg _ (State.ctxCmd_stale hbusy hgen),
        fun htaken hst => congrArg _ (State.ctxCmd_refused htaken (hrow _ hst))⟩
    · exact ⟨exec_ctxBind_outside htaken hfree, exec_ctxBind_invalid htaken hfree, fun qs hin hctx => exec_ctxBind_valid htaken hfree hin hctx⟩
    · exact exec_ctxStart_built htaken hc
    · exact exec_ctxResume_suspended htaken hc
    · exact exec_ctxThaw_frozen htaken hc
    · exact exec_ctxSuspend_active htaken hc
    · exact exec_ctxKill_live htaken hc
  · obtain ⟨t, ts, r, hexec, hd, hend⟩ := exec_contextDrain_drained hc hst hdrained
    refine ⟨t, hexec, ?_, ?_, fun n hn => ⟨?_, ?_⟩, ?_, ?_, ?_, ?_, ?_, fun hlast => ?_, fun hkill => ?_⟩
    · simp [State.ctx?, hd]
    · simp [State.gen, hd, assoc_assocSet]
    · simp [State.gen, hd, assoc_assocSet, hn]
    · simpa only [State.ctx?, hd, Dev.without_ctxs] using find?_filter_id hn s.dev.ctxs
    · simp [hd]
    · simp [hd]
    · simp [hd]
    · exact fun x hx hctx => by simp [hd, hx, hctx]
    · intro k hk y hy
      simp only [hd, Dev.without_cores, List.mem_map] at hk
      obtain ⟨a, -, rfl⟩ := hk
      exact Core.binds_without hy
    · rw [hd]
      dsimp only
      rw [Dev.without_l2tlb _ hlast]
      exact fun e he => by simpa using (List.mem_filter.mp he).2
    · rw [hd, hend hkill]
      rfl

end Sys2Proof.Machine
end

section
/-! The clk and the part of it (log 6): what leaves them as they are, and what the next clk begins with. -/

namespace Sys2Proof.Machine

/-- The clk, and the part of it that the machine is in. -/
def State.time (s : State) : Nat × Phase := (s.dev.clk, s.dev.phase)

section
variable {s t : State}

theorem State.time_foldl {α : Type} {f : State → α → State} (hf : ∀ (t : State) (a : α), (f t a).time = t.time) (l : List α) (s : State) :
    (l.foldl f s).time = s.time := by
  induction l generalizing s with
  | nil => rfl
  | cons a r ih => rw [List.foldl_cons, ih, hf]

theorem State.time_updDie (s : State) (f : Die → Die) : (s.updDie f).time = s.time := rfl

theorem State.Stores.time (h : s.Stores t) : t.time = s.time := by
  obtain ⟨-, ts, hd⟩ := h
  simp only [State.time, hd]

/-! ## Engines and timestamps (R258, R288) -/

theorem State.time_levelStep (s : State) : s.levelStep.time = s.time := by
  have hzone : ∀ (t : State) (z : Nat), (t.stepZone z).time = t.time := fun t z =>
    (State.time_foldl (by exact fun _ _ => rfl) _ _).trans (State.time_foldl (by exact fun _ _ => rfl) _ t)
  have hzones := State.time_foldl hzone (List.range 12) s
  unfold State.levelStep
  split
  · generalize (List.range 12).foldl State.stepZone s = u at hzones ⊢
    exact hzones
  · rfl

theorem State.time_engineWork (s : State) : s.engineWork.time = s.time := by
  refine State.time_foldl (fun t c => ?_) _ s
  dsimp only
  split
  · rfl
  · split
    · split <;> rfl
    · rfl

theorem State.time_ptsTick (s : State) : s.ptsTick.time = s.time := by
  unfold State.ptsTick
  split <;> rfl

/-! ## Doorbells held for FRONT (R108, R433) -/

theorem State.time_setQueue (s : State) (ctx q : Nat) (f : Queue → Queue) : (s.setQueue ctx q f).time = s.time := by
  cases h : s.queue? ctx q with
  | none => rw [State.setQueue_none f h]
  | some a => exact (State.setQueue_stores f h).time

theorem State.time_overrun (s : State) (ctx q : Nat) (a : Queue) : (s.overrun ctx q a).time = s.time := by
  refine (State.time_setQueue ..).trans ?_
  split
  next =>
    split
    · rfl
    · dsimp only
      split <;> rfl
  next => rfl

theorem State.time_doorbell (s : State) (ctxgen : Word) (q : Nat) (w : Word) : (s.doorbell ctxgen q w).time = s.time := by
  unfold State.doorbell
  dsimp only
  split
  · rfl
  · split
    · rfl
    · split
      · rfl
      · split
        · split
          · exact State.time_overrun ..
          · rfl
        · exact State.time_setQueue ..

theorem State.time_frontBells (s : State) : s.frontBells.time = s.time := by
  have hring : s.ringHeld.time = s.time := by
    refine (State.time_updDie ..).trans (State.time_foldl (fun t ⟨_, m⟩ => ?_) _ s)
    cases m with
    | doorbell => exact State.time_doorbell ..
    | _ => rfl
  unfold State.frontBells
  split
  · exact hring
  · rfl

/-! ## The next clk -/

theorem State.time_raiseFloor (s : State) : s.raiseFloor.time = s.time := rfl

theorem State.time_countEligible (s : State) : s.countEligible.time = s.time := rfl

theorem State.time_nextClk (s : State) : s.nextClk.time = (s.dev.clk + 1, .issue) := by
  rw [State.nextClk, State.time_frontBells, State.time_countEligible, State.time_raiseFloor, State.time_ptsTick, State.engineClk,
    State.time_engineWork, State.time_levelStep]
  rfl

end

end Sys2Proof.Machine
end

section
/-! A step where no stream's unit is executed: the first thing that each part of a clk has to do (log 6). -/

namespace Sys2Proof.Machine

section
variable {s : State} {l : List Instr} {go : Host.Outcome State Fault Refusal}

/-- No event of the list changes the state. -/
def State.Idle (s : State) (l : List Instr) : Prop := ∀ i ∈ l, exec i s = .next s

/-- The first event of the list that changes the state is the step. -/
def State.StepsFirst (s : State) (l : List Instr) : Prop :=
  ∀ pre i rest t, l = pre ++ i :: rest → s.Idle pre → exec i s = .next t → t ≠ s → step s = .next t

theorem State.stepsFirst_of_firstDue (h : step s = (s.firstDue l).getD go) : s.StepsFirst l := by
  intro pre i rest t hl hpre hi ht
  rw [h, hl, State.firstDue_first hpre hi ht, Option.getD_some]

theorem State.step_of_idle (h : step s = (s.firstDue l).getD go) (hl : s.Idle l) : step s = go := by
  rw [h, State.firstDue_idle hl, Option.getD_none]

/-! ## The choice of clauses -/

theorem step_issue (hw : s.dev.die.powered = true) (hp : s.dev.phase = .issue) (ho : s.overStream = none) :
    step s = (s.reeds.findSome? s.reedDue).getD (.next (s.toPhase .bins)) := by
  simp [step, State.stepOnce, State.stepIssue, hw, hp, ho]

/-- None of the trap entries goes on. -/
def State.Kept (s : State) (l : List (Nat × Nat)) : Prop := ∀ x ∈ l, s.completeTrap x.1 x.2 = s

theorem State.goTrap_kept {l : List (Nat × Nat)} (h : s.Kept l) : s.goTrap l = none := by
  induction l with
  | nil => rfl
  | cons x r ih =>
    obtain ⟨hx, hr⟩ := List.forall_mem_cons.mp h
    rw [State.goTrap, if_pos hx, ih hr]

theorem State.goTrap_first {a b : List (Nat × Nat)} {x : Nat × Nat} (ha : s.Kept a) (hx : s.completeTrap x.1 x.2 ≠ s) :
    s.goTrap (a ++ x :: b) = some (s.completeTrap x.1 x.2) := by
  induction a with
  | nil => rw [List.nil_append, State.goTrap, if_neg hx]
  | cons y r ih =>
    obtain ⟨hy, hr⟩ := List.forall_mem_cons.mp ha
    rw [List.cons_append, State.goTrap, if_pos hy, ih hr]

/-- A reed has nothing to do of its choice: no trap entry goes on, and it chooses no clause. -/
def State.Calm (s : State) (r : Nat × Nat) : Prop := s.Kept (s.trapEntries r.1 r.2) ∧ s.Idle (s.issues r.1 r.2)

theorem State.reedDue_calm {r : Nat × Nat} (h : s.Calm r) : s.reedDue r = none := by
  obtain ⟨hkept, hidle⟩ := h
  rw [State.reedDue, State.goTrap_kept hkept, State.firstDue_idle hidle]
  rfl

/-- After calm reeds comes the choice of the next. -/
theorem step_issue_reed {pre rest : List (Nat × Nat)} {r : Nat × Nat} (hw : s.dev.die.powered = true) (hp : s.dev.phase = .issue)
    (ho : s.overStream = none) (hr : s.reeds = pre ++ r :: rest) (hpre : ∀ q ∈ pre, s.Calm q) :
    step s = (s.reedDue r).getD ((rest.findSome? s.reedDue).getD (.next (s.toPhase .bins))) := by
  have hcalm : pre.findSome? s.reedDue = none := List.findSome?_eq_none_iff.mpr fun q hq => State.reedDue_calm (hpre q hq)
  rw [step_issue hw hp ho, hr, List.findSome?_append, hcalm, Option.none_or, List.findSome?_cons]
  cases s.reedDue r <;> rfl

theorem step_issue_calm (hw : s.dev.die.powered = true) (hp : s.dev.phase = .issue) (ho : s.overStream = none) (h : ∀ r ∈ s.reeds, s.Calm r) :
    step s = .next (s.toPhase .bins) := by
  rw [step_issue hw hp ho, List.findSome?_eq_none_iff.mpr fun q hq => State.reedDue_calm (h q hq), Option.getD_none]

/-! ## Banks and bins, and what the Fife places -/

theorem step_bins (hw : s.dev.die.powered = true) (hp : s.dev.phase = .bins) :
    step s = (s.firstDue (s.bankEvents ++ s.binEvents ++ s.placements.takeWhile isBinLaunch)).getD
      (.next (s.delayBins.servePops.toPhase .units)) := by
  simp only [step, State.stepOnce, State.stepBins, hw, hp, Bool.not_true, Bool.false_eq_true, if_false]

theorem step_place (hw : s.dev.die.powered = true) (hp : s.dev.phase = .place) :
    step s = (s.firstDue (s.launches ++ s.placements.filter fun i => !isBinLaunch i)).getD
      (if s.preempt = s then (s.firstDue s.booting).getD (.next s.nextClk) else .next s.preempt) := by
  simp only [step, State.stepOnce, State.stepPlace, hw, hp, Bool.not_true, Bool.false_eq_true, if_false]

/-! ## The events of a core -/

/-- A free choice adds to what comes, and takes nothing from it. -/
theorem State.subset_choose (s : State) (quiet : Bool) (acc : List Instr × Nat) (l : List Instr) : acc.1 ⊆ (s.choose quiet acc l).1 := by
  unfold State.choose
  split
  · exact List.Subset.refl _
  · exact List.subset_append_left ..

/-- What comes of a core without a choice is among its events of the clk. -/
theorem State.subset_coreTodo (s : State) (quiet : Bool) (c : Nat) :
    coreEvents c (s.core c) ++ s.forwardedTo c ++ s.accepts c ++ s.drawn c ++ s.teamEvents c ⊆ (s.coreTodo quiet c).1 := by
  have happ : ∀ {a b : List Instr} (x : List Instr), a ⊆ b → a ++ x ⊆ b ++ x := fun x h =>
    List.append_subset.mpr ⟨List.subset_append_of_subset_left _ h, List.subset_append_right ..⟩
  exact happ _ <| happ _ <| happ _ <| happ _ <| List.Subset.trans (List.subset_append_right ..) (s.subset_choose quiet (_, _) _)

/-- The core whose part it is: the least of the cores whose events have not come. -/
theorem State.turn?_least {c : Nat} (h : s.turn? = some c) :
    c ∈ s.coreList ∧ s.dev.part ≤ c ∧ ∀ x ∈ s.coreList, s.dev.part ≤ x → c ≤ x := by
  obtain ⟨hc, pre, rest, hl, hpre⟩ := List.find?_eq_some_iff_append.mp h
  have hsort : s.coreList.Pairwise (· ≤ ·) := pairwise_sortBy ..
  rw [hl, List.pairwise_append, List.pairwise_cons] at hsort
  obtain ⟨-, ⟨hleast, -⟩, -⟩ := hsort
  refine ⟨hl ▸ List.mem_append_right _ (List.mem_cons_self ..), of_decide_eq_true hc, fun x hx hle => ?_⟩
  rw [hl, List.mem_append, List.mem_cons] at hx
  rcases hx with hx | rfl | hx
  · exact absurd (hpre x hx) (by simp [hle])
  · exact le_rfl
  · exact hleast x hx

theorem State.turn?_none (h : s.turn? = none) : ∀ x ∈ s.coreList, x < s.dev.part := fun x hx => by
  simpa using List.find?_eq_none.mp h x hx

end

/-- Settles O56: what comes of the step is read off each part's list (`step_issue_reed`, `step_bins`, `step_units_over`, `step_place`), by
its first event that changes the state (`State.stepsFirst_of_firstDue`) or where there is none (`State.step_of_idle`). -/
theorem stepWithoutStream : Obligations.StepWithoutStream := by
  intro s idle first goes
  refine ⟨Prod.mk_inj.mp s.time_nextClk, step_unpowered, fun hw => ⟨fun hp => ⟨fun x => step_over hw hp, fun ho => ?_⟩, fun hp => ?_,
    fun hp ht hx => ⟨fun c hc => ?_, fun hc => ⟨State.turn?_none hc, ?_⟩⟩, step_events_over hw, step_given_over hw, fun hp => ?_⟩⟩
  · refine ⟨fun pre r rest hr hpre => ?_, step_issue_calm hw hp ho⟩
    have hstep := step_issue_reed hw hp ho hr hpre
    rw [State.reedDue] at hstep
    refine ⟨fun hkept => ?_, fun a x b hl ha hx => ?_⟩
    · rw [State.goTrap_kept hkept] at hstep
      exact State.stepsFirst_of_firstDue hstep
    · rw [hstep, hl, State.goTrap_first ha hx]
      rfl
  · exact ⟨State.stepsFirst_of_firstDue (step_bins hw hp), State.step_of_idle (step_bins hw hp)⟩
  · refine ⟨State.turn?_least hc, (s.coreTodo s.quiet c).1, (s.coreTodo s.quiet c).2, ?_, fun i hi => s.subset_coreTodo s.quiet c hi⟩
    rw [step_units_over hw hp ht hx, hc]
    rfl
  · rw [step_units_over hw hp ht hx, hc]
    rfl
  · have hplace := step_place hw hp
    refine ⟨State.stepsFirst_of_firstDue hplace, fun hl hne => ?_, fun hl he => ?_⟩
    · rw [State.step_of_idle hplace hl, if_neg hne]
    · have hboot := State.step_of_idle hplace hl
      rw [if_pos he] at hboot
      exact ⟨State.stepsFirst_of_firstDue hboot, State.step_of_idle hboot⟩

end Sys2Proof.Machine
end

section
/-! The QUEUE commands (R119, R120). -/

namespace Sys2Proof.Machine

/-- A result of the QUEUE block, and what it no longer says of a refused command (R119). -/
def State.queueResult (s : State) (n : Nat) : State :=
  s.onDev fun d => { d with queueRegs := { d.queueRegs with result := n, refusedBusy := false } }

/-- The QUEUE block takes a command of a context: none runs, its generation is the context's, and the context is not FREE (R119). -/
def State.QueueTaken (s : State) (ctx : Nat) : Prop :=
  s.dev.queueRegs.busy = false ∧ s.dev.queueRegs.gen = s.gen ctx ∧ s.ctxState ctx ≠ .free

section
variable {s : State} {ctx q : Nat} {a : Queue} {row : Queue → Option (State → State)}

/-! ## What every command tests first (R119) -/

theorem State.queueCmd_busy (h : s.dev.queueRegs.busy = true) :
    s.queueCmd ctx q row = s.onDev fun d => { d with queueRegs := { d.queueRegs with refusedBusy := true } } := by
  simp only [State.queueCmd, h, if_true]

theorem State.queueCmd_stale (hbusy : s.dev.queueRegs.busy = false) (hgen : s.dev.queueRegs.gen ≠ s.gen ctx) :
    s.queueCmd ctx q row = s.queueResult 2 := by
  simp only [State.queueCmd, hbusy, Bool.false_eq_true, if_false, if_pos hgen]
  rfl

theorem State.queueCmd_noQueue (hbusy : s.dev.queueRegs.busy = false) (hgen : s.dev.queueRegs.gen = s.gen ctx)
    (h : s.ctxState ctx = .free ∨ s.queue? ctx q = none) : s.queueCmd ctx q row = s.queueResult 3 := by
  simp only [State.queueCmd, hbusy, hgen, Bool.false_eq_true, ne_eq, not_true, if_false, beq_iff_eq]
  by_cases hfree : s.ctxState ctx = .free
  · rw [if_pos hfree]
    rfl
  · simp only [if_neg hfree, h.resolve_left hfree]
    rfl

theorem State.queueCmd_refused (h : s.QueueTaken ctx) (hq : s.queue? ctx q = some a) (hrow : row a = none) :
    s.queueCmd ctx q row = s.queueResult 1 := by
  obtain ⟨hbusy, hgen, hlive⟩ := h
  simp only [State.queueCmd, hbusy, hgen, hq, hrow, hlive, Bool.false_eq_true, ne_eq, not_true, if_false, beq_iff_eq]
  rfl

theorem State.queueCmd_row {f : State → State} (h : s.QueueTaken ctx) (hq : s.queue? ctx q = some a) (hrow : row a = some f) :
    s.queueCmd ctx q row = f (s.queueResult 0) := by
  obtain ⟨hbusy, hgen, hlive⟩ := h
  simp only [State.queueCmd, hbusy, hgen, hq, hrow, hlive, Bool.false_eq_true, ne_eq, not_true, if_false, beq_iff_eq]
  rfl

/-- A command with one row, in that row's state. -/
theorem State.queueCmd_from {st : QState} {f : Queue → State → State} (h : s.QueueTaken ctx) (hq : s.queue? ctx q = some a) (hst : a.st = st) :
    s.queueCmd ctx q (fun x => if x.st = st then some (f x) else none) = f a (s.queueResult 0) :=
  State.queueCmd_row h hq (if_pos hst)

/-- Each command is one of the QUEUE block, with no row for a state that R120 does not list for it. -/
theorem exec_queueCommand (s : State) (ctx q : Nat) {i : Instr} {states : List QState}
    (h : (i, states) ∈ [(Instr.queueEnable ctx q, [QState.off]), (.queuePreempt ctx q, [.ready]), (.queueResume ctx q, [.preempted]),
      (.queueThaw ctx q, [.frozen]), (.queueReset ctx q, [.frozen, .preempted])]) :
    ∃ row, exec i s = .next (s.queueCmd ctx q row) ∧ ∀ a, a.st ∉ states → row a = none := by
  simp only [List.mem_cons, Prod.mk.injEq, List.not_mem_nil, or_false] at h
  rcases h with ⟨rfl, rfl⟩ | ⟨rfl, rfl⟩ | ⟨rfl, rfl⟩ | ⟨rfl, rfl⟩ | ⟨rfl, rfl⟩
  case inr.inr.inr.inr => exact ⟨_, rfl, fun a ha => if_neg (by simpa using ha)⟩
  all_goals exact ⟨_, rfl, fun a ha => if_neg (List.mem_singleton.not.mp ha)⟩

/-! ## ENABLE, RESUME and THAW (R120) -/

theorem exec_queueEnable_off (h : s.QueueTaken ctx) (hq : s.queue? ctx q = some a) (hst : a.st = .off) :
    exec (.queueEnable ctx q) s = .next ((s.queueResult 0).setQueue ctx q fun a => { a with st := .ready }) :=
  congrArg Host.Outcome.next (State.queueCmd_from h hq hst)

theorem exec_queueResume_preempted (h : s.QueueTaken ctx) (hq : s.queue? ctx q = some a) (hst : a.st = .preempted) :
    exec (.queueResume ctx q) s = .next ((s.queueResult 0).setQueue ctx q fun a => { a with st := .ready }) :=
  congrArg Host.Outcome.next (State.queueCmd_from h hq hst)

/-- What was launched stays in the window, and what lies before FAULTIDX. -/
theorem exec_queueThaw_frozen (h : s.QueueTaken ctx) (hq : s.queue? ctx q = some a) (hst : a.st = .frozen) :
    exec (.queueThaw ctx q) s = .next ((s.queueResult 0).setQueue ctx q fun a =>
      { a with st := .ready, cause := 0, win := a.win.filter fun p => p.launched || a.beforeFault p }) :=
  congrArg Host.Outcome.next (State.queueCmd_from h hq hst)

end

/-! ## RIDX past the retired packets (R117) -/

/-- RIDX passes retired packets that lead the window, one by one, and no other packet leaves it. -/
theorem leadRetired_spec (i : Word) (l : List Packet) : ∃ pre, l = pre ++ (leadRetired i l).2 ∧ (∀ p ∈ pre, p.retired = true) ∧
    (leadRetired i l).1 = i + BitVec.ofNat 32 pre.length := by
  induction l generalizing i with
  | nil => exact ⟨[], rfl, nofun, (BitVec.add_zero i).symm⟩
  | cons p r ih =>
    by_cases h : (decide (p.idx = i) && p.retired) = true
    · obtain ⟨pre, hl, hpre, hi⟩ := ih (i + 1#32)
      rw [leadRetired, if_pos h]
      refine ⟨p :: pre, congrArg (p :: ·) hl, List.forall_mem_cons.mpr ⟨(Bool.and_eq_true_iff.mp h).2, hpre⟩, ?_⟩
      rw [hi, List.length_cons, Nat.add_comm, BitVec.ofNat_add, BitVec.add_assoc]
    · rw [leadRetired, if_neg h]
      exact ⟨[], rfl, nofun, (BitVec.add_zero i).symm⟩

theorem mem_of_leadRetired {i : Word} {l : List Packet} {p : Packet} (h : p ∈ (leadRetired i l).2) : p ∈ l := by
  obtain ⟨pre, hl, -, -⟩ := leadRetired_spec i l
  exact hl ▸ List.mem_append_right pre h

theorem mem_leadRetired {i : Word} {l : List Packet} {p : Packet} (h : p ∈ l) (hp : p.retired = false) : p ∈ (leadRetired i l).2 := by
  obtain ⟨pre, hl, hpre, -⟩ := leadRetired_spec i l
  rw [hl] at h
  exact (List.mem_append.mp h).resolve_left fun hin => by simp [hpre p hin] at hp

/-- A window of retired packets of consecutive indices is left whole. -/
theorem leadRetired_consecutive {f : Word → Packet} (hidx : ∀ i, (f i).idx = i) (hret : ∀ i, (f i).retired = true) (n : Nat) (i : Word) :
    leadRetired i ((List.range n).map fun k => f (i + BitVec.ofNat 32 k)) = (i + BitVec.ofNat 32 n, []) := by
  induction n generalizing i with
  | zero => simp [leadRetired]
  | succ n ih =>
    have hsucc : (List.range n).map (fun k => f (i + BitVec.ofNat 32 (k + 1))) = (List.range n).map fun k => f (i + 1#32 + BitVec.ofNat 32 k) :=
      List.map_congr_left fun k _ => by rw [Nat.add_comm, BitVec.ofNat_add, BitVec.add_assoc]
    rw [List.range_succ_eq_map, List.map_cons, List.map_map, BitVec.add_zero, leadRetired, hidx, hret, if_pos (by simp), Function.comp_def, hsucc,
      ih, Nat.add_comm n, BitVec.ofNat_add, BitVec.add_assoc]

theorem Queue.advanceRead_eq (a : Queue) :
    a.advanceRead = { a with ridx := (leadRetired a.ridx a.win).1, win := (leadRetired a.ridx a.win).2 } := rfl

/-! ## RESET (R120) -/

/-- A packet retired without effect. -/
def voidPacket (i : Word) : Packet :=
  { idx := i, typ := 0, ordered := false, notify := false, xwait := false, xq := 0, xtok := 0, xcount := 0#32,
    waitmask := 0#64, setmask := 0#64, args := 0, tag := 0#64, lrec := none, declsDue := false, launched := true,
    retired := true, grid := 0 }

/-- The packet of an index is retired without effect, where it has not launched. -/
def Queue.voidOne (kept : List Packet) (a : Queue) (i : Word) : Queue :=
  if kept.any fun p => p.idx == i then a else a.putPacket (voidPacket i)

theorem Queue.voidAll_eq (a : Queue) : a.voidAll = (((List.range (a.widx - a.ridx).toNat).foldl
    (fun (b : Queue) n => b.voidOne (a.win.filter fun p => p.launched) (a.ridx + BitVec.ofNat 32 n))
    { a with win := a.win.filter fun p => p.launched }).advanceRead) := rfl

/-- From `a` to `b` packets that count as launched join the window; nothing leaves it, and WIDX stays. -/
def Queue.Filled (a b : Queue) : Prop :=
  b.q = a.q ∧ b.widx = a.widx ∧ (∀ p ∈ a.win, p ∈ b.win) ∧ ∀ p ∈ b.win, p ∈ a.win ∨ p.launched = true

theorem Queue.Filled.refl (a : Queue) : a.Filled a := ⟨rfl, rfl, fun _ hp => hp, fun _ hp => .inl hp⟩

theorem Queue.Filled.trans {a b c : Queue} (h : a.Filled b) (h' : b.Filled c) : a.Filled c := by
  obtain ⟨hq, hw, hsub, hnew⟩ := h
  obtain ⟨hq', hw', hsub', hnew'⟩ := h'
  exact ⟨hq'.trans hq, hw'.trans hw, fun p hp => hsub' p (hsub p hp), fun p hp => (hnew' p hp).elim (hnew p) .inr⟩

theorem Queue.filled_voidOne (kept : List Packet) (a : Queue) (i : Word) : a.Filled (a.voidOne kept i) := by
  unfold Queue.voidOne
  split
  · exact .refl a
  · refine ⟨rfl, rfl, fun p hp => (mem_insertBy ..).mpr (.inr hp), fun p hp => ?_⟩
    rcases (mem_insertBy ..).mp hp with rfl | hp
    · exact .inr rfl
    · exact .inl hp

theorem Queue.filled_foldl (kept : List Packet) (at_ : Nat → Word) (l : List Nat) (a : Queue) :
    a.Filled (l.foldl (fun (b : Queue) n => b.voidOne kept (at_ n)) a) := by
  induction l generalizing a with
  | nil => exact .refl a
  | cons n r ih => exact (a.filled_voidOne kept (at_ n)).trans (ih _)

theorem insertBy_last {α : Type} {key : α → Nat} {x : α} {l : List α} (h : ∀ y ∈ l, key y < key x) : insertBy key x l = l ++ [x] := by
  induction l with
  | nil => rfl
  | cons y r ih =>
    obtain ⟨hy, hr⟩ := List.forall_mem_cons.mp h
    rw [insertBy, if_neg (by omega), ih hr]
    rfl

/-- Where none launched, each submitted packet is retired without effect, in order of index. -/
theorem Queue.foldl_voidOne_nil (a : Queue) {n : Nat} (hn : n ≤ 2 ^ 32) :
    (List.range n).foldl (fun (b : Queue) k => b.voidOne [] (a.ridx + BitVec.ofNat 32 k)) { a with win := [] } =
      { a with win := (List.range n).map fun k => voidPacket (a.ridx + BitVec.ofNat 32 k) } := by
  induction n with
  | zero => rfl
  | succ n ih =>
    have hdist {k : Nat} (hk : k < 2 ^ 32) : (a.ridx + BitVec.ofNat 32 k - a.ridx).toNat = k := by
      rw [BitVec.add_comm, BitVec.add_sub_cancel, BitVec.toNat_ofNat, Nat.mod_eq_of_lt hk]
    rw [List.range_succ, List.foldl_append, ih (by omega), List.foldl_cons, List.foldl_nil, Queue.voidOne, List.any_nil,
      if_neg Bool.false_ne_true, Queue.putPacket, insertBy_last, List.map_append]
    · rfl
    · intro y hy
      obtain ⟨k, hk, rfl⟩ := List.mem_map.mp hy
      have hlt : k < n := List.mem_range.mp hk
      simp only [Queue.dist, voidPacket]
      rw [hdist (by omega), hdist (by omega)]
      exact hlt

theorem Queue.voidAll_spec (a : Queue) : a.voidAll.q = a.q ∧ a.voidAll.widx = a.widx ∧ (∀ p ∈ a.voidAll.win, p.launched = true) ∧
    (∀ p ∈ a.win, p.launched = true → p.retired = false → p ∈ a.voidAll.win) ∧
    ((∀ p ∈ a.win, p.launched = false) → a.voidAll.ridx = a.widx) := by
  obtain ⟨hq, hw, hsub, hnew⟩ := Queue.filled_foldl (a.win.filter fun p => p.launched) (fun n => a.ridx + BitVec.ofNat 32 n)
    (List.range (a.widx - a.ridx).toNat) { a with win := a.win.filter fun p => p.launched }
  rw [Queue.voidAll_eq, Queue.advanceRead_eq]
  refine ⟨hq, hw, fun p hp => ?_, fun p hp hl hr => ?_, fun hnone => ?_⟩
  · rcases hnew p (mem_of_leadRetired hp) with hp | hp
    · exact (List.mem_filter.mp hp).2
    · exact hp
  · exact mem_leadRetired (hsub p (List.mem_filter.mpr ⟨hp, hl⟩)) hr
  · have hkept : (a.win.filter fun p => p.launched) = [] := List.filter_eq_nil_iff.mpr fun p hp => by simp [hnone p hp]
    rw [hkept, Queue.foldl_voidOne_nil a (a.widx - a.ridx).isLt.le]
    dsimp only
    rw [leadRetired_consecutive (fun _ => rfl) (fun _ => rfl), BitVec.ofNat_toNat, BitVec.setWidth_eq,
      BitVec.add_comm, BitVec.sub_add_cancel]

section
variable {s : State} {ctx q : Nat} {a : Queue}

theorem exec_queueReset_stopped (h : s.QueueTaken ctx) (hq : s.queue? ctx q = some a) (hst : a.st = .frozen ∨ a.st = .preempted) :
    exec (.queueReset ctx q) s = .next ((s.queueResult 0).setQueue ctx q fun a => { a.voidAll with st := .ready, cause := 0 }) :=
  congrArg Host.Outcome.next (State.queueCmd_row (f := fun s => s.setQueue ctx q fun a => { a.voidAll with st := .ready, cause := 0 }) h hq
    (if_pos (by simpa using hst)))

/-- RESET retires without effect every submitted packet that has not launched. -/
theorem exec_queueReset_spec (h : s.QueueTaken ctx) (hq : s.queue? ctx q = some a) (hst : a.st = .frozen ∨ a.st = .preempted) :
    ∃ (t : State) (b : Queue), exec (.queueReset ctx q) s = .next t ∧ t.queue? ctx q = some b ∧ b.st = .ready ∧
      b.cause = 0 ∧ b.widx = a.widx ∧ (∀ p ∈ b.win, p.launched = true) ∧ (∀ p ∈ a.win, p.launched = true → p.retired = false → p ∈ b.win) ∧
      ((∀ p ∈ a.win, p.launched = false) → b.ridx = a.widx) := by
  obtain ⟨-, hwidx, hwin, hkept, hridx⟩ := a.voidAll_spec
  refine ⟨_, { a.voidAll with st := .ready, cause := 0 }, exec_queueReset_stopped h hq hst, ?_, rfl, rfl, hwidx, hwin, hkept, hridx⟩
  have hq0 : (s.queueResult 0).queue? ctx q = some a := hq
  rw [State.queue?_setQueue _ _ _ _ _ (by exact fun a => a.voidAll_spec.1), if_pos rfl, hq0, Option.map_some]

end

end Sys2Proof.Machine
end

section
/-! PREEMPT (R119, R120). -/

namespace Sys2Proof.Machine

section
variable {s : State} {ctx q : Nat} {a : Queue}

/-- A team of one of the queue's packets. -/
def State.OfQueue (s : State) (ctx q : Nat) (x : Team) : Prop := x.ctx = ctx ∧ ∃ g c i, s.grid? x.grid = some g ∧ g.src = .packet c q i

/-- The team is one of those that a PREEMPT of the queue asks to save. -/
def State.ofQueue (s : State) (ctx q : Nat) (x : Team) : Bool :=
  x.ctx == ctx && match (s.grid? x.grid).map Grid.src with
    | some (.packet _ n _) => n == q
    | _ => false

theorem State.ofQueue_iff (s : State) (ctx q : Nat) (x : Team) : s.ofQueue ctx q x = true ↔ s.OfQueue ctx q x := by
  unfold State.ofQueue State.OfQueue
  rw [Bool.and_eq_true, beq_iff_eq]
  refine and_congr_right fun _ => ?_
  cases hg : s.grid? x.grid with
  | none => simp
  | some g => cases hs : g.src <;> simp [hs]

theorem State.allSaved_queue_iff (s : State) (ctx q : Nat) :
    s.allSaved ctx (some q) = true ↔ ∀ x ∈ s.dev.teams, s.OfQueue ctx q x → x.st ≠ .resident ∧ x.st ≠ .saving := by
  simp only [State.allSaved, List.all_eq_true]
  refine forall₂_congr fun x _ => ?_
  rw [← State.ofQueue_iff, State.ofQueue]
  cases hs : (s.grid? x.grid).map Grid.src with
  | none => simp
  | some src => cases src <;> simp [Decidable.imp_iff_not_or, or_comm, or_left_comm]

/-- A `PREEMPT` that runs ends where every team of its queue is saved; no team, context or grid changes. -/
theorem State.finishCmds_preempt (h : s.dev.queueRegs.run = some (2, ctx, q)) : ∃ r : CmdRegs, s.finishCmds.dev =
    { s.dev with ctxRegs := r, queueRegs := if s.allSaved ctx (some q) = true then s.dev.queueRegs.finish 0 else s.dev.queueRegs } := by
  have hend : ∃ u : State, (∃ r, u.dev = { s.dev with ctxRegs := r }) ∧
      s.finishCmds = if u.allSaved ctx (some q) = true then u.onDev fun d => { d with queueRegs := d.queueRegs.finish 0 } else u := by
    unfold State.finishCmds
    split
    next =>
      split
      next => exact ⟨s.onDev fun d => { d with ctxRegs := d.ctxRegs.finish 0 }, ⟨_, rfl⟩, by simp only [State.onDev_dev, h]⟩
      next => exact ⟨s, ⟨_, rfl⟩, by simp only [h]⟩
    next => exact ⟨s, ⟨_, rfl⟩, by simp only [h]⟩
  obtain ⟨u, ⟨r, hu⟩, hfin⟩ := hend
  have hsaved : u.allSaved = s.allSaved := by
    unfold State.allSaved State.grid?
    rw [hu]
  refine ⟨r, ?_⟩
  rw [hfin, hsaved]
  split
  · rw [State.onDev_dev, hu]
  · exact hu

/-- A save asked of chosen teams leaves none of them resident, and those of them that save were resident or saving. -/
theorem State.requestSave_chosen (s : State) {sel : Team → Bool} (hsel : ∀ x : Team, sel { x with st := .saving } = sel x) :
    (∀ x ∈ (s.requestSave sel).dev.teams, sel x = true → x.st ≠ .resident) ∧
    ((∃ x ∈ (s.requestSave sel).dev.teams, sel x = true ∧ x.st = .saving) ↔
      ∃ x ∈ s.dev.teams, sel x = true ∧ (x.st = .resident ∨ x.st = .saving)) := by
  obtain ⟨hit, hteams, hres, hall⟩ := s.requestSave_teams sel
  simp only [hteams, updIf, List.mem_map]
  refine ⟨?_, ?_, ?_⟩
  · rintro _ ⟨t, ht, rfl⟩ hs
    by_cases hh : hit t = true
    · simp [hh]
    · rw [if_neg hh] at hs ⊢
      exact fun hst => hh (hall t ht hs hst)
  · rintro ⟨_, ⟨t, ht, rfl⟩, hs, hst⟩
    by_cases hh : hit t = true
    · rw [if_pos hh, hsel] at hs
      exact ⟨t, ht, hs, .inl (hres t hh)⟩
    · rw [if_neg hh] at hs hst
      exact ⟨t, ht, hs, .inr hst⟩
  · rintro ⟨t, ht, hs, hst⟩
    refine ⟨_, ⟨t, ht, rfl⟩, ?_⟩
    by_cases hh : hit t = true
    · rw [if_pos hh, hsel]
      exact ⟨hs, rfl⟩
    · rw [if_neg hh]
      exact ⟨hs, hst.resolve_left fun h => hh (hall t ht hs h)⟩

/-- The queue is PREEMPTED. -/
def State.stopped (s : State) (ctx q : Nat) : State := (s.queueResult 0).setQueue ctx q fun a => { a with st := .preempted }

/-- The state in which a `PREEMPT` runs: the queue is PREEMPTED, its teams are asked to save, and `asked` stands for whom. -/
def State.preempting (s : State) (ctx q : Nat) (asked : Option (Nat × List Nat)) : State :=
  (((s.stopped ctx q).requestSave ((s.stopped ctx q).ofQueue ctx q)).updQueue ctx q fun a => { a with asked := asked }).onDev fun d =>
    { d with queueRegs := { d.queueRegs with busy := true, run := some (2, ctx, q) } }

theorem exec_queuePreempt_eq (h : s.QueueTaken ctx) (hq : s.queue? ctx q = some a) (hst : a.st = .ready) :
    ∃ asked, exec (.queuePreempt ctx q) s = .next (s.preempting ctx q asked).finishCmds :=
  ⟨_, congrArg Host.Outcome.next (State.queueCmd_from h hq hst)⟩

theorem State.stopped_dev (s : State) (ctx q : Nat) : (s.stopped ctx q).dev.teams = s.dev.teams ∧ (s.stopped ctx q).dev.grids = s.dev.grids := by
  cases h : (s.queueResult 0).queue? ctx q with
  | none => rw [State.stopped, State.setQueue_none _ h]; exact ⟨rfl, rfl⟩
  | some a =>
    obtain ⟨-, ts, hd⟩ := State.setQueue_stores (fun a => { a with st := .preempted }) h
    rw [State.stopped, hd]
    exact ⟨rfl, rfl⟩

theorem State.OfQueue_congr {t : State} (h : t.dev.grids = s.dev.grids) : t.OfQueue = s.OfQueue := by
  unfold State.OfQueue State.grid?
  rw [h]

theorem State.preempting_teams (s : State) (ctx q : Nat) (asked : Option (Nat × List Nat)) :
    let t := s.preempting ctx q asked
    (∀ x ∈ t.dev.teams, t.OfQueue ctx q x → x.st ≠ .resident) ∧
    ((∃ x ∈ t.dev.teams, t.OfQueue ctx q x ∧ x.st = .saving) ↔ ∃ x ∈ s.dev.teams, s.OfQueue ctx q x ∧ (x.st = .resident ∨ x.st = .saving)) := by
  obtain ⟨hteams, hgrids⟩ := s.stopped_dev ctx q
  have h := (s.stopped ctx q).requestSave_chosen (sel := (s.stopped ctx q).ofQueue ctx q) fun _ => rfl
  simp only [State.ofQueue_iff, hteams, State.OfQueue_congr hgrids] at h
  intro t
  rw [show t.OfQueue = s.OfQueue from State.OfQueue_congr hgrids]
  exact h

theorem State.preempting_queue (hq : s.queue? ctx q = some a) (asked : Option (Nat × List Nat)) :
    (s.preempting ctx q asked).queue? ctx q = some { a with st := .preempted, asked := asked } := by
  have hstop : (s.stopped ctx q).queue? ctx q = some { a with st := .preempted } := by
    rw [State.stopped, State.queue?_setQueue _ _ _ _ _ (by exact fun _ => rfl), if_pos rfl]
    exact congrArg _ hq
  refine (State.queue?_updQueue ((s.stopped ctx q).requestSave _) ctx q q (fun a => { a with asked := asked }) fun _ => rfl).trans ?_
  rw [if_pos rfl]
  exact congrArg _ hstop

/-- PREEMPT goes on while a team of the queue's packets was resident or saving, and else has ended. -/
theorem exec_queuePreempt_ready (h : s.QueueTaken ctx) (hq : s.queue? ctx q = some a) (hst : a.st = .ready) :
    ∃ t : State, exec (.queuePreempt ctx q) s = .next t ∧ (t.queue? ctx q).map Queue.st = some .preempted ∧
      (∀ x ∈ t.dev.teams, t.OfQueue ctx q x → x.st ≠ .resident) ∧
      ((∃ x ∈ s.dev.teams, s.OfQueue ctx q x ∧ (x.st = .resident ∨ x.st = .saving)) → t.dev.queueRegs.busy = true) ∧
      ((∀ x ∈ s.dev.teams, s.OfQueue ctx q x → x.st ≠ .resident ∧ x.st ≠ .saving) →
        t.dev.queueRegs.busy = false ∧ t.dev.queueRegs.result = 0) := by
  obtain ⟨asked, hexec⟩ := exec_queuePreempt_eq h hq hst
  obtain ⟨hres, hsaving⟩ := s.preempting_teams ctx q asked
  have hqueue := State.preempting_queue hq asked
  have hend := (s.preempting ctx q asked).allSaved_queue_iff ctx q
  obtain ⟨r, hdev⟩ := State.finishCmds_preempt (s := s.preempting ctx q asked) (ctx := ctx) (q := q) rfl
  have hof : (s.preempting ctx q asked).finishCmds.OfQueue = (s.preempting ctx q asked).OfQueue := State.OfQueue_congr (by rw [hdev])
  refine ⟨_, hexec, ?_, ?_, fun hheld => ?_, fun hfree => ?_⟩
  · have hsame : (s.preempting ctx q asked).finishCmds.queue? ctx q = (s.preempting ctx q asked).queue? ctx q := by
      simp only [State.queue?, State.ctx?, hdev]
    rw [hsame, hqueue]
    rfl
  · rw [hof, hdev]
    exact hres
  · obtain ⟨x, hx, hmine, hst⟩ := hsaving.mpr hheld
    rw [hdev, if_neg fun hall => (hend.mp hall x hx hmine).2 hst]
    rfl
  · rw [hdev, if_pos]
    · exact ⟨rfl, rfl⟩
    · refine hend.mpr fun x hx hmine => ⟨hres x hx hmine, fun hst => ?_⟩
      obtain ⟨y, hy, hymine, hyst⟩ := hsaving.mp ⟨x, hx, hmine, hst⟩
      obtain ⟨hnres, hnsav⟩ := hfree y hy hymine
      exact hyst.elim hnres hnsav

end

end Sys2Proof.Machine
end

section
/-! A packet's life: read and checked, launched, retired (R107, R110 to R118). -/

namespace Sys2Proof.Machine

section
variable {s : State} {ctx q : Nat} {c : Ctx} {a : Queue}

theorem State.queue?_of_ctx (hc : s.ctx? ctx = some c) : s.queue? ctx q = c.queue? q := by
  rw [State.queue?, hc, Option.bind_some]

/-! ## PACKET_PARSE (R107, R110, R111, R122) -/

/-- The packet of an index out of the window. -/
def Queue.dropPacket (idx : Word) (a : Queue) : Queue := { a with win := a.win.filter fun x => x.idx != idx }

/-- A record that R122 or R125 refuses freezes its queue at the packet (R111). -/
theorem State.parseDecls_refused {p : Packet} {r : LaunchRec}
    (h : r.inRange = false ∨ (r.inRange = true ∧ r.tdcount = 0 ∧ s.recordOk ctx r = false)) :
    s.parseDecls ctx q p r = ((s.updQueue ctx q (Queue.dropPacket p.idx)).freezeQueue ctx q 2 p.idx).endEng p.grid := by
  rcases h with h | ⟨hin, htd, hok⟩
  · simp only [State.parseDecls, h, Bool.not_false, if_true]
    rfl
  · simp only [State.parseDecls, hin, htd, hok, Bool.not_true, Bool.false_eq_true, if_true, if_false]
    rfl

/-- A record without declarations that R125 accepts is taken. -/
theorem State.parseDecls_taken {p : Packet} {r : LaunchRec} (hin : r.inRange = true) (htd : r.tdcount = 0) (hok : s.recordOk ctx r = true) :
    s.parseDecls ctx q p r = ((s.endEng p.grid).updQueue ctx q (Queue.dropPacket p.idx)).updQueue ctx q fun a =>
      a.putPacket { p with lrec := some r, declsDue := false } := by
  simp only [State.parseDecls, hin, htd, hok, Bool.not_true, Bool.false_eq_true, if_true, if_false]
  rfl

theorem exec_packetParse_stopped (hc : s.ctx? ctx = some c) (hq : c.queue? q = some a) (h : c.st ≠ .active ∨ a.st ≠ .ready) :
    exec (.packetParse ctx q) s = .next s := by
  have hnot : (c.st != .active || a.st != .ready) = true := by simpa using h
  show execPacketParse ctx q s = _
  simp only [execPacketParse, State.queue?_of_ctx hc, hq, hc, hnot, if_true]

/-- The bytes of the packet at an index of the ring (R107). -/
def State.packetBytes (s : State) (a : Queue) (idx : Word) : List Byte := mgets s.mem (a.ringbase + 64 * (idx.toNat % 2 ^ a.log2n)) 64

/-- What comes of the packet at an index (R110, R111). -/
def State.parseAt (s : State) (ctx q : Nat) (c : Ctx) (a : Queue) (idx : Word) : State :=
  match s.packetOf c.e.qcount idx (s.packetBytes a idx) with
  | none => s.freezeQueue ctx q 1 idx
  | some p =>
    if p.typ = 0 then s.setQueue ctx q fun a => (a.putPacket { p with launched := true, retired := true }).advanceRead
    else if p.typ = 2 then s.updQueue ctx q fun a => a.putPacket p
    else s.fresh.2.parseDecls ctx q { p with grid := s.dev.nextId } (launchOf (mgets s.mem (fld (s.packetBytes a idx) 0x20 8) 256))

/-- Of a queue that runs and has no declarations to read, the next packet is looked at. -/
theorem exec_packetParse_running (hc : s.ctx? ctx = some c) (hq : c.queue? q = some a) (hact : c.st = .active) (hready : a.st = .ready)
    (hd : s.declsReady a = none) : exec (.packetParse ctx q) s = .next ((a.nextParse.map (s.parseAt ctx q c a)).getD s) := by
  have hnot : (c.st != .active || a.st != .ready) = false := by simp [hact, hready]
  show execPacketParse ctx q s = _
  simp only [execPacketParse, State.queue?_of_ctx hc, hq, hc, hnot, hd, Bool.false_eq_true, if_false]
  cases a.nextParse <;> rfl

section
variable {idx : Word}

theorem State.parseAt_malformed (h : s.packetOf c.e.qcount idx (s.packetBytes a idx) = none) :
    s.parseAt ctx q c a idx = s.freezeQueue ctx q 1 idx := by
  unfold State.parseAt
  rw [h]

variable {p : Packet} (h : s.packetOf c.e.qcount idx (s.packetBytes a idx) = some p)
include h

/-- A packet without effect retires as it is read. -/
theorem State.parseAt_void (htyp : p.typ = 0) : s.parseAt ctx q c a idx =
    s.setQueue ctx q fun a => (a.putPacket { p with launched := true, retired := true }).advanceRead := by
  unfold State.parseAt
  rw [h]
  exact if_pos htyp

theorem State.parseAt_signal (htyp : p.typ = 2) : s.parseAt ctx q c a idx = s.updQueue ctx q fun a => a.putPacket p := by
  unfold State.parseAt
  rw [h]
  simp only [htyp, if_true, OfNat.ofNat_ne_zero, if_false]

/-- The record of a LAUNCH packet is read. -/
theorem State.parseAt_launch (htyp : p.typ = 1) : s.parseAt ctx q c a idx =
    s.fresh.2.parseDecls ctx q { p with grid := s.dev.nextId } (launchOf (mgets s.mem (fld (s.packetBytes a idx) 0x20 8) 256)) := by
  unfold State.parseAt
  rw [h]
  simp only [htyp, Nat.one_ne_zero, OfNat.one_ne_ofNat, if_false]

end

/-! Whether R125 refuses a record is a matter of the fuses and of the context alone: reading it is not seen. -/

theorem State.rectOk_congr {t : State} (hf : t.fuse = s.fuse) : t.rectOk = s.rectOk := by
  have hon : t.coreOn = s.coreOn := by
    unfold State.coreOn
    rw [hf]
  unfold State.rectOk
  rw [hon]

theorem State.findSpots_congr {t : State} (hf : t.fuse = s.fuse) (r : LaunchRec) (base : Nat → Occ) (ok : Nat → Nat → Bool) (n ptr : Nat)
    (m : List (Nat × Occ)) : t.findSpots r base ok n ptr m = s.findSpots r base ok n ptr m := by
  have hspot (occ : Nat → Occ) (ptr : Nat) : t.findSpot r occ ok ptr = s.findSpot r occ ok ptr := by
    unfold State.findSpot State.spotAt
    rw [State.rectOk_congr hf, hf]
  induction n generalizing ptr m with
  | zero => rfl
  | succ n ih => simp only [State.findSpots, hspot, ih]

theorem State.recordOk_fresh (s : State) (ctx : Nat) (r : LaunchRec) : s.fresh.2.recordOk ctx r = s.recordOk ctx r := by
  have hctx : s.fresh.2.ctx? ctx = s.ctx? ctx := rfl
  have hfuse : s.fresh.2.fuse = s.fuse := rfl
  simp only [State.recordOk, hctx, hfuse, State.rectOk_congr hfuse, State.findSpots_congr hfuse]

theorem State.packetOf_idx {n : Nat} {idx : Word} {b : List Byte} {p : Packet} (h : s.packetOf n idx b = some p) : p.idx = idx := by
  unfold State.packetOf at h
  dsimp only at h
  split at h
  · cases h
  · cases h
    rfl

/-! ## PACKET_LAUNCH (R116 to R118) -/

theorem exec_packetLaunch_none (hc : s.ctx? ctx = some c) (hq : c.queue? q = some a) (idx : Nat) (h : c.oldestReady a = none) :
    exec (.packetLaunch ctx q idx) s = .next s := by
  show execPacketLaunch ctx q idx s = _
  simp only [execPacketLaunch, State.queue?_of_ctx hc, hq, hc, h]

/-- A SIGNAL packet retires at once, and its queue has had its turn. -/
theorem exec_packetLaunch_signal {p : Packet} (hc : s.ctx? ctx = some c) (hq : c.queue? q = some a) (h : c.oldestReady a = some p)
    (htyp : p.typ = 2) : exec (.packetLaunch ctx q p.idx.toNat) s = .next ((s.retirePacket ctx q p).tookTurn (packetPrio c a p) ctx q) := by
  show execPacketLaunch ctx q p.idx.toNat s = _
  simp only [execPacketLaunch, State.queue?_of_ctx hc, hq, hc, h, htyp, ne_eq, not_true, if_false, if_true]

theorem exec_packetLaunch_grid {p : Packet} {r : LaunchRec} (hc : s.ctx? ctx = some c) (hq : c.queue? q = some a)
    (h : c.oldestReady a = some p) (htyp : p.typ = 1) (hrec : p.lrec = some r) : exec (.packetLaunch ctx q p.idx.toNat) s =
      .next (((s.tookTurn (effPrio c a r) ctx q).updQueue ctx q fun a => a.updPacket p.idx.toNat fun x => { x with launched := true }).onDev fun d =>
        { d with grids := d.grids ++ [newGrid p.grid ctx (.packet ctx q p.idx) r (if p.args = 0 then r.args else p.args) (effPrio c a r)] }) := by
  show execPacketLaunch ctx q p.idx.toNat s = _
  simp only [execPacketLaunch, State.queue?_of_ctx hc, hq, hc, h, htyp, hrec, packetPrio, ne_eq, not_true, if_false, OfNat.one_ne_ofNat]

/-- Packets are told apart by their index as a word. -/
theorem Queue.updPacket_toNat (a : Queue) (i : Word) (f : Packet → Packet) :
    a.updPacket i.toNat f = { a with win := a.win.map fun x => if x.idx = i then f x else x } := by
  simp only [Queue.updPacket, updIf, beq_iff_eq, BitVec.toNat_inj]

theorem Queue.packet?_toNat (a : Queue) (i : Word) : a.packet? i.toNat = a.win.find? fun x => x.idx == i := by
  unfold Queue.packet?
  congr 1
  funext x
  rw [Bool.eq_iff_iff, beq_iff_eq, beq_iff_eq, BitVec.toNat_inj]

/-! ## PACKET_RETIRE (R115, R117) -/

/-- What R117 asks of the packet of a grid for it to retire. -/
theorem exec_packetRetire_eq {p : Packet} {g : Grid} (hc : s.ctx? ctx = some c) (hq : c.queue? q = some a)
    (hp : (a.win.find? fun x => x.idx == p.idx) = some p) (hg : s.grid? p.grid = some g) (htyp : p.typ = 1) :
    exec (.packetRetire ctx q p.idx.toNat) s = .next (if p.launched = true ∧ p.retired = false ∧ g.st = .retired ∧ c.st ≠ .dying
      then s.retirePacket ctx q p else s) := by
  show execPacketRetire ctx q p.idx.toNat s = _
  simp only [execPacketRetire, State.queue?_of_ctx hc, hq, Option.bind_some, Queue.packet?_toNat, hp, hg, htyp, State.ctxState_some hc,
    Option.map_some, Option.getD_some, Bool.and_eq_true, decide_true, Bool.not_eq_true', beq_iff_eq, bne_iff_ne, true_and, and_assoc]

/-- A token's count rises, and nothing else of the queue (R112). -/
theorem State.queue?_countToken (hq : s.queue? ctx q = some a) (n : Nat) : (s.countToken ctx q n).queue? ctx q =
    some { a with toks := mset a.toks n (mget a.toks n + 1#32) } := by
  simp only [State.countToken, hq]
  rw [((State.Stores.refl _).put _ _ _).queue?, State.queue?_updQueue _ _ _ _ _ (by exact fun _ => rfl), if_pos rfl, hq, Option.map_some]

/-- Those tokens of a list that a mask names are raised, one after another (R115). -/
def State.countTokens (s : State) (ctx q : Nat) (mask : BitVec 64) (l : List Nat) : State :=
  l.foldl (fun s n => if mask.getLsbD n then s.countToken ctx q n else s) s

theorem State.countTokens_cons (s : State) (ctx q : Nat) (mask : BitVec 64) (n : Nat) (l : List Nat) :
    s.countTokens ctx q mask (n :: l) = (if mask.getLsbD n then s.countToken ctx q n else s).countTokens ctx q mask l := rfl

/-- Each token rises once. -/
theorem State.queue?_countTokens (mask : BitVec 64) (l : List Nat) (hl : l.Nodup) (hq : s.queue? ctx q = some a) :
    ∃ toks, (s.countTokens ctx q mask l).queue? ctx q = some { a with toks := toks } ∧
      ∀ n, mget toks n = mget a.toks n + if n ∈ l ∧ mask.getLsbD n = true then 1#32 else 0#32 := by
  induction l generalizing s a with
  | nil => exact ⟨a.toks, hq, fun n => by simp⟩
  | cons k r ih =>
    obtain ⟨hk, hr⟩ := List.nodup_cons.mp hl
    rw [State.countTokens_cons]
    by_cases hm : mask.getLsbD k = true
    · rw [if_pos hm]
      obtain ⟨toks, htoks, hget⟩ := ih hr (State.queue?_countToken hq k)
      refine ⟨toks, htoks, fun n => ?_⟩
      rw [hget n, mget_mset]
      by_cases hn : n = k
      · subst hn
        simp [hk, hm]
      · simp [hn]
    · rw [if_neg hm]
      obtain ⟨toks, htoks, hget⟩ := ih hr hq
      refine ⟨toks, htoks, fun n => ?_⟩
      rw [hget n]
      by_cases hn : n = k
      · subst hn
        simp [hk, hm]
      · simp [hn]

/-- A packet as it is once it has retired. -/
def Packet.retire (p : Packet) : Packet := { p with launched := true, retired := true }

/-- A packet that leads the window and retires leaves it, and RIDX goes on past it (R117). -/
theorem Queue.advanceRead_leads {p : Packet} {rest : List Packet} (hwin : a.win = p :: rest) (hlen : rest.length < 32)
    (hrest : ∀ x ∈ rest, x.idx ≠ p.idx) (hidx : p.idx = a.ridx) :
    let b := (a.updPacket p.idx.toNat Packet.retire).advanceRead
    (∀ x ∈ b.win, x.idx ≠ p.idx) ∧ b.ridx ≠ a.ridx ∧ b.toks = a.toks := by
  have hmap : a.win.map (fun x => if x.idx = p.idx then x.retire else x) = p.retire :: rest := by
    rw [hwin, List.map_cons, if_pos rfl]
    exact congrArg _ ((List.map_congr_left fun x hx => if_neg (hrest x hx)).trans (List.map_id rest))
  have hlead : leadRetired a.ridx (p.retire :: rest) = leadRetired (a.ridx + 1#32) rest :=
    if_pos (by simp [Packet.retire, hidx])
  obtain ⟨pre, hl, -, hridx⟩ := leadRetired_spec (a.ridx + 1#32) rest
  have hpre : pre.length ≤ rest.length := (congrArg List.length hl).symm ▸ by simp
  rw [Queue.updPacket_toNat, hmap, Queue.advanceRead_eq]
  dsimp only
  rw [hlead]
  refine ⟨fun x hx => hrest x (mem_of_leadRetired hx), fun h => ?_, rfl⟩
  have hn := congrArg BitVec.toNat (hridx.symm.trans h)
  rw [BitVec.toNat_add, BitVec.toNat_add, BitVec.toNat_ofNat, BitVec.toNat_ofNat] at hn
  omega

/-- The retirement of a packet that sends no completion message. -/
theorem State.retirePacket_silent {p : Packet} (hnote : p.notify = false) : s.retirePacket ctx q p =
    ((s.countTokens ctx q p.setmask (List.range 64)).setQueue ctx q fun a => (a.updPacket p.idx.toNat Packet.retire).advanceRead).onDev fun d =>
      { d with grids := d.grids.filter fun g => p.typ ≠ 1 || g.id != p.grid } := by
  simp only [State.retirePacket, hnote, Bool.false_eq_true, if_false]
  rfl

theorem State.queue?_retirePacket {p : Packet} (hnote : p.notify = false) : (s.retirePacket ctx q p).queue? ctx q =
    ((s.countTokens ctx q p.setmask (List.range 64)).queue? ctx q).map fun a => (a.updPacket p.idx.toNat Packet.retire).advanceRead := by
  have hset := State.queue?_setQueue (s.countTokens ctx q p.setmask (List.range 64)) ctx q q
    (fun a => (a.updPacket p.idx.toNat Packet.retire).advanceRead) fun _ => rfl
  rw [if_pos rfl] at hset
  rw [State.retirePacket_silent hnote, ← hset]
  generalize State.setQueue .. = t
  rfl

/-- The packet that leads the window, retired without a completion message: its tokens are raised, and it leaves the window. -/
theorem State.retirePacket_leads {p : Packet} {rest : List Packet} (hq : s.queue? ctx q = some a) (hwin : a.win = p :: rest)
    (hlen : rest.length < 32) (hrest : ∀ x ∈ rest, x.idx ≠ p.idx) (hidx : p.idx = a.ridx) (hnote : p.notify = false) :
    ∃ b, (s.retirePacket ctx q p).queue? ctx q = some b ∧ (∀ x ∈ b.win, x.idx ≠ p.idx) ∧ b.ridx ≠ a.ridx ∧
      ∀ n < 64, mget b.toks n = mget a.toks n + if p.setmask.getLsbD n = true then 1#32 else 0#32 := by
  obtain ⟨toks, htoks, hget⟩ := State.queue?_countTokens p.setmask (List.range 64) List.nodup_range hq
  obtain ⟨hgone, hridx, hkeep⟩ := Queue.advanceRead_leads (a := { a with toks := toks }) hwin hlen hrest hidx
  refine ⟨_, ?_, hgone, hridx, fun n hn => ?_⟩
  · rw [State.queue?_retirePacket hnote, htoks, Option.map_some]
  · rw [hkeep, hget n]
    simp [hn]

end

/-- Settles O45: what the QUEUE block tests before a command's row and each command in its own state; the packet at the next index, the
oldest ready one launched, and the one that leads the window retired. -/
theorem queuesAndPackets : Obligations.QueuesAndPackets := by
  refine ⟨fun s ctx q => ?_, fun s ctx q c a hc hq => ?_⟩
  · intro r regs result taken
    refine ⟨fun i states hi => ?_, fun a htaken hq => ⟨exec_queueEnable_off htaken hq, exec_queueResume_preempted htaken hq,
      exec_queueThaw_frozen htaken hq, exec_queueReset_spec htaken hq, exec_queuePreempt_ready htaken hq⟩⟩
    obtain ⟨row, hexec, hrow⟩ := exec_queueCommand s ctx q hi
    rw [hexec]
    exact ⟨fun hbusy => congrArg _ (State.queueCmd_busy hbusy), fun hbusy hgen => congrArg _ (State.queueCmd_stale hbusy hgen),
      fun hbusy hgen h => congrArg _ (State.queueCmd_noQueue hbusy hgen h),
      fun a htaken hq hst => congrArg _ (State.queueCmd_refused htaken hq (hrow a hst))⟩
  · have hqueue : s.queue? ctx q = some a := (State.queue?_of_ctx hc).trans hq
    refine ⟨exec_packetParse_stopped hc hq, fun hact hready hd hn => ?_, fun idx hact hready hd hn => ?_, exec_packetLaunch_none hc hq,
      fun p hp => ⟨fun htyp hrec => ?_, fun r htyp hrec => ?_⟩, fun p g hp hg htyp => ?_, fun p rest hwin => State.retirePacket_leads hqueue hwin⟩
    · rw [exec_packetParse_running hc hq hact hready hd, hn, Option.map_none, Option.getD_none]
    · have hparse := exec_packetParse_running hc hq hact hready hd
      rw [hn, Option.map_some, Option.getD_some] at hparse
      rw [hparse]
      refine ⟨fun hbad => congrArg _ (State.parseAt_malformed hbad), fun p hp => ⟨fun htyp => congrArg _ (State.parseAt_void hp htyp),
        fun htyp => congrArg _ (State.parseAt_signal hp htyp), fun htyp => ?_⟩⟩
      have hidx := State.packetOf_idx hp
      rw [State.parseAt_launch hp htyp]
      subst hidx
      exact ⟨fun h => congrArg _ (State.parseDecls_refused (by rw [State.recordOk_fresh]; exact h)),
        fun hin htd hok => congrArg _ (State.parseDecls_taken hin htd ((State.recordOk_fresh ..).trans hok))⟩
    · rw [exec_packetLaunch_signal hc hq hp htyp, packetPrio, hrec]
      rfl
    · intro g
      rw [exec_packetLaunch_grid hc hq hp htyp hrec]
      simp only [Queue.updPacket_toNat]
      rfl
    · rw [exec_packetRetire_eq hc hq hp hg htyp]
      refine ⟨fun h => by rw [if_pos h], fun h => ?_⟩
      rw [if_neg]
      rintro ⟨hl, hr, hst, hlive⟩
      simp [hl, hr, hst, hlive] at h

end Sys2Proof.Machine
end

section
/-! Where a grid's next cluster is placed (R127, R128, R131, R433). -/

namespace Sys2Proof.Machine

/-! ## Seats (R128) -/

/-- The first element of a range for which something is found. -/
theorem findSome?_range_eq_some {α : Type} {f : Nat → Option α} {n : Nat} {b : α} :
    (List.range n).findSome? f = some b ↔ ∃ k < n, f k = some b ∧ ∀ j < k, f j = none := by
  induction n with
  | zero => simp
  | succ n ih =>
    rw [List.range_succ, List.findSome?_append, Option.or_eq_some_iff, ih, List.findSome?_eq_none_iff]
    simp only [List.mem_range, List.findSome?_singleton]
    constructor
    · rintro (⟨k, hk, h⟩ | ⟨hnone, hb⟩)
      · exact ⟨k, by omega, h⟩
      · exact ⟨n, by omega, hb, hnone⟩
    · rintro ⟨k, hk, hb, hnone⟩
      obtain rfl | hlt := Nat.eq_or_lt_of_le (Nat.le_of_lt_succ hk)
      · exact .inr ⟨hnone, hb⟩
      · exact .inl ⟨k, hlt, hb, hnone⟩

/-- A reed has room for one more group of `words` register words. -/
def reedRoom (words : Nat) (l : List (Nat × Nat × Nat)) (r : Nat) : Prop :=
  (l.filter fun x => x.1 == r).length < 4 ∧ ((l.filter fun x => x.1 == r).map fun x => x.2.2).sum + words ≤ 2048

/-- Where fewer than four groups are, one of the four resident indices is free. -/
theorem exists_free_index {l : List (Nat × Nat × Nat)} (h : l.length < 4) : ∃ i ∈ List.range 4, (!l.any fun x => x.2.1 == i) = true := by
  by_contra hno
  have hsub : List.range 4 ⊆ l.map fun x => x.2.1 := fun i hi => by
    by_contra hi'
    refine hno ⟨i, hi, ?_⟩
    rw [Bool.not_eq_true', List.any_eq_false]
    exact fun x hx h => hi' (List.mem_map.mpr ⟨x, hx, by simpa using h⟩)
  have hlen := (List.nodup_range.subperm hsub).length_le
  rw [List.length_range, List.length_map] at hlen
  omega

/-- What a reed offers to a group: its lowest free index where it has room. -/
theorem seatOne_eq (reeds words : Nat) (l : List (Nat × Nat × Nat)) : ∃ f : Nat → Option (Nat × Nat),
    seatOne reeds words l = (List.range reeds).findSome? f ∧ (∀ r, f r = none ↔ ¬ reedRoom words l r) ∧
    ∀ r s i, f r = some (s, i) → s = r ∧ i < 4 ∧ ∀ x ∈ l.filter (fun x => x.1 == r), x.2.1 ≠ i := by
  refine ⟨_, rfl, fun r => ?_, fun r s i h => ?_⟩
  · dsimp only
    by_cases hroom : reedRoom words l r
    · obtain ⟨i, hi, hfree⟩ := exists_free_index hroom.1
      have hany : ((List.range 4).find? fun i => !(l.filter fun x => x.1 == r).any fun x => x.2.1 == i).isSome = true :=
        List.find?_isSome.mpr ⟨i, hi, hfree⟩
      rw [if_pos (by simpa [reedRoom] using hroom)]
      simp only [Option.map_eq_none_iff, hroom, not_true, iff_false]
      exact Option.isSome_iff_ne_none.mp hany
    · rw [if_neg (by simpa [reedRoom] using hroom)]
      simp [hroom]
  · dsimp only at h
    split at h
    · obtain ⟨j, hj, hji⟩ := Option.map_eq_some_iff.mp h
      cases hji
      refine ⟨rfl, List.mem_range.mp (List.mem_of_find?_eq_some hj), fun x hx hxi => ?_⟩
      have hfree := List.find?_some hj
      rw [Bool.not_eq_true', List.any_eq_false] at hfree
      exact hfree x hx (by simpa using hxi)
    · cases h

theorem seatOne_some {reeds words r i : Nat} {l : List (Nat × Nat × Nat)} (h : seatOne reeds words l = some (r, i)) :
    r < reeds ∧ i < 4 ∧ reedRoom words l r ∧ (∀ q < r, ¬ reedRoom words l q) ∧ ∀ x ∈ l.filter (fun x => x.1 == r), x.2.1 ≠ i := by
  obtain ⟨f, hf, hnone, hsome⟩ := seatOne_eq reeds words l
  obtain ⟨k, hk, hki, hbefore⟩ := findSome?_range_eq_some.mp (hf ▸ h)
  obtain ⟨rfl, hi, hfree⟩ := hsome _ _ _ hki
  exact ⟨hk, hi, by_contra fun hno => by simp [(hnone r).mpr hno] at hki, fun q hq => (hnone q).mp (hbefore q hq), hfree⟩

theorem seatOne_none {reeds words : Nat} {l : List (Nat × Nat × Nat)} (h : seatOne reeds words l = none) :
    ∀ r < reeds, ¬ reedRoom words l r := by
  obtain ⟨f, hf, hnone, -⟩ := seatOne_eq reeds words l
  rw [hf, List.findSome?_eq_none_iff] at h
  exact fun r hr => (hnone r).mp (h r (List.mem_range.mpr hr))

/-! ## Rectangles (R127) -/

theorem rectCores_succ (o w h : Nat) : rectCores o w (h + 1) = rectCores o w h ++ (List.range w).map fun i => o + 16 * h + i := by
  simp [rectCores, List.range_succ]

theorem length_rectCores (o w h : Nat) : (rectCores o w h).length = w * h := by
  induction h with
  | zero => rfl
  | succ h ih => rw [rectCores_succ, List.length_append, ih, List.length_map, List.length_range, Nat.mul_succ]

theorem mem_rectCores {o w h c : Nat} : c ∈ rectCores o w h ↔ ∃ i < w, ∃ j < h, o + 16 * j + i = c := by
  simp only [rectCores, List.mem_flatten, List.mem_map, List.mem_range]
  constructor
  · rintro ⟨_, ⟨j, hj, rfl⟩, hc⟩
    obtain ⟨i, hi, rfl⟩ := List.mem_map.mp hc
    exact ⟨i, List.mem_range.mp hi, j, hj, rfl⟩
  · rintro ⟨i, hi, j, hj, rfl⟩
    exact ⟨_, ⟨j, hj, rfl⟩, List.mem_map_of_mem (List.mem_range.mpr hi)⟩

/-- The cores of a rectangle stand row by row. -/
theorem rectCores_getElem? {o w h n : Nat} (hn : n < w * h) : (rectCores o w h)[n]? = some (o + 16 * (n / w) + n % w) := by
  induction h with
  | zero => simp at hn
  | succ h ih =>
    rw [rectCores_succ]
    by_cases hlt : n < w * h
    · rw [List.getElem?_append_left (by rwa [length_rectCores]), ih hlt]
    · obtain ⟨k, rfl⟩ := Nat.exists_eq_add_of_le (Nat.le_of_not_lt hlt)
      have hk : k < w := by
        rw [Nat.mul_succ] at hn
        omega
      rw [List.getElem?_append_right (by rw [length_rectCores]; omega), length_rectCores, Nat.add_sub_cancel_left, List.getElem?_map,
        List.getElem?_range hk, Nat.mul_add_div (by omega), Nat.mul_add_mod, Nat.div_eq_of_lt hk, Nat.mod_eq_of_lt hk]
      rfl

/-! ## The place of a cluster -/

/-- The rectangle at an origin lies within the array and one half, and each core of it is ready and accepts its team (R127, R128, R433). -/
def State.SpotTakes (s : State) (r : LaunchRec) (o : Nat) : Prop :=
  s.rectOk o r.clw r.clh = true ∧ ∀ c ∈ rectCores o r.clw r.clh, s.coreReady c = true ∧ ((s.occ c).accept s.fuse.reeds r).isSome = true

theorem map_fst_filterMap {α β γ : Type} {f : α → Option β} {g : α → γ} {k : β → γ} {l : List α} (hsome : ∀ x ∈ l, (f x).isSome = true)
    (hf : ∀ x y, f x = some y → k y = g x) : (l.filterMap f).map k = l.map g := by
  induction l with
  | nil => rfl
  | cons x r ih =>
    obtain ⟨y, hy⟩ := Option.isSome_iff_exists.mp (hsome x List.mem_cons_self)
    rw [List.filterMap_cons_some hy, List.map_cons, List.map_cons, hf x y hy, ih fun z hz => hsome z (List.mem_cons_of_mem _ hz)]

/-- The seats that a core offers to a team, where it is ready (R128, R433). -/
def State.seatsAt (s : State) (r : LaunchRec) (c : Nat) : Option (Nat × List (Nat × Nat) × Occ) :=
  if s.coreReady c = true then ((s.occ c).accept s.fuse.reeds r).map fun x => (c, x.1, x.2) else none

theorem State.seatsAt_isSome {s : State} {r : LaunchRec} {c : Nat} :
    (s.seatsAt r c).isSome = true ↔ s.coreReady c = true ∧ ((s.occ c).accept s.fuse.reeds r).isSome = true := by
  unfold State.seatsAt
  split <;> simp [*]

theorem State.seatsAt_core {s : State} {r : LaunchRec} {c : Nat} {x : Nat × List (Nat × Nat) × Occ} (h : s.seatsAt r c = some x) : x.1 = c := by
  unfold State.seatsAt at h
  split at h
  · obtain ⟨y, -, rfl⟩ := Option.map_eq_some_iff.mp h
    rfl
  · cases h

/-- A rectangle within the array and one half gives a place where every core of it offers seats. -/
theorem State.spotAt_rect {s : State} {r : LaunchRec} {o : Nat} (h : s.rectOk o r.clw r.clh = true) :
    s.spotAt r s.occ (fun c _ => s.coreReady c) o =
      if ((rectCores o r.clw r.clh).filterMap (s.seatsAt r)).length = (rectCores o r.clw r.clh).length then
        some (⟨o, ((rectCores o r.clw r.clh).filterMap (s.seatsAt r)).map fun x => (x.1, x.2.1)⟩,
          ((rectCores o r.clw r.clh).filterMap (s.seatsAt r)).map fun x => (x.1, x.2.2)) else none := by
  have hseats : (rectCores o r.clw r.clh).filterMap (s.seatsAt r) =
      ((rectCores o r.clw r.clh).zip (List.range (rectCores o r.clw r.clh).length)).filterMap fun x => s.seatsAt r x.1 := by
    conv_lhs => rw [← List.map_fst_zip (l₁ := rectCores o r.clw r.clh) (l₂ := List.range (rectCores o r.clw r.clh).length) (by simp)]
    rw [List.filterMap_map]
    rfl
  rw [hseats, State.spotAt, if_neg (by simp [h])]
  rfl

theorem State.spotAt_none {s : State} {r : LaunchRec} {o : Nat} :
    s.spotAt r s.occ (fun c _ => s.coreReady c) o = none ↔ ¬ s.SpotTakes r o := by
  by_cases h : s.rectOk o r.clw r.clh = true
  · simp only [State.spotAt_rect h, List.filterMap_length_eq_length, State.seatsAt_isSome, State.SpotTakes, h, true_and,
      ite_eq_right_iff, reduceCtorEq, imp_false]
  · simp [State.spotAt, State.SpotTakes, h]

theorem State.spotAt_some {s : State} {r : LaunchRec} {o : Nat} {x : Spot × List (Nat × Occ)}
    (h : s.spotAt r s.occ (fun c _ => s.coreReady c) o = some x) :
    s.SpotTakes r o ∧ x.1.origin = o ∧ x.1.cores.map Prod.fst = rectCores o r.clw r.clh := by
  have htakes : s.SpotTakes r o := by_contra fun hno => by simp [State.spotAt_none.mpr hno] at h
  obtain ⟨hrect, hcores⟩ := htakes
  rw [State.spotAt_rect hrect] at h
  split at h
  · cases h
    refine ⟨⟨hrect, hcores⟩, rfl, ?_⟩
    rw [List.map_map]
    exact (map_fst_filterMap (fun c hc => State.seatsAt_isSome.mpr (hcores c hc)) fun c y => State.seatsAt_core).trans (List.map_id _)
  · cases h

/-- The grid's teams may be placed, a cluster of it is pending, and no quota is met (R97, R98, R120, R130). -/
def State.MayPlace (s : State) (gr : Grid) : Prop :=
  s.mayRun gr = true ∧ gr.nextCl < gr.lr.clusters ∧
    s.quotaOk gr.ctx (gr.lr.clw * gr.lr.clh) (gr.lr.clw * gr.lr.clh * gr.lr.saveBytes (s.qacc gr.ctx)) = true

/-- A grid of a packet that is not cooperative has its next cluster placed alone, at the first rectangle from the pointer on. -/
theorem State.planGrid_eq {s : State} {gr : Grid} (hcoop : gr.lr.coop = false) (hbin : gr.src.isBin = false) (hmay : s.MayPlace gr) :
    s.planGrid gr = ((List.range 192).findSome? fun k =>
      s.spotAt gr.lr s.occ (fun c _ => s.coreReady c) ((s.dev.placePtr + k) % 192)).map fun x => [x.1] := by
  obtain ⟨hrun, hnext, hquota⟩ := hmay
  have hone : gr.batch = 1 := by simp [Grid.batch, hcoop]
  have hgo : ¬ (!s.mayRun gr || decide (gr.nextCl ≥ gr.lr.clusters) || gr.src.isBin ||
      !s.quotaOk gr.ctx (1 * gr.lr.clw * gr.lr.clh) (1 * gr.lr.clw * gr.lr.clh * gr.lr.saveBytes (s.qacc gr.ctx))) = true := by
    simp [hrun, hnext, hbin, hquota]
  unfold State.planGrid
  rw [hone, if_neg hgo]
  simp only [State.findSpots, State.findSpot, assoc, Option.getD_none]
  cases (List.range 192).findSome? fun k => s.spotAt gr.lr s.occ (fun c _ => s.coreReady c) ((s.dev.placePtr + k) % 192) <;> rfl

theorem State.planGrid_none_of_not {s : State} {gr : Grid} (hcoop : gr.lr.coop = false) (hmay : ¬ s.MayPlace gr) : s.planGrid gr = none := by
  have hone : gr.batch = 1 := by simp [Grid.batch, hcoop]
  unfold State.planGrid
  rw [hone]
  refine if_pos ?_
  by_contra hno
  simp only [Nat.one_mul, Bool.or_eq_true, not_or, Bool.not_eq_true', decide_eq_true_eq, ge_iff_le, not_le, Bool.not_eq_true, Bool.not_eq_false] at hno
  obtain ⟨⟨⟨hrun, hnext⟩, -⟩, hquota⟩ := hno
  exact hmay ⟨hrun, hnext, hquota⟩

theorem State.planGrid_none_iff {s : State} {gr : Grid} (hcoop : gr.lr.coop = false) (hbin : gr.src.isBin = false) :
    s.planGrid gr = none ↔ ¬ (s.MayPlace gr ∧ ∃ k < 192, s.SpotTakes gr.lr ((s.dev.placePtr + k) % 192)) := by
  by_cases hmay : s.MayPlace gr
  · rw [State.planGrid_eq hcoop hbin hmay, Option.map_eq_none_iff, List.findSome?_eq_none_iff, and_iff_right hmay]
    simp only [List.mem_range, State.spotAt_none, not_exists, not_and]
  · simp [State.planGrid_none_of_not hcoop hmay, hmay]

/-- The place that a plan names: the first one from the pointer on, with its cores in ascending rank. -/
theorem State.planGrid_some {s : State} {gr : Grid} {l : List Spot} (hcoop : gr.lr.coop = false) (hbin : gr.src.isBin = false)
    (h : s.planGrid gr = some l) : ∃ k < 192, ∃ cores, l = [⟨(s.dev.placePtr + k) % 192, cores⟩] ∧ s.SpotTakes gr.lr ((s.dev.placePtr + k) % 192) ∧
      (∀ j < k, ¬ s.SpotTakes gr.lr ((s.dev.placePtr + j) % 192)) ∧ cores.map Prod.fst = rectCores ((s.dev.placePtr + k) % 192) gr.lr.clw gr.lr.clh := by
  have hmay : s.MayPlace gr := by_contra fun hno => by simp [State.planGrid_none_of_not hcoop hno] at h
  rw [State.planGrid_eq hcoop hbin hmay] at h
  obtain ⟨⟨⟨o, cores⟩, n⟩, hx, rfl⟩ := Option.map_eq_some_iff.mp h
  obtain ⟨k, hk, hspot, hbefore⟩ := findSome?_range_eq_some.mp hx
  obtain ⟨htakes, rfl, hcores⟩ := State.spotAt_some hspot
  exact ⟨k, hk, cores, rfl, htakes, fun j hj => State.spotAt_none.mp (hbefore j hj), hcores⟩

end Sys2Proof.Machine
end

section
/-! A placed cluster: its teams and their groups (R123, R126, R127, R131, R138). -/

namespace Sys2Proof.Machine

/-- The groups of a team on their seats, with identities from `first` on. -/
def seatedGroups (gr : Grid) (first team core pts clk : Nat) (seats : List (Nat × Nat)) : List Group :=
  (seats.zip (List.range seats.length)).map fun x => freshGroup (first + x.2) gr team x.2 core x.1.1 x.1.2 pts clk

/-- A team as it is placed on a core, by rank, and its groups on their seats. -/
def PlacedOn (gr : Grid) (cluster k core : Nat) (seats : List (Nat × Nat)) (tm : Team) (gs : List Group) : Prop :=
  ∃ id first pts clk, tm = freshTeam id gr cluster (k % gr.lr.clw) (k / gr.lr.clw) core ∧ gs = seatedGroups gr first id core pts clk seats

theorem length_seatedGroups (gr : Grid) (first team core pts clk : Nat) (seats : List (Nat × Nat)) :
    (seatedGroups gr first team core pts clk seats).length = seats.length := by
  simp [seatedGroups]

/-- The group of a slot is on the slot's seat. -/
theorem seatedGroups_getElem? {gr : Grid} {first team core pts clk j : Nat} {seats : List (Nat × Nat)} {x : Group}
    (h : (seatedGroups gr first team core pts clk seats)[j]? = some x) :
    ∃ seat, seats[j]? = some seat ∧ x = freshGroup (first + j) gr team j core seat.1 seat.2 pts clk := by
  rw [seatedGroups, List.getElem?_map, Option.map_eq_some_iff] at h
  obtain ⟨⟨seat, k⟩, hz, rfl⟩ := h
  obtain ⟨hseat, hk⟩ := List.getElem?_zip_eq_some.mp hz
  obtain ⟨_, hk⟩ := List.getElem?_eq_some_iff.mp hk
  rw [List.getElem_range] at hk
  subst hk
  exact ⟨seat, hseat, rfl⟩

/-- The state with teams and groups placed after those there; identities up to `n` are given. -/
def State.joined (s : State) (n : Nat) (ts : List Team) (gs : List Group) : State :=
  s.onDev fun d => { d with nextId := n, teams := d.teams ++ ts, groups := d.groups ++ gs }

/-- A team is placed after the others, and so are its groups. -/
theorem State.placeTeam_dev (s : State) {gr : Grid} (hdecls : gr.lr.decls = []) (cluster k core : Nat) (seats : List (Nat × Nat)) :
    ∃ tm gs n, PlacedOn gr cluster k core seats tm gs ∧ s.placeTeam gr cluster (k % gr.lr.clw) (k / gr.lr.clw) core seats =
      s.joined n [tm] gs := by
  refine ⟨_, _, s.dev.nextId + 1 + seats.length, ⟨s.dev.nextId, s.dev.nextId + 1, s.topTs, s.dev.clk, rfl, rfl⟩, ?_⟩
  unfold State.placeTeam State.allocDecls
  rw [hdecls]
  rfl

/-- The teams of a list of cores placed one after another. -/
theorem State.placeTeams_dev {gr : Grid} (hdecls : gr.lr.decls = []) (cluster : Nat) (l : List ((Nat × List (Nat × Nat)) × Nat)) (s : State) :
    ∃ (ts : List Team) (gss : List (List Group)) (n : Nat), l.foldl (fun s x => s.placeTeam gr cluster (x.2 % gr.lr.clw) (x.2 / gr.lr.clw) x.1.1 x.1.2) s =
        s.joined n ts gss.flatten ∧
      ts.length = l.length ∧ gss.length = l.length ∧
      ∀ (k : Nat) tm gs (x : (Nat × List (Nat × Nat)) × Nat), ts[k]? = some tm → gss[k]? = some gs → l[k]? = some x → PlacedOn gr cluster x.2 x.1.1 x.1.2 tm gs := by
  induction l generalizing s with
  | nil => exact ⟨[], [], s.dev.nextId, by simp [State.joined, State.onDev], rfl, rfl, by simp⟩
  | cons x r ih =>
    obtain ⟨tm, gs, n, hplaced, hs⟩ := s.placeTeam_dev hdecls cluster x.2 x.1.1 x.1.2
    obtain ⟨ts, gss, n', ht, hts, hgss, hall⟩ := ih (s.joined n [tm] gs)
    refine ⟨tm :: ts, gs :: gss, n', ?_, by simp [hts], by simp [hgss], fun k => ?_⟩
    · rw [List.foldl_cons, hs, ht]
      simp [State.joined, State.onDev]
    · cases k with
      | zero =>
        rintro _ _ _ ⟨⟩ ⟨⟩ ⟨⟩
        exact hplaced
      | succ k => exact hall k

/-- The cluster that a grid's next place is given to (R127, R138). -/
def nextCluster (gr : Grid) (id grid origin clk : Nat) : Cluster :=
  ⟨id, grid, gr.nextCl % gr.lr.gx, gr.nextCl / gr.lr.gx % gr.lr.gy, gr.nextCl / (gr.lr.gx * gr.lr.gy), gr.nextCl, .placed, origin, clk,
    List.replicate 4 ⟨none, false, 0⟩, []⟩

/-- A grid runs on to its next cluster; `order`: its place among the grids, where it has none yet (R138, R259). -/
def Grid.runOn (g : Grid) (next order : Nat) : Grid :=
  { g with nextCl := next, st := if g.st = .launched then .running else g.st
           order := match g.order with
             | some o => some o
             | none => some order }

/-- The state in which a cluster's teams are placed: the cluster is there, its grid runs on and the pointer has moved (R131, R138). -/
def State.opened (s : State) (grid : Nat) (gr : Grid) (origin : Nat) : State :=
  let n := if gr.order.isNone then s.dev.nextOrder + 1 else s.dev.nextOrder
  (s.onDev fun d => { d with
    nextId := d.nextId + 1, clusters := d.clusters ++ [nextCluster gr d.nextId grid origin d.clk], placePtr := nextPtr origin gr.lr.clw
    nextOrder := n }).updGrid grid fun g => g.runOn (gr.nextCl + 1) (n - 1)

section
variable {s : State} {grid : Nat} {gr : Grid}

theorem State.placeCluster_eq (hg : s.grid? grid = some gr) (sp : Spot) : let cid := s.dev.nextId; s.placeCluster grid sp =
    (sp.cores.zip (List.range sp.cores.length)).foldl (fun s x => s.placeTeam gr cid (x.2 % gr.lr.clw) (x.2 / gr.lr.clw) x.1.1 x.1.2)
      (s.opened grid gr sp.origin) := by
  unfold State.placeCluster
  rw [hg]
  rfl

/-- A grid after it changes. -/
theorem State.grid?_updGrid (hg : s.grid? grid = some gr) (f : Grid → Grid) (hf : ∀ g, (f g).id = g.id) :
    (s.updGrid grid f).grid? grid = some (f gr) := by
  refine (find?_updIf_same _ f (fun g h => ?_) s.dev.grids).trans (congrArg _ hg)
  simpa [hf] using h

/-- The grid runs on to its next cluster (R138). -/
theorem State.grid?_opened (hg : s.grid? grid = some gr) (origin : Nat) :
    ((s.opened grid gr origin).grid? grid).map (fun x => (x.nextCl, x.st, x.lr)) =
      some (gr.nextCl + 1, if gr.st = .launched then .running else gr.st, gr.lr) := by
  exact congrArg _ (State.grid?_updGrid (gr := gr) hg (fun g => g.runOn _ _) fun _ => rfl)

/-- A cluster placed: its teams and groups come after those there, each team on its core in ascending rank. -/
theorem State.placeCluster_spec (hg : s.grid? grid = some gr) (hdecls : gr.lr.decls = []) (sp : Spot) :
    ∃ (ts : List Team) (gss : List (List Group)) (n : Nat), s.placeCluster grid sp = (s.opened grid gr sp.origin).joined n ts gss.flatten ∧
      ts.length = sp.cores.length ∧ gss.length = sp.cores.length ∧
      ∀ (k : Nat) tm gs core seats, ts[k]? = some tm → gss[k]? = some gs → sp.cores[k]? = some (core, seats) →
        PlacedOn gr s.dev.nextId k core seats tm gs := by
  obtain ⟨ts, gss, n, ht, hts, hgss, hall⟩ :=
    State.placeTeams_dev hdecls s.dev.nextId (sp.cores.zip (List.range sp.cores.length)) (s.opened grid gr sp.origin)
  have hlen : (sp.cores.zip (List.range sp.cores.length)).length = sp.cores.length := by simp
  refine ⟨ts, gss, n, (State.placeCluster_eq hg sp).trans ht, hts.trans hlen, hgss.trans hlen, fun k tm gs core seats htm hgs hcore => ?_⟩
  refine hall k tm gs ((core, seats), k) htm hgs (List.getElem?_zip_eq_some.mpr ⟨hcore, ?_⟩)
  exact List.getElem?_range (List.getElem?_eq_some_iff.mp hcore).1

/-- A grid with no place for its next cluster is left as it is. -/
theorem exec_teamPlace_none (hg : s.grid? grid = some gr) (h : s.planGrid gr = none) : exec (.teamPlace grid) s = .next s := by
  show execTeamPlace grid s = _
  simp only [execTeamPlace, hg, h]

theorem exec_teamPlace_one {sp : Spot} (hg : s.grid? grid = some gr) (h : s.planGrid gr = some [sp]) :
    exec (.teamPlace grid) s = .next ((s.placeCluster grid sp).writeTeams gr.ctx) := by
  show execTeamPlace grid s = _
  simp only [execTeamPlace, hg, h, List.foldl_cons, List.foldl_nil]

/-- What R126 gives a group and its threads at the placement, on the seat of its slot. -/
theorem seatedGroups_initial {first team core pts clk j : Nat} {seats : List (Nat × Nat)} {x : Group}
    (h : (seatedGroups gr first team core pts clk seats)[j]? = some x) :
    x.slot = j ∧ x.team = team ∧ x.core = core ∧ seats[j]? = some (x.reed, x.rslot) ∧ x.prio = gr.prio ∧
      (∀ r, mget x.g r = 0#32) ∧ x.sb = List.replicate 8 0 ∧ x.rb = List.replicate 16 none ∧ x.sq = [] ∧ x.ended = false ∧ x.threads.length = 32 ∧
      ∀ th ∈ x.threads, th.vpc = gr.lr.entry ∧ (∀ r, mget th.v r = 0#32) ∧ th.p = 0#7 ∧ th.ended = false ∧ th.inTrap = false := by
  obtain ⟨seat, hseat, rfl⟩ := seatedGroups_getElem? h
  refine ⟨rfl, rfl, rfl, hseat, rfl, fun _ => rfl, rfl, rfl, rfl, rfl, List.length_replicate, fun th hth => ?_⟩
  obtain rfl := List.eq_of_mem_replicate hth
  exact ⟨rfl, fun _ => rfl, rfl, rfl, rfl⟩

end

/-- A rectangle takes a cluster where each of its cores is enabled, ready and accepts its team (R127, R128, R433). -/
theorem State.SpotTakes_iff (s : State) (r : LaunchRec) (o : Nat) : s.SpotTakes r o ↔
    o % 16 + r.clw ≤ 16 ∧ o / 16 + r.clh ≤ 12 ∧ o % 16 / 8 = (o % 16 + r.clw - 1) / 8 ∧ ∀ i < r.clw, ∀ j < r.clh, let c := o + 16 * j + i
      s.fuse.coremask.getLsbD c = true ∧ s.dev.die.zonesRdy.getLsbD (zoneOf c) = true ∧ s.dev.die.shengRdy.getLsbD c = true ∧
        s.dev.die.rastRdy.getLsbD c = true ∧ (s.dev.die.freshAt = s.dev.clk → ∀ b ∈ [(0, zoneOf c), (4, c), (5, c)], b ∉ s.dev.die.fresh) ∧
        ((s.occ c).accept s.fuse.reeds r).isSome = true := by
  simp only [State.SpotTakes, State.rectOk, Bool.and_eq_true, decide_eq_true_eq, beq_iff_eq, List.all_eq_true, mem_rectCores, and_assoc]
  simp only [coreX, coreY]
  refine and_congr_right fun hw => and_congr_right fun hh => and_congr_right fun _ => ?_
  have hlt {i j : Nat} (hi : i < r.clw) (hj : j < r.clh) : o + 16 * j + i < 192 := by omega
  have hcore {c : Nat} (hc : c < 192) : s.coreOn c = true ∧ s.coreReady c = true ↔ s.fuse.coremask.getLsbD c = true ∧
      s.dev.die.zonesRdy.getLsbD (zoneOf c) = true ∧ s.dev.die.shengRdy.getLsbD c = true ∧ s.dev.die.rastRdy.getLsbD c = true ∧
        (s.dev.die.freshAt = s.dev.clk → ∀ b ∈ [(0, zoneOf c), (4, c), (5, c)], b ∉ s.dev.die.fresh) := by
    by_cases hf : s.dev.die.freshAt = s.dev.clk <;>
      simp [State.coreOn, State.coreReady, State.zoneReady, State.shengReady, State.notFresh, hc, hf, and_assoc, and_left_comm, and_comm]
  constructor
  · rintro ⟨hon, hready⟩ i hi j hj
    obtain ⟨hr, hacc⟩ := hready _ ⟨i, hi, j, hj, rfl⟩
    obtain ⟨hmask, hzone, hsheng, hrast, hfresh⟩ := (hcore (hlt hi hj)).mp ⟨hon _ ⟨i, hi, j, hj, rfl⟩, hr⟩
    exact ⟨hmask, hzone, hsheng, hrast, hfresh, hacc⟩
  · refine fun h => ⟨?_, ?_⟩
    all_goals
      rintro _ ⟨i, hi, j, hj, rfl⟩
      obtain ⟨hmask, hzone, hsheng, hrast, hfresh, hacc⟩ := h i hi j hj
      have hc := (hcore (hlt hi hj)).mpr ⟨hmask, hzone, hsheng, hrast, hfresh⟩
    · exact hc.1
    · exact ⟨hc.2, hacc⟩

/-- Settles O46: the first acceptable rectangle and the lowest reed with room, and what the cluster placed there consists of. -/
theorem placement : Obligations.Placement := by
  refine ⟨⟨fun s gr hcoop hbin => ?_, fun reeds words l => ⟨fun r i => seatOne_some, seatOne_none⟩⟩, fun s grid gr hg => ⟨exec_teamPlace_none hg, fun sp hsp hdecls => ?_⟩⟩
  · simp only [← State.SpotTakes_iff]
    refine ⟨State.planGrid_none_iff hcoop hbin, fun l hl => ?_⟩
    obtain ⟨k, hk, cores, rfl, htakes, hbefore, hcores⟩ := State.planGrid_some hcoop hbin hl
    refine ⟨k, hk, cores, rfl, htakes, hbefore, ?_, fun n hn => ?_⟩
    · rw [← List.length_map, hcores, length_rectCores]
    · rw [← List.getElem?_map, hcores, rectCores_getElem? hn]
  · obtain ⟨ts, gss, n, ht, hts, hgss, hall⟩ := State.placeCluster_spec hg hdecls sp
    obtain ⟨-, stamps, hd⟩ := (State.Stores.refl (s.placeCluster grid sp)).writeCount gr.ctx 0x58 ((s.placeCluster grid sp).teamCount gr.ctx)
    have hgrid := State.grid?_opened hg sp.origin
    refine ⟨_, ts, gss, exec_teamPlace_one hg hsp, ?_⟩
    rw [State.writeTeams, State.grid?, hd, ht]
    refine ⟨rfl, rfl, hts, hgss, rfl, rfl, hgrid, fun k tm gs core seats htm hgs hcore => ?_⟩
    obtain ⟨id, first, pts, clk, rfl, rfl⟩ := hall k tm gs core seats htm hgs hcore
    exact ⟨rfl, rfl, rfl, rfl, rfl, rfl, rfl, rfl, rfl, rfl, length_seatedGroups .., fun j x hx => seatedGroups_initial hx⟩

end Sys2Proof.Machine
end

section
/-! What the accesses of engines, page requests and messages leave as it is (R270, R275, R278, R287, R412). -/

namespace Sys2Proof.Machine

/-! ## What is left -/

theorem State.core_updCore (s : State) (c : Nat) (f : Core → Core) (n : Nat) : (s.updCore c f).core n = if n = c then f (s.core c) else s.core n := by
  simp only [State.core, State.updCore_dev, assoc_assocSet]
  split <;> rfl

/-- A core apart from its TLBs. -/
def Core.still (k : Core) : Core := { k with tlb := [], walkTlb := [] }

/-- The device apart from what accesses and messages change: contexts, page requests, timestamps and translations, results, the link, and
the identities given. The cores stand apart. -/
def Dev.still (d : Dev) : Dev :=
  { d with ctxs := [], preqs := [], ts := [], l2tlb := [], results := [], cores := [], link := .reset, nextId := 0 }

/-- From one state to another only accesses of engines, page requests and messages have come. -/
structure State.Still (s₀ s : State) : Prop where
  fuse : s.fuse = s₀.fuse
  dev : s.dev.still = s₀.dev.still
  core : ∀ c, (s.core c).still = (s₀.core c).still

namespace State.Still

variable {s₀ s t : State}

theorem refl (s : State) : s.Still s := ⟨rfl, rfl, fun _ => rfl⟩

theorem trans (h : s₀.Still s) (h' : s.Still t) : s₀.Still t := ⟨h'.fuse.trans h.fuse, h'.dev.trans h.dev, fun c => (h'.core c).trans (h.core c)⟩

section
variable (h : s₀.Still s)
include h

theorem teams : s.dev.teams = s₀.dev.teams := (congrArg Dev.teams h.dev :)
theorem groups : s.dev.groups = s₀.dev.groups := (congrArg Dev.groups h.dev :)
theorem grids : s.dev.grids = s₀.dev.grids := (congrArg Dev.grids h.dev :)
theorem clusters : s.dev.clusters = s₀.dev.clusters := (congrArg Dev.clusters h.dev :)
theorem clk : s.dev.clk = s₀.dev.clk := (congrArg Dev.clk h.dev :)
theorem mmu : s.dev.mmu = s₀.dev.mmu := (congrArg Dev.mmu h.dev :)
theorem coreEq (c : Nat) : (s.core c).eq = (s₀.core c).eq := (congrArg Core.eq (h.core c) :)

end

/-! ## Ways to go on -/

theorem ite {c : Prop} [Decidable c] {a b : State} (ha : s₀.Still a) (hb : s₀.Still b) : s₀.Still (if c then a else b) := by
  split <;> assumption

theorem ofFst {α : Type} {p : State × α} {a : α} (e : p = (t, a)) (h : s₀.Still p.1) : s₀.Still t := by subst e; exact h

theorem foldl {α β : Type} {p : β → State} {f : β → α → β} {l : List α} {b : β} (h : s₀.Still (p b))
    (hf : ∀ b x, s₀.Still (p b) → s₀.Still (p (f b x))) : s₀.Still (p (l.foldl f b)) := by
  induction l generalizing b with
  | nil => exact h
  | cons x r ih => exact ih (hf b x h)

theorem fold {α : Type} {f : State → α → State} {l : List α} (h : s₀.Still s) (hf : ∀ s x, s₀.Still s → s₀.Still (f s x)) :
    s₀.Still (l.foldl f s) := h.foldl (p := id) hf

/-- A change of the device that is not seen. -/
theorem onDev {f : Dev → Dev} (h : s₀.Still s) (hd : ∀ d, (f d).still = d.still) (hc : ∀ d, (f d).cores = d.cores) :
    s₀.Still (s.onDev f) :=
  h.trans ⟨rfl, hd _, fun c => by rw [State.core, State.onDev_dev, hc]; rfl⟩

/-- A change of a core's TLBs. -/
theorem updCore {c : Nat} {f : Core → Core} (h : s₀.Still s) (hf : ∀ k, (f k).still = k.still) : s₀.Still (s.updCore c f) := by
  refine h.trans ⟨rfl, rfl, fun n => ?_⟩
  rw [State.core_updCore]
  split
  next hn => rw [hn, hf]
  next => rfl

/-! ## Writes of the device's own, and messages -/

theorem ofStores (h : s₀.Still s) (hs : s.Stores t) : s₀.Still t := by
  obtain ⟨hf, ts, hd⟩ := hs
  exact h.trans ⟨hf, by rw [hd]; rfl, fun c => by rw [State.core, hd]; rfl⟩

theorem put {pa data pts} (h : s₀.Still s) : s₀.Still (s.put pa data pts) := h.ofStores ((State.Stores.refl s).put pa data pts)

theorem homeLoad {pts pa n} (h : s₀.Still s) : s₀.Still (s.homeLoad pts pa n).1 := h.trans ⟨rfl, rfl, fun _ => rfl⟩

theorem send {n m} (h : s₀.Still s) : s₀.Still (s.send n m) := by
  unfold State.send
  split
  · exact h
  · exact ite (h.trans ⟨rfl, rfl, fun _ => rfl⟩) h

/-! ## Translations and page requests -/

theorem orPte {pa bit} (h : s₀.Still s) : s₀.Still (s.orPte pa bit) := by
  unfold State.orPte
  exact ite h h.put

theorem walkInstall {ctx va} (h : s₀.Still s) : s₀.Still (s.walkInstall ctx va).1 := by
  unfold State.walkInstall
  dsimp only
  split
  · exact h
  · split
    · dsimp only
      exact ite (h.orPte.onDev (fun _ => rfl) fun _ => rfl) h.orPte
    · exact h

theorem dirty {core e} (h : s₀.Still s) (hd : s.dirty core e = some t) : s₀.Still t := by
  unfold State.dirty at hd
  split at hd
  · cases hd
    exact h
  · split at hd
    · cases hd
    · rw [← Option.some.inj hd]
      exact onDev (updCore h.orPte fun _ => rfl) (fun _ => rfl) fun _ => rfl

theorem forget {core e} (h : s₀.Still s) : s₀.Still (s.forget core e) := by
  unfold State.forget
  refine onDev (h.updCore fun _ => rfl) (fun _ => rfl) fun _ => rfl

theorem countPreq {r} (h : s₀.Still s) : s₀.Still (s.countPreq r) := by
  unfold State.countPreq
  split
  · exact h
  · exact ite (put (h.onDev (fun _ => rfl) fun _ => rfl)) h

theorem sendPreqs (h : s₀.Still s) : s₀.Still s.sendPreqs := by
  unfold State.sendPreqs
  extract_lets s₁
  have hs₁ : s₀.Still s₁ := h.fold fun _ _ h₁ => h₁.countPreq
  exact ite hs₁ (hs₁.fold fun _ _ h₁ => send (h₁.onDev (fun _ => rfl) fun _ => rfl))

theorem requestPage {ctx vpage kind eng} (h : s₀.Still s) : s₀.Still (s.requestPage ctx vpage kind eng) := by
  unfold State.requestPage
  dsimp only
  split
  · exact h.onDev (fun _ => rfl) fun _ => rfl
  · split
    · exact h
    · exact ite h (sendPreqs (onDev (h.trans ⟨rfl, rfl, fun _ => rfl⟩) (fun _ => rfl) fun _ => rfl))

theorem engWait {ctx eng va a} (h : s₀.Still s) : s₀.Still (s.engWait ctx eng va a).1 := by
  unfold State.engWait
  split
  · exact h
  · exact h.requestPage

theorem engNoLeaf {ctx eng va a w} (h : s₀.Still s) : s₀.Still (s.engNoLeaf ctx eng va a w).1 := by
  unfold State.engNoLeaf
  split
  · exact h.engWait
  · exact h
  · exact h

theorem engUse {core ctx eng va a e} (h : s₀.Still s) : s₀.Still (s.engUse core ctx eng va a e).1 := by
  unfold State.engUse
  split
  · exact h
  · split
    · exact h
    · split
      · exact h.dirty ‹_›
      · split
        next hw =>
          have hwalk := ofFst hw h.forget.walkInstall
          split
          · exact hwalk
          · split
            · exact hwalk.dirty ‹_›
            · exact hwalk
        next hw => exact (ofFst hw h.forget.walkInstall).engNoLeaf

theorem engAccess {core ctx eng va a ahead} (h : s₀.Still s) : s₀.Still (s.engAccess core ctx eng va a ahead).1 := by
  unfold State.engAccess
  split
  · exact h
  · split
    · exact h
    · dsimp only
      split
      · exact h.engUse
      · split
        · exact h.engWait
        · split
          next hw =>
            have hwalk := ofFst hw h.walkInstall
            refine engUse ?_
            split
            · refine hwalk.updCore fun k => ?_
              split <;> [rfl; split <;> rfl]
            · exact hwalk
          next hw => exact (ofFst hw h.walkInstall).engNoLeaf

theorem engRange {core ctx eng va n a ahead} (h : s₀.Still s) : s₀.Still (s.engRange core ctx eng va n a ahead).1 := by
  unfold State.engRange
  refine h.foldl (p := Prod.fst) fun acc v h₁ => ?_
  split
  · split
    next he => exact ofFst he h₁.engAccess
    next he => exact ofFst he h₁.engAccess
  · exact h₁

theorem engReadAt {core ctx eng va n a pts ahead} (h : s₀.Still s) : s₀.Still (s.engReadAt core ctx eng va n a pts ahead).1 := by
  unfold State.engReadAt
  exact foldl (p := Prod.fst) h.engRange fun _ _ h₁ => h₁.homeLoad

/-! ## Records and lists of the matrix engine -/

theorem meetFault {res f} (h : s₀.Still s) : s₀.Still (s.meetFault res f) := by
  unfold State.meetFault
  split
  · exact h.trans ⟨rfl, rfl, fun _ => rfl⟩
  · exact h

theorem meetShares {op f} (h : s₀.Still s) : s₀.Still (s.meetShares op f) := h.fold fun _ _ h₁ => h₁.meetFault

theorem readRecords {core ctx eng pts va i n l} (h : s₀.Still s) : s₀.Still (s.readRecords core ctx eng pts va i n l).1 := by
  induction n generalizing s i l with
  | zero => exact h
  | succ n ih =>
    unfold State.readRecords
    dsimp only
    split
    next he => exact ofFst he h.engReadAt
    next he => exact ofFst he h.engReadAt
    next he => exact ih (ofFst he h.engReadAt)

theorem readOutliers {core ctx eng pts f} (h : s₀.Still s) : s₀.Still (s.readOutliers core ctx eng pts f).1 := by
  unfold State.readOutliers
  split
  next he => exact ofFst he h.engReadAt
  next he => exact ofFst he h.engReadAt
  next he => exact (ofFst he h.engReadAt).readRecords

theorem sideList {core ctx eng pts f q k orow ocol cols} (h : s₀.Still s) :
    s₀.Still (s.sideList core ctx eng pts f q k orow ocol cols).1 := by
  unfold State.sideList
  split
  · exact h
  · split
    next he => exact ofFst he h.readOutliers
    next he => exact ofFst he h.readOutliers

theorem readSide {core e g f q k orow ocol cols} (h : s₀.Still s) : s₀.Still (s.readSide core e g f q k orow ocol cols).1 := by
  unfold State.readSide
  split
  next he => exact ofFst he h.sideList
  next he => exact (ofFst he h.sideList).meetFault

theorem readTensor {core ctx eng grid va pts rx} (h : s₀.Still s) : s₀.Still (s.readTensor core ctx eng grid va pts rx).1 := by
  unfold State.readTensor
  dsimp only
  split
  · exact h
  · split
    next he =>
      have hs := ofFst he h.engAccess
      split
      · split
        · exact hs
        · split
          · exact hs
          · split <;> exact hs
      · exact hs.homeLoad
    next he => exact ofFst he h.engAccess

theorem fresh (h : s₀.Still s) : s₀.Still s.fresh.2 := h.trans ⟨rfl, rfl, fun _ => rfl⟩

theorem askReads {ctx line far} (h : s₀.Still s) : s₀.Still (s.askReads ctx line far).1 := by
  unfold State.askReads
  refine foldl (p := Prod.fst) h fun _ _ h₁ => ?_
  split
  split
  · exact h₁.fresh.send
  · exact h₁

end State.Still

end Sys2Proof.Machine
end

section
/-! How the operation of a cluster begins (R359). -/

namespace Sys2Proof.Machine

/-! ## Cores under changes of every core -/

theorem assoc_map {α β : Type} (F : α → β) (l : List (Nat × α)) (k : Nat) :
    assoc (l.map fun x => (x.1, F x.2)) k = (assoc l k).map F := by
  induction l with
  | nil => rfl
  | cons x r ih =>
    simp only [List.map_cons, assoc, ih]
    split <;> rfl

theorem mem_of_assoc {α : Type} {l : List (Nat × α)} {k : Nat} {a : α} (h : assoc l k = some a) : (k, a) ∈ l := by
  induction l with
  | nil => cases h
  | cons x r ih =>
    obtain ⟨i, b⟩ := x
    simp only [assoc] at h
    split at h
    next hi => rw [← hi, Option.some.inj h]; exact List.mem_cons_self
    next => exact List.mem_cons_of_mem _ (ih h)

/-- An entry of a core's engine queue is one of a core that something has touched. -/
theorem State.exists_core_of_mem_eq {s : State} {core : Nat} {e : EqEntry} (h : e ∈ (s.core core).eq) : ∃ x ∈ s.dev.cores, e ∈ x.2.eq := by
  unfold State.core at h
  cases hc : assoc s.dev.cores core with
  | none => rw [hc] at h; cases h
  | some k => rw [hc] at h; exact ⟨_, mem_of_assoc hc, h⟩

theorem State.core_updShares_eq (s : State) (op : Nat) (f : EqEntry → EqEntry) (core : Nat) :
    ((s.updShares op f).core core).eq = (s.core core).eq.map fun e => if e.inOp op then f e else e := by
  have h := assoc_map (fun k : Core => { k with eq := updIf (fun e => e.inOp op) f k.eq }) s.dev.cores core
  simp only [State.core, State.updShares, State.onDev_dev, h]
  cases assoc s.dev.cores core <;> rfl

theorem State.core_updEq_eq (s : State) (c id : Nat) (f : EqEntry → EqEntry) (core : Nat) :
    ((s.updEq c id f).core core).eq = (s.core core).eq.map fun e => if core = c ∧ e.id = id then f e else e := by
  rw [State.updEq, State.core_updCore]
  split
  next h => simp [updIf, h]
  next h => simp [h]

/-! ## What reading the records for an operation leaves of an entry -/

/-- An entry apart from what is read for its share. -/
def EqEntry.plain (e : EqEntry) : EqEntry := { e with toRead := false, list := [], rx := [], share := none }

/-- What reading for an operation may do to an entry: only a share of the operation takes records. -/
structure EqEntry.ReadFor (op : Nat) (e e' : EqEntry) : Prop where
  plain : e'.plain = e.plain
  share : e'.share = e.share ∨ e.inOp op = true ∧ ∃ recs, e'.share = e.share.map fun y => { y with recs := recs }

theorem EqEntry.ReadFor.refl (op : Nat) (e : EqEntry) : e.ReadFor op e := ⟨rfl, .inl rfl⟩

/-- The shares of an operation are those of an entry's list. -/
theorem State.inOp_of_mem_opShares {s : State} {op : Nat} {x : Nat × EqEntry} (h : x ∈ s.opShares op) : x.2.inOp op = true := by
  simp only [State.opShares, List.mem_flatten, List.mem_map] at h
  obtain ⟨_, ⟨c, -, rfl⟩, h⟩ := h
  obtain ⟨e, he, rfl⟩ := List.mem_map.1 h
  exact (List.mem_filter.1 he).2

/-- From one state to another an operation's records were read, or some of it. -/
structure State.ReadsFor (op : Nat) (s t : State) : Prop where
  clusters : t.dev.clusters = s.dev.clusters
  entries : ∃ F : Nat → EqEntry → EqEntry, (∀ c, (t.core c).eq = (s.core c).eq.map (F c)) ∧ ∀ c e, EqEntry.ReadFor op e (F c e)

namespace State.ReadsFor

variable {op : Nat} {s t : State}

theorem ofStill (h : s.Still t) : s.ReadsFor op t :=
  ⟨h.clusters, fun _ e => e, fun c => by rw [h.coreEq, List.map_id'], fun _ e => .refl op e⟩

theorem updEq (h : s.Still t) (c id : Nat) (l : List RxPiece) : s.ReadsFor op (t.updEq c id fun e => { e with rx := e.rx ++ l }) := by
  refine ⟨h.clusters, _, fun core => by rw [State.core_updEq_eq, h.coreEq], fun core e => ?_⟩
  split
  · exact ⟨rfl, .inl rfl⟩
  · exact .refl op e

theorem askFor (h : s.Still t) (c ctx : Nat) (e : EqEntry) (far : List (Nat × Nat × Nat × Nat)) : s.ReadsFor op (t.askFor c ctx e far) :=
  updEq h.askReads c e.id _

theorem updShares (h : s.Still t) {f : EqEntry → EqEntry} (hf : ∀ e : EqEntry, e.inOp op = true → EqEntry.ReadFor op e (f e)) :
    s.ReadsFor op (t.updShares op f) := by
  refine ⟨h.clusters, _, fun core => by rw [State.core_updShares_eq, h.coreEq], fun core e => ?_⟩
  split
  next ho => exact hf e ho
  next => exact .refl op e

end State.ReadsFor

theorem EqEntry.inOp_iff {e : EqEntry} {op : Nat} : e.inOp op = true ↔ ∃ o, e.share = some o ∧ o.op = op := by
  unfold EqEntry.inOp
  cases e.share <;> simp

theorem State.readOp_readsFor (s : State) (core : Nat) (g : Group) (e : EqEntry) {op : Nat} (he : e.inOp op = true) :
    s.ReadsFor op (s.readOp core g e) := by
  obtain ⟨o, ho, rfl⟩ := EqEntry.inOp_iff.1 he
  have h₀ := State.Still.refl s
  unfold State.readOp
  split
  next x _ a b k _ _ hx _ =>
    obtain rfl : o = x := Option.some.inj (ho.symm.trans hx)
    dsimp only
    split
    next ha => exact .askFor (.ofFst ha h₀.readTensor) ..
    next ha =>
      have h₁ := State.Still.ofFst ha h₀.readTensor
      split
      next hb => exact .askFor (.ofFst hb h₁.readTensor) ..
      next hb =>
        have h₂ := State.Still.ofFst hb h₁.readTensor
        split
        · split
          next hl => exact .ofStill (.ofFst hl h₂.sideList)
          next hl => exact .updShares (.meetShares (.ofFst hl h₂.sideList)) fun e h => ⟨rfl, .inr ⟨h, _, rfl⟩⟩
        · exact .updShares h₂ fun e h => ⟨rfl, .inr ⟨h, _, rfl⟩⟩
  next => exact .ofStill h₀

/-! ## The teams' entries begin -/

/-- An entry that begins as a share of an operation. -/
def EqEntry.begin (o : ShareOp) (e : EqEntry) : EqEntry := { e with begun := true, toRead := true, share := some o }

/-- An entry that begins with the operation of these teams. -/
abbrev EqEntry.Joins (teams : List Team) (core : Nat) (e : EqEntry) : Prop := e.begun = false ∧ ∃ t ∈ teams, t.core = core ∧ t.id = e.team

/-- Every team's entry that waits begins. -/
def State.beginShares (s : State) (o : ShareOp) (teams : List Team) : State :=
  teams.foldl (fun s t => s.updCore t.core fun k => { k with eq := updIf (fun e => e.team == t.id && !e.begun) (EqEntry.begin o) k.eq }) s

theorem State.core_beginShares_eq (s : State) (o : ShareOp) (teams : List Team) (core : Nat) :
    ((s.beginShares o teams).core core).eq = (s.core core).eq.map fun e => if e.Joins teams core then e.begin o else e := by
  induction teams generalizing s with
  | nil => simp [State.beginShares, EqEntry.Joins]
  | cons t r ih =>
    rw [State.beginShares, List.foldl_cons, ← State.beginShares, ih, State.core_updCore]
    split
    next hc =>
      subst hc
      dsimp only [updIf]
      rw [List.map_map]
      refine List.map_congr_left fun e _ => ?_
      dsimp only [Function.comp]
      by_cases he : e.team = t.id ∧ e.begun = false
      · have hr : ¬ EqEntry.Joins r t.core (e.begin o) := fun h => nomatch h.1
        have hj : EqEntry.Joins (t :: r) t.core e := ⟨he.2, t, List.mem_cons_self, rfl, he.1.symm⟩
        have hb : (e.team == t.id && !e.begun) = true := by simp [he]
        simp only [if_pos hb, if_neg hr, if_pos hj]
      · have hj : EqEntry.Joins (t :: r) t.core e ↔ EqEntry.Joins r t.core e := by
          grind
        have hb : ¬ (e.team == t.id && !e.begun) = true := by simpa using he
        simp only [if_neg hb, hj]
    next hc =>
      refine List.map_congr_left fun e _ => ?_
      have : EqEntry.Joins (t :: r) core e ↔ EqEntry.Joins r core e := by simp [EqEntry.Joins, Ne.symm hc]
      simp only [this]

/-! ## The operation begins -/

theorem State.beginShares_dev_clusters (s : State) (o : ShareOp) (teams : List Team) : (s.beginShares o teams).dev.clusters = s.dev.clusters := by
  induction teams generalizing s with
  | nil => rfl
  | cons t r ih => exact ih _

/-- The places of the teams that take part in the operation of a cluster. -/
def State.opRanks (s : State) (c : Cluster) : List (Nat × Nat) :=
  ((s.clusterTeams c.id).filter fun t => c.mmac.any fun m => m.team == t.id && m.part).map fun t => (t.ri, t.rj)

theorem State.cluster?_id {s : State} {id : Nat} {c : Cluster} (h : s.cluster? id = some c) : c.id = id := by
  simpa using List.find?_some h

theorem State.cluster?_updCluster {s : State} {id : Nat} {c : Cluster} (h : s.cluster? id = some c) (f : Cluster → Cluster) (hf : ∀ c, (f c).id = c.id) :
    (s.updCluster id f).cluster? id = some (f c) :=
  (find?_updIf_same _ f (fun a ha => by rw [hf]; exact ha) _).trans (congrArg (Option.map f) h)

theorem State.beginMmac_waits {s : State} {id : Nat} {c : Cluster} (hc : s.cluster? id = some c)
    (h : ¬ ∀ t ∈ s.clusterTeams id, t.st = .retired ∨ ∃ m ∈ c.mmac, m.team = t.id) : s.beginMmac id = s := by
  simp only [State.beginMmac, hc]
  exact if_neg (by simpa using h)

theorem State.beginMmac_readsFor {s : State} {id : Nat} {c : Cluster} (hc : s.cluster? id = some c)
    (h : ∀ t ∈ s.clusterTeams id, t.st = .retired ∨ ∃ m ∈ c.mmac, m.team = t.id) :
    (((s.updCluster id fun c => { c with mmac := [] }).fresh.2).beginShares ⟨s.dev.nextId, s.opRanks c, none, none⟩ (s.clusterTeams id)).ReadsFor
      s.dev.nextId (s.beginMmac id) := by
  obtain rfl := State.cluster?_id hc
  simp only [State.beginMmac, hc]
  rw [if_pos (by simpa using h)]
  show ReadsFor _ _ (match (State.opShares (State.beginShares _ _ _) _).head? with | some (core, e) => _ | none => _)
  split
  next core e he =>
    split
    next g hg => exact State.readOp_readsFor _ _ _ _ (State.inOp_of_mem_opShares (List.mem_of_head? he))
    next => exact .ofStill (.refl _)
  next => exact .ofStill (.refl _)

/-- An operation of a new identity has no shares yet. -/
theorem State.inOp_eq_false_of_new {s : State} {op core : Nat} {e : EqEntry}
    (hs : ∀ x ∈ s.dev.cores, ∀ e ∈ x.2.eq, ∀ o, e.share = some o → o.op ≠ op) (he : e ∈ (s.core core).eq) : ¬ e.inOp op = true := by
  obtain ⟨x, hx, he⟩ := State.exists_core_of_mem_eq he
  rw [EqEntry.inOp_iff]
  rintro ⟨o, ho, hop⟩
  exact hs x hx e he o ho hop

/-- The cluster's operation begins with the entries of its teams (R359). -/
theorem State.beginMmac_begins {s : State} {id : Nat} {c : Cluster} (hc : s.cluster? id = some c)
    (h : ∀ t ∈ s.clusterTeams id, t.st = .retired ∨ ∃ m ∈ c.mmac, m.team = t.id) :
    (s.beginMmac id).cluster? id = some { c with mmac := [] } ∧ ∀ core,
      ((s.beginMmac id).core core).eq.map EqEntry.plain =
        ((s.core core).eq.map fun e => if e.Joins (s.clusterTeams id) core then EqEntry.plain { e with begun := true } else e.plain) ∧
      ((∀ x ∈ s.dev.cores, ∀ e ∈ x.2.eq, ∀ o, e.share = some o → o.op ≠ s.dev.nextId) →
        ∀ (n : Nat) (e : EqEntry), (s.core core).eq[n]? = some e → ∃ e', ((s.beginMmac id).core core).eq[n]? = some e' ∧
          (e.Joins (s.clusterTeams id) core → ∃ recs, e'.share = some ⟨s.dev.nextId, s.opRanks c, recs, none⟩) ∧
          (¬ e.Joins (s.clusterTeams id) core → e'.share = e.share)) := by
  obtain ⟨hcl, F, hF, hr⟩ := State.beginMmac_readsFor hc h
  refine ⟨?_, fun core => ?_⟩
  · rw [State.cluster?, hcl, State.beginShares_dev_clusters]
    exact State.cluster?_updCluster hc (fun c => { c with mmac := [] }) fun _ => rfl
  · have he : ((s.beginMmac id).core core).eq = ((s.core core).eq.map fun e =>
        F core (if e.Joins (s.clusterTeams id) core then e.begin ⟨s.dev.nextId, s.opRanks c, none, none⟩ else e)) := by
      rw [hF, State.core_beginShares_eq, List.map_map]
      rfl
    refine ⟨?_, fun hnew n e hn => ?_⟩
    · rw [he, List.map_map]
      refine List.map_congr_left fun e _ => ?_
      dsimp only [Function.comp]
      rw [(hr core _).plain]
      split <;> rfl
    · rw [he, List.getElem?_map, hn]
      refine ⟨_, rfl, fun hj => ?_, fun hj => ?_⟩
      · simp only [if_pos hj]
        obtain hs | ⟨-, recs, hs⟩ := (hr core (e.begin ⟨s.dev.nextId, s.opRanks c, none, none⟩)).share
        · exact ⟨none, hs⟩
        · exact ⟨recs, hs⟩
      · simp only [if_neg hj]
        have hno := State.inOp_eq_false_of_new hnew (List.mem_of_getElem? hn)
        exact (hr core e).share.resolve_right fun h => hno h.1

end Sys2Proof.Machine
end

section
/-! The elements of a bank after a block is multiplied into it (R88, R89, R354). -/

namespace Sys2Proof.Machine

theorem mget_filterMap_nonzero {n : Nat} (w : Nat → BitVec n) (l : List Nat) (k : Nat) :
    mget (l.filterMap fun x => if w x = 0#n then none else some (x, w x)) k = if k ∈ l then w k else 0#n := by
  induction l with
  | nil => rfl
  | cons x r ih =>
    by_cases hx : w x = 0#n
    · simp only [List.filterMap_cons, if_pos hx, ih]
      by_cases hk : k = x
      · subst hk
        simp [hx]
      · simp [hk]
    · by_cases hk : k = x
      · simp [hx, mget, hk]
      · simp [hx, mget, hk, Ne.symm hk, ih]

/-- An element of a bank multiplied into: by its row and column. -/
theorem mget_macBank (fa fb : FmtSlot) (q k : Nat) (a b : Nat → Nat → Nat) (side : List (Nat × Nat × Word)) (data : WordMap) {i j : Nat}
    (hi : i < 64) (hj : j < 64) :
    mget (macBank fa fb q k a b side data) (64 * i + j) =
      if fa.fmt = 4 then macInt k (fun n => signed 8 (a i n)) (fun n => signed 8 (b n j)) (mget data (64 * i + j))
      else macElem q k (fun n => opValue fa (a i n)) (fun n => opValue fb (b n j))
        ((side.filter fun (_, n, _) => n == j).map fun (r, _, v) => (r, v)) (mget data (64 * i + j)) := by
  have hrow : (64 * i + j) / 64 = i := by omega
  have hcol : (64 * i + j) % 64 = j := by omega
  refine (mget_filterMap_nonzero _ _ _).trans ?_
  rw [if_pos (List.mem_range.2 (by omega)), hrow, hcol]

theorem macInt_eq_add_sum (k : Nat) (a b : Nat → Int) (c : Word) :
    macInt k a b c = c + BitVec.ofInt 32 ((List.range k).map fun n => a n * b n).sum := by
  rw [macInt, List.sum_eq_foldl, List.foldl_map]

/-- The records of a column and a chunk, one after the other. -/
theorem macElem_of_column (q k : Nat) (a b : Nat → Ex) (side : List (Nat × Nat × Word)) (j : Nat) (c : Word) :
    macElem q k a b ((side.filter fun (_, n, _) => n == j).map fun (r, _, v) => (r, v)) c =
      (List.range (k / q)).foldl (fun c ch => (side.filter fun r => r.2.1 == j && r.1 / q == ch).foldl
        (fun c r => roundF32 0#2 (exAdd 0#2 (val32 c) (exMul (a r.1) (val32 r.2.2)).1).1)
        (roundF32 0#2 (exAdd 0#2 (val32 c)
          ((List.range q).foldl (fun x n => (exAdd 0#2 x (exMul (a (ch * q + n)) (b (ch * q + n))).1).1) (.num false 0 0))).1)) c := by
  refine List.foldl_ext _ _ _ fun c ch _ => ?_
  dsimp only
  rw [List.filter_map, List.foldl_map, List.filter_filter]
  simp only [Function.comp_def, Bool.and_comm]

end Sys2Proof.Machine
end

section
/-! `MMAC`, as a team gives its part of its cluster's operation (R358, R359). -/

namespace Sys2Proof.Machine

theorem State.engineUnit_one {s : State} {st : Stream} {g : Group} {k : Nat} {th : Thread} {tm : Team} (h : s.IssuesOne st g k th)
    (ht : s.team? g.team = some tm) (ho : (s.core g.core).owner = some st.grp) (f : Stream → State → Group → Team → Nat → SRes) :
    s.engineUnit f = .next ((f st s g tm k).settled st k) := by
  have hid := State.group?_id h.1.2
  rw [State.engineUnit, State.perGroup_one h]
  simp [State.owns, ho, hid, ht]

section
variable {s s1 s2 s3 : State} {st : Stream} {g : Group} {k : Nat} {th : Thread} {tm : Team} {cl : Cluster} {acc : BitVec 5} {gA : BitVec 6}
  {sb : BitVec 3} {x y : TensorRec} {ea eb : TlbEntry} {fa1 fb1 : List (Nat × Nat × Nat × Nat)} {a b K : Nat}

/-- A team's part of its cluster's operation is given (R359). -/
def State.giveMmac (s : State) (cluster : Nat) (m : MmacGive) : State :=
  (s.updCluster cluster fun c => { c with mmac := c.mmac ++ [m] }).beginMmac cluster

/-- What a share leaves of a bank's mode (R349). -/
def Bank.modeFor (f : FmtSlot) (z : Bank) : Bank := { z with mode := if z.mode = .unset then modeOf f else z.mode }

theorem State.foldl_updBank_modeFor {s : State} {g : Group} {n : Nat} {f : FmtSlot} (hs : s.slotAt g n = f) (team acc : Nat) (l : List Nat) :
    (l.foldl (fun (s : State) i => s.updBank team (acc + i) fun z : Bank =>
      { z with mode := if z.mode = .unset then modeOf (s.slotAt g n) else z.mode }) s) =
    l.foldl (fun (s : State) i => s.updBank team (acc + i) (Bank.modeFor f)) s := by
  induction l generalizing s with
  | nil => rfl
  | cons i l ih =>
    rw [List.foldl_cons, List.foldl_cons, hs]
    exact ih hs

theorem State.addResult_fst (s : State) (gid t n : Nat) (unit : Word) (kind : ResKind) (engine : Bool) :
    (s.addResult gid t (some n) unit kind engine).1 = s.dev.nextId := rfl

theorem State.addResult_fresh (s : State) (gid t n : Nat) (unit : Word) (kind : ResKind) (engine : Bool) :
    (s.addResult gid t (some n) unit kind engine).2.fresh = (s.dev.nextId + 1,
      (s.addResult gid t (some n) unit kind engine).2.onDev fun d => { d with nextId := s.dev.nextId + 2 }) := rfl

theorem State.addResult_slotAt (s : State) (gid t n : Nat) (unit : Word) (kind : ResKind) (engine : Bool) (m : Nat) (g : Group) (i : Nat) :
    ((s.addResult gid t (some n) unit kind engine).2.onDev fun d => { d with nextId := m }).slotAt g i = s.slotAt g i := rfl

variable (h : s.IssuesOne st g k th) (ht : s.team? g.team = some tm) (hc : s.cluster? tm.cluster = some cl)
  (ho : (s.core g.core).owner = some st.grp) (hK : field (st.imm.getD 0#24).toNat 11 6 + 1 = K)
  (ha : (mget g.g (gA.toNat + 1) ++ mget g.g gA.toNat).toNat = a)
  (hb : (mget g.g (field (st.imm.getD 0#24).toNat 5 0 + 1) ++ mget g.g (field (st.imm.getD 0#24).toNat 5 0)).toNat = b)
  (hra : s.readTensor g.core g.ctx 0 g.grid a g.pts ((s.core g.core).recs.filter fun p => p.line == st.grp) = (s1, .ok ea, some x, fa1))
  (hrb : s1.readTensor g.core g.ctx 0 g.grid b g.pts ((s1.core g.core).recs.filter fun p => p.line == st.grp) = (s2, .ok eb, some y, fb1))
  (hs3 : (s2.updCore g.core fun c => { c with recs := c.recs.filter fun p => p.line != st.grp }) = s3)
  (hfits : ∀ i < 4, bankFits (tm.bank? (acc.toNat + i)) (s2.slotAt g x.fs) (s2.slotAt g y.fs) K = true)
  (hroom : (s2.core g.core).eqRoom = true) (hcount : s2.hasRoom st.grp sb.toNat = true) (hfirst : ∀ m ∈ cl.mmac, m.team ≠ tm.id)
include h ht hc ho hK ha hb hra hrb hs3 hfits hroom hcount hfirst

theorem execMmac_eq : execMmac acc gA sb s = .next (SRes.settled (
    if ∀ m, (cl.mmac.find? fun m => m.part) = some m → m.a = a ∧ m.b = b ∧ m.k = K then
      let s4 := (s3.addResult st.grp k (some sb.toNat) st.unit .token true).2.onDev fun d => { d with nextId := s2.dev.nextId + 2 }
      let s5 := (List.range 4).foldl (fun (s : State) i => s.updBank tm.id (acc.toNat + i) (Bank.modeFor (s2.slotAt g x.fs))) s4
      .ok ((s5.pushEq g.core { eqEntry (s2.dev.nextId + 1) g (.share acc.toNat a b K tm.ri tm.rj) (32 * K / chunkDepth (s2.slotAt g x.fs) (s2.slotAt g y.fs))
        s2.dev.nextId with begun := false }).giveMmac tm.cluster ⟨tm.id, a, b, K, true⟩)
    else .plain (s3.giveMmac tm.cluster ⟨tm.id, a, b, K, false⟩) 0x23#8) st k) := by
  have hid := State.group?_id h.1.2
  have hslot : ∀ n, s3.slotAt g n = s2.slotAt g n := by
    subst hs3
    exact fun _ => rfl
  have hnext : s3.dev.nextId = s2.dev.nextId := by
    subst hs3
    rfl
  have hall : ((List.range 4).all fun i => bankFits (tm.bank? (acc.toNat + i)) (s3.slotAt g x.fs) (s3.slotAt g y.fs) K) = true := by
    simpa [hslot] using hfits
  have hroom3 : (s3.core g.core).eqRoom = true := by
    rw [← hs3, State.core_updCore, if_pos rfl]
    exact hroom
  have hcount3 : s3.hasRoom st.grp sb.toNat = true := by
    subst hs3
    exact hcount
  have hfirst3 : (cl.mmac.any fun m => m.team == tm.id) = false := by
    simpa using hfirst
  rw [execMmac, State.engineUnit_one h ht ho]
  simp only [hc, hK, ha, hb, hid, hra, hrb, hs3, hall, hroom3, hcount3, hfirst3]
  simp only [Bool.not_true, Bool.or_false, Bool.false_eq_true, if_false, State.addResult_fst, State.addResult_fresh, State.addResult_slotAt]
  rw [State.foldl_updBank_modeFor (State.addResult_slotAt ..)]
  rw [← hslot x.fs, ← hslot y.fs, ← hnext, show 32 * K = 4 * 8 * K from rfl]
  cases hf : cl.mmac.find? fun m => m.part with
  | none =>
    rw [if_pos (fun _ h => nomatch h)]
    rfl
  | some m =>
    by_cases hm : m.a = a ∧ m.b = b ∧ m.k = K
    · rw [if_pos (fun _ h => Option.some.inj h ▸ hm), if_neg (by simp [hm])]
      rfl
    · have hm' : ¬ ∀ n, some m = some n → n.a = a ∧ n.b = b ∧ n.k = K := fun h => hm (h m rfl)
      rw [if_neg hm', if_pos (by grind)]
      rfl
end

theorem field_five_zero (p : Nat) : field p 5 0 = p % 64 := by simp [field]

theorem field_eleven_six (p : Nat) : field p 11 6 = p / 2 ^ 6 % 64 := by simp [field, Nat.shiftRight_eq_div_pow]

/-- Settles O31: `MMAC` as the unit's equation has it; the cluster's operation from what its reading leaves of the entries; the elements from
the bank's map by row and column. -/
theorem matrixElements : Obligations.MatrixElements := by
  refine ⟨⟨?_, fun s id c hc => ⟨State.beginMmac_waits hc, fun h => ?_⟩⟩, ?_⟩
  · intro s s1 s2 st g k th tm cl acc gA sb x y ea eb fa1 fb1 h ht hc ho p K va a b got ha hb s3 fa fb hfits hroom hcount hfirst agrees gives
    have hgB := field_five_zero (st.imm.getD 0#24).toNat
    have hexec : exec (.mmac acc gA sb) s = execMmac acc gA sb s := rfl
    have heq := execMmac_eq (a := a) (b := b) (K := K) (s3 := s3) h ht hc ho (congrArg (· + 1) (field_eleven_six _)) rfl (by rw [hgB]) ha hb rfl
      hfits hroom hcount hfirst
    rw [hexec, heq]
    refine ⟨fun hag => ?_, fun hag => ?_⟩
    · rw [if_pos hag]
      have hid := State.group?_id h.1.2
      intro s4 mode s5 e
      have he : e = { eqEntry (s2.dev.nextId + 1) g (.share acc.toNat a b K tm.ri tm.rj) (32 * K / chunkDepth fa fb) s2.dev.nextId with begun := false } := by
        simp only [eqEntry, hid, e]
      rw [he]
      rfl
    · rw [if_neg hag]
      rfl
  · obtain rfl := State.cluster?_id hc
    exact State.beginMmac_begins hc h
  · intro fa fb q k a b side data i j hi hj c out s8 dot rounded
    refine ⟨fun hf => ?_, fun hf => ?_⟩
    · exact (mget_macBank fa fb q k a b side data hi hj).trans (by rw [if_pos hf, macInt_eq_add_sum]; rfl)
    · exact (mget_macBank fa fb q k a b side data hi hj).trans (by rw [if_neg hf, macElem_of_column]; rfl)

end Sys2Proof.Machine
end

section
/-! What the ends of saves, groups and teams leave as it is: groups and teams in their places, and of the cores what gathers bytes and who may
own an engine (R137, R138, R158, R345). -/

namespace Sys2Proof.Machine

/-! ## What is left -/

/-- A team apart from what engines and barriers change. -/
def Team.fixed (t : Team) : Team := { t with cv := [], reown := none, tb := [], save := [] }

/-- A grid apart from its state and its barriers. -/
def Grid.fixed (g : Grid) : Grid := { g with gb := [], st := .draining }

/-- A core gathers nothing new, and no group has come to its engine or the queue for it. -/
structure Core.Keeps (k₀ k : Core) : Prop where
  comb : ∀ x ∈ k.comb, x ∈ k₀.comb
  ownq : ∀ i ∈ k.ownq, i ∈ k₀.ownq
  owner : ∀ i, k.owner = some i → k₀.owner = some i ∨ i ∈ k₀.ownq

theorem Core.Keeps.refl (k : Core) : k.Keeps k := ⟨fun _ h => h, fun _ h => h, fun _ h => .inl h⟩

theorem Core.Keeps.trans {k₀ k k' : Core} (h : k₀.Keeps k) (h' : k.Keeps k') : k₀.Keeps k' :=
  ⟨fun x hx => h.comb x (h'.comb x hx), fun i hi => h.ownq i (h'.ownq i hi),
   fun i hi => (h'.owner i hi).elim (h.owner i) fun hi => .inr (h.ownq i hi)⟩

/-- From one state to another the groups, as far as `G` sees them, the teams and the grids are left in their places. -/
structure State.Stays (G : Group → Group) (s₀ s : State) : Prop where
  groups : s.dev.groups.map G = s₀.dev.groups.map G
  teams : s.dev.teams.map Team.fixed = s₀.dev.teams.map Team.fixed
  grids : s.dev.grids.map Grid.fixed = s₀.dev.grids.map Grid.fixed
  clk : s.dev.clk = s₀.dev.clk
  core : ∀ c, (s₀.core c).Keeps (s.core c)

theorem map_updIf {α β : Type} {F : α → β} {p : α → Bool} {f : α → α} (hf : ∀ a, F (f a) = F a) (l : List α) :
    (updIf p f l).map F = l.map F := by
  rw [updIf, List.map_map]
  refine List.map_congr_left fun a _ => ?_
  dsimp only [Function.comp]
  split
  · exact hf a
  · rfl

namespace State.Stays

variable {G : Group → Group} {s₀ s t : State}

theorem refl (s : State) : s.Stays G s := ⟨rfl, rfl, rfl, rfl, fun _ => .refl _⟩

theorem trans (h : s₀.Stays G s) (h' : s.Stays G t) : s₀.Stays G t :=
  ⟨h'.groups.trans h.groups, h'.teams.trans h.teams, h'.grids.trans h.grids, h'.clk.trans h.clk, fun c => (h.core c).trans (h'.core c)⟩

/-! ## Ways to go on -/

theorem ite {c : Prop} [Decidable c] {a b : State} (ha : s₀.Stays G a) (hb : s₀.Stays G b) : s₀.Stays G (if c then a else b) := by
  split <;> assumption

theorem ofFst {α : Type} {p : State × α} {a : α} (e : p = (t, a)) (h : s₀.Stays G p.1) : s₀.Stays G t := by subst e; exact h

theorem foldl {α β : Type} {p : β → State} {f : β → α → β} {l : List α} {b : β} (h : s₀.Stays G (p b))
    (hf : ∀ b x, s₀.Stays G (p b) → s₀.Stays G (p (f b x))) : s₀.Stays G (p (l.foldl f b)) := by
  induction l generalizing b with
  | nil => exact h
  | cons x r ih => exact ih (hf b x h)

theorem fold {α : Type} {f : State → α → State} {l : List α} (h : s₀.Stays G s) (hf : ∀ s x, s₀.Stays G s → s₀.Stays G (f s x)) :
    s₀.Stays G (l.foldl f s) := h.foldl (p := id) hf

/-- A change of the rest of the device. -/
theorem rest (h : s₀.Stays G s) (hg : t.dev.groups = s.dev.groups) (ht : t.dev.teams = s.dev.teams) (hr : t.dev.grids = s.dev.grids)
    (hk : t.dev.clk = s.dev.clk) (hc : t.dev.cores = s.dev.cores) : s₀.Stays G t :=
  h.trans ⟨by rw [hg], by rw [ht], by rw [hr], hk, fun c => by rw [State.core, State.core, hc]; exact .refl _⟩

theorem onGroups {f : List Group → List Group} (h : s₀.Stays G s) (hf : ∀ l, (f l).map G = l.map G) :
    s₀.Stays G (s.onDev fun d => { d with groups := f d.groups }) := h.trans ⟨hf _, rfl, rfl, rfl, fun _ => .refl _⟩

theorem updGroup {n : Nat} {f : Group → Group} (h : s₀.Stays G s) (hf : ∀ g, G (f g) = G g) : s₀.Stays G (s.updGroup n f) :=
  h.trans ⟨map_updIf hf _, rfl, rfl, rfl, fun _ => .refl _⟩

theorem updTeam {n : Nat} {f : Team → Team} (h : s₀.Stays G s) (hf : ∀ t, (f t).fixed = t.fixed) : s₀.Stays G (s.updTeam n f) :=
  h.trans ⟨rfl, map_updIf hf _, rfl, rfl, fun _ => .refl _⟩

theorem updGrid {n : Nat} {f : Grid → Grid} (h : s₀.Stays G s) (hf : ∀ g, (f g).fixed = g.fixed) : s₀.Stays G (s.updGrid n f) :=
  h.trans ⟨rfl, rfl, map_updIf hf _, rfl, fun _ => .refl _⟩

theorem updCluster {n : Nat} {f : Cluster → Cluster} (h : s₀.Stays G s) : s₀.Stays G (s.updCluster n f) := h.rest rfl rfl rfl rfl rfl

theorem updFrame {n : Nat} {f : Frame → Frame} (h : s₀.Stays G s) : s₀.Stays G (s.updFrame n f) := h.rest rfl rfl rfl rfl rfl

theorem updZone {n : Nat} {f : Zone → Zone} (h : s₀.Stays G s) : s₀.Stays G (s.updZone n f) := h.rest rfl rfl rfl rfl rfl

theorem updCore {c : Nat} {f : Core → Core} (h : s₀.Stays G s) (hf : (s.core c).Keeps (f (s.core c))) : s₀.Stays G (s.updCore c f) := by
  refine h.trans ⟨rfl, rfl, rfl, rfl, fun n => ?_⟩
  rw [State.core_updCore]
  split
  next hn => rw [hn]; exact hf
  next => exact .refl _

theorem ofStill (h : s₀.Stays G s) (hs : s.Still t) : s₀.Stays G t :=
  h.trans ⟨by rw [hs.groups], by rw [hs.teams], by rw [hs.grids], hs.clk, fun c => by
    have hc := hs.core c
    have hcomb : (t.core c).comb = (s.core c).comb := (congrArg Core.comb hc :)
    have hownq : (t.core c).ownq = (s.core c).ownq := (congrArg Core.ownq hc :)
    have howner : (t.core c).owner = (s.core c).owner := (congrArg Core.owner hc :)
    exact ⟨by simp [hcomb], by simp [hownq], by simp +contextual [howner]⟩⟩

theorem ofStores (h : s₀.Stays G s) (hs : s.Stores t) : s₀.Stays G t := h.ofStill ((State.Still.refl s).ofStores hs)

theorem storeLines {pts : Nat} {cells : List Host.Cell} (h : s₀.Stays G s) : s₀.Stays G (s.storeLines pts cells).1 := by
  unfold State.storeLines
  exact foldl (p := Prod.fst) h fun _ _ h₁ => h₁.rest rfl rfl rfl rfl rfl

theorem writeTeams {ctx : Nat} (h : s₀.Stays G s) : s₀.Stays G (s.writeTeams ctx) := h.ofStores ((State.Stores.refl s).writeCount _ _ _)

theorem finishCmds (h : s₀.Stays G s) : s₀.Stays G s.finishCmds := by
  unfold State.finishCmds
  extract_lets s₁
  have hs₁ : s₀.Stays G s₁ := by
    dsimp only [s₁]
    split
    · exact ite (h.rest rfl rfl rfl rfl rfl) h
    · exact h
  clear_value s₁
  split
  · exact ite (hs₁.rest rfl rfl rfl rfl rfl) hs₁
  · exact hs₁

theorem clusterSaved {cl : Nat} (h : s₀.Stays G s) : s₀.Stays G (s.clusterSaved cl) := ite h.updCluster h

theorem writeBanks {t : Team} (h : s₀.Stays G s) : s₀.Stays G (s.writeBanks t) := by
  unfold State.writeBanks
  exact ite h (storeLines (h.updTeam fun _ => rfl))

/-! ## The engine passes on (R345) -/

theorem setBuf {c i : Nat} {b : LBuf} (h : s₀.Stays G s) : s₀.Stays G (s.setBuf c i b) := h.updCore ⟨fun _ h => h, fun _ h => h, fun _ h => .inl h⟩

theorem restoreLatch {c : Nat} (h : s₀.Stays G s) : s₀.Stays G (s.restoreLatch c) := by
  unfold State.restoreLatch
  extract_lets back s₁ s₂
  have hs₁ : s₀.Stays G s₁ := by
    dsimp only [s₁]
    split
    · exact h.updTeam fun _ => rfl
    · exact h
  have hs₂ : s₀.Stays G s₂ := by
    dsimp only [s₂]
    split
    · exact hs₁.setBuf.updTeam fun _ => rfl
    · exact hs₁
  clear_value s₂
  split
  · refine fold hs₂ fun _ _ h₁ => ?_
    split
    split
    · exact ite (h₁.setBuf.updTeam fun _ => rfl) h₁
    · exact h₁
  · exact hs₂

theorem releaseHeld {c : Nat} (h : s₀.Stays G s) : s₀.Stays G (s.releaseHeld c) := by
  unfold State.releaseHeld
  split
  · exact h
  · exact h.setBuf

end State.Stays

/-- As an engine passes on, the next owner comes from the queue. -/
theorem State.passOwner_spec {G : Group → Group} (hG : ∀ g, G { g with park := .none } = G g) (s : State) (c : Nat) :
    s.Stays G (s.passOwner c) ∧ ∀ i, ((s.passOwner c).core c).owner = some i → i ∈ (s.core c).ownq := by
  unfold State.passOwner
  extract_lets s₁ s₂
  have hs₁ : s.Stays G s₁ := by
    dsimp only [s₁]
    split
    · exact (State.Stays.refl s).updTeam fun _ => rfl
    · exact .refl s
  have hs₂ : s.Stays G s₂ := hs₁.releaseHeld
  clear_value s₂
  split
  next hq =>
    refine ⟨hs₂.updCore ⟨fun _ h => h, fun _ h => h, fun _ h => nomatch h⟩, fun i hi => ?_⟩
    rw [State.core_updCore, if_pos rfl] at hi
    cases hi
  next g r hq =>
    have hcore : (s₂.core c).Keeps { s₂.core c with owner := some g, ownq := r } :=
      ⟨fun _ h => h, fun i hi => by simp [hq, hi], fun i hi => .inr (by simp [hq, Option.some.inj hi])⟩
    have hend := ((State.Stays.refl (G := G) (s₂.updCore c fun k => { k with owner := some g, ownq := r })).updGroup (n := g) hG).restoreLatch (c := c)
    refine ⟨(hs₂.updCore hcore).trans hend, fun i hi => ?_⟩
    have hfrom := (hend.core c).owner i hi
    rw [State.core_updCore, if_pos rfl] at hfrom
    refine (hs₂.core c).ownq i ?_
    rw [hq]
    exact hfrom.elim (fun h => Option.some.inj h ▸ List.mem_cons_self) (List.mem_cons_of_mem g)

namespace State.Stays

variable {G : Group → Group} {s₀ s t : State}

theorem passOwner {c : Nat} (hG : ∀ g, G { g with park := .none } = G g) (h : s₀.Stays G s) : s₀.Stays G (s.passOwner c) :=
  h.trans (State.passOwner_spec hG s c).1

/-- A team's groups and results withdrawn from its core's engine. -/
theorem withdraw {c : Nat} {p : Nat → Bool} {q : AccReq → Bool} {r : RxPiece → Bool} (h : s₀.Stays G s) :
    s₀.Stays G (s.updCore c fun k => { k with ownq := k.ownq.filter p, accq := k.accq.filter q, recs := k.recs.filter r }) :=
  h.updCore ⟨fun _ h => h, fun _ h => List.mem_of_mem_filter h, fun _ h => .inl h⟩

theorem leaveEngine {t : Team} (hG : ∀ g, G { g with park := .none } = G g) (h : s₀.Stays G s) : s₀.Stays G (s.leaveEngine t) := by
  unfold State.leaveEngine
  dsimp only
  split
  · exact h.withdraw
  · exact updTeam (passOwner hG (fold h.withdraw fun _ _ h₁ => h₁.setBuf)) fun _ => rfl

theorem leaveCore {t : Team} (hG : ∀ g, G { g with park := .none } = G g) (h : s₀.Stays G s) : s₀.Stays G (s.leaveCore t) := by
  unfold State.leaveCore
  exact ite (passOwner hG h.withdraw) h.withdraw

/-! ## Convergence registers of a group that has ended (R252, R353) -/

theorem queueOp {g : Group} {cv : Nat} {b : Binding} (h : s₀.Stays G s) : s₀.Stays G (s.queueOp g cv b) := by
  unfold State.queueOp
  split
  next s' hfresh =>
  have hf : s.Still s' := by simpa [hfresh] using (State.Still.refl s).fresh
  extract_lets fa fb q e
  split
  next hread =>
  extract_lets s₁ s₂
  have hs₁ : s₀.Stays G s₁ := updTeam (h.ofStill (.ofFst hread hf.readSide)) fun _ => rfl
  have hs₂ : s₀.Stays G s₂ := by
    dsimp only [s₂]
    split
    · exact ite hs₁.setBuf hs₁
    · exact hs₁
  clear_value s₂
  exact ite (hs₂.updCore ⟨fun _ h => h, fun _ h => h, fun _ h => .inl h⟩) (hs₂.updCore ⟨fun _ h => h, fun _ h => h, fun _ h => .inl h⟩)

theorem memberEnded {gid : Nat} (h : s₀.Stays G s) : s₀.Stays G (s.memberEnded gid) := by
  unfold State.memberEnded
  split
  · exact h
  · split
    · exact h
    · refine fold h fun _ _ h₁ => ?_
      split
      split
      · exact ite h₁.queueOp h₁
      · exact ite (h₁.updTeam fun _ => rfl) h₁
      · exact h₁

/-! ## Frames -/

theorem pixelDone {p : Pixel} (h : s₀.Stays G s) : s₀.Stays G (s.pixelDone p) := h.updFrame

theorem checkGrid {n : Nat} (h : s₀.Stays G s) : s₀.Stays G (s.checkGrid n) := by
  unfold State.checkGrid
  split
  · exact h
  · exact ite (h.updGrid fun _ => rfl) h

end State.Stays

/-! ## Barriers, and what a group has gathered -/

/-- A group apart from its threads and timestamp, and from what it is parked on. -/
def Group.bare (g : Group) : Group := { g with threads := [], pts := 0, park := .none, subs := [] }

namespace State.Stays

variable {s₀ s t : State}

theorem advanceRptr {cores : List Nat} (h : s₀.Stays Group.bare s) : s₀.Stays Group.bare (s.advanceRptr cores) := h.fold fun _ _ h₁ => h₁.updZone

theorem releaseAt {sel member : Group → Bool} {w : WaitOn} (h : s₀.Stays Group.bare s) : s₀.Stays Group.bare (s.releaseAt sel member w) :=
  h.onGroups (map_updIf fun _ => rfl)

theorem checkRb {gid n : Nat} (h : s₀.Stays Group.bare s) : s₀.Stays Group.bare (s.checkRb gid n) := by
  unfold State.checkRb
  split
  · exact h
  · split
    · exact h
    · exact ite h.releaseAt h

theorem checkTb {team n : Nat} (h : s₀.Stays Group.bare s) : s₀.Stays Group.bare (s.checkTb team n) := by
  unfold State.checkTb
  split
  · exact h
  · split
    · exact h
    · exact ite (h.advanceRptr.releaseAt.updTeam fun _ => rfl) h

theorem checkCb {cl n : Nat} (h : s₀.Stays Group.bare s) : s₀.Stays Group.bare (s.checkCb cl n) := by
  unfold State.checkCb
  split
  · exact h
  · dsimp only
    split
    · exact ite h.updCluster h
    · exact h

theorem checkGb {gid n : Nat} (h : s₀.Stays Group.bare s) : s₀.Stays Group.bare (s.checkGb gid n) := by
  unfold State.checkGb
  split
  · exact h
  · dsimp only
    split
    · exact h
    · exact ite (h.updGrid fun _ => rfl) h

theorem checkBars {g : Group} (h : s₀.Stays Group.bare s) : s₀.Stays Group.bare (s.checkBars g) := by
  unfold State.checkBars
  dsimp only
  refine fold ?_ fun _ _ h₁ => h₁.checkGb
  split
  · exact fold (fold (h.fold fun _ _ h₁ => h₁.checkRb) fun _ _ h₁ => h₁.checkTb) fun _ _ h₁ => h₁.checkCb
  · exact fold (h.fold fun _ _ h₁ => h₁.checkRb) fun _ _ h₁ => h₁.checkTb

theorem flushLine {gid : Nat} {x : CombLine} (h : s₀.Stays Group.bare s) : s₀.Stays Group.bare (s.flushLine gid x) := by
  refine h.trans ⟨map_updIf ?_ _, rfl, rfl, rfl, fun _ => .refl _⟩
  exact fun _ => rfl

theorem flushGroup {g : Group} (h : s₀.Stays Group.bare s) : s₀.Stays Group.bare (s.flushGroup g) := by
  unfold State.flushGroup
  exact h.fold fun _ _ h₁ => h₁.flushLine.updCore ⟨fun _ h => List.mem_of_mem_filter h, fun _ h => h, fun _ h => .inl h⟩

theorem endGroups {gs : List Group} (h : s₀.Stays Group.bare s) : s₀.Stays Group.bare (s.endGroups gs) := by
  unfold State.endGroups
  refine h.fold fun _ _ h₁ => memberEnded (h₁.flushGroup.updGroup ?_)
  exact fun _ => rfl

end State.Stays

end Sys2Proof.Machine
end

section
/-! A team's save completes (R133, R158). -/

namespace Sys2Proof.Machine

/-! ## Lookups in lists that are seen alike -/

theorem find?_map_key {α β : Type} {F : α → β} {p : β → Bool} {q : α → Bool} (h : ∀ a, p (F a) = q a) (l : List α) :
    (l.map F).find? p = (l.find? q).map F := by
  rw [List.find?_map]
  exact congrArg (fun r => (l.find? r).map F) (funext h)

theorem filter_map_key {α β : Type} {F : α → β} {p : β → Bool} {q : α → Bool} (h : ∀ a, p (F a) = q a) (l : List α) :
    (l.map F).filter p = (l.filter q).map F := by
  rw [List.filter_map]
  exact congrArg (fun r => (l.filter r).map F) (funext h)

/-- Every element of a list seen like another's is seen like one of that. -/
theorem exists_of_map_eq {α β : Type} {F : α → β} {l l₀ : List α} (h : l.map F = l₀.map F) {a : α} (ha : a ∈ l) : ∃ b ∈ l₀, F b = F a :=
  List.mem_map.1 (h ▸ List.mem_map_of_mem ha)

namespace State.Stays

variable {G : Group → Group} {s₀ s : State}

theorem team? (h : s₀.Stays G s) (n : Nat) : (s.team? n).map Team.fixed = (s₀.team? n).map Team.fixed := by
  have key := fun l : List Team => find?_map_key (F := Team.fixed) (p := fun t => t.id == n) (q := fun t => t.id == n) (fun _ => rfl) l
  exact (key _).symm.trans ((congrArg _ h.teams).trans (key _))

theorem grid? (h : s₀.Stays G s) (n : Nat) : (s.grid? n).map Grid.fixed = (s₀.grid? n).map Grid.fixed := by
  have key := fun l : List Grid => find?_map_key (F := Grid.fixed) (p := fun t => t.id == n) (q := fun t => t.id == n) (fun _ => rfl) l
  exact (key _).symm.trans ((congrArg _ h.grids).trans (key _))

theorem group? (hid : ∀ g, (G g).id = g.id) (h : s₀.Stays G s) (n : Nat) : (s.group? n).map G = (s₀.group? n).map G := by
  have key := fun l : List Group => find?_map_key (F := G) (p := fun t => t.id == n) (q := fun t => t.id == n) (fun g => by rw [hid]) l
  exact (key _).symm.trans ((congrArg _ h.groups).trans (key _))

theorem filterGroup (hid : ∀ g, (G g).id = g.id) (h : s₀.Stays G s) (n : Nat) :
    (s.dev.groups.filter fun x => x.id == n).map G = (s₀.dev.groups.filter fun x => x.id == n).map G := by
  have key := fun l : List Group => filter_map_key (F := G) (p := fun t => t.id == n) (q := fun t => t.id == n) (fun g => by rw [hid]) l
  exact (key _).symm.trans ((congrArg _ h.groups).trans (key _))

/-- A team is looked up as before, as far as it is left. -/
theorem teamMap {β : Type} (h : s₀.Stays G s) (n : Nat) {f : Team → β} (hf : ∀ t, f t.fixed = f t) : (s.team? n).map f = (s₀.team? n).map f := by
  have key : f = f ∘ Team.fixed := funext fun t => (hf t).symm
  rw [key, ← Option.map_map, h.team?, Option.map_map]

end State.Stays

/-! ## Each group of a list changed in turn -/

theorem State.group?_of_filter {s : State} {n : Nat} {g : Group} (h : (s.dev.groups.filter fun x => x.id == n) = [g]) : s.group? n = some g := by
  rw [State.group?, ← List.head?_filter, h]
  rfl

/-- Each group of a list changed in turn, by what is known of it and the clk. -/
def State.updEach (s : State) (l : List Group) (F : Nat → Group → Group → Group) : State :=
  l.foldl (fun s g => s.updGroup g.id (F s.dev.clk g)) s

theorem State.teams_updEach (s : State) (l : List Group) (F : Nat → Group → Group → Group) : (s.updEach l F).dev.teams = s.dev.teams := by
  induction l generalizing s with
  | nil => rfl
  | cons x r ih => exact ih _

theorem State.group?_updEach_of_not_mem {s : State} {l : List Group} {F : Nat → Group → Group → Group} (hF : ∀ c g x, (F c g x).id = x.id) {n : Nat}
    (hn : (l.filter fun x => x.id == n) = []) : (s.updEach l F).group? n = s.group? n := by
  induction l generalizing s with
  | nil => rfl
  | cons x r ih =>
    rw [List.filter_cons] at hn
    split at hn
    · cases hn
    next hx =>
      have hne : n ≠ x.id := fun h => hx (by simp [h])
      exact (ih hn).trans (State.group?_updGroup_other _ _ _ _ (fun y hy => (hF _ _ y).trans hy) hne)

theorem State.group?_updEach_of_one {s : State} {l : List Group} {F : Nat → Group → Group → Group} (hF : ∀ c g x, (F c g x).id = x.id) {n : Nat}
    {g y : Group} (hn : (l.filter fun x => x.id == n) = [g]) (hg : s.group? n = some y) : (s.updEach l F).group? n = some (F s.dev.clk g y) := by
  induction l generalizing s with
  | nil => cases hn
  | cons x r ih =>
    rw [List.filter_cons] at hn
    split at hn
    next hx =>
      obtain ⟨rfl, hr⟩ := List.cons.inj hn
      obtain rfl : x.id = n := by simpa using hx
      refine (State.group?_updEach_of_not_mem hF hr).trans ?_
      rw [State.group?_updGroup _ _ _ fun y hy => (hF _ _ y).trans hy, hg]
      rfl
    next hx =>
      have hne : n ≠ x.id := fun h => hx (by simp [h])
      refine ih hn ?_
      rw [State.group?_updGroup_other _ _ _ _ (fun y hy => (hF _ _ y).trans hy) hne, hg]

theorem State.filter_groupsOf {s : State} {team : Nat} {g : Group} (hg : (s.dev.groups.filter fun x => x.id == g.id) = [g]) (ht : g.team = team) :
    ((s.groupsOf team).filter fun x => x.id == g.id) = [g] := by
  rw [State.groupsOf, List.filter_comm, hg]
  simp [ht]

theorem State.team?_updTeam {s : State} {n : Nat} {t : Team} (h : s.team? n = some t) (f : Team → Team) (hf : ∀ t, (f t).id = t.id) :
    (s.updTeam n f).team? n = some (f t) :=
  (find?_updIf_same _ f (fun a ha => by rw [hf]; exact ha) _).trans (congrArg (Option.map f) h)

/-! ## The save -/

/-- A group apart from what it is parked on as a whole. -/
def Group.unparked (g : Group) : Group := { g with park := .none }

theorem State.Stays.groupOfOne {G : Group → Group} {s₀ s : State} (hid : ∀ g, (G g).id = g.id) (h : s₀.Stays G s) {g : Group}
    (hg : (s₀.dev.groups.filter fun x => x.id == g.id) = [g]) : ∃ y, G y = G g ∧ (s.dev.groups.filter fun x => x.id == g.id) = [y] := by
  have hmap := h.filterGroup hid g.id
  rw [hg, List.map_singleton] at hmap
  obtain ⟨y, hy, hG⟩ := List.map_eq_singleton_iff.1 hmap
  exact ⟨y, hG, hy⟩

/-- A group that stays as it is, seen whole. -/
theorem State.Stays.groups_eq {s₀ s : State} (h : s₀.Stays (fun g => g) s) : s.dev.groups = s₀.dev.groups := by
  simpa using h.groups

/-- Where a team's save leaves the team and its groups. -/
theorem State.saveTeam_spec {s : State} {t t₀ : Team} (ht : s.team? t.id = some t₀) : ((s.saveTeam t).team? t.id).map Team.st = some .saved ∧
    ∀ g : Group, g.team = t.id → (s.dev.groups.filter fun x => x.id == g.id) = [g] →
      ∃ thr ret obj, (s.saveTeam t).group? g.id = some (g.atSave s.dev.clk thr ret obj) := by
  unfold State.saveTeam
  extract_lets keys remote fwd restart thr ret obj tok s₁ s₂ s₃ s₄
  have hs₁ : s.Stays Group.unparked s₁ := ((State.Stays.refl s).writeBanks.leaveEngine fun _ => rfl).rest rfl rfl rfl rfl rfl
  have hs₃ : s₃ = s₂.updEach (s₂.groupsOf t.id) fun clk _ x => x.atSave clk (thr x) ret obj := rfl
  have hs₄ : s₃.Stays (fun g => g) s₄ := .ite (.refl _) (.rest (.refl _) rfl rfl rfl rfl rfl)
  have hend := (State.Stays.refl (G := fun g => g) s₄).clusterSaved (cl := t.cluster) |>.writeTeams (ctx := t.ctx) |>.finishCmds
  refine ⟨?_, fun g hgt hg => ?_⟩
  · have hteam := hs₁.team? t.id
    rw [ht] at hteam
    obtain ⟨t₁, ht₁, -⟩ := Option.map_eq_some_iff.1 hteam
    have hsaved : (s₃.team? t.id).map Team.st = some .saved := by
      rw [hs₃, State.team?, State.teams_updEach]
      exact congrArg (Option.map Team.st) (State.team?_updTeam ht₁ _ (by exact fun _ => rfl))
    exact ((hs₄.trans hend).teamMap t.id fun _ => rfl).trans hsaved
  · obtain ⟨y, hy, hone⟩ := hs₁.groupOfOne (G := Group.unparked) (fun _ => rfl) hg
    have hyid : y.id = g.id := (congrArg Group.id hy :)
    have hyt : y.team = t.id := (congrArg Group.team hy :).trans hgt
    rw [← hyid] at hone ⊢
    have hat := State.group?_updEach_of_one (F := fun clk _ x => x.atSave clk (thr x) ret obj) (fun _ _ _ => rfl)
      (State.filter_groupsOf (s := s₂) hone hyt) (State.group?_of_filter (s := s₂) hone)
    refine ⟨thr y, ret, obj, ?_⟩
    rw [State.group?, (hs₄.trans hend).groups_eq, hs₃]
    refine hat.trans (congrArg some ?_)
    have hclk : s₂.dev.clk = s.dev.clk := hs₁.clk
    rw [hclk]
    calc y.atSave s.dev.clk (thr y) ret obj = y.unparked.atSave s.dev.clk (thr y) ret obj := rfl
      _ = g.unparked.atSave s.dev.clk (thr y) ret obj := by rw [hy]

/-! ## What has been gathered enters the store queues (R316) -/

/-- A group apart from its store queue. -/
def Group.unqueued (g : Group) : Group := { g with sq := [] }

theorem State.Stays.enterLines {s₀ s : State} {core gid t : Nat} {l : List CombLine} (h : s₀.Stays Group.unqueued s) :
    s₀.Stays Group.unqueued (s.enterLines core gid t l) := by
  induction l generalizing s with
  | nil => exact h
  | cons x r ih =>
    unfold State.enterLines
    refine .ite (ih ?_) h
    have hcomb : s₀.Stays Group.unqueued (s.updCore core fun c => { c with comb := c.comb.filter fun y => y.slot != x.slot }) :=
      h.updCore ⟨fun _ h => List.mem_of_mem_filter h, fun _ h => h, fun _ h => .inl h⟩
    refine .updGroup (hcomb.rest rfl rfl rfl rfl rfl) ?_
    exact fun _ => rfl

theorem State.Stays.flushTeam {s₀ s : State} {t : Team} (h : s₀.Stays Group.unqueued s) : s₀.Stays Group.unqueued (s.flushTeam t) :=
  h.fold fun _ _ h₁ => h₁.enterLines

theorem State.team?_id {s : State} {n : Nat} {t : Team} (h : s.team? n = some t) : t.id = n := by
  simpa using List.find?_some h

/-- A team's save completes (R133, R158). -/
theorem teamSaveComplete_spec {s : State} {team : Nat} {t : Team} (ht : s.team? team = some t) :
    (t.st ≠ .saving ∨ s.issuing team = true → exec (.teamSaveComplete team) s = .next s) ∧
    (t.st = .saving → s.issuing team = false → (s.flushTeam t).saveDone t = false → exec (.teamSaveComplete team) s = .next (s.flushTeam t)) ∧
    (t.st = .saving → s.issuing team = false → (s.flushTeam t).saveDone t = true → ∃ u : State, exec (.teamSaveComplete team) s = .next u ∧
      (u.team? team).map Team.st = some .saved ∧ ∀ g ∈ (s.flushTeam t).dev.groups, g.team = team →
        ((s.flushTeam t).dev.groups.filter fun x => x.id == g.id) = [g] →
        ∃ y, u.group? g.id = some y ∧ y.park = .none ∧ y.g = g.g ∧ y.sb = g.sb ∧ y.sq = g.sq ∧ y.remote = g.remote ∧
          y.pauseEnd = g.pauseEnd - s.dev.clk ∧
          (let plain := fun (t : Thread) => { t with copy := 0, park := none }
           y.threads.map plain = g.threads.map plain)) := by
  obtain rfl := State.team?_id ht
  have hexec : exec (.teamSaveComplete t.id) s = .next (if t.st != .saving || s.issuing t.id then s
      else if (s.flushTeam t).saveDone t then (s.flushTeam t).saveTeam t else s.flushTeam t) := by
    show execTeamSaveComplete t.id s = _
    simp only [execTeamSaveComplete, ht]
  refine ⟨fun h => ?_, fun h1 h2 h3 => ?_, fun h1 h2 h3 => ⟨(s.flushTeam t).saveTeam t, ?_, ?_⟩⟩
  · rw [hexec, if_pos (by simpa using h)]
  · rw [hexec, if_neg (by simp [h1, h2]), if_neg (by simp [h3])]
  · rw [hexec, if_neg (by simp [h1, h2]), if_pos h3]
  · have hflush := (State.Stays.refl s).flushTeam (t := t)
    have hteam := hflush.team? t.id
    rw [ht] at hteam
    obtain ⟨t₀, ht₀, -⟩ := Option.map_eq_some_iff.1 hteam
    obtain ⟨hst, hgroups⟩ := State.saveTeam_spec ht₀
    refine ⟨hst, fun g _ hgt hg => ?_⟩
    obtain ⟨thr, ret, obj, hy⟩ := hgroups g hgt hg
    refine ⟨_, hy, rfl, rfl, rfl, rfl, rfl, ?_, ?_⟩
    · exact congrArg (g.pauseEnd - ·) hflush.clk
    · simp only [Group.atSave, List.map_map]
      rfl

end Sys2Proof.Machine
end

section
/-! The argument window of a team is read (R169). -/

namespace Sys2Proof.Machine

theorem pagesOf_within {va : Nat} (h : va % 4096 + 1024 ≤ 4096) : pagesOf va 1024 = [va] := by
  have hlast : (va + 1024 - 1) / 4096 - va / 4096 + 1 = 1 := by omega
  rw [pagesOf, if_neg (by decide), hlast]
  rfl

theorem pageEnd_within {va : Nat} (h : va % 4096 + 1024 ≤ 4096) : min (va + 1024) ((va / 4096 + 1) * 4096) - va = 1024 := by omega

theorem overlay_nil (pa : Nat) (b : List Byte) : overlay pa b [] = b := by
  refine List.ext_getElem (by simp [overlay]) fun i h h' => ?_
  simp [overlay, assoc, List.getD_eq_getElem?_getD, List.getElem?_eq_getElem h']

section
variable {va a : Nat} (ha : va ≤ a) (ha' : a + 4 ≤ va + 1024)
include ha ha'

/-- A word of a window whose one page is refused. -/
theorem windowWord_error (c : BitVec 8) : windowWord [(va, 1024, .error c)] a = .bad c := by
  have hin0 : a < va + 1024 := by omega
  simp [windowWord, List.range_succ, ha, hin0]

/-- A word of a window whose one page is read. -/
theorem windowWord_ok (b : List Byte) :
    windowWord [(va, 1024, .ok b)] a = .ok (BitVec.ofNat 32 (natOfBytes ((List.range 4).map fun i => b.getD (a + i - va) 0#8))) := by
  have hin : ∀ i < 4, va ≤ a + i ∧ a + i < va + 1024 := by omega
  have hin0 : a < va + 1024 := by omega
  simp [windowWord, List.range_succ, hin, ha, hin0]

end

theorem map_range_mgets (m : Mem) (a : Nat) : (List.range 4).map (fun i => mget m (a + i)) = mgets m a 4 := rfl

/-- The words of a window in one page. -/
theorem windowWord_mgets (m : Mem) (va pa : Nat) {i : Nat} (hi : i < 256) :
    windowWord [(va, 1024, .ok (mgets m pa 1024))] (va + 4 * i) = .ok (BitVec.ofNat 32 (natOfBytes (mgets m (pa + 4 * i) 4))) := by
  rw [windowWord_ok (by omega) (by omega), ← map_range_mgets]
  congr 3
  refine List.map_congr_left fun j hj => ?_
  have hj := List.mem_range.1 hj
  rw [getD_mgets _ _ _ _ (by omega)]
  congr 1
  omega

section
variable {s s1 : State} {team pa : Nat} {t : Team} {gr : Grid} {e e2 : TlbEntry} (ht : s.team? team = some t) (hgr : s.grid? t.grid = some gr)
include ht

theorem State.residentTeam_eq_false : s.residentTeam team = false ↔ t.st ≠ .resident ∧ t.st ≠ .saving := by
  simp [State.residentTeam, ht]

include hgr

theorem argumentWindowLoad_idle (h : t.window.isSome = true ∨ (t.st ≠ .resident ∧ t.st ≠ .saving)) :
    exec (.argumentWindowLoad team) s = .next s := by
  show execArgumentWindowLoad team s = _
  simp only [execArgumentWindowLoad, ht, hgr]
  rw [if_pos]
  rw [← State.residentTeam_eq_false ht] at h
  simpa using h

variable (hw : t.window = none) (hst : t.st = .resident ∨ t.st = .saving) (hargs : gr.args % 4096 + 1024 ≤ 4096)
include hw hst hargs

theorem argumentWindowLoad_reads :
    let pts := (s.groupsOf team).foldl (fun p g => max p g.pts) 0
    exec (.argumentWindowLoad team) s = .next (match s.engRange (some t.core) t.ctx team gr.args 1024 .load with
      | (s, .ok _, ps) =>
        let r := ps.foldl (fun (acc : State × List Byte) (pa, len, e) =>
          ((acc.1.homeLoad pts pa len).1, acc.2 ++ overlay pa (acc.1.homeLoad pts pa len).2.1
            (if e.typ = 1 then (acc.1.homeLoad pts pa len).1.gathered t.core pa len else []))) (s, [])
        (r.1.endEng team).updTeam team fun t =>
          { t with window := some ((List.range 256).map fun i => windowWord [(gr.args, 1024, .ok r.2)] (gr.args + 4 * i)) }
      | (s, .fault c _, _) => (s.endEng team).updTeam team fun t =>
          { t with window := some ((List.range 256).map fun i => windowWord [(gr.args, 1024, .error c)] (gr.args + 4 * i)) }
      | (s, .wait _, _) => s) := by
  intro pts
  have hres : ¬ (t.window.isSome || !s.residentTeam team) = true := by
    have hres := (State.residentTeam_eq_false ht).not.2 (by tauto)
    simp [hw, hres]
  show execArgumentWindowLoad team s = _
  simp only [execArgumentWindowLoad, ht, hgr]
  rw [if_neg hres, pagesOf_within hargs]
  simp only [List.foldl_cons, List.foldl_nil, pageEnd_within hargs]
  generalize s.engRange (some t.core) t.ctx team gr.args 1024 .load = q
  obtain ⟨s1, r, ps⟩ := q
  cases r <;> rfl

/-- The window is read from the page that holds it. -/
theorem argumentWindowLoad_loads
    (hr : s.engRange (some t.core) t.ctx team gr.args 1024 .load = (s1, .ok e, [(pa, 1024, e2)])) (htyp : e2.typ = 0) :
    let pts := (s.groupsOf team).foldl (fun p g => max p g.pts) 0
    ∃ W : List WinWord, W.length = 256 ∧
      (∀ i < 256, W[i]? = some (.ok (BitVec.ofNat 32 (natOfBytes (mgets s1.mem (pa + 4 * i) 4))))) ∧
      exec (.argumentWindowLoad team) s = .next (((s1.homeLoad pts pa 1024).1.endEng team).updTeam team fun t => { t with window := some W }) := by
  intro pts
  refine ⟨(List.range 256).map fun i => .ok (BitVec.ofNat 32 (natOfBytes (mgets s1.mem (pa + 4 * i) 4))), by simp, fun i hi => by simp [hi], ?_⟩
  rw [argumentWindowLoad_reads ht hgr hw hst hargs, hr]
  simp only [List.foldl_cons, List.foldl_nil, htyp, List.nil_append, overlay_nil, if_neg (show ¬ (0 : Nat) = 1 by decide)]
  have hwords : ((List.range 256).map fun i => windowWord [(gr.args, 1024, .ok (mgets s1.mem pa 1024))] (gr.args + 4 * i)) =
      (List.range 256).map fun i => .ok (BitVec.ofNat 32 (natOfBytes (mgets s1.mem (pa + 4 * i) 4))) :=
    List.map_congr_left fun i hi => windowWord_mgets s1.mem gr.args pa (List.mem_range.1 hi)
  rw [← hwords]
  rfl

/-- A page that is refused is refused word by word. -/
theorem argumentWindowLoad_refused {c : BitVec 8} {va : Nat} {l : List (Nat × Nat × TlbEntry)}
    (hr : s.engRange (some t.core) t.ctx team gr.args 1024 .load = (s1, .fault c va, l)) : exec (.argumentWindowLoad team) s =
      .next ((s1.endEng team).updTeam team fun t => { t with window := some (List.replicate 256 (.bad c)) }) := by
  rw [argumentWindowLoad_reads ht hgr hw hst hargs, hr]
  have hwords : ((List.range 256).map fun i => windowWord [(gr.args, 1024, .error c)] (gr.args + 4 * i)) = List.replicate 256 (.bad c) := by
    refine List.eq_replicate_iff.2 ⟨by simp, fun w hw => ?_⟩
    obtain ⟨i, hi, rfl⟩ := List.mem_map.1 hw
    have hi := List.mem_range.1 hi
    exact windowWord_error (by omega) (by omega) c
  rw [← hwords]

/-- Nothing is loaded while a page is awaited. -/
theorem argumentWindowLoad_waits {va : Nat} {l : List (Nat × Nat × TlbEntry)}
    (hr : s.engRange (some t.core) t.ctx team gr.args 1024 .load = (s1, .wait va, l)) : exec (.argumentWindowLoad team) s = .next s1 := by
  rw [argumentWindowLoad_reads ht hgr hw hst hargs, hr]
end

end Sys2Proof.Machine
end

section
/-! A saved cluster of one team is resumed (R135, R138, R159). -/

namespace Sys2Proof.Machine

/-! ## What is awaited again (R159) -/

/-- A thread apart from what it is parked on. -/
def Thread.running (th : Thread) : Thread := { th with park := none, parkKey := 0 }

/-- A group apart from what its threads are parked on. -/
def Group.running (g : Group) : Group := { g with subs := [], threads := g.threads.map Thread.running }

theorem Group.running_updIf (g : Group) (hit : Thread → Bool) (f : Thread → Thread) (hf : ∀ th, (f th).running = th.running) (l : List ParkObj) :
    Group.running { g with threads := updIf hit f g.threads, subs := l } = g.running := by
  simp only [Group.running, map_updIf hf]

theorem State.Stays.askFetch {G : Group → Group} {s₀ s : State} {core ctx image id : Nat} {key : Option CopyKey} (h : s₀.Stays G s) :
    s₀.Stays G (s.askFetch core ctx image id key).2 := by
  unfold State.askFetch
  split
  · exact h
  · have hfresh : s₀.Stays G s.fresh.2 := h.rest rfl rfl rfl rfl rfl
    generalize s.fresh = q at hfresh ⊢
    obtain ⟨n, s'⟩ := q
    dsimp only at hfresh ⊢
    refine hfresh.updCore ?_
    exact ⟨fun _ h => h, fun _ h => h, fun _ h => .inl h⟩

theorem State.askFetch_teams (s : State) (core ctx image id : Nat) (key : Option CopyKey) : (s.askFetch core ctx image id key).2.dev.teams = s.dev.teams := by
  unfold State.askFetch
  split <;> rfl

theorem State.Stays.unparkSame {s₀ s : State} {sel : Group → Bool} {o : ParkObj} (h : s₀.Stays Group.running s) :
    s₀.Stays Group.running (s.unpark sel o id) := by
  refine h.onGroups (map_updIf fun g => Group.running_updIf g _ _ ?_ _)
  exact fun _ => rfl

theorem State.Stays.parkAgain {s₀ s : State} {g : Group} (h : s₀.Stays Group.running s) : s₀.Stays Group.running (s.parkAgain g) := by
  unfold State.parkAgain
  refine h.fold fun s o h₁ => ?_
  have again : ∀ (t : State) (n : Nat), s₀.Stays Group.running t → s₀.Stays Group.running
      (t.updGroup g.id fun g => { g with threads := updIf (fun th => th.park == some o) (fun th => { th with parkKey := n }) g.threads }) :=
    fun t n ht => ht.updGroup fun g => by
      simp only [Group.running]
      rw [map_updIf]
      exact fun _ => rfl
  dsimp only
  split
  · exact .ite h₁.unparkSame (again _ _ h₁.askFetch)
  · exact .ite h₁.unparkSame (again _ _ h₁)
  · exact h₁

theorem State.parkAgain_teams (s : State) (g : Group) : (s.parkAgain g).dev.teams = s.dev.teams := by
  unfold State.parkAgain
  generalize g.subs = l
  induction l generalizing s with
  | nil => rfl
  | cons o r ih =>
    rw [List.foldl_cons, ih]
    dsimp only
    split
    · split
      · rfl
      · exact State.askFetch_teams ..
    · split <;> rfl
    · rfl

theorem State.foldl_parkAgain_teams (l : List Group) (s : State) : (l.foldl State.parkAgain s).dev.teams = s.dev.teams := by
  induction l generalizing s with
  | nil => rfl
  | cons g r ih => rw [List.foldl_cons, ih, State.parkAgain_teams]

/-! ## One team resumed -/

section
variable {s : State} {tm : Team} {gr : Grid} {core : Nat} {seats : List (Nat × Nat)} (hone : ∀ x ∈ s.dev.teams, x.id = tm.id → x = tm)
  (hmem : tm ∈ s.dev.teams)
include hone hmem

theorem State.team?_of_one : s.team? tm.id = some tm := by
  cases h : s.team? tm.id with
  | none => exact absurd (List.find?_eq_none.1 h tm hmem) (by simp)
  | some x => rw [hone x (List.mem_of_find?_eq_some h) (State.team?_id h)]

variable (hgr : s.grid? tm.grid = some gr) (hkeys : tm.keys = []) (hre : tm.reown = none)
include hgr hkeys hre

theorem State.resumeTeam_spec :
    ((s.resumeTeam tm core seats).team? tm.id).map (fun x => (x.st, x.core, x.handles, x.banks, x.tb, x.rings)) =
      some (.resident, core, if gr.lr.restart then tm.handles.map Handle.unsaved else tm.handles, tm.banks, tm.tb, tm.rings) ∧
    ∀ g : Group, g.team = tm.id → (s.dev.groups.filter fun x => x.id == g.id) = [g] → ∃ y, (s.resumeTeam tm core seats).group? g.id = some y ∧
      y.running = (g.atResume [] s.dev.clk core (seats.getD g.slot (0, 0))).running := by
  unfold State.resumeTeam
  rw [hkeys, hre]
  dsimp -zeta only [List.foldl_nil]
  extract_lets tok restart s₁ s₂ s₃ s₄
  have hs₂ : s₂ = s₁.updEach (s₁.groupsOf tm.id) fun clk g => Group.atResume [] clk core (seats.getD g.slot (0, 0)) := rfl
  have hs₃ : s₂.Stays Group.running s₃ := State.Stays.fold (.refl s₂) fun _ _ h => h.parkAgain
  have hs₄ : s₂.Stays Group.running s₄ := hs₃.rest rfl rfl rfl rfl rfl
  refine ⟨?_, fun g hgt hg => ?_⟩
  · have hteams : s₄.dev.teams = s₁.dev.teams := by
      rw [← State.teams_updEach s₁ (s₁.groupsOf tm.id) _, ← hs₂]
      exact State.foldl_parkAgain_teams _ _
    rw [State.team?, hteams]
    refine (congrArg (Option.map _) (State.team?_updTeam (State.team?_of_one hone hmem) _ (by exact fun _ => rfl))).trans ?_
    simp only [Option.map_some, restart, hgr, Option.getD_some]
  · have hat := State.group?_updEach_of_one (F := fun clk g => Group.atResume [] clk core (seats.getD g.slot (0, 0))) (fun _ _ _ => rfl)
      (State.filter_groupsOf (s := s₁) hg hgt) (State.group?_of_filter (s := s₁) hg)
    have hend := hs₄.group? (G := Group.running) (fun _ => rfl) g.id
    rw [hs₂, hat] at hend
    exact Option.map_eq_some_iff.1 hend
end

/-! ## The cluster resumed -/

theorem State.savedTeams_of_one {s : State} {cl : Nat} {tm : Team} (h : (s.dev.teams.filter fun t => t.cluster == cl && t.st == .saved) = [tm]) :
    s.savedTeams cl = [tm] := by
  rw [State.savedTeams, h]
  rfl

theorem State.resumeSet_of_alone {s : State} {cluster : Nat} {c : Cluster} {gr : Grid} (hc : s.cluster? cluster = some c) (hgr : s.grid? c.grid = some gr)
    (hcoop : gr.lr.coop = false) : s.resumeSet cluster = [c] := by
  simp [State.resumeSet, hc, hgr, hcoop]

/-- A cluster that is not of a cooperative grid is resumed by itself, where it may be and finds a place. -/
theorem exec_teamResume_alone {s : State} {cluster : Nat} {c : Cluster} {gr : Grid} (hc : s.cluster? cluster = some c) (hgr : s.grid? c.grid = some gr)
    (hcoop : gr.lr.coop = false) : exec (.teamResume cluster) s = .next (
      if s.mayRun gr = false ∨ c.st ≠ .saved ∨ (s.savedTeams c.id).length = 0 ∨ s.quotaOk gr.ctx (s.savedTeams c.id).length 0 = false then s
      else match s.resumeSpot gr c.id with
        | none => s
        | some sp => (s.resumeCluster gr c.id sp).writeTeams gr.ctx) := by
  show execTeamResume cluster s = _
  simp only [execTeamResume, hc, hgr, State.resumeSet_of_alone hc hgr hcoop]
  simp only [List.map_cons, List.map_nil, List.sum_cons, List.sum_nil, Nat.add_zero, List.any_cons, List.any_nil, Bool.or_false, hcoop, Bool.false_and]
  by_cases h : s.mayRun gr = false ∨ c.st ≠ .saved ∨ (s.savedTeams c.id).length = 0 ∨ s.quotaOk gr.ctx (s.savedTeams c.id).length 0 = false
  · have h' : (!s.mayRun gr || c.st != .saved || decide ((s.savedTeams c.id).length = 0) || !s.quotaOk gr.ctx (s.savedTeams c.id).length 0) = true := by
      simpa [or_assoc] using h
    rw [if_pos h, if_pos h']
  · have h' : ¬ (!s.mayRun gr || c.st != .saved || decide ((s.savedTeams c.id).length = 0) || !s.quotaOk gr.ctx (s.savedTeams c.id).length 0) = true := by
      simpa [or_assoc] using h
    rw [if_neg h, if_neg h']
    simp only [State.resumeAll]
    cases s.resumeSpot gr c.id <;> rfl

theorem State.savedTeams_eq_nil {s : State} {cl : Nat} (h : (s.dev.teams.filter fun t => t.cluster == cl && t.st == .saved) = []) :
    s.savedTeams cl = [] := by
  rw [State.savedTeams, h]
  rfl

/-- A saved cluster is resumed where it may be and finds a place. -/
theorem teamResume_spec {s : State} {cluster : Nat} {c : Cluster} {gr : Grid} (hc : s.cluster? cluster = some c) (hgr : s.grid? c.grid = some gr)
    (hcoop : gr.lr.coop = false) :
    let saved := s.dev.teams.filter fun t => t.cluster == cluster && t.st == .saved
    (s.mayRun gr = false ∨ c.st ≠ .saved ∨ saved = [] ∨ s.resumeSpot gr c.id = none → exec (.teamResume cluster) s = .next s) ∧
    ∀ tm sp core seats, s.mayRun gr = true → c.st = .saved → saved = [tm] → s.quotaOk gr.ctx 1 0 = true → s.resumeSpot gr c.id = some sp →
      sp.cores[s.rankOf tm]? = some (core, seats) → tm.keys = [] → tm.reown = none →
      (∀ x ∈ s.dev.teams, x.id = tm.id → x = tm) → tm.grid = c.grid → ∃ u : State,
        exec (.teamResume cluster) s = .next u ∧ u.dev.placePtr = (sp.origin + gr.lr.clw) % 192 ∧
        (u.team? tm.id).map (fun x => (x.st, x.core, x.handles, x.banks, x.tb, x.rings)) =
          some (.resident, core, if gr.lr.restart then tm.handles.map Handle.unsaved else tm.handles, tm.banks, tm.tb, tm.rings) ∧
        ∀ g ∈ s.dev.groups, g.team = tm.id → (s.dev.groups.filter fun x => x.id == g.id) = [g] → ∃ y, u.group? g.id = some y ∧ y.core = core ∧
          (y.reed, y.rslot) = seats.getD g.slot (0, 0) ∧ y.g = g.g ∧ y.sb = g.sb ∧ y.sq = g.sq ∧
          y.threads.map (fun x => (x.vpc, x.v, x.p, x.ended)) = g.threads.map fun x => (x.vpc, x.v, x.p, x.ended) := by
  obtain rfl := State.cluster?_id hc
  intro saved
  have hexec := exec_teamResume_alone hc hgr hcoop
  refine ⟨fun h => ?_, fun tm sp core seats hrun hst hone hquota hspot hcore hkeys hre huniq htg => ?_⟩
  · rw [hexec]
    split
    · rfl
    next hno =>
      have hspot : s.resumeSpot gr c.id = none := by
        refine (h.resolve_left fun h => hno (.inl h)).resolve_left (fun h => hno (.inr (.inl h))) |>.resolve_left fun h => hno (.inr (.inr (.inl ?_)))
        rw [State.savedTeams_eq_nil h]
        rfl
      rw [hspot]
  · have hsaved := State.savedTeams_of_one hone
    have hmem : tm ∈ s.dev.teams := List.mem_of_mem_filter (hone ▸ List.mem_singleton_self tm)
    have hstores := (State.Stores.refl (s.resumeCluster gr c.id sp)).writeCount gr.ctx 0x58 ((s.resumeCluster gr c.id sp).teamCount gr.ctx)
    obtain ⟨-, ts, hdev⟩ := hstores
    obtain ⟨hteam, hgroup⟩ := State.resumeTeam_spec (core := core) (seats := seats) huniq hmem (htg ▸ hgr) hkeys hre
    have hcl : s.resumeCluster gr c.id sp = ((s.resumeTeam tm core seats).updCluster c.id fun x => { x with
        st := .placed, origin := sp.origin, placedAt := (s.resumeTeam tm core seats).dev.clk }).onDev
        fun d => { d with placePtr := nextPtr sp.origin gr.lr.clw } := by
      simp only [State.resumeCluster, hsaved, List.foldl_cons, List.foldl_nil, hcore]
    refine ⟨(s.resumeCluster gr c.id sp).writeTeams gr.ctx, ?_, ?_, ?_, fun g _ hgt hg => ?_⟩
    · rw [hexec, hsaved, if_neg (by simp [hrun, hst, hquota]), hspot]
    · rw [State.writeTeams, hdev, hcl]
      rfl
    · rw [State.team?, State.writeTeams, hdev, hcl]
      exact hteam
    · obtain ⟨y, hy, hrunning⟩ := hgroup g hgt hg
      refine ⟨y, ?_, ?_⟩
      · rw [State.group?, State.writeTeams, hdev, hcl]
        exact hy
      · have hth := congrArg (List.map fun x : Thread => (x.vpc, x.v, x.p, x.ended)) (congrArg Group.threads hrunning :)
        simp only [Group.running, Group.atResume, List.map_map] at hth
        exact ⟨(congrArg Group.core hrunning :), (congrArg (fun g => (g.reed, g.rslot)) hrunning :), (congrArg Group.g hrunning :),
          (congrArg Group.sb hrunning :), (congrArg Group.sq hrunning :), hth⟩

end Sys2Proof.Machine
end

section
/-! What arrives for a team that has left its core (R134). -/

namespace Sys2Proof.Machine

theorem Group.updThread_same (g : Group) (t : Nat) {f : Thread → Thread} (hf : ∀ th, f th = th) : g.updThread t f = g := by
  have hid : f = fun th => th := funext hf
  rw [Group.updThread, hid]
  exact congrArg (fun l => { g with threads := l }) (List.modify_id t g.threads)

/-- A remote load's bytes are delivered to its registers. -/
theorem State.deliver_remote (s : State) {r : Pending} {ext : LoadExt} {p d : Nat} {tag : Word} {a : Bool} (hf : r.fault = none)
    (hk : r.kind = .remote p tag ext d a) :
    s.deliver r = ((s.updGroup r.grp fun g => wrN g r.thread (.v (BitVec.ofNat 6 d)) (ext.words r.val)).dropResult r).endEng r.id := by
  have hw : r.writes = ([(.v (BitVec.ofNat 6 d), ext.words r.val)], 0#6) := by simp only [Pending.writes, hk]
  have hth : ∀ g : Group, (g.updThread r.thread fun x => { x with fpflags := x.fpflags ||| 0#6 }) = g := fun g =>
    g.updThread_same _ fun x => by simp
  rw [State.deliver_v s hf hw]
  simp only [hth]

/-- A result leaves the cores and the forwarding entries as they are. -/
theorem State.dropResult_rest (s : State) (r : Pending) : (s.dropResult r).dev.fwds = s.dev.fwds ∧ (s.dropResult r).dev.cores = s.dev.cores := by
  unfold State.dropResult
  dsimp only
  split <;> exact ⟨rfl, rfl⟩

/-- A forwarding entry that holds nothing more is freed (R134 item 4). -/
theorem State.freeFwd_last {s : State} {f : Fwd} (hf : (s.dev.fwds.find? fun x => x.id == f.id) = some f) (hres : f.res = [])
    (hcmds : ∀ k ∈ (s.core f.core).cmds, k.team ≠ f.team) (g : Fwd) (hg : g.id = f.id) :
    s.freeFwd g = s.onDev fun d => { d with fwds := d.fwds.filter fun x => x.id != f.id } := by
  unfold State.freeFwd
  rw [hg, hf]
  exact if_pos (by simpa [hres] using hcmds)

theorem forwardedArrival_idle {s : State} {core n : Nat} (h : (s.dev.fwds.find? fun f => f.id == n && f.core == core) = none) :
    exec (.forwardedArrival core n) s = .next s := by
  show execForwardedArrival core n s = _
  simp only [execForwardedArrival, h]

/-- The last result on its way to a team is delivered, and its entry is freed (R134). -/
theorem forwardedArrival_last {s : State} {core n : Nat} {f : Fwd} {r : Pending} {ext : LoadExt} {p d : Nat} {tag : Word} {a : Bool}
    (hfind : (s.dev.fwds.find? fun f => f.id == n && f.core == core) = some f) (hres : f.res = [r.id]) (hone : ∀ x ∈ s.dev.fwds, x.id = n → x = f)
    (hr : s.pending? r.id = some r) (hready : r.ready = true) (hfault : r.fault = none) (hk : r.kind = .remote p tag ext d a)
    (hcmds : ∀ k ∈ (s.core core).cmds, k.team ≠ f.team) :
    exec (.forwardedArrival core n) s = .next (((((s.updGroup r.grp fun g => wrN g r.thread (.v (BitVec.ofNat 6 d)) (ext.words r.val)).dropResult r).endEng
      r.id).onDev fun x => { x with fwds := x.fwds.filter fun f => f.id != n })) := by
  obtain ⟨rfl, rfl⟩ : f.id = n ∧ f.core = core := by simpa using List.find?_some hfind
  have hmem := List.mem_of_find?_eq_some hfind
  obtain ⟨hfwds, hcores⟩ := (s.updGroup r.grp fun g => wrN g r.thread (.v (BitVec.ofNat 6 d)) (ext.words r.val)).dropResult_rest r
  show execForwardedArrival f.core f.id s = _
  simp only [execForwardedArrival, hfind, hres, List.filterMap_cons, hr, List.filterMap_nil, List.find?_cons, hready, State.deliver_remote s hfault hk]
  refine congrArg Host.Outcome.next ?_
  generalize (s.updGroup r.grp fun g => wrN g r.thread (.v (BitVec.ofNat 6 d)) (ext.words r.val)).dropResult r = t at hfwds hcores ⊢
  have hfwds : t.dev.fwds = s.dev.fwds := hfwds
  have hcore : t.core f.core = s.core f.core := by
    rw [State.core, State.core, hcores]
    rfl
  have hfirst : (s.dev.fwds.find? fun x => x.id == f.id) = some f := by
    cases h : s.dev.fwds.find? fun x => x.id == f.id with
    | none => exact absurd (List.find?_eq_none.1 h f hmem) (by simp)
    | some x => rw [hone x (List.mem_of_find?_eq_some h) (by simpa using List.find?_some h)]
  have hleft : ((updIf (fun x : Fwd => x.id == f.id) (fun x => { x with res := x.res.filter (· ≠ r.id) }) t.dev.fwds).find? fun x => x.id == f.id) =
      some { f with res := f.res.filter (· ≠ r.id) } := by
    rw [hfwds, find?_updIf_same _ _ (by exact fun _ h => h), hfirst]
    rfl
  have hgone : (updIf (fun x : Fwd => x.id == f.id) (fun x => { x with res := x.res.filter (· ≠ r.id) }) t.dev.fwds).filter (fun x => x.id != f.id) =
      t.dev.fwds.filter fun x => x.id != f.id := filter_updIf_id Fwd.id f.id _ (by exact fun _ => rfl) _
  refine (State.freeFwd_last (f := { f with res := f.res.filter (· ≠ r.id) }) hleft (by simp [hres]) ?_ f rfl).trans ?_
  · exact fun k hkm => hcmds k (hcore ▸ hkm)
  · exact congrArg (fun l => (t.endEng r.id).onDev fun x => { x with fwds := l }) hgone

end Sys2Proof.Machine
end

section
/-! The end of a group, and the retirement of its team (R98, R137, R138). -/

namespace Sys2Proof.Machine

/-! ## A team retires -/

/-- A group apart from what its end, its barriers and its team's retirement change. -/
def Group.place (g : Group) : Group := { g.bare with ended := false }

/-- A team's record as it retires; what it `keeps`, and whether its context is dying. -/
def Team.retire (keeps dying : Bool) (x : Team) : Team :=
  { x with st := .retired, handles := if keeps then x.handles else if dying then x.handles.map fun h => { h with level := 0 } else [],
           banks := if keeps then x.banks else [], ot := x.ot.map fun _ => .free, keys := [], reown := none }

/-- What the retirement of a team leaves. -/
structure State.Retires (s : State) (t : Team) (dying : Bool) (u : State) : Prop where
  places : u.dev.groups.map Group.place = s.dev.groups.map Group.place
  grids : u.dev.grids.map Grid.fixed = s.dev.grids.map Grid.fixed
  core : ∀ c, (s.core c).Keeps (u.core c)
  ended : ∀ x ∈ u.dev.groups, x.team = t.id → x.ended = true
  team : ∀ t₀, s.team? t.id = some t₀ → ∃ x, u.team? t.id = some x ∧ x.fixed = (t₀.retire (dying && t.st != .saved) dying).fixed

theorem State.Stays.places {s₀ s : State} (h : s₀.Stays Group.bare s) : s.dev.groups.map Group.place = s₀.dev.groups.map Group.place := by
  have hplace := congrArg (List.map Group.place) h.groups
  rw [List.map_map, List.map_map] at hplace
  exact hplace

theorem State.Stays.team?_some {G : Group → Group} {s₀ s : State} (h : s₀.Stays G s) {n : Nat} {t : Team} (ht : s₀.team? n = some t) :
    ∃ x, s.team? n = some x ∧ x.fixed = t.fixed := by
  have hteam := h.team? n
  rw [ht] at hteam
  exact Option.map_eq_some_iff.1 hteam

theorem State.retireTeam_retires (s : State) (t : Team) (dying : Bool) : s.Retires t dying (s.retireTeam t dying) := by
  unfold State.retireTeam
  extract_lets gs keeps s₁ s₂ s₃ s₄ s₅ s₆ s₇ s₈
  have hs₁ : s.Stays Group.bare s₁ := .ite (State.Stays.refl s).endGroups (.refl s)
  have hs₂ : s.Stays Group.bare s₂ := .ite hs₁ (hs₁.leaveCore fun _ => rfl)
  have hs₅ : s₄.Stays Group.bare s₅ := State.Stays.fold (.refl s₄) fun _ _ h₁ => h₁.pixelDone
  have hs₆ : s₄.Stays Group.bare s₆ := .ite hs₅ (hs₅.rest rfl rfl rfl rfl rfl)
  have hs₇ : s₄.Stays Group.bare s₇ := .ite hs₆.updCluster hs₆.clusterSaved
  have hs₈ : s₄.Stays Group.bare s₈ := by
    clear_value s₇ gs
    dsimp only [s₈]
    split
    · exact hs₇.checkBars
    · exact hs₇
  have hend := (hs₈.writeTeams (ctx := t.ctx)).checkGrid (n := t.grid) |>.finishCmds
  refine ⟨?_, hend.grids.trans hs₂.grids, fun c => (hs₂.core c).trans (hend.core c), fun x hx ht => ?_, fun t₀ ht₀ => ?_⟩
  · refine hend.places.trans (Eq.trans ?_ hs₂.places)
    refine map_updIf ?_ _
    exact fun _ => rfl
  · obtain ⟨y, hy, hbare⟩ := exists_of_map_eq hend.groups hx
    obtain ⟨z, -, rfl⟩ := List.mem_map.1 hy
    dsimp only at hbare
    split at hbare
    next => exact (congrArg Group.ended hbare :).symm
    next hz =>
      have hzt : z.team = t.id := (congrArg Group.team hbare :).trans ht
      exact absurd hzt (by simpa using hz)
  · obtain ⟨t₂, ht₂, hfix⟩ := hs₂.team?_some ht₀
    obtain ⟨x, hx, hxfix⟩ := hend.team?_some (State.team?_updTeam (s := s₃) ht₂ (Team.retire keeps dying) (by exact fun _ => rfl))
    refine ⟨x, hx, hxfix.trans ?_⟩
    calc (t₂.retire keeps dying).fixed = (t₂.fixed.retire keeps dying).fixed := rfl
      _ = (t₀.fixed.retire keeps dying).fixed := by rw [hfix]

section
variable {s u : State} {t : Team} {dying : Bool} (h : s.Retires t dying u)
include h

theorem State.Retires.group? (n : Nat) : (u.group? n).map Group.place = (s.group? n).map Group.place := by
  have key := fun l : List Group => find?_map_key (F := Group.place) (p := fun t => t.id == n) (q := fun t => t.id == n) (fun _ => rfl) l
  exact (key _).symm.trans ((congrArg _ h.places).trans (key _))

/-- Every group of the team has ended. -/
theorem State.Retires.group?_ended {n : Nat} {g : Group} (hg : s.group? n = some g) (ht : g.team = t.id) :
    (u.group? n).map Group.ended = some true := by
  have hplace := h.group? n
  rw [hg] at hplace
  obtain ⟨y, hy, hpl⟩ := Option.map_eq_some_iff.1 hplace
  rw [hy, Option.map_some, h.ended y (List.mem_of_find?_eq_some hy) ((congrArg Group.team hpl :).trans ht)]

theorem State.Retires.team?_map {β : Type} {t₀ : Team} (ht : s.team? t.id = some t₀) {f : Team → β} (hf : ∀ x, f x.fixed = f x) :
    (u.team? t.id).map f = some (f (t₀.retire (dying && t.st != .saved) dying)) := by
  obtain ⟨x, hx, hfix⟩ := h.team t₀ ht
  rw [hx, Option.map_some, ← hf, hfix, hf]

end

/-! ## What a group has gathered (R297) -/

theorem State.mem_comb_flushLines {s : State} {gid core : Nat} {l : List CombLine} {y : CombLine}
    (hy : y ∈ ((l.foldl (fun s x =>
      (s.flushLine gid x).updCore core fun c => { c with comb := c.comb.filter fun y => y.slot != x.slot }) s).core core).comb) :
    y ∈ (s.core core).comb ∧ ∀ x ∈ l, y.slot ≠ x.slot := by
  induction l generalizing s with
  | nil => exact ⟨hy, fun _ h => nomatch h⟩
  | cons x r ih =>
    obtain ⟨hmem, hrest⟩ := ih hy
    rw [State.core_updCore, if_pos rfl] at hmem
    obtain ⟨hin, hslot⟩ := List.mem_filter.1 hmem
    exact ⟨hin, List.forall_mem_cons.2 ⟨by simpa using hslot, hrest⟩⟩

/-- No line holds a byte that a thread of the group stored. -/
theorem State.flushGroup_comb (s : State) (g : Group) : ∀ x ∈ ((s.flushGroup g).core g.core).comb, ∀ b ∈ x.bytes, b.grp = g.id → 32 ≤ b.thread := by
  intro x hx b hb hgrp
  obtain ⟨hin, hslot⟩ := State.mem_comb_flushLines hx
  by_contra hlt
  have hholds : x.holds g.id (List.range 32) = true := by
    simp only [CombLine.holds, List.any_eq_true]
    exact ⟨b, hb, by simpa [hgrp] using hlt⟩
  exact hslot x (mem_sortBy.2 (List.mem_filter.2 ⟨hin, hholds⟩)) rfl

/-! ## A group ends (R137) -/

/-- A group that has ended. -/
def Group.over (g : Group) : Group := { g with ended := true }

theorem State.Stays.updOver {s₀ s : State} (h : s₀.Stays Group.bare s) (n : Nat) :
    (s₀.updGroup n Group.over).Stays Group.bare (s.updGroup n Group.over) := by
  have key : ∀ l : List Group, (updIf (fun g => g.id == n) Group.over l).map Group.bare = updIf (fun g => g.id == n) Group.over (l.map Group.bare) := by
    intro l
    rw [updIf, updIf, List.map_map, List.map_map]
    refine List.map_congr_left fun g _ => ?_
    dsimp only [Function.comp]
    rw [show g.bare.id = g.id from rfl]
    split <;> rfl
  exact ⟨(key _).trans ((congrArg _ h.groups).trans (key _).symm), h.teams, h.grids, h.clk, h.core⟩

/-- A group's end, but for its team's. -/
def State.endGroup (s : State) (g : Group) : State :=
  let s := (s.flushGroup g).updGroup g.id Group.over
  (if (s.core g.core).owner == some g.id then s.passOwner g.core
    else s.updCore g.core fun c => { c with ownq := c.ownq.filter (· ≠ g.id) }).checkBars g

section
variable (s : State) (g : Group)

theorem State.endGroup_stays : ((s.flushGroup g).updGroup g.id Group.over).Stays Group.bare (s.endGroup g) := by
  unfold State.endGroup
  refine State.Stays.checkBars (.ite ((State.Stays.refl _).passOwner fun _ => rfl) ((State.Stays.refl _).updCore ?_))
  exact ⟨fun _ h => h, fun _ h => List.mem_of_mem_filter h, fun _ h => .inl h⟩

theorem State.endGroup_over : (s.updGroup g.id Group.over).Stays Group.bare (s.endGroup g) :=
  ((State.Stays.refl s).flushGroup.updOver g.id).trans (s.endGroup_stays g)

theorem State.endGroup_comb : ∀ x ∈ ((s.endGroup g).core g.core).comb, ∀ b ∈ x.bytes, b.grp = g.id → 32 ≤ b.thread :=
  fun x hx => s.flushGroup_comb g x (((s.endGroup_stays g).core g.core).comb x hx)

/-- Who owns the engine after the group's end was in the queue for it, or is another that owned it before. -/
theorem State.endGroup_owner (hq : g.id ∉ (s.core g.core).ownq) :
    ((s.endGroup g).core g.core).owner ≠ some g.id ∧ g.id ∉ ((s.endGroup g).core g.core).ownq := by
  have hq₁ : g.id ∉ (((s.flushGroup g).updGroup g.id Group.over).core g.core).ownq := fun h =>
    hq (((State.Stays.refl s).flushGroup (g := g)).core g.core |>.ownq _ h)
  refine ⟨fun hown => ?_, fun h => hq₁ ((s.endGroup_stays g).core g.core |>.ownq _ h)⟩
  unfold State.endGroup at hown
  dsimp only at hown
  generalize (s.flushGroup g).updGroup g.id Group.over = s₁ at hq₁ hown
  have hbars := fun (t : State) (h : ((t.checkBars g).core g.core).owner = some g.id) => ((State.Stays.refl t).checkBars (g := g)).core g.core |>.owner _ h
  split at hown
  next =>
    obtain ⟨hstays, howner⟩ := State.passOwner_spec (G := Group.bare) (fun _ => rfl) s₁ g.core
    exact (hbars _ hown).elim (fun h => hq₁ (howner _ h)) fun h => hq₁ ((hstays.core g.core).ownq _ h)
  next hne =>
    have h := hbars _ hown
    rw [State.core_updCore, if_pos rfl] at h
    exact h.elim (by simpa using hne) (by simp)

end

end Sys2Proof.Machine
end

section
/-! The events that end groups and grids (R98, R137, R138). -/

namespace Sys2Proof.Machine

/-! ## A bin grid's team is dropped (R98) -/

/-- The team is of a bin's grid. -/
def State.OfBin (s : State) (t : Team) : Prop := (s.grid? t.grid).map (fun x => x.src.isBin) = some true

theorem State.all_groupsOf (s : State) (team : Nat) (p : Group → Bool) :
    (s.groupsOf team).all p = true ↔ ∀ x ∈ s.dev.groups, x.team = team → p x = true := by
  simp only [List.all_eq_true, State.groupsOf, List.mem_filter, beq_iff_eq, and_imp]

theorem State.dropBin_drops {s : State} {t : Team} (hbin : s.OfBin t) (hacked : ∀ x ∈ s.dev.groups, x.team = t.id → x.remote = 0) :
    s.dropBin t = s.onDev fun d => { d with teams := d.teams.filter fun x => x.id != t.id, clusters := d.clusters.filter fun c => c.id != t.cluster,
                                            groups := d.groups.filter fun g => g.team != t.id } := by
  unfold State.dropBin
  refine if_pos ?_
  have hacked' : ((s.groupsOf t.id).all fun g => g.remote == 0) = true := by
    simpa only [State.all_groupsOf, beq_iff_eq] using hacked
  rw [hbin, hacked']
  rfl

theorem State.dropBin_keeps {s : State} {t : Team} (h : ¬ s.OfBin t ∨ ¬ ∀ x ∈ s.dev.groups, x.team = t.id → x.remote = 0) : s.dropBin t = s := by
  unfold State.dropBin
  refine if_neg fun hdrop => ?_
  obtain ⟨hbin, hacked⟩ := Bool.and_eq_true_iff.1 hdrop
  refine h.elim (fun h => h ?_) fun h => h (by simpa only [State.all_groupsOf, beq_iff_eq] using hacked)
  unfold State.OfBin
  cases hm : (s.grid? t.grid).map fun x => x.src.isBin with
  | none => rw [hm] at hbin; cases hbin
  | some b => rw [hm] at hbin; exact congrArg some hbin

/-- What a bin's team leaves when it is dropped. -/
theorem State.dropBin_dropped {s : State} {t : Team} (hbin : s.OfBin t) (hacked : ∀ x ∈ s.dev.groups, x.team = t.id → x.remote = 0) :
    (∀ x ∈ (s.dropBin t).dev.teams, x.id ≠ t.id) ∧ ∀ x ∈ (s.dropBin t).dev.groups, x.team ≠ t.id ∧ x ∈ s.dev.groups := by
  rw [State.dropBin_drops hbin hacked]
  refine ⟨fun x hx => by simpa using (List.mem_filter.1 hx).2, fun x hx => ?_⟩
  obtain ⟨hmem, hne⟩ := List.mem_filter.1 hx
  exact ⟨by simpa using hne, hmem⟩

theorem State.dropBin_cores (s : State) (t : Team) : (s.dropBin t).dev.cores = s.dev.cores := by
  unfold State.dropBin
  split <;> rfl

/-! ## The event -/

theorem Group.finished_iff (g : Group) : g.finished = true ↔ (∀ t ∈ g.threads, t.ended = true) ∧ (∀ n ∈ g.sb, n = 0) ∧ g.sq = [] := by
  simp [Group.finished, and_assoc]

/-- What becomes of a team as a group of it ends (R137). -/
def State.endTeam (s : State) (team : Nat) : State :=
  match s.team? team with
  | some t => if (s.groupsOf t.id).all (fun g => g.ended) then (s.retireTeam t false).dropBin t else s
  | none => s

section
variable {s : State} {id : Nat} {g : Group} {tm : Team} (hg : s.group? id = some g) (ht : s.team? g.team = some tm)
include hg ht

theorem exec_groupEnd_dying (hd : s.ctxState g.ctx = .dying) :
    exec (.groupEnd id) s = .next (if tm.st = .retired ∨ s.issuing tm.id = true then s else s.retireTeam tm true) := by
  show execGroupEnd id s = _
  simp [execGroupEnd, hg, ht, hd]

theorem exec_groupEnd_ended (hd : s.ctxState g.ctx ≠ .dying) (he : g.ended = true) :
    exec (.groupEnd id) s = .next (if tm.st = .retired then s.dropBin tm else s) := by
  show execGroupEnd id s = _
  simp [execGroupEnd, hg, ht, hd, he]

theorem exec_groupEnd_waits (hd : s.ctxState g.ctx ≠ .dying) (he : g.ended = false)
    (h : ¬ g.finished = true ∨ ¬ (tm.st = .resident ∨ tm.st = .saving) ∨ ¬ ∀ x ∈ s.dev.streams, x.grp ≠ id) :
    exec (.groupEnd id) s = .next s := by
  show execGroupEnd id s = _
  simp only [execGroupEnd, hg, beq_iff_eq, hd, if_false, he, Bool.false_eq_true]
  have h' : (!g.finished || !s.residentTeam g.team || s.dev.streams.any fun x => x.grp == id) = true := by
    simpa [State.residentTeam, ht, or_assoc] using h
  rw [if_pos h']

/-- A group that is done ends, and with its team's last group the team. -/
theorem exec_groupEnd_ends (hd : s.ctxState g.ctx ≠ .dying) (he : g.ended = false) (hfin : g.finished = true) (hres : tm.st = .resident ∨ tm.st = .saving)
    (hidle : ∀ x ∈ s.dev.streams, x.grp ≠ id) : exec (.groupEnd id) s = .next ((s.endGroup g).endTeam g.team) := by
  obtain rfl := State.group?_id hg
  show execGroupEnd g.id s = _
  simp only [execGroupEnd, hg, beq_iff_eq, hd, if_false, he, Bool.false_eq_true]
  have h' : ¬ (!g.finished || !s.residentTeam g.team || s.dev.streams.any fun x => x.grp == g.id) = true := by
    simpa [State.residentTeam, ht, hfin] using ⟨fun h => hres.resolve_left h, hidle⟩
  rw [if_neg h']
  have hend : s.endGroup g = (if (((s.flushGroup g).updGroup g.id fun g => { g with ended := true }).core g.core).owner == some g.id
      then ((s.flushGroup g).updGroup g.id fun g => { g with ended := true }).passOwner g.core
      else ((s.flushGroup g).updGroup g.id fun g => { g with ended := true }).updCore g.core fun c =>
        { c with ownq := c.ownq.filter (· ≠ g.id) }).checkBars g := rfl
  simp only [beq_iff_eq] at hend
  rw [← hend]
  refine congrArg Host.Outcome.next ?_
  unfold State.endTeam
  cases (s.endGroup g).team? g.team <;> rfl

/-- A dying context's team ends without a save, once it issues no clause (R98). -/
theorem groupEnd_dying (hd : s.ctxState g.ctx = .dying) :
    (tm.st = .retired ∨ s.issuing tm.id = true → exec (.groupEnd id) s = .next s) ∧
    (tm.st ≠ .retired → s.issuing tm.id = false → ∃ u : State, exec (.groupEnd id) s = .next u ∧ (u.group? id).map Group.ended = some true ∧
      (u.team? tm.id).map Team.st = some .retired ∧
      (tm.st ≠ .saved → (u.team? tm.id).map (fun x => (x.handles, x.banks)) = some (tm.handles, tm.banks)) ∧
      (tm.st = .saved → (u.team? tm.id).map Team.banks = some [])) := by
  have hid := State.team?_id ht
  have hexec := exec_groupEnd_dying hg ht hd
  refine ⟨fun h => by rw [hexec, if_pos h], fun h1 h2 => ⟨s.retireTeam tm true, by rw [hexec, if_neg (by simp [h1, h2])], ?_⟩⟩
  have hret := s.retireTeam_retires tm true
  have ht' : s.team? tm.id = some tm := hid.symm ▸ ht
  refine ⟨hret.group?_ended hg hid.symm, hret.team?_map ht' fun _ => rfl, fun h => ?_, fun h => ?_⟩
  · rw [hret.team?_map ht' (f := fun x => (x.handles, x.banks)) fun _ => rfl]
    simp [Team.retire, h]
  · rw [hret.team?_map ht' (f := Team.banks) fun _ => rfl]
    simp [Team.retire, h]

/-- A bin's retired team is dropped, once its remote accesses have been acknowledged (R98). -/
theorem groupEnd_ended (hd : s.ctxState g.ctx ≠ .dying) (he : g.ended = true) :
    let bin := ((s.grid? tm.grid).map fun x => x.src.isBin) = some true
    let acked := ∀ x ∈ s.dev.groups, x.team = g.team → x.remote = 0
    (tm.st ≠ .retired ∨ ¬ bin ∨ ¬ acked → exec (.groupEnd id) s = .next s) ∧
    (tm.st = .retired → bin → acked → ∃ u : State, exec (.groupEnd id) s = .next u ∧ (∀ x ∈ u.dev.teams, x.id ≠ tm.id) ∧
      ∀ x ∈ u.dev.groups, x.team ≠ tm.id) := by
  intro bin acked
  have hid := State.team?_id ht
  have hexec := exec_groupEnd_ended hg ht hd he
  refine ⟨fun h => ?_, fun h hbin hack => ⟨s.dropBin tm, by rw [hexec, if_pos h], ?_⟩⟩
  · rw [hexec]
    split
    next hst => rw [State.dropBin_keeps (hid ▸ h.resolve_left fun h => h hst)]
    next => rfl
  · obtain ⟨hteams, hgroups⟩ := State.dropBin_dropped hbin (hid ▸ hack)
    exact ⟨hteams, fun x hx => (hgroups x hx).1⟩

end

/-! ## A group ends -/

/-- A property of groups that their ends and barriers leave holds of all of them as before. -/
theorem forall_of_map_eq {α β : Type} {F : α → β} {l l₀ : List α} (h : l.map F = l₀.map F) {P : α → Prop}
    (hP : ∀ a b, F a = F b → P a → P b) :
    (∀ a ∈ l, P a) ↔ ∀ a ∈ l₀, P a := by
  constructor
  · intro hl a ha
    obtain ⟨b, hb, hF⟩ := exists_of_map_eq h.symm ha
    exact hP b a hF (hl b hb)
  · intro hl a ha
    obtain ⟨b, hb, hF⟩ := exists_of_map_eq h ha
    exact hP b a hF (hl b hb)

theorem map_over_places (l : List Group) (n : Nat) : (updIf (fun g => g.id == n) Group.over l).map Group.place = l.map Group.place := by
  refine map_updIf ?_ _
  exact fun _ => rfl

/-- Its team's groups have all ended after its end where the others had. -/
theorem State.endGroup_last (s : State) (g : Group) (team : Nat) : ((s.endGroup g).groupsOf team).all (fun g => g.ended) = true ↔
    ∀ x ∈ s.dev.groups, x.team = team → x.ended = true ∨ x.id = g.id := by
  rw [State.all_groupsOf, forall_of_map_eq (s.endGroup_over g).groups (P := fun x => x.team = team → x.ended = true)]
  · simp only [State.updGroup_dev, updIf, List.mem_map, forall_exists_index, and_imp, forall_apply_eq_imp_iff₂]
    refine forall₂_congr fun x _ => ?_
    by_cases hx : x.id = g.id
    · simp [hx, Group.over]
    · simp [hx]
  · intro a b hF ha hb
    exact (congrArg Group.ended hF :).symm.trans (ha ((congrArg Group.team hF :).trans hb))

/-- What a state keeps of grids and groups for the last of a bin's teams to be dropped. -/
theorem State.ofBin_congr {s u : State} {t t' : Team} (h : u.dev.grids.map Grid.fixed = s.dev.grids.map Grid.fixed) (ht : t.grid = t'.grid) :
    u.OfBin t ↔ s.OfBin t' := by
  have key := fun l : List Grid => find?_map_key (F := Grid.fixed) (p := fun g => g.id == t.grid) (q := fun g => g.id == t.grid) (fun _ => rfl) l
  have hgrid : (u.grid? t.grid).map Grid.fixed = (s.grid? t.grid).map Grid.fixed := (key _).symm.trans ((congrArg _ h).trans (key _))
  have hbin := congrArg (Option.map fun x => x.src.isBin) hgrid
  rw [Option.map_map, Option.map_map] at hbin
  rw [State.OfBin, State.OfBin, ← ht]
  exact ⟨fun h => hbin.symm.trans h, fun h => hbin.trans h⟩

section
variable {s : State} {id : Nat} {g : Group} {tm : Team} (hg : s.group? id = some g) (ht : s.team? g.team = some tm)
include hg ht

/-- A group that is done ends; with its team's last group the team retires, and a bin's is dropped (R137, R138). -/
theorem groupEnd_ends (hd : s.ctxState g.ctx ≠ .dying) (he : g.ended = false) (hfin : g.finished = true) (hres : tm.st = .resident ∨ tm.st = .saving)
    (hidle : ∀ x ∈ s.dev.streams, x.grp ≠ id) :
    let bin := ((s.grid? tm.grid).map fun x => x.src.isBin) = some true
    let acked := ∀ x ∈ s.dev.groups, x.team = g.team → x.remote = 0
    let last := ∀ x ∈ s.dev.groups, x.team = g.team → x.ended = true ∨ x.id = id
    ∃ u : State, exec (.groupEnd id) s = .next u ∧
      (∀ x ∈ (u.core g.core).comb, ∀ b ∈ x.bytes, b.grp = id → 32 ≤ b.thread) ∧
      (id ∉ (s.core g.core).ownq → (u.core g.core).owner ≠ some id) ∧
      (¬ last → (u.group? id).map Group.ended = some true ∧ (u.team? tm.id).map Team.st = some tm.st) ∧
      (last → ¬ bin ∨ ¬ acked → (u.group? id).map Group.ended = some true ∧
        (u.team? tm.id).map (fun x => (x.st, x.handles, x.banks)) = some (.retired, [], []) ∧
        ∀ x, u.team? tm.id = some x → ∀ o ∈ x.ot, o = .free) ∧
      (last → bin → acked → u.team? tm.id = none ∧ ((∀ x ∈ s.dev.groups, x.id = id → x = g) → u.group? id = none)) := by
  intro bin acked last
  obtain rfl := State.group?_id hg
  have hid := State.team?_id ht
  have hover := s.endGroup_over g
  obtain ⟨t, ht₄, hfix⟩ := hover.team?_some (t := tm) ht
  have htid : t.id = g.team := State.team?_id ht₄
  have hexec := exec_groupEnd_ends hg ht hd he hfin hres hidle
  simp only [State.endTeam, ht₄, State.endGroup_last, htid] at hexec
  have hcomb := s.endGroup_comb g
  have howner := s.endGroup_owner g
  have hgroup : ∃ y, (s.endGroup g).group? g.id = some y ∧ y.bare = g.over.bare := by
    have h := hover.group? (G := Group.bare) (fun _ => rfl) g.id
    rw [State.group?_updGroup _ _ _ (by exact fun _ h => h), hg] at h
    exact Option.map_eq_some_iff.1 h
  obtain ⟨y, hy, hbare⟩ := hgroup
  by_cases hlast : last
  · have hret := (s.endGroup g).retireTeam_retires t false
    rw [if_pos hlast] at hexec
    generalize (s.endGroup g).retireTeam t false = u at hret hexec
    have hteam := fun {β : Type} (f : Team → β) => hret.team?_map (htid.symm ▸ ht₄) (f := f)
    have hcore : ((s.endGroup g).core g.core).Keeps ((u.dropBin t).core g.core) := by
      rw [State.core, State.core, u.dropBin_cores]
      exact hret.core g.core
    have hbin : u.OfBin t ↔ bin := State.ofBin_congr (hret.grids.trans hover.grids) (congrArg Team.grid hfix :)
    have hplaces : u.dev.groups.map Group.place = s.dev.groups.map Group.place :=
      hret.places.trans (hover.places.trans (map_over_places _ _))
    have hacked : (∀ x ∈ u.dev.groups, x.team = t.id → x.remote = 0) ↔ acked := by
      rw [htid]
      refine forall_of_map_eq hplaces fun a b hF ha hb => ?_
      exact (congrArg Group.remote hF :).symm.trans (ha ((congrArg Group.team hF :).trans hb))
    refine ⟨_, hexec, fun x hx => hcomb x (hcore.comb x hx), fun hq hown => ?_, fun h => absurd hlast h, fun _ hno => ?_, fun _ hb ha => ?_⟩
    · exact (hcore.owner _ hown).elim (howner hq).1 (howner hq).2
    · rw [State.dropBin_keeps (by rwa [hbin, hacked]), hid, ← htid]
      refine ⟨hret.group?_ended hy ((congrArg Group.team hbare :).trans htid.symm), hteam _ fun _ => rfl, fun x hx o ho => ?_⟩
      have hot := hteam Team.ot fun _ => rfl
      rw [hx, Option.map_some] at hot
      rw [Option.some.inj hot] at ho
      obtain ⟨_, -, rfl⟩ := List.mem_map.1 ho
      rfl
    · obtain ⟨hteams, hgroups⟩ := State.dropBin_dropped (hbin.2 hb) (hacked.2 ha)
      refine ⟨List.find?_eq_none.2 fun x hx => by simpa [hid, htid] using hteams x hx, fun hone => List.find?_eq_none.2 fun x hx hxid => ?_⟩
      obtain ⟨hne, hmem⟩ := hgroups x hx
      obtain ⟨z, hz, hpl⟩ := exists_of_map_eq hplaces hmem
      have hzid : z.id = g.id := (congrArg Group.id hpl :).trans (show x.id = g.id by simpa using hxid)
      obtain rfl := hone z hz hzid
      exact hne ((congrArg Group.team hpl :).symm.trans htid.symm)
  · rw [if_neg hlast] at hexec
    refine ⟨_, hexec, hcomb, fun hq => (howner hq).1, fun _ => ⟨?_, ?_⟩, fun h => absurd h hlast, fun h => absurd h hlast⟩
    · rw [hy, Option.map_some]
      exact congrArg some (congrArg Group.ended hbare :)
    · rw [hid, ht₄, Option.map_some]
      exact congrArg some (congrArg Team.st hfix :)

end

/-! ## A grid retires -/

theorem exec_gridRetire {s : State} {n : Nat} {gr : Grid} (hgr : s.grid? n = some gr) :
    let busy := ∃ g ∈ s.dev.groups, g.grid = n ∧ (g.remote ≠ 0 ∨ g.sq ≠ [])
    (gr.st ≠ .draining ∨ busy ∨ s.ctxState gr.ctx = .dying → exec (.gridRetire n) s = .next s) ∧
    (gr.st = .draining → ¬ busy → s.ctxState gr.ctx ≠ .dying → exec (.gridRetire n) s =
      .next ((s.updGrid n fun g => { g with st := .retired }).onDev fun d =>
        { d with teams := d.teams.filter fun t => t.grid != n, clusters := d.clusters.filter fun c => c.grid != n,
                 groups := d.groups.filter fun g => g.grid != n })) := by
  intro busy
  have hbusy : (s.dev.groups.any fun g => g.grid == n && (g.remote != 0 || !g.sq.isEmpty)) = true ↔ busy := by simp [busy]
  have hexec : exec (.gridRetire n) s = .next (if gr.st != .draining || s.ctxState gr.ctx == .dying ||
      (s.dev.groups.any fun g => g.grid == n && (g.remote != 0 || !g.sq.isEmpty)) then s
    else (s.updGrid n fun g => { g with st := .retired }).onDev fun d =>
      { d with teams := d.teams.filter fun t => t.grid != n, clusters := d.clusters.filter fun c => c.grid != n,
               groups := d.groups.filter fun g => g.grid != n }) := by
    show execGridRetire n s = _
    simp only [execGridRetire, hgr]
  refine ⟨fun h => ?_, fun h1 h2 h3 => ?_⟩
  · rw [hexec, if_pos]
    simp only [Bool.or_eq_true, hbusy, bne_iff_ne, beq_iff_eq]
    exact h.elim (fun h => .inl (.inl h)) fun h => h.elim .inr fun h => .inl (.inr h)
  · rw [hexec, if_neg]
    simp only [Bool.or_eq_true, hbusy, bne_iff_ne, beq_iff_eq]
    exact fun h => h.elim (fun h => h.elim (fun h => h h1) h3) h2

/-- Settles O47: each event by its own equation, and what follows it by what `State.Stays` leaves of groups, teams and grids. -/
theorem windowSaveAndResume : Obligations.WindowSaveAndResume := by
  refine ⟨⟨?_, ?_, ?_, ?_⟩, ?_, ?_⟩
  · intro s s1 team pa t gr e e2 ht hgr
    exact ⟨argumentWindowLoad_idle ht hgr, fun hw hst hargs => ⟨argumentWindowLoad_loads ht hgr hw hst hargs,
      fun _ _ _ => argumentWindowLoad_refused ht hgr hw hst hargs, fun _ _ => argumentWindowLoad_waits ht hgr hw hst hargs⟩⟩
  · exact fun s team t ht => teamSaveComplete_spec ht
  · exact fun s cluster c gr hc hgr hcoop => teamResume_spec hc hgr hcoop
  · exact fun s core n => ⟨forwardedArrival_idle, fun f r ext p tag d a => forwardedArrival_last⟩
  · intro s id g tm hg ht finished resident idle bin acked dying
    refine ⟨fun hd => (groupEnd_dying hg ht hd).1, fun hd => (groupEnd_dying hg ht hd).2, fun hd he => (groupEnd_ended hg ht hd he).1,
      fun hd he => (groupEnd_ended hg ht hd he).2, fun hd he h => ?_, fun hd he hfin hres hidle => ?_⟩
    · exact exec_groupEnd_waits hg ht hd he (by rwa [Group.finished_iff])
    · exact groupEnd_ends hg ht hd he ((Group.finished_iff g).2 hfin) hres hidle
  · exact fun s n gr hgr => exec_gridRetire hgr

end Sys2Proof.Machine
end

section
/-! The instructions of the Sheng's bins issue (R375 to R382). -/

namespace Sys2Proof.Machine

/-! ## A record is sent -/

/-- A record put on its way, with the result that its token counts. -/
def State.sent (s : State) (st : Stream) (g : Group) (k core : Nat) (n : Option Nat) (key : Word) (ws : List Word) (res : Option Nat) : State :=
  s.onDev fun y => { y with nextId := y.nextId + 1, pushes := y.pushes ++
    [Push.mk y.nextId g.core core n key ws st.grp k g.ctx res g.pts y.clk] }

theorem State.addPush_token (s : State) (st : Stream) (g : Group) (k core : Nat) (bin : Option Nat) (key : Word) (ws : List Word) (sb : BitVec 3) :
    s.addPush st g k core bin key ws (some sb) =
      (s.addResult st.grp k (some sb.toNat) st.unit .token false).2.sent st g k core bin key ws (some s.dev.nextId) := rfl

theorem State.addPush_plain (s : State) (st : Stream) (g : Group) (k core : Nat) (bin : Option Nat) (key : Word) (ws : List Word) :
    s.addPush st g k core bin key ws none = s.sent st g k core bin key ws none := rfl

/-- The bin takes a local push now (R370). -/
def State.Open (s : State) (g : Group) (x : Bin) : Prop := x.st ≠ .closing ∧ x.st ≠ .faulted ∧ s.onWay g.core x.n < x.room

theorem State.localPush_open {s : State} {g : Group} {x : Bin} (h : s.Open g x) (st : Stream) (k : Nat) (go : State → SRes) :
    s.localPush st g k x go = go s := by
  obtain ⟨hclosing, hfaulted, hroom⟩ := h
  rw [State.localPush, if_neg (by simp [hclosing, hfaulted]), if_pos hroom]

theorem toNat_coreOf (B : Word) : (B.extractLsb' 24 8).toNat = B.toNat / 2 ^ 24 := by
  simp only [BitVec.extractLsb'_toNat, Nat.shiftRight_eq_div_pow]
  omega

section
variable {s : State} {st : Stream} {g : Group} {k : Nat} {th : Thread} {a d : VReg} {o b : Opnd} {sb : BitVec 3} {x : Bin}
  (h : s.IssuesOne st g k th) (hcount : g.sb.getD sb.toNat 0 < 255)
include h hcount

theorem State.hasRoom_issues : s.hasRoom st.grp sb.toNat = true := by
  rw [State.hasRoom_eq h.1.2]
  exact decide_eq_true hcount

theorem State.pushUnit_one (f : Stream → State → Group → Nat → Thread → SRes) :
    s.pushUnit (some sb) f = .next ((f st s g k th).settled st k) := by
  rw [State.pushUnit, State.perThread_one h]
  simp only [h.1.2, State.hasRoom_issues h hcount, if_true]

theorem exec_bpush (hhelper : th.helper = false)
    (hbin : ((s.ctxBins g.core g.ctx).find? fun x => x.kind != .continuation && x.key == rd g th b) = some x) (hopen : s.Open g x) :
    exec (.bpush a b sb) s = .next (((s.addResult st.grp k (some sb.toNat) st.unit .token false).2.sent st g k g.core (some x.n) (rd g th b)
      (mgets th.v a.toNat 8) (some s.dev.nextId)).advance st [k]) := by
  show execBpush a b sb s = _
  rw [execBpush, State.pushUnit_one h hcount]
  simp only [hhelper, hbin, State.localPush_open hopen, State.addPush_token, Bool.false_eq_true, if_false]
  rfl

theorem exec_wgpush (hhelper : th.helper = false)
    (hbin : ((s.ctxBins g.core g.ctx).find? fun x => x.kind == .node && x.key == ((rd g th b).extractLsb' 0 24).setWidth 32) = none) :
    exec (.wgpush a b sb) s = .next (((s.addResult st.grp k (some sb.toNat) st.unit .token false).2.sent st g k ((rd g th b).toNat / 2 ^ 24) none
      (((rd g th b).extractLsb' 0 24).setWidth 32) (mgets th.v a.toNat 8) (some s.dev.nextId)).advance st [k]) := by
  show execWgpush a b sb s = _
  rw [execWgpush, State.pushUnit_one h hcount, ← toNat_coreOf]
  simp only [hhelper, hbin, State.addPush_token, Bool.false_eq_true, if_false]
  rfl

end

section
variable {s : State} {st : Stream} {g : Group} {k : Nat} {th : Thread} {a d : VReg} {o b : Opnd} {sb : BitVec 3} {x : Bin}
  (h : s.IssuesOne st g k th) (hbin : ((s.ctxBins g.core g.ctx).find? fun x => x.key == rd g th b) = some x)
include h hbin

theorem exec_cont (hhelper : th.helper = false) (hkind : x.kind = .continuation) (halign : (rd g th b).toNat % 4 = 0) (hnull : rd g th b ≠ 0#32)
    (hopen : s.Open g x) : exec (.cont a b) s =
      .next ((((s.sent st g k g.core (some x.n) (rd g th b) (mgets th.v a.toNat 8) none).endThread st.grp k).advance st []).recheck st.grp) := by
  have hcont : s.contBin g (rd g th b) = some (x, s) := by
    simp [State.contBin, State.keyBin, hbin, hkind]
  show execCont a b s = _
  rw [execCont, State.onStream_issues h.1]
  refine congrArg Host.Outcome.next ?_
  refine (congrArg (fun t : State => t.recheck st.grp) (runEach_one_parts h _)).trans ?_
  simp only [h.1.2, hhelper, Bool.false_eq_true, if_false, hcont, State.localPush_open hopen, State.addPush_plain, halign, hnull]
  rfl

theorem exec_bflush (hcount : x.count ≠ 0) : exec (.bflush b) s = .next ((s.updBin g.core x.n fun y => { y with flush := true }).advance st [k]) := by
  show execBflush b s = _
  rw [execBflush, State.perThread_one h]
  simp only [h.1.2, State.keyBin, hbin, if_neg hcount]
  rfl

variable (hcount : g.sb.getD sb.toNat 0 < 255)
include hcount

theorem exec_bquery : exec (.bquery o b sb) s = .next (((s.addResult st.grp k (some sb.toNat) st.unit
    (.words o [BitVec.ofNat 32 (x.count + x.st.code * 2 ^ 21 + 2 ^ 24)] 0#6) false).2.resultReady s.dev.nextId 0).advance st [k]) := by
  show execBquery o b sb s = _
  rw [execBquery, State.perThread_one h]
  simp only [h.1.2, State.keyBin, hbin, State.hasRoom_issues h hcount]
  rfl

theorem exec_bpop (hq : x.q ≠ []) (hpops : ∀ r ∈ s.dev.results, ∀ a d, r.kind ≠ .pop g.core x.n a d) : exec (.bpop d o b sb) s =
    .next (((s.addResult st.grp k (some sb.toNat) st.unit (.pop g.core x.n o (.v d)) false).2.takePop g.core x.n s.dev.nextId).advance st [k]) := by
  have hcount0 : x.count ≠ 0 := fun h0 => hq (List.length_eq_zero_iff.1 (Nat.eq_zero_of_add_eq_zero_right h0))
  have hnone : s.dev.results.filter (fun r => r.waitsPop g.core x.n) = [] := by
    refine List.filter_eq_nil_iff.2 fun r hr hw => ?_
    unfold Pending.waitsPop at hw
    split at hw
    next c n p q hk =>
      simp only [Bool.and_eq_true, beq_iff_eq] at hw
      obtain ⟨⟨rfl, rfl⟩, -⟩ := hw
      exact hpops r hr p q hk
    next => cases hw
  have hwaiting : ((s.addResult st.grp k (some sb.toNat) st.unit (.pop g.core x.n o (.v d)) false).2.dev.results.filter fun r =>
      r.waitsPop g.core x.n).length - 1 = 0 := by
    show ((s.dev.results ++ [_]).filter _).length - 1 = 0
    rw [List.filter_append, hnone]
    exact Nat.sub_eq_zero_of_le (List.length_filter_le _ _)
  show execBpop d o b sb s = _
  rw [execBpop, State.perThread_one h]
  simp only [h.1.2, State.keyBin, hbin, State.hasRoom_issues h hcount, Option.map_some, Option.getD_some, Bool.not_true, Bool.false_eq_true,
    if_false, hcount0, hwaiting, ne_eq, not_true_eq_false, decide_false, Bool.or_false, List.isEmpty_iff, hq]
  rfl

end

end Sys2Proof.Machine
end

section
/-! The events of the Sheng's bins (R366 to R374, R383). -/

namespace Sys2Proof.Machine

/-! ## A bin of a core -/

theorem State.bin_n (s : State) (core n : Nat) : (s.bin core n).n = n := by
  unfold State.bin
  cases h : (s.core core).bins.find? fun b => b.n == n with
  | none => rfl
  | some b => simpa using List.find?_some h

theorem find?_insertBy_self {α : Type} {key : α → Nat} {p : α → Bool} {a : α} (ha : p a = true) {l : List α} (hl : ∀ b ∈ l, p b = false) :
    (insertBy key a l).find? p = some a := by
  induction l with
  | nil => simp [insertBy, ha]
  | cons b r ih =>
    obtain ⟨hb, hr⟩ := List.forall_mem_cons.1 hl
    unfold insertBy
    split
    · simp [ha]
    · rw [List.find?_cons_of_neg (by simp [hb]), ih hr]

theorem State.bin_updBin (s : State) (core n : Nat) (f : Bin → Bin) (hf : ∀ b, (f b).n = b.n) : (s.updBin core n f).bin core n = f (s.bin core n) := by
  have hn : (f (s.bin core n)).n = n := (hf _).trans (s.bin_n core n)
  rw [State.bin, State.updBin, State.core_updCore, if_pos rfl]
  show (List.find? _ (insertBy _ (f (s.bin core n)) _)).getD _ = _
  rw [find?_insertBy_self (p := fun b : Bin => b.n == n) (beq_iff_eq.2 hn) fun b hb => by simpa using (List.mem_filter.1 hb).2]
  rfl

/-! ## A record is accepted (R369) -/

section
variable {s : State} {core n : Nat}

theorem exec_recordAccept {p : Push} (hp : (s.dev.pushes.find? fun x => x.id == p.id && x.core == core) = some p) (hbin : p.bin = some n)
    (hfirst : ∀ x ∈ s.dev.pushes, p.id ≤ x.id) (hstores : s.storesBefore p = false) (hacc : s.accepted core = false) (hquad : s.quadOn core = none)
    (hst : (s.bin core n).st = .holding) (hring : (s.bin core n).ringRecs = []) (hq : (s.bin core n).q.length < 32) :
    let pts := max p.pts (((s.group? p.grp).map fun g => g.pts).getD 0)
    exec (.recordAccept core p.id) s = .next (((s.updBin core n fun b => { b with
      q := b.q ++ [⟨p.words, s.dev.clk, none, pts⟩], st := if b.st = .idle then .holding else b.st }).rebind core n p).endPush p none 0) := by
  intro pts
  have hcore : p.core = core := by simpa using List.find?_some hp
  have hfollows : (s.dev.pushes.any p.follows) = false := by
    refine List.any_eq_false.2 fun x hx => ?_
    simp [Push.follows, Nat.not_lt.2 (hfirst x hx)]
  have hpush : s.pushBin p = some (s.bin core n) := by simp [State.pushBin, hbin, hcore]
  have haccept : ∀ eng r, s.acceptRec core n eng r = (s.updBin core n fun b => { b with
      q := b.q ++ [{ r with at_ := s.dev.clk }], st := if b.st = .idle then .holding else b.st }, .done 0) := fun eng r => by
    simp only [State.acceptRec, hring, hq]
    rfl
  show execRecordAccept core p.id s = _
  simp only [execRecordAccept, hp, hfollows, hstores, hacc, hquad, hpush, hst, hbin, s.bin_n, haccept]
  rfl

/-! ## A record comes back from the ring (R369) -/

theorem exec_ringRefill {r : BinRec} {rest : List BinRec} {s1 : State} {e : TlbEntry} {d : List Byte} {p : Nat}
    (hring : (s.bin core n).ringRecs = r :: rest) (hq : (s.bin core n).q.length < 32) (hf : (s.bin core n).st ≠ .faulted)
    (ho : (s.bin core n).st ≠ .off) (hd : (s.bin core n).decided ≠ some s.dev.clk)
    (hread : s.engReadAt (some core) (s.bin core n).ctx (2 ^ 60 + 64 * core + n)
      ((s.bin core n).ring + 32 * ((s.bin core n).head % (s.bin core n).ringSize)) 32 .unitRead r.pts = (s1, .ok e, d, p)) :
    exec (.ringRefill core n) s =
      .next (((s1.updBin core n fun b => { b with q := b.q ++ [{ r with words := wordsOf d }], ringRecs := rest, head := b.head + 1 }).endEng
        (2 ^ 60 + 64 * core + n)).unpark (fun _ => true) (.bin core n) id) := by
  have hgo : ¬ (decide ((s.bin core n).q.length ≥ 32) || (s.bin core n).st == .faulted || (s.bin core n).st == .off ||
      (s.bin core n).decided == some s.dev.clk) = true := by
    simp [hf, ho, hd, hq]
  show execRingRefill core n s = _
  simp only [execRingRefill, hring, if_neg hgo, binEng, hread]

/-! ## A bin is enabled (R368) -/

theorem exec_binEnable {r : LaunchRec} (hr : r = { launchOf (s.bytesAt (s.bin core n).lrec 256) with gx := 1, gy := 1, gz := 1 })
    (ho : (s.bin core n).st = .off) (hen : (s.bin core n).en = true) (hlr : (s.bin core n).lr = none) (hmem : s.inMem (s.bin core n).lrec 256 = true)
    (hk : (s.bin core n).kind ≠ .off) (hrl : (s.bin core n).rlog2 = 0) (hgen : s.gen (s.bin core n).ctx = (s.bin core n).gen)
    (hctx : s.ctxState (s.bin core n).ctx = .active) (hothers : ∀ x ∈ (s.core core).bins, x.n ≠ n → x.st = .off) (hrange : r.inRange = true)
    (htd : r.tdcount = 0) (hok : s.binRecordOk (s.bin core n) r = true) :
    exec (.binEnable core n) s = .next ((s.updBin core n fun b =>
      { b with lr := some r, st := .idle, q := [], ringRecs := [], head := 0, tail := 0, flush := false }).endEng (2 ^ 60 + 64 * core + n)) := by
  have halone : ((s.core core).bins.any fun x => x.n != (s.bin core n).n && x.st != .off && (s.bin core n).key != 0#32 && x.key == (s.bin core n).key) =
      false := by
    refine List.any_eq_false.2 fun x hx => ?_
    by_cases hn : x.n = n
    · simp [s.bin_n, hn]
    · simp [hothers x hx hn]
  have hrefused : s.binRefused core (s.bin core n) = false := by
    simp only [State.binRefused, halone]
    simp [hmem, hk, hrl, hgen, hctx]
  have henable : s.enableBin core n (s.bin core n) r = (s.updBin core n fun b =>
      { b with lr := some r, st := .idle, q := [], ringRecs := [], head := 0, tail := 0, flush := false }).endEng (2 ^ 60 + 64 * core + n) := by
    simp only [State.enableBin, hrange, htd, hok, if_true, Bool.not_true, Bool.false_eq_true, if_false]
    rfl
  show execBinEnable core n s = _
  simp only [execBinEnable, ho, hen, hlr, hrefused]
  rw [← henable, hr]
  rfl

/-! ## A bin is disabled (R383) -/

theorem State.pushes_of_onWay {s : State} (h : s.onWay core n = 0) : (s.dev.pushes.filter fun p => p.core == core && p.bin == some n) = [] :=
  List.length_eq_zero_iff.1 (Nat.eq_zero_of_add_eq_zero_right h)

/-- A bin that nothing is on its way to, and that no `BPOP` waits for, goes OFF. -/
theorem State.binOff_alone {s : State} (hpush : (s.dev.pushes.filter fun p => p.core == core && p.bin == some n) = [])
    (hpop : ∀ r ∈ s.dev.results, r.waitsPop core n = false) : s.binOff core n = s.updBin core n Bin.off := by
  have hres : (s.dev.results.filter fun r => r.waitsPop core n) = [] := List.filter_eq_nil_iff.2 fun r hr => by simp [hpop r hr]
  simp only [State.binOff, hpush, List.any_nil, Bool.false_eq_true, if_false, List.foldl_nil]
  show (s.dev.results.filter fun r => r.waitsPop core n).foldl _ _ = _
  rw [hres]
  rfl

theorem exec_binDisable (hst : (s.bin core n).st = .idle) (hcount : (s.bin core n).count = 0) (hway : s.onWay core n = 0)
    (hpop : ∀ r ∈ s.dev.results, r.waitsPop core n = false) : exec (.binDisable core n) s = .next (((s.updBin core n fun b =>
      { b with en := false }).updBin core n fun b => { b with st := .closing }).updBin core n Bin.off) := by
  have hpush := State.pushes_of_onWay hway
  show execBinDisable core n s = _
  simp only [execBinDisable, hst]
  refine congrArg Host.Outcome.next ?_
  have hclosing : (((s.updBin core n fun b => { b with en := false }).updBin core n fun b => { b with st := .closing }).bin core n) =
      { s.bin core n with en := false, st := .closing } := by
    rw [State.bin_updBin _ _ _ _ (by exact fun _ => rfl), State.bin_updBin _ _ _ _ (by exact fun _ => rfl)]
  have hcount' : ({ s.bin core n with en := false, st := .closing } : Bin).count = 0 := hcount
  simp only [State.closeBin, hclosing, hcount']
  exact State.binOff_alone hpush hpop

/-! ## A launch (R371, R372) -/

theorem exec_btimeout (hto : (s.bin core n).timedOut s.dev.clk = true) (hdue : s.binDue core (s.bin core n) = true) :
    exec (.btimeout core n) s = .next (s.updBin core n fun b => { b with st := if b.st = .holding then .launching else b.st }) := by
  show execBtimeout core n s = _
  simp only [execBtimeout, hto, hdue]
  rfl

theorem exec_binLaunch {r : LaunchRec} {seats : List (Nat × Nat)} (hdue : s.binDue core (s.bin core n) = true) (hlr : (s.bin core n).lr = some r)
    (hseats : s.binSeats core (s.bin core n) r = some seats) :
    exec (.binLaunch core n) s = .next (s.binLaunch core (s.bin core n) r seats) := by
  show execBinLaunch core n s = _
  simp only [execBinLaunch, hdue, hlr, hseats]
  rfl

end

end Sys2Proof.Machine
end

section
/-! The events of groups, barriers and translations complete (R155, R250, R270, R287, R288, R290). -/

namespace Sys2Proof.Machine

/-! ## A store takes its place (R287, R290) -/

/-- A store-queue entry performed leaves groups as they are, apart from timestamps, and results altogether. -/
theorem State.performStore_rest (s : State) (g : Group) (e : SqEntry) :
    (s.performStore g e).1.dev.groups.map Group.bare = s.dev.groups.map Group.bare ∧ (s.performStore g e).1.dev.results = s.dev.results := by
  unfold State.performStore
  split
  · exact ⟨rfl, rfl⟩
  · exact ⟨rfl, rfl⟩
  · exact ⟨(State.Stays.refl s).flushLine.groups, rfl⟩
  · unfold State.tileStore
    split <;> exact ⟨rfl, rfl⟩
  · exact ⟨rfl, rfl⟩

theorem State.performLoads_none {s : State} (h : s.dev.results = []) (gid : Nat) (sel : Nat → Bool) : s.performLoads gid sel = s := by
  rw [State.performLoads, h]
  rfl

section
variable {s : State} {gid : Nat} {g : Group} (hg : s.group? gid = some g)
include hg

theorem State.leaveQueue_sq {e : SqEntry} {rest : List SqEntry} (hsq : g.sq = e :: rest) (hres : s.dev.results = []) :
    ((s.leaveQueue gid).group? gid).map Group.sq = some rest := by
  obtain ⟨hgroups, hresults⟩ := s.performStore_rest g e
  have key := fun l : List Group => find?_map_key (F := Group.bare) (p := fun t => t.id == gid) (q := fun t => t.id == gid) (fun _ => rfl) l
  have hgroup : ((s.performStore g e).1.group? gid).map Group.bare = some g.bare := by
    refine (key _).symm.trans ((congrArg _ hgroups).trans ((key _).trans ?_))
    exact congrArg _ hg
  obtain ⟨y, hy, hbare⟩ := Option.map_eq_some_iff.1 hgroup
  have hysq : y.sq = e :: rest := (congrArg Group.sq hbare :).trans hsq
  unfold State.leaveQueue
  rw [hg]
  dsimp only
  rw [hsq]
  dsimp only
  rw [if_neg (by simp [hres]), State.performLoads_none (by exact hresults.trans hres)]
  refine (congrArg (Option.map Group.sq) (State.group?_updGroup (s.performStore g e).1 gid _ (by exact fun _ h => h))).trans ?_
  rw [hy, Option.map_some, Option.map_some, hysq]
  rfl

/-- The oldest store of a group's queue leaves it. -/
theorem exec_storeTimestamp {e : SqEntry} {rest : List SqEntry} (hsq : g.sq = e :: rest) (hsaved : s.savedTeam g.team = false)
    (hres : s.dev.results = []) : ∃ u : State, exec (.storeTimestamp gid) s = .next u ∧ (u.group? gid).map (fun x => x.sq) = some rest := by
  have hleave := State.leaveQueue_sq hg hsq hres
  have hbars : (((s.leaveQueue gid).checkBars g).group? gid).map Group.sq = some rest := by
    have h := congrArg (Option.map Group.sq) (((State.Stays.refl (s.leaveQueue gid)).checkBars (g := g)).group? (G := Group.bare) (fun _ => rfl) gid)
    rw [Option.map_map, Option.map_map] at h
    exact h.trans hleave
  have hexec : exec (.storeTimestamp gid) s = .next (if s.leaveQueue gid = s then s else (s.leaveQueue gid).checkBars g) := by
    show execStoreTimestamp gid s = _
    simp [execStoreTimestamp, hg, hsaved, hsq]
  refine ⟨_, hexec, ?_⟩
  split
  next h => exact h ▸ hleave
  next => exact hbars

theorem exec_pauseEnd (hp : g.pauseEnd ≠ 0) (hclk : g.pauseEnd ≤ s.dev.clk) :
    exec (.pauseEnd gid) s = .next (s.updGroup gid fun g => { g with pauseEnd := 0 }) := by
  show execPauseEnd gid s = _
  simp [execPauseEnd, hg, hp, hclk]

end

/-! ## Barriers, ticks and translations -/

theorem State.advanceRptr_grids (s : State) (cores : List Nat) : (s.advanceRptr cores).dev.grids = s.dev.grids := by
  unfold State.advanceRptr
  generalize distinct (cores.map zoneOf) = l
  induction l generalizing s with
  | nil => rfl
  | cons z r ih => exact ih _

theorem exec_barrierRelease_grid {s : State} {owner n : Nat} {gr : Grid} (hgr : s.grid? owner = some gr)
    (hrel : (gr.gb.getD n ⟨none, false, 0⟩).releasing = true) : ∃ u : State,
    exec (.barrierRelease true owner n) s = .next u ∧ (u.grid? owner).map (fun x => x.gb) = some (gr.gb.set n ⟨none, false, 0⟩) := by
  have hexec : ∃ t : State, t.dev.grids = s.dev.grids ∧ exec (.barrierRelease true owner n) s =
      .next (t.updGrid owner fun g => { g with gb := g.gb.set n ⟨none, false, 0⟩ }) := by
    refine ⟨(s.advanceRptr (s.waitCores (fun g => g.grid == owner) (.gb n))).releaseAt (fun g => g.grid == owner)
      (membersOf gr.lr.clw (gr.gb.getD n ⟨none, false, 0⟩).mask (s.dev.teams.filter fun t => t.grid == owner)) (.gb n), ?_, ?_⟩
    · exact State.advanceRptr_grids s _
    · show execBarrierRelease true owner n s = _
      simp only [execBarrierRelease, hgr, hrel, if_true]
  obtain ⟨t, ht, hexec⟩ := hexec
  have htgr : t.grid? owner = some gr := by rw [State.grid?, ht]; exact hgr
  refine ⟨_, hexec, ?_⟩
  rw [State.grid?_updGrid htgr _ (by exact fun _ => rfl)]
  rfl

theorem exec_ptsTick {s : State} (h : s.dev.nextTick ≤ s.dev.clk) :
    ∃ u : State, exec .ptsTick s = .next u ∧ u.dev.nextTick = s.dev.nextTick + max 16 s.dev.mmu.tick := by
  refine ⟨s.ptsTick, rfl, ?_⟩
  rw [State.ptsTick, if_neg (Nat.not_lt.2 h)]
  rfl

/-- A refill that is asked for is answered while no invalidation runs (R270, R274). -/
theorem exec_tlbRefill {s : State} {core ctx page : Nat} (hask : (core, ctx, page) ∈ s.dev.refills) (hrun : s.dev.mmu.run = none) :
    ∃ u : State, exec (.tlbRefill core ctx page) s = .next u ∧ (core, ctx, page) ∉ u.dev.refills := by
  have hmmu : (s.walkInstall ctx (page * 4096)).1.dev.mmu = s.dev.mmu := (State.Still.refl s).walkInstall.mmu
  have hleft : ∀ l : List (Nat × Nat × Nat), (core, ctx, page) ∉ l.filter (· ≠ (core, ctx, page)) := fun l h => by simpa using (List.mem_filter.1 h).2
  refine ⟨_, rfl, ?_⟩
  rw [if_neg (by simpa using hask)]
  dsimp only
  split
  next s1 e hw =>
    rw [hw] at hmmu
    have hhold : s1.mayHold e = true := by
      simp only [State.mayHold]
      rw [hmmu, hrun]
      rfl
    rw [if_pos hhold]
    exact hleft _
  next => exact hleft _

/-- The window that a team has read is its own. -/
theorem State.team?_window {s s1 : State} {team : Nat} {t : Team} (ht : s.team? team = some t) (h : s.Still s1) (pts pa : Nat) (W : List WinWord) :
    (((s1.homeLoad pts pa 1024).1.endEng team).updTeam team fun t => { t with window := some W }).team? team = some { t with window := some W } := by
  refine State.team?_updTeam ?_ _ (by exact fun _ => rfl)
  rw [State.team?]
  exact (congrArg (List.find? fun t : Team => t.id == team) h.teams).trans ht

/-- Settles O51: each form and event by its own equation. -/
theorem binAndTeamFormsComplete : Obligations.BinAndTeamFormsComplete := by
  refine ⟨?_, ?_, ?_, ?_, ?_, ?_, ?_, ?_, ?_, ?_, ?_⟩
  · intro s st g k th gr d a o b sb x h hcount hhelper _ B sends token goes named
    exact ⟨exec_bpush h hcount hhelper, exec_wgpush h hcount hhelper, fun hn hk ha h0 => exec_cont h hn hhelper hk ha h0,
      fun hn => exec_bflush h hn, fun hn => exec_bquery h hn hcount, fun hn => exec_bpop h hn hcount⟩
  · intro s core n b unit
    refine ⟨fun p => exec_recordAccept, fun r rest s1 e d p => exec_ringRefill, fun r => exec_binEnable, exec_binDisable, fun _ => exec_btimeout,
      fun r seats => exec_binLaunch⟩
  · intro s gid g hg
    refine ⟨exec_pauseEnd hg, fun e rest => exec_storeTimestamp hg, fun tm ht hst hact he hth hsb hsq hstreams hother => ?_⟩
    obtain ⟨u, hu, -, -, hnot, -⟩ := groupEnd_ends hg ht (by simp [hact]) he ((Group.finished_iff g).2 ⟨hth, hsb, hsq⟩) (.inl hst) (by simp [hstreams])
    obtain ⟨x, hx, hxt, hxe, hxid⟩ := hother
    exact ⟨u, hu, (hnot fun h => (h x hx hxt).elim (by simp [hxe]) hxid).1⟩
  · intro s n gr hgr hst hquiet hact
    refine (exec_gridRetire hgr).2 hst ?_ (by simp [hact])
    rintro ⟨g, hg, hgn, h⟩
    exact h.elim (fun h => h (hquiet g hg hgn).1) fun h => h (hquiet g hg hgn).2
  · exact fun s owner n gr => exec_barrierRelease_grid
  · exact fun s => exec_ptsTick
  · exact fun s core ctx page => exec_tlbRefill
  · intro s s1 team pa t gr e e2 ht hgr hw hst hargs hr htyp
    obtain ⟨W, hW, -, hexec⟩ := argumentWindowLoad_loads ht hgr hw (.inl hst) hargs hr htyp
    exact ⟨_, hexec, _, W, State.team?_window ht (.ofFst hr (State.Still.refl s).engRange) _ _ _, rfl, hW⟩
  · intro s team t ht hst hissue hdone
    obtain ⟨u, hu, hsaved, -⟩ := (teamSaveComplete_spec ht).2.2 hst hissue hdone
    exact ⟨u, hu, hsaved⟩
  · intro s c gr tm sp core seats hc hgr hcoop hrun hst hone hquota hspot hcore hkeys hre huniq htg
    obtain ⟨u, hu, -, hteam, -⟩ := (teamResume_spec hc hgr hcoop).2 tm sp core seats hrun hst hone hquota hspot hcore hkeys hre huniq htg
    refine ⟨u, hu, ?_⟩
    have h := congrArg (Option.map fun y : TeamState × Nat × List Handle × List Bank × List Bar × List Ring => (y.1, y.2.1)) hteam
    rw [Option.map_map] at h
    exact h
  · exact fun s core n f r ext p tag d a => forwardedArrival_last

end Sys2Proof.Machine
end

section
/-! Trap entry, and the freeze of a context at a fault without a handler (R92, R98, R99, R100, R153, R183). -/

namespace Sys2Proof.Machine

/-! ## Trap entry -/

theorem Copy.Lands.word? {kp : Copy} {start : Nat} {a : Word} (h : kp.Lands start a) :
    ∃ w, kp.word? start a.toNat = some w ∧ isHeader w = true := by
  obtain ⟨⟨hlo, hhi⟩, halign, hheader⟩ := h
  exact ⟨_, by simp [Copy.word?, hlo, hhi, halign], (isHeader_iff _).2 hheader⟩

/-- A thread changed twice. -/
theorem State.updThread_updThread (s : State) (id k : Nat) (f h : Thread → Thread) :
    (s.updThread id k f).updThread id k h = s.updThread id k fun x => h (f x) := by
  have hgroups : updIf (fun g : Group => g.id == id) (fun g => g.updThread k h) (updIf (fun g => g.id == id) (fun g => g.updThread k f) s.dev.groups) =
      updIf (fun g => g.id == id) (fun g => g.updThread k fun x => h (f x)) s.dev.groups := by
    refine (updIf_updIf (q := fun g : Group => g.id == id) (G := fun g => g.updThread k f) (fun _ hid => hid) s.dev.groups).trans ?_
    simp only [Group.updThread, List.modify_modify_eq]
    rfl
  exact congrArg (fun l => { s with dev := { s.dev with groups := l } }) hgroups

/-- The thread at the entry of its handler: what is recorded of the fault, before the thread goes on (R153, R183). -/
def Thread.atTrap (th : Thread) (r : FaultRec) (late : Bool) (xpc : Word) : Thread :=
  { th with xcode := BitVec.ofNat 32 (r.code.toNat + 2 ^ 8 * r.num.toNat + 2 ^ 18 * late.toNat), xunit := r.unit, xva := r.va, xpc := xpc,
            inTrap := true, trapPending := true, noBreak := false, due := none, kept := th.due.map fun r => { r with unit := th.vpc } }

section
variable {s : State} {gid : Nat} {g : Group} {k : Nat} {th : Thread} {gr : Grid}

/-- A thread changed is the one found in its group. -/
theorem State.updThread_finds (hg : s.group? gid = some g) (ht : g.thread? k = some th) (f : Thread → Thread) :
    (s.updThread gid k f).group? gid = some (g.updThread k f) ∧ (g.updThread k f).thread? k = some (f th) := by
  constructor
  · exact (State.group?_updGroup s gid (fun x => x.updThread k f) fun _ hid => hid).trans (by rw [hg]; rfl)
  · rw [Group.thread?] at ht
    simp [Group.updThread, Group.thread?, ht]

/-- A trap entry whose handler is there goes on inside it at once. -/
theorem State.completeTrap_ready {entry : Word} {kp : Copy} {b : Bind} (hg : s.group? gid = some g) (ht : g.thread? k = some th)
    (hready : s.HandlerReady g gr entry kp b) (hdue : th.due = none) : s.completeTrap gid k =
      (s.updThread gid k fun x => { x.enter kp b with vpc := entry, trapPending := false }).enterCopy g.core kp.id := by
  obtain ⟨hgrid, -, ⟨t, n, htrap⟩, img, ov, hhandler, hbound, hlands⟩ := hready
  obtain ⟨w, hword, hheader⟩ := hlands.word?
  simp only [State.completeTrap, hg, ht, hgrid, hdue, htrap, hhandler, hbound, hword, hheader, if_true]

/-- A fault outside the handler begins the thread's trap entry. -/
theorem State.takeFault_traps (hg : s.group? gid = some g) (ht : g.thread? k = some th) (hgrid : s.grid? g.grid = some gr)
    (hlive : s.ctxState g.ctx ≠ .dying) (hhandler : (s.handler gr).isNone = false) (hout : th.inTrap = false) (r : FaultRec) (late : Bool) (xpc : Word) :
    s.takeFault gid k r late xpc = (s.updThread gid k fun x => x.atTrap r late xpc).completeTrap gid k := by
  have hlate : (if late = true then 2 ^ 18 else 0) = 2 ^ 18 * late.toNat := by cases late <;> rfl
  have hdying : (s.ctxState g.ctx == .dying) = false := by simpa using hlive
  simp only [State.takeFault, hg, ht, hgrid, hdying, hhandler, hout, Bool.false_eq_true, if_false, hlate]
  rfl

/-- A fault outside the handler, with the handler there. -/
theorem State.takeFault_ready {entry : Word} {kp : Copy} {b : Bind} (hg : s.group? gid = some g) (ht : g.thread? k = some th)
    (hready : s.HandlerReady g gr entry kp b) (hout : th.inTrap = false) (r : FaultRec) (late : Bool) (xpc : Word) :
    s.takeFault gid k r late xpc = (s.updThread gid k fun x =>
      { (x.atTrap r late xpc).enter kp b with vpc := entry, trapPending := false }).enterCopy g.core kp.id := by
  obtain ⟨hgrid, hlive, -, img, ov, hhandler, -⟩ := id hready
  obtain ⟨hg', ht'⟩ := State.updThread_finds hg ht fun x => x.atTrap r late xpc
  rw [State.takeFault_traps hg ht hgrid hlive (by simp [hhandler]) hout, State.completeTrap_ready hg' ht' (gr := gr) hready rfl,
    State.updThread_updThread]
  rfl

/-! ## The freeze of a context -/

variable {c : Ctx}

/-- A fault without a handler, or inside it, is the context's. -/
theorem State.takeFault_freeze (hg : s.group? gid = some g) (ht : g.thread? k = some th) (hgrid : s.grid? g.grid = some gr)
    (hlive : s.ctxState g.ctx ≠ .dying) (hno : s.handler gr = none ∨ th.inTrap = true) (r : FaultRec) (late : Bool) (xpc : Word) :
    s.takeFault gid k r late xpc = s.freeze g.ctx gid k r (if s.handler gr = none then 1 else 2) := by
  have hdying : (s.ctxState g.ctx == .dying) = false := by simpa using hlive
  simp only [State.takeFault, hg, ht, hgrid, hdying, Bool.false_eq_true, if_false]
  cases hh : s.handler gr with
  | none => rfl
  | some x =>
    have hin : th.inTrap = true := hno.resolve_left (by simp [hh])
    simp [hin]

theorem State.takeFault_dying (hg : s.group? gid = some g) (hd : s.ctxState g.ctx = .dying) (r : FaultRec) (late : Bool) (xpc : Word) :
    s.takeFault gid k r late xpc = s := by
  simp only [State.takeFault, hg, hd]
  split
  · rfl
  · rfl

theorem FaultRec.regs_of_thread (ht : g.thread? k = some th) (r : FaultRec) (cause : Nat) : r.regs g k cause =
    ⟨BitVec.ofNat 32 (r.code.toNat + g.core * 2 ^ 8 + g.reed * 2 ^ 16 + g.rslot * 2 ^ 23 + k * 2 ^ 25), th.vpc, cause, r.va⟩ := by
  rw [FaultRec.regs, ht]
  rfl

variable (hc : s.ctx? g.ctx = some c) (hg : s.group? gid = some g) (r : FaultRec) (cause : Nat)
include hc hg

/-- The first fault of a context that runs freezes it. -/
theorem State.freeze_running (hst : c.st = .active ∨ c.st = .suspended) : s.freeze g.ctx gid k r cause =
    (((((s.updThread gid k fun x => { x with froze := some r }).updCtx g.ctx fun c => { c with froze := some (s.dev.clk, c.fault) }).setCtxState
      g.ctx .frozen).setFault g.ctx (r.regs g k cause)).requestSave fun x => x.ctx == g.ctx) := by
  rcases hst with hst | hst <;> simp only [State.freeze, hc, hg, hst]

/-- Of the faults of the freeze's clk, a context already frozen keeps the first in order (R100 case 1). -/
theorem State.freeze_frozen (hst : c.st = .frozen) : s.freeze g.ctx gid k r cause =
    if (∃ f, c.froze = some f ∧ f.1 = s.dev.clk) ∧ faultPlace (r.regs g k cause).w < faultPlace c.fault.w then
      (s.updThread gid k fun x => { x with froze := some r }).setFault g.ctx (r.regs g k cause)
    else s.updThread gid k fun x => { x with froze := some r } := by
  have hany : (c.froze.any fun f => f.1 == s.dev.clk) = true ↔ ∃ f, c.froze = some f ∧ f.1 = s.dev.clk := by
    rw [Option.any_eq_true]
    simp only [beq_iff_eq]
  simp only [State.freeze, hc, hg, hst, Bool.and_eq_true, hany, decide_eq_true_eq]

end

/-- Settles O9: the entry by its two updates of the thread, the freeze by the state of the context. -/
theorem trapEntryAndFreeze : Obligations.TrapEntryAndFreeze := by
  refine ⟨fun s g k th gr entry kp b r late xpc hg ht hready hout => State.takeFault_ready hg ht hready hout r late xpc, ?_⟩
  intro s g k th gr c r late xpc hg ht hgrid hc hno w regs keeps
  have hfreeze : c.st ≠ .dying → s.takeFault g.id k r late xpc = s.freeze g.ctx g.id k r regs.cause := fun hst =>
    State.takeFault_freeze hg ht hgrid (by rwa [State.ctxState_some hc]) hno r late xpc
  have hregs : r.regs g k regs.cause = regs := FaultRec.regs_of_thread ht r regs.cause
  have hfrozen : c.st = .frozen → s.takeFault g.id k r late xpc =
      if (∃ f, c.froze = some f ∧ f.1 = s.dev.clk) ∧ faultPlace w < faultPlace c.fault.w then keeps.setFault g.ctx regs else keeps := fun hst => by
    rw [hfreeze (by simp [hst]), State.freeze_frozen hc hg r _ hst, hregs]
  refine ⟨fun hst => ?_, fun hst hlater => ?_, fun f hst hf hclk hplace => ?_, fun hst => ?_⟩
  · rw [hfreeze (by rcases hst with h | h <;> simp [h]), State.freeze_running hc hg r _ hst, hregs]
    rfl
  · refine (hfrozen hst).trans (if_neg ?_)
    rintro ⟨⟨f, hf, hclk⟩, hplace⟩
    exact Nat.not_lt.2 (hlater f hf hclk) hplace
  · exact (hfrozen hst).trans (if_pos ⟨⟨f, hf, hclk⟩, hplace⟩)
  · exact State.takeFault_dying hg (by rwa [State.ctxState_some hc]) r late xpc

end Sys2Proof.Machine
end

section
/-! A store of one group and a result of another under one identity (R290, log 7). -/

namespace Sys2Proof.Machine

/-- Group 4 has a byte store at the head of its queue and awaits a token; group 8 awaits an atomic. The two results have one identity,
as `State.fresh` would not give it twice; the statement is of every state, and so of this one. -/
def sharedIdentity : State :=
  (State.reset.withFetchWord 32 0).onDev fun d => { d with
    groups := d.groups.map (fun g => { g with sq := [⟨9, 0, .mem 0, .bytes [1#8]⟩] }) ++ d.groups.map fun g => { g with id := 8 }
    results := [⟨10, 8, 0, none, 4#32, .atom (.mem 128) .exch32 1#64 0#64 5, false, [], 0, none, false, []⟩,
                ⟨10, 4, 0, none, 4#32, .token, false, [], 0, none, false, []⟩] }

/-- As the store of group 4 leaves, the result that is found for its token is the atomic of group 8, which is performed. -/
theorem exec_storeTimestamp_sharedIdentity :
    ∃ u : State, exec (.storeTimestamp 4) sharedIdentity = .next u ∧ mget u.mem 128 = 1#8 := ⟨_, rfl, by decide⟩

/-- Refutes O49: the store's leaving changes a byte of memory that is not the store's, where a result of another group has the identity of
one of the group's own. -/
theorem not_orderEvents : ¬ Obligations.OrderEvents := by
  rintro ⟨hstore, -⟩
  obtain ⟨-, hleave⟩ := hstore sharedIdentity 4 _ rfl
  obtain ⟨-, hleave⟩ := hleave ⟨9, 0, .mem 0, .bytes [1#8]⟩ [] rfl
  obtain ⟨u, hexec, -, hbytes⟩ := hleave (by decide)
  obtain ⟨hbytes, -⟩ := hbytes (by decide)
  obtain ⟨-, -, -, hmem⟩ := hbytes 0 [1#8] rfl rfl (by decide) (by decide) (by decide)
  obtain ⟨v, hv, hbyte⟩ := exec_storeTimestamp_sharedIdentity
  have huv : u = v := Host.Outcome.next.inj (hexec.symm.trans hv)
  have hsame : mget u.mem 128 = 0#8 := hmem 128
  rw [huv, hbyte] at hsame
  exact absurd hsame (by decide)

end Sys2Proof.Machine
end

section
/-! The values of the integer instructions as numbers (R168 to R175). -/

namespace Sys2Proof.Machine

/-! ## Arithmetic and shifts (R168, R170, R172) -/

theorem ofInt_sub (n : Nat) (x y : Int) : BitVec.ofInt n (x - y) = BitVec.ofInt n x - BitVec.ofInt n y := by
  rw [Int.sub_eq_add_neg, BitVec.ofInt_add, BitVec.ofInt_neg, BitVec.sub_eq_add_neg]

theorem sub_eq_ofInt (A B : Word) : A - B = BitVec.ofInt 32 (A.toNat - B.toNat) := by
  simp [ofInt_sub]

/-- Saturation is the nearest value of .s32 (R71). -/
theorem satIf_eq_clamped (st : Stream) (x : Int) : satIf st x = st.clamped x := by
  unfold satIf Stream.clamped
  split
  · unfold sat32
    split
    · rw [show max (-2 ^ 31) (min x (2 ^ 31 - 1)) = -2 ^ 31 by omega]
      rfl
    · split
      · rw [show max (-2 ^ 31) (min x (2 ^ 31 - 1)) = 2 ^ 31 - 1 by omega]
        rfl
      · rw [show max (-2 ^ 31) (min x (2 ^ 31 - 1)) = x by omega]
  · rfl

theorem ite_le_eq_ofInt_min (A B : Word) : (if A.toInt ≤ B.toInt then A else B) = BitVec.ofInt 32 (min A.toInt B.toInt) := by
  rw [min_def]
  split <;> exact BitVec.ofInt_toInt.symm

theorem ite_le_eq_ofInt_max (A B : Word) : (if A.toInt ≤ B.toInt then B else A) = BitVec.ofInt 32 (max A.toInt B.toInt) := by
  rw [max_def]
  split <;> exact BitVec.ofInt_toInt.symm

theorem ite_le_eq_ofNat_min (A B : Word) : (if A.toNat ≤ B.toNat then A else B) = BitVec.ofNat 32 (min A.toNat B.toNat) := by
  rw [min_def]
  split <;> simp

theorem ite_le_eq_ofNat_max (A B : Word) : (if A.toNat ≤ B.toNat then B else A) = BitVec.ofNat 32 (max A.toNat B.toNat) := by
  rw [max_def]
  split <;> simp

theorem shiftLeft_eq_ofNat (A : Word) (n : Nat) : A <<< n = BitVec.ofNat 32 (A.toNat * 2 ^ n) := by
  apply BitVec.eq_of_toNat_eq
  rw [BitVec.toNat_shiftLeft, Nat.shiftLeft_eq, BitVec.toNat_ofNat]

theorem ushiftRight_eq_ofNat (A : Word) (n : Nat) : A >>> n = BitVec.ofNat 32 (A.toNat / 2 ^ n) := by
  apply BitVec.eq_of_toNat_eq
  rw [BitVec.toNat_ushiftRight, Nat.shiftRight_eq_div_pow, BitVec.toNat_ofNat,
    Nat.mod_eq_of_lt (Nat.lt_of_le_of_lt (Nat.div_le_self ..) A.isLt)]

theorem sshiftRight_eq_ofInt (A : Word) (n : Nat) : A.sshiftRight n = BitVec.ofInt 32 (A.toInt / 2 ^ n) := by
  rw [BitVec.sshiftRight_eq, Int.shiftRight_eq_div_pow]
  norm_cast

/-- The bits that leave at the top come back at the bottom (R170). -/
theorem rotateLeft_eq_ofNat (A : Word) (B : Word) :
    A.rotateLeft (shiftOf B) = BitVec.ofNat 32 (A.toNat * 2 ^ (B.toNat % 32) + A.toNat / 2 ^ (32 - B.toNat % 32)) := by
  have hn : B.toNat % 32 < 32 := Nat.mod_lt _ (by decide)
  rw [shiftOf, BitVec.rotateLeft_def, Nat.mod_eq_of_lt hn, BitVec.ofNat_add, ← shiftLeft_eq_ofNat, ← ushiftRight_eq_ofNat]
  generalize B.toNat % 32 = n at hn
  refine (BitVec.add_eq_or_of_and_eq_zero _ _ (BitVec.eq_of_getLsbD_eq fun i hi => ?_)).symm
  rw [BitVec.getLsbD_and, BitVec.getLsbD_shiftLeft, BitVec.getLsbD_ushiftRight, BitVec.getLsbD_zero]
  by_cases h : i < n
  · simp [h]
  · rw [BitVec.getLsbD_of_ge A (32 - n + i) (by omega), Bool.and_false]

/-! ## Bit counts (R170) -/

/-- The highest bit set counts the zeros above it. -/
theorem clzVal_of_top {A : Word} {i : Nat} (hi : A.getLsbD i = true) (habove : ∀ j, i < j → A.getLsbD j = false) :
    clzVal A = BitVec.ofNat 32 (31 - i) := by
  have hlo : 2 ^ i ≤ A.toNat := Nat.ge_two_pow_of_testBit hi
  have hne : A.toNat ≠ 0 := by have := Nat.two_pow_pos i; omega
  have hlog : A.toNat.log2 = i := by
    refine Nat.le_antisymm (Nat.not_lt.mp fun h => ?_) ((Nat.le_log2 hne).mpr hlo)
    exact absurd (habove _ h) (by rw [BitVec.getLsbD, Nat.testBit_log2 hne]; decide)
  have h0 : A ≠ 0#32 := fun h => hne (by rw [h]; rfl)
  rw [clzVal, if_neg h0, hlog]

theorem getLsbD_brevVal (A : Word) {i : Nat} (hi : i < 32) : (brevVal A).getLsbD i = A.getLsbD (31 - i) := by
  rw [Bool.eq_iff_iff, brevVal, getLsbD_maskOf hi, List.mem_filter, List.mem_range]
  exact and_iff_right hi

/-! ## Bit fields (R173) -/

theorem bfPos_eq_fieldPos (B : Word) : bfPos B = fieldPos B := by
  simp [bfPos, fieldPos]

theorem bfLen_eq_fieldLen (B : Word) : bfLen B = fieldLen B := by
  simp [bfLen, fieldLen, field]

theorem fieldLen_le (B : Word) : fieldLen B ≤ 32 := Nat.min_le_right ..

/-- A mask of `n` ones from bit `p` up. -/
theorem getLsbD_ones (n p : Nat) {i : Nat} (hi : i < 32) :
    (BitVec.ofNat 32 ((2 ^ n - 1) * 2 ^ p)).getLsbD i = (decide (p ≤ i) && decide (i - p < n)) := by
  rw [BitVec.getLsbD_ofNat, decide_eq_true hi, Bool.true_and, Nat.testBit_mul_two_pow, Nat.testBit_two_pow_sub_one]

theorem getLsbD_bfeVal_unsigned (A B : Word) {i : Nat} (hi : i < 32) :
    (bfeVal false A B).getLsbD i = (decide (i < fieldLen B) && A.getLsbD (fieldPos B + i)) := by
  have hones := getLsbD_ones (fieldLen B) 0 hi
  rw [pow_zero, mul_one] at hones
  simp only [bfeVal, bfLen_eq_fieldLen, bfPos_eq_fieldPos, Bool.false_eq_true, if_false]
  split
  · next h => simp [h]
  · rw [BitVec.getLsbD_and, hones, BitVec.getLsbD_ushiftRight, Bool.and_comm]
    simp

/-- The arithmetic shift reads the sign above bit 31. -/
theorem getLsbD_sshiftRight_min (A : Word) (n : Nat) {i : Nat} (hi : i < 32) : (A.sshiftRight n).getLsbD i = A.getLsbD (min 31 (n + i)) := by
  rw [BitVec.getLsbD_sshiftRight, decide_eq_false (Nat.not_le.2 hi), Bool.not_false, Bool.true_and]
  split
  · next h => rw [Nat.min_eq_right (by omega)]
  · next h => rw [Nat.min_eq_left (by omega)]; rfl

theorem getLsbD_bfeVal_signed (A B : Word) {i : Nat} (hi : i < 32) : (bfeVal true A B).getLsbD i =
    (decide (0 < fieldLen B) && A.getLsbD (min 31 (fieldPos B + min i (fieldLen B - 1)))) := by
  have hlen := fieldLen_le B
  simp only [bfeVal, bfLen_eq_fieldLen, bfPos_eq_fieldPos, if_true]
  split
  · next h => simp [h]
  · next h =>
    rw [getLsbD_sshiftRight_min _ _ hi, BitVec.getLsbD_shiftLeft, decide_eq_true (by omega : min 31 (32 - fieldLen B + i) < 32),
      decide_eq_false (by omega), decide_eq_true (by omega : 0 < fieldLen B), getLsbD_sshiftRight_min _ _ (by omega),
      show min 31 (32 - fieldLen B + i) - (32 - fieldLen B) = min i (fieldLen B - 1) by omega]
    rfl

theorem getLsbD_bfiVal (D A B : Word) {i : Nat} (hi : i < 32) : (bfiVal D A B).getLsbD i =
    if fieldPos B ≤ i ∧ i < fieldPos B + fieldLen B then A.getLsbD (i - fieldPos B) else D.getLsbD i := by
  simp only [bfiVal, bfLen_eq_fieldLen, bfPos_eq_fieldPos, BitVec.getLsbD_or, BitVec.getLsbD_and, BitVec.getLsbD_not, getLsbD_ones _ _ hi,
    BitVec.getLsbD_shiftLeft, decide_eq_true hi, Bool.true_and]
  split
  · next h => simp [show fieldPos B ≤ i ∧ i - fieldPos B < fieldLen B by omega, show ¬ i < fieldPos B by omega]
  · next h =>
    have hout : (decide (fieldPos B ≤ i) && decide (i - fieldPos B < fieldLen B)) = false := by
      rw [Bool.and_eq_false_iff, decide_eq_false_iff_not, decide_eq_false_iff_not]
      omega
    simp [hout]

/-! ## Immediates and pairs (R174, R175) -/

/-- The value of an immediate with its IMM prefix, as a number (R54). -/
theorem immValue_eq (p : Option (BitVec 24)) (imm : BitVec 10) : immValue p imm = match p with
    | none => imm.signExtend 32
    | some p => BitVec.ofNat 32 (p.toNat % 2 ^ 22 * 2 ^ 10 + imm.toNat) := by
  cases p with
  | none => rfl
  | some p =>
    apply BitVec.eq_of_toNat_eq
    have himm := imm.isLt
    simp only [immValue]
    rw [BitVec.toNat_append, BitVec.extractLsb'_toNat, Nat.shiftRight_zero, BitVec.toNat_ofNat, ← Nat.shiftLeft_add_eq_or_of_lt himm,
      Nat.shiftLeft_eq]
    omega

theorem words64_ofInt (x : Int) : words64 (BitVec.ofInt 64 x) = [BitVec.ofInt 32 x, BitVec.ofInt 32 (x / 2 ^ 32)] := by
  rw [words64, extractLsb'_lo, extractLsb'_hi]
  have hlo : BitVec.ofNat 32 (BitVec.ofInt 64 x).toNat = BitVec.ofInt 32 x := by
    apply BitVec.eq_of_toNat_eq
    simp only [BitVec.toNat_ofNat, BitVec.toNat_ofInt]
    omega
  have hhi : BitVec.ofNat 32 ((BitVec.ofInt 64 x).toNat / 2 ^ 32) = BitVec.ofInt 32 (x / 2 ^ 32) := by
    apply BitVec.eq_of_toNat_eq
    simp only [BitVec.toNat_ofNat, BitVec.toNat_ofInt]
    omega
  rw [hlo, hhi]

/-- The number that a pair of registers holds, low word in the even register (R3). -/
theorem rd64_eq_ofInt (g : Group) (th : Thread) (o : Opnd) :
    rd64 g th o = BitVec.ofInt 64 (((rd g th o).toNat : Int) + 2 ^ 32 * (rd g th (nextOpnd o)).toNat) := by
  have hlo := (rd g th o).isLt
  have hhi := (rd g th (nextOpnd o)).isLt
  apply BitVec.eq_of_toNat_eq
  rw [rd64, BitVec.toNat_append, ← Nat.shiftLeft_add_eq_or_of_lt hlo, Nat.shiftLeft_eq, BitVec.toNat_ofInt]
  omega

theorem extractLsb'_zeroExtend_eq_ofInt (A : Word) (n : Nat) : (A.extractLsb' 0 n).zeroExtend 64 = BitVec.ofInt 64 (A.toNat % 2 ^ n : Nat) := by
  rw [BitVec.ofInt_natCast]
  apply BitVec.eq_of_toNat_eq
  simp

end Sys2Proof.Machine
end

section
/-! What a unit of a register class gives, by the form of its instruction (R145, R146, R161). -/

namespace Sys2Proof.Machine

variable {s : State} {st : Stream} {g : Group} {i : Instr} {d a b : Opnd}

/-! ## Where the first executing thread decides, and where a thread faults (R145, R153) -/

section
variable {k : Nat} {th : Thread} {f : Stream → Group → Nat → Thread → GRes}

/-- A uniform unit at its first executing thread. -/
theorem State.regsUniform_first (h : s.Issues st g) (hk : firstOn st g st.threads = some k) (ht : g.thread? k = some th) {g' : Group}
    (hf : f st g k th = .ok g') : s.regsUniform f = .next (s.after st g') := by
  simp only [State.regsUniform, State.onStream_issues h, hk, ht, hf, State.settle_ok]

/-- A uniform unit that faults at its first executing thread keeps the threads before it. -/
theorem State.regsUniform_fault (h : s.Issues st g) (hk : firstOn st g st.threads = some k) (ht : g.thread? k = some th) {c : BitVec 8}
    (hf : f st g k th = .fault c) : s.regsUniform f = .next (((s.updGroup st.grp fun _ => g).takeFault st.grp k
      ⟨c, 0#10, st.unit, 0#64⟩ false st.unit).advance st (st.threads.takeWhile (· ≠ k))) := by
  simp only [State.regsUniform, State.onStream_issues h, hk, ht, hf]
  rfl

end

/-- Where the threads before it meet the condition, the thread that faults is where the unit ends (R153). -/
theorem runRegs_fault {st : Stream} {act : Group → Nat → Thread → Group} {p : Group → Thread → Prop} {f : Group → Nat → Thread → GRes}
    (hf : ∀ g k th, p g th → f g k th = .ok (act g k th)) {k : Nat} {th : Thread} {c : BitVec 8} (post : List Nat) (pre : List Nat) (g : Group)
    (hpre : eachInTurn st act p pre g) (ht : (inTurn st act pre g).thread? k = some th) (hon : predOn st th = true)
    (hc : f (inTurn st act pre g) k th = .fault c) :
    runRegs st f (pre ++ k :: post) g = (inTurn st act pre g, pre, some (k, c)) := by
  induction pre generalizing g with
  | nil =>
    simp only [inTurn] at ht hc
    simp [runRegs, inTurn, ht, hon, hc]
  | cons j r ih =>
    rw [inTurn] at ht hc
    cases hj : g.thread? j with
    | none =>
      simp only [eachInTurn, hj] at hpre ht hc
      simp [runRegs, inTurn, hj, ih _ hpre ht hc]
    | some x =>
      by_cases hp : predOn st x = true
      · simp only [eachInTurn, hj, hp, if_true] at hpre ht hc
        simp [runRegs, inTurn, hj, hp, hf _ _ _ hpre.1, ih _ hpre.2 ht hc]
      · simp only [eachInTurn, hj, hp] at hpre ht hc
        simp [runRegs, inTurn, hj, hp, ih _ hpre ht hc]

/-! ## The forms of the integer instructions -/

section
variable (h : s.Issues st g)
include h

/-- A uniform ALU instruction (R168). -/
theorem exec_uniform {d a : GReg} {b : GSrc} {f f' : Word → Word → Word → Word} (he : exec i s = s.uniform d a b f)
    (hf : ∀ D A B, f D A B = f' D A B) : exec i s = .next (s.after st (atFirst st (fun g _ _ =>
      { g with g := mset g.g d.toNat (f' (mget g.g d.toNat) (mget g.g a.toNat) (rdG g st b)) }) g)) := by
  obtain rfl : f = f' := funext fun D => funext fun A => funext fun B => hf D A B
  exact he.trans (State.regsUniform_ok h _)

/-- A unit that writes words and cannot fault. -/
theorem State.gives_of_words {u : Bool} {val : Stream → Group → Thread → List Word} {val' : Group → Thread → List Word}
    (he : exec i s = s.valueUnit u d fun st g th => .ok (val st g th)) (hv : ∀ g th, val st g th = val' g th) : s.Gives i st g u d val' := by
  obtain rfl : val st = val' := funext fun g => funext fun th => hv g th
  exact he.trans (State.valueUnit_ok h u d val)

/-- Three named registers (R161). -/
theorem State.gives_of_int3v {f : Stream → Word → Word → Word → Word} {f' : Word → Word → Word → Word} (he : exec i s = s.int3v d a b f)
    (hf : ∀ D A B, f st D A B = f' D A B) :
    s.Gives i st g (d.isG && a.isG && b.isG) d fun g th => [f' (rd g th d) (rd g th a) (rd g th b)] :=
  State.gives_of_words h (val := fun st g th => [f st (rd g th d) (rd g th a) (rd g th b)]) he fun _ _ => congrArg (fun x => [x]) (hf ..)

/-- Two named registers (R161). -/
theorem State.gives_of_int2 {f : Stream → Word → Word} {f' : Word → Word} (he : exec i s = s.int2 d a f) (hf : ∀ A, f st A = f' A) :
    s.Gives i st g (d.isG && a.isG) d fun g th => [f' (rd g th a)] :=
  State.gives_of_words h he fun _ _ => congrArg (fun x => [x]) (hf _)

/-- A register and an immediate (R174). -/
theorem State.gives_of_intImm {imm : BitVec 10} {f : Stream → Word → Word → Word} {f' : Word → Word} (he : exec i s = s.intImm d a imm f)
    (hf : ∀ A, f st A (immValue st.imm imm) = f' A) : s.Gives i st g (d.isG && a.isG) d fun g th => [f' (rd g th a)] :=
  State.gives_of_words h he fun _ _ => congrArg (fun x => [x]) (hf _)

/-- A pair written with a number modulo 2^64 (R175). -/
theorem State.gives_of_words64 {u : Bool} {val : Group → Thread → BitVec 64} {val' : Group → Thread → Int}
    (he : exec i s = s.valueUnit u d fun _ g th => .ok (words64 (val g th))) (hv : ∀ g th, val g th = BitVec.ofInt 64 (val' g th)) :
    s.Gives i st g u d fun g th => [BitVec.ofInt 32 (val' g th), BitVec.ofInt 32 (val' g th / 2 ^ 32)] :=
  State.gives_of_words h he fun g th => by rw [hv, words64_ofInt]

end

end Sys2Proof.Machine
end

section
/-! The uniform ALU and the argument window (R168, R169). -/

namespace Sys2Proof.Machine

theorem sign3_toInt (A B : Word) : sign3 (decide (A.toInt < B.toInt)) (A == B) =
    if A.toInt < B.toInt then BitVec.ofInt 32 (-1) else if A.toInt = B.toInt then 0#32 else 1#32 := by
  simp only [sign3, decide_eq_true_eq, beq_iff_eq, BitVec.toInt_inj]
  rfl

theorem sign3_toNat (A B : Word) : sign3 (decide (A.toNat < B.toNat)) (A == B) =
    if A.toNat < B.toNat then BitVec.ofInt 32 (-1) else if A.toNat = B.toNat then 0#32 else 1#32 := by
  simp only [sign3, decide_eq_true_eq, beq_iff_eq, BitVec.toNat_inj]
  rfl

theorem gldOffset_eq (g : Group) (a : GReg) (imm : BitVec 10) :
    gldOffset g a imm = ((mget g.g a.toNat).toNat + (imm.signExtend 32).toNat) % 2 ^ 32 := BitVec.toNat_add ..

end Sys2Proof.Machine

namespace Sys2Proof
open Machine

/-- Settles O1: each instruction is the uniform unit of its function of G[d], A and B; `GLD` by its checks, in their order. -/
theorem uniformAluResults : Obligations.UniformAluResults := by
  refine ⟨fun s st g d a b h => ?_, fun s st g k th d a imm tm win h hk ht htm hwin hlen => ?_⟩
  · intro once
    have uni {i : Instr} {f f' : Word → Word → Word → Word} (he : exec i s = s.uniform d a b f) (hf : ∀ D A B, f D A B = f' D A B) :
        once i f' := exec_uniform h he hf
    refine ⟨exec_uniform h (f' := fun _ _ B => B) (rfl : execGmov d b s = _) fun _ _ _ => rfl, ?_⟩
    clear_value once
    exact ⟨uni (rfl : execGadd d a b s = _) fun _ A B => BitVec.add_def A B,
      uni (rfl : execGsub d a b s = _) fun _ A B => sub_eq_ofInt A B,
      uni (rfl : execGmul d a b s = _) fun _ A B => by simp [BitVec.ofNat_mul],
      uni (rfl : execGand d a b s = _) fun _ _ _ => rfl,
      uni (rfl : execGor d a b s = _) fun _ _ _ => rfl,
      uni (rfl : execGxor d a b s = _) fun _ _ _ => rfl,
      uni (rfl : execGshl d a b s = _) fun _ A B => shiftLeft_eq_ofNat A _,
      uni (rfl : execGshr d a b s = _) fun _ A B => ushiftRight_eq_ofNat A _,
      uni (rfl : execGsel d a b s = _) fun _ _ _ => rfl,
      uni (rfl : execGcmpS32 d a b s = _) fun _ A B => sign3_toInt A B,
      uni (rfl : execGcmpN32 d a b s = _) fun _ A B => sign3_toNat A B⟩
  · intro o fault
    have ho : gldOffset g a imm = o := gldOffset_eq g a imm
    refine ⟨fun hmis => ?_, fun hal hpast => ?_, fun w hal hin hw => ?_, fun c hal hin hc => ?_⟩
    · exact State.regsUniform_fault h hk ht (by simp only [ho, if_pos hmis])
    · exact State.regsUniform_fault h hk ht (by simp only [ho, hal, hpast, ne_eq, not_true_eq_false, if_false, if_true])
    · exact State.regsUniform_first h hk ht (by simp [ho, hal, Nat.not_le.2 hin, htm, hwin, hw]; rfl)
    · exact State.regsUniform_fault h hk ht (by simp [ho, hal, Nat.not_le.2 hin, htm, hwin, hc])

end Sys2Proof
end

section
/-! The integer instructions of one to three registers and the bit fields (R170, R172, R173). -/

namespace Sys2Proof
open Machine

/-- Settles O2: each instruction is the unit of its form (`State.gives_of_int3v`, `State.gives_of_int2`), and its value is the number or the
bits that the rule gives. -/
theorem integerResults : Obligations.IntegerResults := by
  refine ⟨fun s st g d a b h => ?_, fun s st g d a b n h => ?_⟩
  · intro gives
    have unit {i : Instr} {f : Machine.Stream → Word → Word → Word → Word} {f' : Word → Word → Word → Word} (he : exec i s = s.int3v d a b f)
        (hf : ∀ D A B, f st D A B = f' D A B) : gives i f' := State.gives_of_int3v h he hf
    clear_value gives
    exact ⟨unit (rfl : execAdd d a b s = _) fun _ _ _ => satIf_eq_clamped st _,
      unit (rfl : execSub d a b s = _) fun _ _ _ => satIf_eq_clamped st _,
      unit (rfl : execMul d a b s = _) fun _ _ _ => satIf_eq_clamped st _,
      unit (rfl : execMad d a b s = _) fun _ _ _ => satIf_eq_clamped st _,
      unit (rfl : execMulhS32 d a b s = _) fun _ _ _ => rfl,
      unit (rfl : execMulhN32 d a b s = _) fun _ _ _ => rfl,
      unit (rfl : execMinS32 d a b s = _) fun _ => ite_le_eq_ofInt_min,
      unit (rfl : execMinN32 d a b s = _) fun _ => ite_le_eq_ofNat_min,
      unit (rfl : execMaxS32 d a b s = _) fun _ => ite_le_eq_ofInt_max,
      unit (rfl : execMaxN32 d a b s = _) fun _ => ite_le_eq_ofNat_max,
      unit (rfl : execAnd d a b s = _) fun _ _ _ => rfl,
      unit (rfl : execOr d a b s = _) fun _ _ _ => rfl,
      unit (rfl : execXor d a b s = _) fun _ _ _ => rfl,
      unit (rfl : execShl d a b s = _) fun _ A _ => shiftLeft_eq_ofNat A _,
      unit (rfl : execShr d a b s = _) fun _ A _ => ushiftRight_eq_ofNat A _,
      unit (rfl : execSha d a b s = _) fun _ A _ => sshiftRight_eq_ofInt A _,
      unit (rfl : execRot d a b s = _) fun _ => rotateLeft_eq_ofNat⟩
  · intro one three
    have unit1 {i : Instr} {f : Machine.Stream → Word → Word} {f' : Word → Word} (he : exec i s = s.int2 d a f) (hf : ∀ A, f st A = f' A) :
        one i f' := State.gives_of_int2 h he hf
    have unit3 {i : Instr} {f : Machine.Stream → Word → Word → Word → Word} {f' : Word → Word → Word → Word} (he : exec i s = s.int3v d a b f)
        (hf : ∀ D A B, f st D A B = f' D A B) : three i fun _ _ D A B => f' D A B := State.gives_of_int3v h he hf
    have hsel : three (.sel n d a b) fun _ th _ A B => if rdP th n then A else B :=
      State.gives_of_words h (rfl : execSel n d a b s = _) fun _ _ => rfl
    clear_value one three
    exact ⟨unit1 (rfl : execAbs d a s = _) fun _ => satIf_eq_clamped st _,
      unit1 (rfl : execNeg d a s = _) fun _ => satIf_eq_clamped st _,
      unit1 (rfl : execNot d a s = _) fun _ => rfl,
      unit1 (rfl : execMov d a s = _) fun _ => rfl,
      unit1 (rfl : execPopc d a s = _) fun _ => rfl,
      ⟨clzVal, fun _ => ⟨fun h0 => if_pos h0, fun _ => clzVal_of_top⟩, unit1 (rfl : execClz d a s = _) fun _ => rfl⟩,
      ⟨brevVal, fun A _ => getLsbD_brevVal A, unit1 (rfl : execBrev d a s = _) fun _ => rfl⟩,
      ⟨bfeVal false, fun A B _ => getLsbD_bfeVal_unsigned A B, unit3 (rfl : execBfeN32 d a b s = _) fun _ _ _ => rfl⟩,
      ⟨bfeVal true, fun A B _ => getLsbD_bfeVal_signed A B, unit3 (rfl : execBfeS32 d a b s = _) fun _ _ _ => rfl⟩,
      ⟨bfiVal, fun D A B _ => getLsbD_bfiVal D A B, unit3 (rfl : execBfi d a b s = _) fun _ _ _ => rfl⟩, hsel⟩

end Sys2Proof
end

section
/-! Division and remainder (R171). -/

namespace Sys2Proof.Machine

/-- The divisions and remainders, each with its result where the divisor is not 0 (R171). -/
def divisions (d a b : Opnd) : List (Instr × (Word → Word → Word)) :=
  [(Instr.divS32 d a b, fun (A B : Word) => BitVec.ofInt 32 (A.toInt.tdiv B.toInt)),
    (.divN32 d a b, fun A B => BitVec.ofNat 32 (A.toNat / B.toNat)),
    (.remS32 d a b, fun A B => BitVec.ofInt 32 (A.toInt - A.toInt.tdiv B.toInt * B.toInt)),
    (.remN32 d a b, fun A B => BitVec.ofInt 32 (A.toNat - A.toNat / B.toNat * B.toNat))]

theorem tmod_eq_sub (x y : Int) : x.tmod y = x - x.tdiv y * y := eq_sub_of_add_eq (Int.tmod_add_tdiv_mul x y)

theorem ofNat_mod_eq_ofInt (x y : Nat) : BitVec.ofNat 32 (x % y) = BitVec.ofInt 32 (x - x / y * y) := by
  rw [← BitVec.ofInt_natCast, Int.natCast_emod, Int.emod_def, mul_comm]

/-- What a division answers for a thread. -/
def divided (f : Word → Word → Word) (a b : Opnd) (g : Group) (th : Thread) : Except (BitVec 8) (List Word) :=
  if rd g th b = 0#32 then .error 0x32#8 else .ok [f (rd g th a) (rd g th b)]

theorem divided_zero {f : Word → Word → Word} {a b : Opnd} {g : Group} {th : Thread} (h : ¬ rd g th b ≠ 0#32) :
    divided f a b g th = .error 0x32#8 := if_pos (not_not.mp h)

theorem divided_ok {f : Word → Word → Word} {a b : Opnd} {g : Group} {th : Thread} (h : rd g th b ≠ 0#32) :
    divided f a b g th = .ok [f (rd g th a) (rd g th b)] := if_neg h

theorem State.int3_divided (s : State) (d a b : Opnd) (f : Word → Word → Word) :
    (s.int3 d a b fun _ _ A B => if B = 0#32 then .error 0x32#8 else .ok (f A B)) =
      s.valueUnit (d.isG && a.isG && b.isG) d fun _ => divided f a b := by
  refine congrArg (s.valueUnit _ d) (funext fun st => funext fun g => funext fun th => ?_)
  simp only [divided]
  split <;> rfl

theorem exec_division (s : State) {i : Instr} {f : Word → Word → Word} {d a b : Opnd} (hi : (i, f) ∈ divisions d a b) :
    exec i s = s.valueUnit (d.isG && a.isG && b.isG) d fun _ => divided f a b := by
  rw [← State.int3_divided]
  simp only [divisions, List.mem_cons, Prod.mk.injEq, List.not_mem_nil, or_false] at hi
  obtain ⟨rfl, rfl⟩ | ⟨rfl, rfl⟩ | ⟨rfl, rfl⟩ | ⟨rfl, rfl⟩ := hi
  · exact (rfl : execDivS32 d a b s = _)
  · exact (rfl : execDivN32 d a b s = _)
  · simp only [← tmod_eq_sub]
    exact (rfl : execRemS32 d a b s = _)
  · simp only [← ofNat_mod_eq_ofInt]
    exact (rfl : execRemN32 d a b s = _)

section
variable {s : State} {st : Stream} {g : Group} {d : Opnd} {f : Stream → Group → Thread → Except (BitVec 8) (List Word)} {k : Nat} {th : Thread}
  {c : BitVec 8}

/-- A uniform unit that writes words, faulting. -/
theorem State.valueUnit_faults_first (h : s.Issues st g) (hk : firstOn st g st.threads = some k) (ht : g.thread? k = some th)
    (hc : f st g th = .error c) : s.valueUnit true d f = .next (((s.updGroup st.grp fun _ => g).takeFault st.grp k
      ⟨c, 0#10, st.unit, 0#64⟩ false st.unit).advance st (st.threads.takeWhile (· ≠ k))) :=
  State.regsUniform_fault h hk ht (by simp only [hc])

/-- A unit that writes words, faulting at a thread before which each meets the condition under which it does not fault. -/
theorem State.valueUnit_faults_turn {val : Group → Thread → List Word} {p : Group → Thread → Prop} {pre post : List Nat}
    (h : s.Issues st g) (hl : st.threads = pre ++ k :: post) (hf : ∀ g th, p g th → f st g th = .ok (val g th))
    (hpre : eachInTurn st (fun g k th => wrN g k d (val g th)) p pre g)
    (ht : (inTurn st (fun g k th => wrN g k d (val g th)) pre g).thread? k = some th) (hon : predOn st th = true)
    (hc : f st (inTurn st (fun g k th => wrN g k d (val g th)) pre g) th = .error c) :
    s.valueUnit false d f = .next (((s.updGroup st.grp fun _ => inTurn st (fun g k th => wrN g k d (val g th)) pre g).takeFault st.grp k
      ⟨c, 0#10, st.unit, 0#64⟩ false st.unit).advance st pre) := by
  simp only [State.valueUnit, Bool.false_eq_true, if_false, State.regsUnit, State.onStream_issues h]
  rw [hl, runRegs_fault (c := c) (act := fun g k th => wrN g k d (val g th)) (p := p) (fun g k th hp => by simp only [hf g th hp]) post pre g
    hpre ht hon (by simp only [hc])]
  rfl

end

end Sys2Proof.Machine

namespace Sys2Proof
open Machine

/-- Settles O3: the four instructions are one unit (`exec_division`), which completes where each divisor is found not 0 and else faults at the
first that is. -/
theorem divisionResults : Obligations.DivisionResults := by
  intro s st g d a b h uni i f hi val act divides faults
  have hexec : exec i s = s.valueUnit uni d fun _ => divided f a b := exec_division s hi
  refine ⟨fun hfinds => ?_, fun k th hu hk ht hz => ?_, fun pre k post th hu hl hpre ht hon hz => ?_⟩
  · exact hexec.trans (State.valueUnit_met h uni d _ val divides (fun _ _ => divided_ok) hfinds)
  · rw [hu] at hexec
    exact hexec.trans (State.valueUnit_faults_first h hk ht (divided_zero hz))
  · rw [hu] at hexec
    exact hexec.trans (State.valueUnit_faults_turn h hl (fun _ _ => divided_ok) hpre ht hon (divided_zero hz))

end Sys2Proof
end

section
/-! The register-immediate and the 64-bit instructions (R174, R175). -/

namespace Sys2Proof
open Machine

/-- Settles O4: B is the immediate's value (`immValue_eq`); a pair read and written is a number modulo 2^64 (`rd64_eq_ofInt`,
`words64_ofInt`). -/
theorem immediateAndPairResults : Obligations.ImmediateAndPairResults := by
  refine ⟨fun s st g d a imm h => ?_, fun s st g d a b sh h => ?_⟩
  · intro B gives
    have hB : immValue st.imm imm = B := immValue_eq st.imm imm
    have unit {i : Instr} {f : Machine.Stream → Word → Word → Word} {f' : Word → Word} (he : exec i s = s.intImm d a imm f)
        (hf : ∀ A, f st A B = f' A) : gives i f' := State.gives_of_intImm h he (hB ▸ hf)
    have hmovi : s.Gives (.movi d imm) st g d.isG d (fun _ _ => [B]) :=
      State.gives_of_words h (rfl : execMovi d imm s = _) fun _ _ => congrArg (fun x => [x]) hB
    have hshift : B.toNat < 32 → shiftOf B = B.toNat := Nat.mod_eq_of_lt
    clear_value gives B
    exact ⟨unit (rfl : execAddImm d a imm s = _) fun _ => satIf_eq_clamped st _,
      unit (rfl : execMulImm d a imm s = _) fun _ => satIf_eq_clamped st _,
      unit (rfl : execAndImm d a imm s = _) fun _ => rfl,
      unit (rfl : execOrImm d a imm s = _) fun _ => rfl,
      unit (rfl : execXorImm d a imm s = _) fun _ => rfl,
      fun hlt => unit (rfl : execShlImm d a imm s = _) fun A => by rw [shiftLeft_eq_ofNat, hshift hlt],
      fun hlt => unit (rfl : execShrImm d a imm s = _) fun A => by rw [ushiftRight_eq_ofNat, hshift hlt], hmovi⟩
  · intro P pair three two
    have hP (g : Machine.Group) (th : Thread) (o : Opnd) : rd64 g th o = BitVec.ofInt 64 (P g th o) := rd64_eq_ofInt g th o
    have unit3 {i : Instr} {val : Machine.Group → Thread → BitVec 64} {f : Machine.Group → Thread → Int}
        (he : exec i s = s.valueUnit (d.isG && a.isG && b.isG) d fun _ g th => .ok (words64 (val g th)))
        (hf : ∀ g th, val g th = BitVec.ofInt 64 (f g th)) : three i f := State.gives_of_words64 h he hf
    have unit2 {i : Instr} {val : Word → BitVec 64} {f : Word → Int}
        (he : exec i s = s.valueUnit (d.isG && a.isG) d fun _ g th => .ok (words64 (val (rd g th a))))
        (hf : ∀ A, val A = BitVec.ofInt 64 (f A)) : two i f := State.gives_of_words64 h he fun _ _ => hf _
    clear_value three two P
    exact ⟨unit3 (rfl : execAdd64 d a b s = _) fun _ _ => by rw [hP, hP, BitVec.ofInt_add],
      unit3 (rfl : execSub64 d a b s = _) fun _ _ => by rw [hP, hP, ofInt_sub],
      unit3 (rfl : execMul64 d a b s = _) fun _ _ => by rw [hP, hP, BitVec.ofInt_mul],
      unit3 (rfl : execLea sh d a b s = _) fun _ _ => by
        rw [hP, BitVec.ofInt_add, BitVec.ofInt_mul, ← BitVec.ofInt_natCast, Nat.cast_pow]; rfl,
      unit2 (val := fun A => (A.extractLsb' 0 8).signExtend 64) (rfl : execSextS8 d a s = _) fun A => by
        rw [BitVec.setWidth_eq_extractLsb' (by decide)]; rfl,
      unit2 (val := fun A => (A.extractLsb' 0 16).signExtend 64) (rfl : execSextS16 d a s = _) fun A => by
        rw [BitVec.setWidth_eq_extractLsb' (by decide)]; rfl,
      unit2 (val := fun A => A.signExtend 64) (rfl : execSextS32 d a s = _) fun _ => rfl,
      unit2 (val := fun A => (A.extractLsb' 0 8).zeroExtend 64) (rfl : execZextN8 d a s = _) fun A => extractLsb'_zeroExtend_eq_ofInt A 8,
      unit2 (val := fun A => (A.extractLsb' 0 16).zeroExtend 64) (rfl : execZextN16 d a s = _) fun A => extractLsb'_zeroExtend_eq_ofInt A 16,
      unit2 (val := fun A => A.zeroExtend 64) (rfl : execZextN32 d a s = _) fun A => by
        rw [BitVec.ofInt_natCast, BitVec.ofNat_toNat]⟩

end Sys2Proof
end

section
/-! Compares, predicate operations and votes (R176 to R180). -/

namespace Sys2Proof.Machine

theorem isNaN32_eq (w : Word) : isNaN32 w = decide (w.toNat % 2 ^ 31 > 0x7F800000) := rfl

theorem order32_eq (w : Word) : order32 w = if w.toNat < 2 ^ 31 then (w.toNat : Int) else -((w.toNat - 2 ^ 31 : Nat) : Int) := by
  unfold order32
  split
  · next h => rw [if_neg (Nat.not_lt.mpr h)]
  · next h => rw [if_pos (Nat.not_le.mp h)]

/-- A relation that is false where an operand is a NaN. -/
theorem ite_nan_false (x y r : Bool) : (if (x || y) = true then false else r) = (!x && !y && r) := by
  cases x <;> cases y <;> rfl

/-- A relation that is true where an operand is a NaN. -/
theorem ite_nan_true (x y r : Bool) : (if (x || y) = true then true else !r) = !(!x && !y && r) := by
  cases x <;> cases y <;> rfl

/-! ## Votes (R180) -/

theorem voteSet_eq_filter (st : Stream) (g : Group) (pa : PSrc) :
    voteSet st g pa = st.threads.filter fun u => (g.thread? u).any fun th => rdPSrc th pa :=
  List.filter_congr fun u _ => by cases g.thread? u <;> rfl

theorem voteSet_any (st : Stream) (g : Group) (pa : PSrc) :
    (!(voteSet st g pa).isEmpty) = st.threads.any fun u => (g.thread? u).any fun th => rdPSrc th pa := by
  rw [voteSet_eq_filter, Bool.eq_iff_iff, Bool.not_eq_true', List.isEmpty_eq_false_iff, Ne, List.filter_eq_nil_iff, List.any_eq_true]
  push Not
  rfl

theorem voteSet_all (st : Stream) (g : Group) (pa : PSrc) :
    ((voteSet st g pa).length == st.threads.length) = st.threads.all fun u => (g.thread? u).any fun th => rdPSrc th pa := by
  rw [Bool.eq_iff_iff, beq_iff_eq, voteSet_eq_filter, List.length_filter_eq_length_iff, List.all_eq_true]

section
variable {s : State} {st : Stream} {g : Group} {i : Instr} {pd : BitVec 3} (h : s.Issues st g)
include h

/-- A unit that writes one predicate of each executing thread. -/
theorem exec_predUnit {f : Stream → Group → Thread → Bool} {f' : Group → Thread → Bool} (he : exec i s = s.predUnit pd f)
    (hf : ∀ g th, f st g th = f' g th) : exec i s = .next (s.after st
      (inTurn st (fun g k th => g.updThread k fun x => wrP x pd (f' g th)) st.threads g)) := by
  obtain rfl : f st = f' := funext fun g => funext fun th => hf g th
  exact he.trans (State.predUnit_ok h pd f)

/-- A unit whose value for every thread is known as it begins. -/
theorem State.onStream_turns (act : Stream → Group → Group → Nat → Thread → Group) :
    (s.onStream fun st g => s.settle st (runRegs st (fun x k th => .ok (act st g x k th)) st.threads g)) =
      .next (s.after st (inTurn st (act st g) st.threads g)) := by
  rw [State.onStream_issues h, runRegs_ok, State.settle_ok]

/-- An integer compare (R177). -/
theorem exec_icmp {a b : Opnd} {f f' : Word → Word → Bool} (he : exec i s = s.icmp pd a b f) (hf : ∀ A B, f A B = f' A B) :
    exec i s = .next (s.after st (inTurn st (fun g k th => g.updThread k fun x => wrP x pd (f' (rd g th a) (rd g th b))) st.threads g)) :=
  exec_predUnit h (f := fun _ g th => f (rd g th a) (rd g th b)) he fun _ _ => hf ..

/-- A float compare (R177). -/
theorem exec_fcmp {a b : Opnd} {nan : Bool} {f : Int → Int → Bool} {f' : Word → Word → Bool} (he : exec i s = s.fcmp pd a b nan f)
    (hf : ∀ A B, (if (isNaN32 A || isNaN32 B) = true then nan else f (order32 A) (order32 B)) = f' A B) :
    exec i s = .next (s.after st (inTurn st (fun g k th => g.updThread k fun x => wrP x pd (f' (rd g th a) (rd g th b))) st.threads g)) :=
  exec_predUnit h (f := fun _ g th => if (isNaN32 (rd g th a) || isNaN32 (rd g th b)) = true then nan
    else f (order32 (rd g th a)) (order32 (rd g th b))) he fun _ _ => hf ..

end

end Sys2Proof.Machine

namespace Sys2Proof
open Machine

/-- Settles O5: a compare and a predicate operation write each executing thread's predicate; a vote is taken over the threads whose source is
true (`voteSet_eq_filter`). -/
theorem compareAndPredicateResults : Obligations.CompareAndPredicateResults := by
  refine ⟨fun s st g pd a b h => ?_, fun s st g pd pa pb o h => ?_, fun s st g pd pa d h => ?_⟩
  · intro gives nan ord num
    have hnan (A : Word) : isNaN32 A = nan A := isNaN32_eq A
    have hord (A : Word) : order32 A = ord A := order32_eq A
    have icmp {i : Instr} {f f' : Word → Word → Bool} (he : exec i s = s.icmp pd a b f) (hf : ∀ A B, f A B = f' A B) : gives i f' :=
      exec_icmp h he hf
    have ordered {i : Instr} {r : Int → Int → Bool} (he : exec i s = s.fcmp pd a b false r) :
        gives i fun A B => num A B && r (ord A) (ord B) :=
      exec_fcmp h (f' := fun A B => num A B && r (ord A) (ord B)) he fun A B => by rw [hnan, hnan, hord, hord]; exact ite_nan_false ..
    have unordered {i : Instr} {r : Int → Int → Bool} (he : exec i s = s.fcmp pd a b true fun x y => !r x y) :
        gives i fun A B => !(num A B && r (ord A) (ord B)) :=
      exec_fcmp h (f' := fun A B => !(num A B && r (ord A) (ord B))) he fun A B => by rw [hnan, hnan, hord, hord]; exact ite_nan_true ..
    have hun : gives (.fcmpUnF32 pd a b) fun A B => nan A || nan B :=
      exec_fcmp h (f' := fun A B => nan A || nan B) (rfl : execFcmpUnF32 pd a b s = _) fun A B => by rw [hnan, hnan]; cases nan A <;> cases nan B <;> rfl
    have hordered : gives (.fcmpOrdF32 pd a b) num :=
      exec_fcmp h (f' := num) (rfl : execFcmpOrdF32 pd a b s = _) fun A B => by rw [hnan, hnan]; exact (ite_nan_false ..).trans (Bool.and_true _)
    clear_value gives nan ord num
    exact ⟨icmp (rfl : execIcmpEq pd a b s = _) fun _ _ => rfl,
      icmp (rfl : execIcmpNe pd a b s = _) fun _ _ => by simp [bne, Bool.beq_eq_decide_eq],
      icmp (rfl : execIcmpLtS32 pd a b s = _) fun _ _ => rfl,
      icmp (rfl : execIcmpLeS32 pd a b s = _) fun _ _ => rfl,
      icmp (rfl : execIcmpGtS32 pd a b s = _) fun _ _ => rfl,
      icmp (rfl : execIcmpGeS32 pd a b s = _) fun _ _ => rfl,
      icmp (rfl : execIcmpLtN32 pd a b s = _) fun _ _ => rfl,
      icmp (rfl : execIcmpLeN32 pd a b s = _) fun _ _ => rfl,
      icmp (rfl : execIcmpGtN32 pd a b s = _) fun _ _ => rfl,
      icmp (rfl : execIcmpGeN32 pd a b s = _) fun _ _ => rfl,
      ordered (r := fun x y => decide (x = y)) (rfl : execFcmpEqF32 pd a b s = _),
      unordered (r := fun x y => decide (x = y)) (rfl : execFcmpNeF32 pd a b s = _),
      ordered (r := fun x y => decide (x < y)) (rfl : execFcmpLtF32 pd a b s = _),
      ordered (r := fun x y => decide (x ≤ y)) (rfl : execFcmpLeF32 pd a b s = _),
      ordered (r := fun x y => decide (x > y)) (rfl : execFcmpGtF32 pd a b s = _),
      ordered (r := fun x y => decide (x ≥ y)) (rfl : execFcmpGeF32 pd a b s = _), hun, hordered⟩
  · intro gives src
    have unit {i : Instr} {f : Thread → Bool} (he : exec i s = s.predUnit pd fun _ _ th => f th) : gives i f :=
      exec_predUnit h (f' := fun _ => f) he fun _ _ => rfl
    refine ⟨unit (rfl : execPand pd pa pb s = _), unit (rfl : execPor pd pa pb s = _), unit (rfl : execPxor pd pa pb s = _),
      unit (rfl : execPnot pd pa s = _), ?_, ?_⟩
    · simp only [BitVec.ofNat_toNat]
      exact State.regsUnit_ok h fun _ g k th => wr g k o (th.p.zeroExtend 32)
    · simp only [BitVec.ofNat_toNat]
      exact State.regsUnit_ok h fun _ g k th => g.updThread k fun x => { x with p := (rd g th o).extractLsb' 0 7 }
  · intro yes gives
    have vote (i : Instr) (v : Machine.Stream → Machine.Group → Bool) (he : exec i s = s.onStream fun st g => s.settle st
        (runRegs st (fun x k _ => .ok (x.updThread k fun y => wrP y pd (v st g))) st.threads g)) : gives i (v st g) :=
      he.trans (State.onStream_turns h fun st g x k _ => x.updThread k fun y => wrP y pd (v st g))
    refine ⟨?_, ?_, maskOf (voteSet st g pa), fun u hu => ?_, ?_⟩
    · rw [← voteSet_any]
      exact vote (.voteAny pd pa) (fun st g => !(voteSet st g pa).isEmpty) (rfl : execVoteAny pd pa s = _)
    · rw [← voteSet_all]
      exact vote (.voteAll pd pa) (fun st g => (voteSet st g pa).length == st.threads.length) (rfl : execVoteAll pd pa s = _)
    · rw [Bool.eq_iff_iff, getLsbD_maskOf hu, voteSet_eq_filter, List.mem_filter, Bool.and_eq_true, List.contains_iff_mem]
    · exact State.onStream_turns h fun st g x k _ => wr x k d (maskOf (voteSet st g pa))

end Sys2Proof
end

section
/-! Calls and returns on a stream of one executing thread (R163 to R165, R223). -/

namespace Sys2Proof.Machine

/-! ## The return stack (R164, R165) -/

theorem topEntry_none {k : Nat} {l : List RetEntry} (h : ∀ x ∈ l, x.mask.getLsbD k = false) : topEntry k l = none := by
  rw [topEntry, List.getLast?_eq_none_iff, List.filter_eq_nil_iff]
  exact fun x hx => Bool.eq_false_iff.mp (h x hx)

section
variable {k : Nat} {below above : List RetEntry} {e : RetEntry} (he : e.mask.getLsbD k = true) (habove : ∀ x ∈ above, x.mask.getLsbD k = false)
include he habove

theorem topEntry_split : topEntry k (below ++ e :: above) = some e := by
  have hnil : above.filter (fun x => bitAt x.mask k) = [] := List.filter_eq_nil_iff.mpr fun x hx => Bool.eq_false_iff.mp (habove x hx)
  have hone : (e :: above).filter (fun x => bitAt x.mask k) = [e] := by
    rw [List.filter_cons_of_pos (by exact he), hnil]
  rw [topEntry, List.filter_append, hone, List.getLast?_concat]

/-- Only the topmost entry that holds the thread changes. -/
theorem dropTop_split : dropTop k (below ++ e :: above) = below ++
    (if e.mask &&& ~~~(1#32 <<< k) = 0#32 then above else { e with mask := e.mask &&& ~~~(1#32 <<< k) } :: above) := by
  induction below with
  | nil =>
    have hnone : above.any (fun x => bitAt x.mask k) = false := List.any_eq_false.mpr fun x hx => Bool.eq_false_iff.mp (habove x hx)
    have hbit : bitAt e.mask k = true := he
    simp only [List.nil_append, dropTop, hnone, hbit, Bool.false_eq_true, if_false, if_true]
  | cons x r ih =>
    have hany : (r ++ e :: above).any (fun x => bitAt x.mask k) = true := List.any_eq_true.mpr ⟨e, by simp, he⟩
    rw [List.cons_append, dropTop, if_pos hany, ih, List.cons_append]

end

section
variable {s : State} {st : Stream} {g : Group} {k : Nat} {th : Thread} {own : Bind}

/-- The entry of a call: the fall-through address and the thread's own binding (R164). -/
def Stream.callEntry (st : Stream) (k : Nat) (th : Thread) (own : Bind) : RetEntry :=
  ⟨st.last + 4#32, own.id, own.gen, th.copy, th.start, 1#32 <<< k⟩

theorem State.pushCall_room (hg : s.group? st.grp = some g) (hroom : g.rstack.length < 8) (hown : s.bindOf g th = some own) :
    s.pushCall st k g.rstack.length th =
      some (s.updGroup st.grp fun g => { g with rstack := g.rstack ++ [st.callEntry k th own] }) := by
  simp only [State.pushCall, hg, hown, gt_iff_lt, lt_irrefl, if_false, ge_iff_le, Nat.not_le.mpr hroom]
  rfl

theorem State.pushCall_full (hg : s.group? st.grp = some g) (hfull : 8 ≤ g.rstack.length) : s.pushCall st k g.rstack.length th = none := by
  simp only [State.pushCall, hg, gt_iff_lt, lt_irrefl, if_false, ge_iff_le, hfull, if_true]

/-! ## The calls -/

/-- A call with its entry pushed transfers the thread; one that finds no room is overlay fault (R164). -/
def State.called (s : State) (pushed : Option State) (go : State → State) : SRes :=
  match pushed with
  | none => .plain s 0x06#8
  | some t => .leave (go t)

/-- What `CALL` is for a thread whose target is a header (R163, R164). -/
theorem exec_call_lands {kp : Copy} {off : BitVec 19} (h : s.IssuesOne st g k th) (hk : (s.core st.core).copy? th.copy = some kp)
    (hl : kp.Lands th.start (st.jump off)) : exec (.call off) s = .next ((s.called (s.pushCall st k g.rstack.length th) fun t =>
      t.updThread st.grp k fun x => { x with vpc := st.jump off }).settled st k) := by
  show execCall off s = _
  rw [execCall, State.onStream_issues h.1, Stream.target_eq_jump]
  refine congrArg Host.Outcome.next ((runEach_one h _).trans ?_)
  rw [State.checkTarget_lands hk hl]
  rfl

/-- The overlay that holds an address of the image is resident (R163 item 2, R185). -/
theorem State.reach_resident {s1 : State} {gr : Grid} {inTrap : Bool} {img : Image} {a : Nat} {e : OvEntry} {kp : Copy} {b : Bind}
    (himg : s.imageOf gr inTrap = some img) (hfind : s.searchTable g.core g.ctx 0 (fun x => x.holds a) img.count img.table = (s1, .found e))
    (hbound : (s1.core g.core).bound? g.ctx img.base e.id = some (kp, b)) (go : State → Copy → Bind → SRes) :
    s.reach g gr k inTrap a go = go s1 kp b := by
  simp only [State.reach, himg, hfind, hbound]

/-- `CALLX` into a resident overlay, at a header of it (R163 item 2, R164, R223). -/
theorem exec_callx_resident {s1 : State} {gr : Grid} {img : Image} {e : OvEntry} {kp : Copy} {b : Bind} {off : BitVec 19}
    (h : s.IssuesOne st g k th) (hgr : s.grid? g.grid = some gr) (himg : s.imageOf gr th.inTrap = some img)
    (hfind : s.searchTable g.core g.ctx 0 (fun x => x.holds (st.jump off).toNat) img.count img.table = (s1, .found e))
    (hbound : (s1.core g.core).bound? g.ctx img.base e.id = some (kp, b)) (hl : kp.Lands b.start (st.jump off)) :
    exec (.callx off) s = .next ((s1.called (s1.pushCall st k g.rstack.length th) fun t =>
      (t.goto st.grp k (st.jump off) kp b).enterCopy st.core kp.id).settled st k) := by
  show execCallx off s = _
  obtain ⟨w, hw, hheader⟩ := hl.word?
  rw [execCallx, State.onStream_issues h.1, Stream.target_eq_jump]
  refine congrArg Host.Outcome.next ((runEach_one h _).trans ?_)
  simp only [h.1.2, hgr, State.reach_resident himg hfind hbound, hw, hheader, Bool.not_true, Bool.false_eq_true, if_false]
  rfl

/-! ## The return -/

theorem exec_ret_unheld (h : s.IssuesOne st g k th) (hnone : ∀ x ∈ g.rstack, x.mask.getLsbD k = false) : exec .ret s =
    .next ((s.takeFault st.grp k ⟨0x06#8, 0#10, st.unit, 0#64⟩ false st.unit).advance st []) := by
  show execRet s = _
  rw [execRet, State.perThread_one h]
  simp only [h.1.2, topEntry_none hnone]
  rfl

/-- `RET` by the thread's topmost entry, whose copy is on the core and whose address is a header (R165). -/
theorem exec_ret_lands {e : RetEntry} {kp : Copy} (h : s.IssuesOne st g k th) (htop : topEntry k g.rstack = some e)
    (hk : (s.core g.core).copy? e.copy = some kp) (hl : kp.Lands e.start e.ret) : exec .ret s =
      .next ((((s.updGroup st.grp fun g => { g with rstack := dropTop k g.rstack }).updThread st.grp k fun x =>
        { x with vpc := e.ret, copy := e.copy, start := e.start, ov := (e.ident, e.gen) }).enterCopy st.core e.copy).advance st []) := by
  show execRet s = _
  obtain ⟨w, hw, hheader⟩ := hl.word?
  obtain ⟨⟨hlo, hhi⟩, -⟩ := hl
  have hid : kp.id = e.copy := by simpa using List.find?_some hk
  have hin : (decide (e.ret.toNat < e.start) || decide (e.start + kp.slots * 4096 ≤ e.ret.toNat)) = false := by
    simpa using And.intro hlo hhi
  rw [execRet, State.perThread_one h]
  simp only [h.1.2, htop, State.seekCopy, hk, hin, hw, hheader, hid, Bool.not_true, Bool.false_eq_true, if_false]
  rfl

end

end Sys2Proof.Machine

namespace Sys2Proof
open Machine

/-- Settles O8: the calls once their target is good, by the room on the stack; the return by the thread's topmost entry. -/
theorem callsAndReturns : Obligations.CallsAndReturns := by
  refine ⟨fun s st g k th kp own off h hk hown hl => ⟨fun hroom => ?_, fun hfull => ?_⟩, ?_, fun s st g k th h =>
    ⟨exec_ret_unheld h, fun below above e kp hstack hbit habove hk hl => ⟨?_, ?_⟩⟩⟩
  · rw [exec_call_lands h hk hl, State.pushCall_room h.1.2 hroom hown]
    rfl
  · rw [exec_call_lands h hk hl, State.pushCall_full h.1.2 hfull]
    rfl
  · intro s s1 st g k th gr img e kp b own off h hgr himg hfind hg1 hbound hl hroom hown
    rw [exec_callx_resident h hgr himg hfind hbound hl, State.pushCall_room hg1 hroom hown]
    rfl
  · rw [hstack]
    exact dropTop_split hbit habove
  · exact exec_ret_lands h (hstack ▸ topEntry_split hbit habove) hk hl

end Sys2Proof
end

section
/-! `TRAP`, `BRK` and `RTI` on a stream of one executing thread (R183 to R185). -/

namespace Sys2Proof.Machine

variable {s : State} {st : Stream} {g : Group} {k : Nat} {th : Thread} (h : s.IssuesOne st g k th)
include h

/-- A unit that takes its exception with a number, and resumes after the unit (R183, R184). -/
theorem exec_numbered {i : Instr} {code : BitVec 8} {n : BitVec 10} (he : exec i s = s.perThread fun _ s _ _ => .fault s code n 0#64 true) :
    exec i s = .next ((s.takeFault st.grp k ⟨code, n, st.unit, 0#64⟩ false (st.unit + 4#32)).advance st []) :=
  he.trans (State.perThread_one h _)

/-- `RTI` inside the handler, before the thread's way back is looked for (R185). -/
theorem exec_rti_inTrap {gr : Grid} (hgr : s.grid? g.grid = some gr) (hin : th.inTrap = true) : exec .rti s = .next (
    (if th.xpc.toNat % 4 ≠ 0 then SRes.plain s 0x04#8 else s.reach g gr k false th.xpc.toNat fun s kp b => .leave ((s.updThread st.grp k fun x =>
      { x.enter kp b with inTrap := false, vpc := x.xpc, noBreak := true, due := x.kept.filter fun r => r.unit == x.xpc,
                          kept := none }).enterCopy g.core kp.id)).settled st k) := by
  show execRti s = _
  rw [execRti, State.perThread_one h]
  simp only [State.returnTrap, h.1.2, h.2.2.1, hgr, hin, Bool.not_true, Bool.false_eq_true, if_false]

end Sys2Proof.Machine

namespace Sys2Proof
open Machine

/-- Settles O10: an exception taken outside the handler enters it (`State.takeFault_ready`); the return reaches XPC's overlay. -/
theorem trapInstructions : Obligations.TrapInstructions := by
  refine ⟨fun s st g k th gr entry kp b n h hready hout => ?_, fun s s1 st g k th gr img e kp b h hgr hin => ⟨fun hmis => ?_, ?_⟩⟩
  · intro enters
    have enter {i : Instr} (code : BitVec 8) (he : exec i s = s.perThread fun _ s _ _ => .fault s code n 0#64 true) : enters i code.toNat := by
      show exec i s = _
      rw [exec_numbered h he, State.takeFault_ready h.1.2 h.2.2.1 hready hout]
      rfl
    exact ⟨enter 0x40#8 (rfl : execTrap n s = _), enter 0x41#8 (rfl : execBrk n s = _)⟩
  · rw [exec_rti_inTrap h hgr hin, if_pos hmis]
    rfl
  · intro hal himg hfind hbound
    rw [exec_rti_inTrap h hgr hin, if_neg (not_not.mpr hal), State.reach_resident himg hfind hbound]
    rfl

end Sys2Proof
end
